-- ==== Sys2Proof/Word.lean ====
section
/-!
DEFINITION. The words of the machine and their plainest arithmetic, and the sparse store: the one form in which
memories and register files are held. A store is a list of (key, value) pairs whose keys rise strictly and whose
values are never zero, so that equal contents are equal lists.
-/

namespace Sys2Proof

abbrev Byte := BitVec 8
/-- A lane register's word in one lane. -/
abbrev W32 := BitVec 32
/-- A scalar register. -/
abbrev W64 := BitVec 64
/-- A cache line of 128 bytes, byte k in bits [8k + 7:8k]. -/
abbrev LineData := BitVec 1024
/-- A mask over the 32 lanes. -/
abbrev Mask := BitVec 32

/-- Keys with non-zero values, keys strictly rising. A key not listed holds zero. -/
abbrev Store (w : Nat) := List (Nat × BitVec w)

namespace Store

/-- The value at a key. -/
def get {w : Nat} : Store w → Nat → BitVec w
  | [], _ => 0#w
  | (k, v) :: rest, a => if a = k then v else get rest a

/-- The store with key `a` holding `x`. -/
def set {w : Nat} : Store w → Nat → BitVec w → Store w
  | [], a, x => if x = 0#w then [] else [(a, x)]
  | (k, v) :: rest, a, x =>
    if a = k then set rest a x
    else if x ≠ 0#w ∧ a < k then (a, x) :: (k, v) :: rest
    else (k, v) :: set rest a x

/-- Every key is above `b` and the keys rise; no value is zero. -/
def wfAbove {w : Nat} : Option Nat → Store w → Bool
  | _, [] => true
  | b, (k, v) :: rest =>
    (match b with | none => true | some n => decide (n < k)) && decide (v ≠ 0#w) && wfAbove (some k) rest

/-- The canonical form. -/
def wf {w : Nat} (m : Store w) : Bool := wfAbove none m

/-- Write a list of (key, value) pairs from left to right. -/
def setAll {w : Nat} (m : Store w) : List (Nat × BitVec w) → Store w
  | [] => m
  | (k, v) :: rest => setAll (m.set k v) rest

end Store

/-- Bits [31:0]. -/
def lo32 (x : W64) : W32 := x.truncate 32
/-- Bits [63:32]. -/
def hi32 (x : W64) : W32 := (x >>> 32).truncate 32
/-- A pair of words as one doubleword, low word first. -/
def pair64 (lo hi : W32) : W64 := hi ++ lo
/-- `SignExtend(x, 32)` widened to 64 bits. -/
def sext64 (x : W32) : W64 := x.signExtend 64
/-- `ZeroExtend(x, 32)` widened to 64 bits. -/
def zext64 (x : W32) : W64 := x.zeroExtend 64

/-- Bit `l` of a lane mask. -/
def Mask.has (m : Mask) (l : Nat) : Bool := m.getLsbD l

/-- The mask of the lanes for which `p` holds. -/
def Mask.of (p : Nat → Bool) : Mask :=
  (List.range 32).foldl (fun m l => if p l then m ||| (1#32 <<< l) else m) 0#32

/-- The lanes of a mask, rising. -/
def Mask.lanes (m : Mask) : List Nat := (List.range 32).filter (fun l => m.getLsbD l)

/-- The number of ones. -/
def popCount {w : Nat} (x : BitVec w) : Nat := (List.range w).foldl (fun n i => if x.getLsbD i then n + 1 else n) 0

/-- The number of zeros above the highest one; the width if there is none. -/
def leadZeros {w : Nat} (x : BitVec w) : Nat := if x = 0#w then w else w - 1 - Nat.log2 x.toNat

/-- The number of zeros below the lowest one; the width if there is none. -/
def trailZeros {w : Nat} (x : BitVec w) : Nat :=
  ((List.range w).find? (fun i => x.getLsbD i)).getD w

/-- Bit i moved to bit 31 − i. -/
def bitReverse (x : W32) : W32 := (List.range 32).foldl (fun r i => if x.getLsbD i then r ||| (1#32 <<< (31 - i)) else r) 0#32

/-- The bytes of a word, lowest first (00:R5, little-endian). -/
def toBytes {w : Nat} (n : Nat) (x : BitVec w) : List Byte :=
  (List.range n).map (fun k => (x >>> (8 * k)).truncate 8)

/-- A word from bytes, lowest first. -/
def ofBytes (w : Nat) : List Byte → BitVec w
  | [] => 0#w
  | b :: rest => b.zeroExtend w ||| (ofBytes w rest <<< 8)

/-- Element `n` of a list with one element replaced; a position beyond the end changes nothing. -/
def listPut {α : Type} (l : List α) (n : Nat) (x : α) : List α := l.set n x

end Sys2Proof
end

