-- ==== Sys2Proof/Syntax.lean ====
section
/-!
DEFINITION. The instructions of Uliub v3 and the steps of the part, as syntax: one constructor for each row of
spec/opcode_table.json. Scalar and lane instructions carry their operands; the steps of the
memory side, the engines, dispatch, Welhal, the driver, the host and the debugger carry what their message or
command names.

The order of the constructors says nothing: instructions first, then the steps that the machine's own parts post.
-/

namespace Sys2Proof

/-- A scalar register s0 to s31. -/
abbrev SReg := BitVec 5
/-- A lane register v0 to v191; a number of 192 or above is ill-formed. -/
abbrev VReg := BitVec 8
/-- A predicate p0 to p7. -/
abbrev Pred := BitVec 3

/-- The scopes of 00:R4. -/
inductive Scope where
  | team | quad | die | pkg | sys
  deriving DecidableEq, Repr

/-- The ordering field of an atomic (03:R70). -/
inductive Order where
  | rlx | acq | rel | ar
  deriving DecidableEq, Repr

/-- A guard: no predicate named and not negated means unconditional (01:R19). -/
structure Guard where
  neg : Bool
  p : Pred
  deriving DecidableEq, Repr

/-- The constants of 01:R22, indices 224 to 230. -/
inductive ConstSrc where
  | zero | one | lane | warp | team | em | live
  deriving DecidableEq, Repr

/-- A value source: a lane register with its mode bit, a uniform scalar, a constant, or a channel (01:R22, R24). -/
inductive Value where
  | reg (n : VReg) (trapEmpty : Bool)
  | uni (n : SReg)
  | con (k : ConstSrc)
  | chan (n : BitVec 4) (peek : Bool)
  deriving DecidableEq, Repr

/-- A register destination: a lane register, or a channel; channel 15 is the SRQ (01:R22, R24). -/
inductive Dest where
  | reg (n : VReg)
  | chan (n : BitVec 4)
  deriving DecidableEq, Repr

/-- Whether a word stands alone or is a half of a pair (03:R68, R73). -/
inductive Half where
  | single | x | y
  deriving DecidableEq, Repr

/-- The rounding modes (03:R71). -/
inductive Rnd where
  | rn | rz | rd | ru | sr
  deriving DecidableEq, Repr

/-- The floating-point formats (07:R137). -/
inductive FFmt where
  | f32 | f16 | bf16 | e4m3 | e5m2 | e2m1
  deriving DecidableEq, Repr

/-- The integer types of a conversion (03:R65). -/
inductive IFmt where
  | i32 | u32 | i8 | u8 | i16 | u16 | i64
  deriving DecidableEq, Repr

/-- The selector of BSWZ: its bits [19:0] in the word, or a value (06:R119). -/
inductive Selector where
  | imm (sel : BitVec 20)
  | val (c : Value)
  deriving DecidableEq, Repr

/-- What PACK has beyond its two sources: nothing for 16-bit formats, the other bytes and the half for FP8 (08:R171). -/
inductive PackRest where
  | none
  | fp8 (c : Value) (half : Bool)
  deriving DecidableEq, Repr

/-- The conditions of ICMP (04:R82). -/
inductive ICond where
  | eq | ne | lt | le | gt | ge | ltu | leu | gtu | geu
  deriving DecidableEq, Repr

/-- The conditions of FCMP (04:R82). -/
inductive FCond where
  | eq | ne | lt | le | gt | ge | un | ord
  deriving DecidableEq, Repr

/-- The modes of SHFL (04:R82). -/
inductive ShflMode where
  | idx | up | dn | xor
  deriving DecidableEq, Repr

/-- The kinds of VOTE (04:R82). -/
inductive VoteKind where
  | any | all | bal | eq
  deriving DecidableEq, Repr

/-- The operators of LRED and LSCAN with their type or rounding (06:R117, R133). -/
inductive RedOp where
  | add
  | min (u : Bool)
  | max (u : Bool)
  | and | or | xor
  | fadd (r : Rnd)
  | fmin | fmax
  deriving DecidableEq, Repr

/-- Memory access sizes B, H, W, D and Q (03:R70). -/
inductive MemSize where
  | b | h | w | d | q
  deriving DecidableEq, Repr

/-- The number of bytes of a size (10:R191). -/
def MemSize.bytes : MemSize → Nat
  | .b => 1 | .h => 2 | .w => 4 | .d => 8 | .q => 16

/-- The lane registers a value of a size takes (10:R191). -/
def MemSize.regs : MemSize → Nat
  | .b => 1 | .h => 1 | .w => 1 | .d => 2 | .q => 4

/-- The scale of the memory layout (03:R70). -/
inductive Scale where
  | x1 | x2 | x4 | x8 | x16
  deriving DecidableEq, Repr

def Scale.mul : Scale → Nat
  | .x1 => 1 | .x2 => 2 | .x4 => 4 | .x8 => 8 | .x16 => 16

/-- The scale of the atomic layout (03:R70). -/
inductive AScale where
  | x1 | x4 | x8 | x16
  deriving DecidableEq, Repr

def AScale.mul : AScale → Nat
  | .x1 => 1 | .x4 => 4 | .x8 => 8 | .x16 => 16

/-- The policies (03:R70). -/
inductive Policy where
  | l1 | h | s
  deriving DecidableEq, Repr

/-- The operations of an atomic (03:R70). -/
inductive AtomOp where
  | add | and | or | xor | min | max | minu | maxu | swp | fadd
  deriving DecidableEq, Repr

/-- A team of a launch: Welhal's launch number and the team index. -/
structure TeamKey where
  launch : Nat
  team : Nat
  deriving DecidableEq, Repr

/-- A warp of a team. -/
structure WarpKey where
  launch : Nat
  team : Nat
  warp : Nat
  deriving DecidableEq, Repr

def WarpKey.teamKey (k : WarpKey) : TeamKey := ⟨k.launch, k.team⟩

/-- What a load request is for (09:R175; 10:R203). -/
inductive LoadUse where
  /-- a fill that the lane stream, or the scalar stream, waits for -/
  | demand (lane : Bool)
  /-- a prefetch into the L1 -/
  | prefL1
  /-- a prefetch into the home slice -/
  | prefHome
  deriving DecidableEq, Repr

/-- A load request of a warp for one line. -/
structure LoadReq where
  who : WarpKey
  /-- line number: intermediate address divided by 128 -/
  line : Nat
  use : LoadUse
  /-- the warp's count of BEGINs when the request left (10:R203) -/
  begins : Nat
  deriving DecidableEq, Repr

/-- A merged line that a home sends out for a push: its bytes, the writes of the line that they include, and whether it is
poisoned (09:R185; 17:R307). -/
structure PushedLine where
  bytes : LineData
  ver : W64
  poison : Bool
  deriving DecidableEq, Repr

/-- The pools that the driver gives a context: how many aggregate nodes (11:R216), and how many bytes for save areas
(20:R334). -/
structure Pools where
  nodes : Nat
  save : Nat
  deriving DecidableEq, Repr

/-- An atomic operation at DIE scope or wider that reaches a home from an agent. -/
structure AtomReq where
  ctx : Nat
  /-- the requester's die and quadrant, for the first touch -/
  die : Nat
  quad : Nat
  /-- intermediate address -/
  ia : Nat
  dbl : Bool
  /-- none: compare-and-swap -/
  op : Option AtomOp
  operand : W64
  expected : W64
  deriving DecidableEq, Repr

/-- The three queries of a range load (11:R230 to R232). -/
inductive RangeQuery where
  | lda (handle lo hi : Nat)
  | find (handle : Nat) (x : W32)
  | pick (handle : Nat) (r : W32)
  deriving DecidableEq, Repr

/-- Where a directory entry stands: at the line's home, or at the proxy of a die (17:R301). -/
inductive DirAt where
  | home
  | proxy (die : Nat)
  deriving DecidableEq, Repr

/-- A sharer, owner or requester of a directory entry: a core, by its number in the package, or the proxy of a
remote die. -/
inductive Node where
  | core (n : Nat)
  | die (d : Nat)
  deriving DecidableEq, Repr

/-- One die's part of Welhal's binding of a launch: the cores that may take teams and the team range (21:R343). -/
structure Bind where
  die : Nat
  mask : Mask
  first : Nat
  count : Nat
  deriving DecidableEq, Repr

/-- A die or a package that a declaration of death names (24:R388). -/
inductive FabricAgent where
  | die (d : Nat)
  | package (p : BitVec 12)
  deriving DecidableEq, Repr

/-- What a link does after a CRC error (24:R382). -/
inductive LinkOutcome where
  | retried
  | retrained
  /-- failed to retrain -/
  | failed
  deriving DecidableEq, Repr

/-- A firmware image as far as the boot ROM looks at it (25:R408). -/
structure FirmwareImage where
  digest : Nat
  /-- which of the four public keys signs it -/
  key : BitVec 2
  secVersion : Nat
  deriving DecidableEq, Repr

/-- What a Silrad STOP or RESUME is aimed at (25:R397). -/
inductive Target where
  | context (c : Nat)
  | team (t : TeamKey)
  | warp (w : WarpKey)
  deriving DecidableEq, Repr

/-- An item of a warp's state that Silrad READ and WRITE name (25:R397, R400). -/
inductive Item where
  | s (n : SReg)
  | v (n : VReg) (lane : BitVec 5)
  | p (k : Pred) (lane : BitVec 5)
  | em | live | spc | lpc | lbr | blocks | dseed | fpstat | retired | agstatus
  | recWord (n : Nat)
  | stall (n : BitVec 4)
  | trapSel
  /-- the full/empty bit and the poison bit of a lane register -/
  | full (n : VReg) | poisoned (n : VReg)
  /-- an entry of the SRQ, a channel entry in the layout of R267, and a lane of a queued message, the oldest at 0 -/
  | srq (k : BitVec 3)
  | chan (entry : BitVec 4)
  | message (entry : BitVec 4) (k : BitVec 2) (lane : BitVec 5)
  /-- word k of held block j, as a record holds it (01:R38) -/
  | block (j : BitVec 3) (k : Nat)
  /-- the image of a stopped or saved warp, and of its saved team (20:R334, R335) -/
  | image | teamImage
  deriving DecidableEq, Repr

/-- A watchpoint (25:R399). -/
structure WatchSpec where
  base : W64
  /-- log2 of the length, 2 to 20 -/
  log2len : Nat
  r : Bool
  w : Bool
  /-- true: trap; false: stop -/
  trap : Bool
  deriving DecidableEq, Repr

/-- A structure that management readback returns (25:R406). -/
inductive Readback where
  | rangeRegister (ctx k : Nat)
  | pageEntry (ctx page : Nat)
  | regionEntry (region : Nat)
  | directoryEntry (slice : DirAt) (line : Nat)
  | bindSlot (die slot : Nat)
  | groupRecord (ctx handle : Nat)
  | extent (ctx : Nat) (n : Nat)
  | warpImage (w : WarpKey)
  | pageRecord (page : Nat)
  /-- an entry of a deterministic launch's remap table (21:R351) -/
  | remapEntry (launch team : Nat)
  /-- the image of a saved team (20:R335) -/
  | teamImage (t : TeamKey)
  /-- a record of a team's task ring (13:R240) -/
  | taskRecord (t : TeamKey) (n : Nat)
  /-- an entry of the level-1 or level-2 table for an intermediate address (20:R320) -/
  | tableEntry (ctx level ia : Nat)
  /-- a ticket that waits for its answer (20:R325) -/
  | ticket (ctx n : Nat)
  deriving DecidableEq, Repr

/-- A host's operation: its memory key and, under ROD, the PDC that keeps its order; RUD and RUDI keep none (24:R391, R392). -/
structure HostOp where
  key : BitVec 32
  rod : Option Nat
  deriving DecidableEq, Repr

/-- A page that travels between packages: its bytes, and which of its 512 lines are poisoned (24:R386; 17:R307). -/
structure PageData where
  bytes : List Byte
  bad : List Nat
  deriving DecidableEq, Repr

/-- What every message carries of its source: its package, its die there and its incarnation (24:R388). -/
structure Stamp where
  package : BitVec 12
  die : Nat
  incarnation : BitVec 16
  deriving DecidableEq, Repr

/-- What another package answers: it returns a page that it has owned, or it has dropped one that it has shared (24:R385, R386). -/
inductive PageAnswer where
  | back (src : Stamp) (data : PageData)
  | dropped (src : Stamp)
  deriving DecidableEq, Repr

/-- What a patrol scrub has looked at (25:R407): a physical line of memory, a doubleword of a team's scratchpad, or a line of an L2
slice. -/
inductive Scrubbed where
  | memory (line : Nat)
  | scratch (t : TeamKey) (offset : Nat)
  | l2 (line : Nat)
  deriving DecidableEq, Repr

/-- What a message of a collective says of the operation, and its sender's group record: the members and waitms (22:R365, R366). -/
structure CollHead where
  key : Nat × Nat × Nat × Bool × W64
  members : List (BitVec 12 × Nat)
  waitms : Nat
  deriving DecidableEq, Repr

/-- What the collective engines of two packages send each other: a piece, a finished chunk, and a failure (22:R366 to R374). -/
inductive CollMsg where
  | piece (head : CollHead) (seed : W64) (xs : List W32)
  | result (head : CollHead) (xs : List W32)
  | failed (status : Nat)
  deriving DecidableEq, Repr

/-- One constructor per row of spec/opcode_table.json; the comment on a line gives the row and the rule. -/
inductive Instr where
  | add (w : Bool) (d a b : SReg)  -- ADD, 05:R91, R92
  | sub (w : Bool) (d a b : SReg)  -- SUB, 05:R91, R92
  | sAnd (w : Bool) (d a b : SReg)  -- AND, 05:R91, R92
  | sOr (w : Bool) (d a b : SReg)  -- OR, 05:R91, R92
  | sXor (w : Bool) (d a b : SReg)  -- XOR, 05:R91, R92
  | sAndn (w : Bool) (d a b : SReg)  -- ANDN, 05:R91, R92
  | sll (w : Bool) (d a b : SReg)  -- SLL, 05:R91, R92
  | srl (w : Bool) (d a b : SReg)  -- SRL, 05:R91, R92
  | sra (w : Bool) (d a b : SReg)  -- SRA, 05:R91, R92
  | mul (w : Bool) (d a b : SReg)  -- MUL, 05:R91, R92
  | mulh (w : Bool) (d a b : SReg)  -- MULH, 05:R91, R92
  | mulhu (w : Bool) (d a b : SReg)  -- MULHU, 05:R91, R92
  | div (w : Bool) (d a b : SReg)  -- DIV, 05:R91, R92
  | divu (w : Bool) (d a b : SReg)  -- DIVU, 05:R91, R92
  | rem (w : Bool) (d a b : SReg)  -- REM, 05:R91, R92
  | remu (w : Bool) (d a b : SReg)  -- REMU, 05:R91, R92
  | sMin (w : Bool) (d a b : SReg)  -- MIN, 05:R91, R92
  | sMax (w : Bool) (d a b : SReg)  -- MAX, 05:R91, R92
  | minu (w : Bool) (d a b : SReg)  -- MINU, 05:R91, R92
  | maxu (w : Bool) (d a b : SReg)  -- MAXU, 05:R91, R92
  | slt (w : Bool) (d a b : SReg)  -- SLT, 05:R91, R92
  | sltu (w : Bool) (d a b : SReg)  -- SLTU, 05:R91, R92
  | sClz (w : Bool) (d a : SReg)  -- CLZ, 05:R91
  | sCtz (w : Bool) (d a : SReg)  -- CTZ, 05:R91
  | sPopc (w : Bool) (d a : SReg)  -- POPC, 05:R91
  | addi (d a : SReg) (imm : BitVec 16)  -- ADDI, 05:R93
  | andi (d a : SReg) (imm : BitVec 16)  -- ANDI, 05:R93
  | ori (d a : SReg) (imm : BitVec 16)  -- ORI, 05:R93
  | xori (d a : SReg) (imm : BitVec 16)  -- XORI, 05:R93
  | slti (d a : SReg) (imm : BitVec 16)  -- SLTI, 05:R93
  | sltiu (d a : SReg) (imm : BitVec 16)  -- SLTIU, 05:R93
  | slli (w : Bool) (d a : SReg) (n : BitVec 6)  -- SLLI, 05:R94
  | srli (w : Bool) (d a : SReg) (n : BitVec 6)  -- SRLI, 05:R94
  | srai (w : Bool) (d a : SReg) (n : BitVec 6)  -- SRAI, 05:R94
  | lui (d : SReg) (imm : BitVec 16)  -- LUI, 05:R95
  | addhi (d a : SReg) (imm : BitVec 16)  -- ADDHI, 05:R95
  | addpc (d : SReg) (imm : BitVec 16)  -- ADDPC, 05:R95
  | ldb (d a : SReg) (imm : BitVec 16)  -- LDB, 05:R101
  | ldbu (d a : SReg) (imm : BitVec 16)  -- LDBU, 05:R101
  | ldh (d a : SReg) (imm : BitVec 16)  -- LDH, 05:R101
  | ldhu (d a : SReg) (imm : BitVec 16)  -- LDHU, 05:R101
  | ldw (d a : SReg) (imm : BitVec 16)  -- LDW, 05:R101
  | ldwu (d a : SReg) (imm : BitVec 16)  -- LDWU, 05:R101
  | ldd (d a : SReg) (imm : BitVec 16)  -- LDD, 05:R101
  | stb (d a : SReg) (imm : BitVec 16)  -- STB, 05:R101
  | sth (d a : SReg) (imm : BitVec 16)  -- STH, 05:R101
  | stw (d a : SReg) (imm : BitVec 16)  -- STW, 05:R101
  | std (d a : SReg) (imm : BitVec 16)  -- STD, 05:R101
  | ldacq (w : Bool) (sc : Scope) (d a : SReg)  -- LDACQ, 10:R207
  | strel (w : Bool) (sc : Scope) (a b : SReg)  -- STREL, 10:R207
  | aadd (w : Bool) (sc : Scope) (o : Order) (d a b : SReg)  -- AADD, 10:R208
  | aand (w : Bool) (sc : Scope) (o : Order) (d a b : SReg)  -- AAND, 10:R208
  | aor (w : Bool) (sc : Scope) (o : Order) (d a b : SReg)  -- AOR, 10:R208
  | axor (w : Bool) (sc : Scope) (o : Order) (d a b : SReg)  -- AXOR, 10:R208
  | amin (w : Bool) (sc : Scope) (o : Order) (d a b : SReg)  -- AMIN, 10:R208
  | amax (w : Bool) (sc : Scope) (o : Order) (d a b : SReg)  -- AMAX, 10:R208
  | aminu (w : Bool) (sc : Scope) (o : Order) (d a b : SReg)  -- AMINU, 10:R208
  | amaxu (w : Bool) (sc : Scope) (o : Order) (d a b : SReg)  -- AMAXU, 10:R208
  | aswp (w : Bool) (sc : Scope) (o : Order) (d a b : SReg)  -- ASWP, 10:R208
  | acas (w : Bool) (sc : Scope) (o : Order) (d a b : SReg)  -- ACAS, 10:R208
  | phaseEnd (sc : Scope)  -- PHASE_END, 10:R209
  | phaseBegin (sc : Scope)  -- PHASE_BEGIN, 10:R209
  | phaseFull (sc : Scope)  -- PHASE_FULL, 10:R209
  | beq (a b : SReg) (off : BitVec 16)  -- BEQ, 05:R96
  | bne (a b : SReg) (off : BitVec 16)  -- BNE, 05:R96
  | blt (a b : SReg) (off : BitVec 16)  -- BLT, 05:R96
  | bge (a b : SReg) (off : BitVec 16)  -- BGE, 05:R96
  | bltu (a b : SReg) (off : BitVec 16)  -- BLTU, 05:R96
  | bgeu (a b : SReg) (off : BitVec 16)  -- BGEU, 05:R96
  | jmp (off : BitVec 26)  -- JMP, 05:R97
  | jal (off : BitVec 26)  -- JAL, 05:R97
  | jalr (d a : SReg) (imm : BitVec 16)  -- JALR, 05:R98
  | vex (cnt : BitVec 10) (loff : BitVec 16)  -- VEX, 05:R105
  | vexr (a b : SReg)  -- VEXR, 05:R106
  | srqpop (d : SReg)  -- SRQPOP, 05:R108
  | vgrow (n : BitVec 4)  -- VGROW, 05:R110
  | vgrowTry (d : SReg) (n : BitVec 4)  -- VGROW_TRY, 05:R110
  | vshrink (n : BitVec 4)  -- VSHRINK, 05:R111
  | task (a : SReg)  -- TASK, 13:R238
  | twait (k : BitVec 16)  -- TWAIT, 13:R241
  | agdecl (d a : SReg)  -- AGDECL, 11:R216
  | agdrop (a : SReg)  -- AGDROP, 11:R220
  | seal (d a : SReg)  -- SEAL, 10:R210
  | settle (a : SReg)  -- SETTLE, 10:R212
  | launch (d a b : SReg)  -- LAUNCH, 14:R275
  | bar (level : BitVec 2) (id : BitVec 13)  -- BAR, 14:R262, R264
  | mfs (d : SReg) (n : BitVec 6)  -- MFS, 14:R279
  | mfsTrapinfo (d : SReg)  -- MFS_TRAPINFO, 01:R35
  | mts (a : SReg) (n : BitVec 6)  -- MTS, 14:R279
  | mtsTrapinfo (a : SReg)  -- MTS_TRAPINFO, 01:R35
  | mtsLbr (a : SReg)  -- MTS_LBR, 01:R10
  | mtsFpstat (a : SReg)  -- MTS_FPSTAT, 01:R31
  | mtsAllowance (a : SReg)  -- MTS_ALLOWANCE, 01:R32
  | mtsResume (a : SReg)  -- MTS_RESUME, 14:R282
  | trap (code : BitVec 6)  -- TRAP, 14:R276
  | chbind (d a : SReg)  -- CHBIND, 14:R267
  | chfree (a : SReg)  -- CHFREE, 14:R268
  | nap (a : SReg)  -- NAP, 14:R278
  | extfree (d a : SReg)  -- EXTFREE, 10:R211
  | nop (g : Guard)  -- NOP, 06:R118
  | mov (g : Guard) (h : Half) (d : Dest) (a : Value)  -- MOV, 06:R118
  | movi (g : Guard) (d : Dest) (imm : W32)  -- MOVI, 06:R118
  | waitf (g : Guard) (n : VReg) (mode : Bool)  -- WAITF, 06:R118
  | bswz (g : Guard) (d : Dest) (a b : Value) (sel : Selector)  -- BSWZ, 06:R119
  | iadd (g : Guard) (h : Half) (d : Dest) (a b : Value)  -- IADD, 06:R120
  | isub (g : Guard) (h : Half) (d : Dest) (a b : Value)  -- ISUB, 06:R120
  | iadds (g : Guard) (u : Bool) (d : Dest) (a b : Value)  -- IADDS, 06:R120
  | isubs (g : Guard) (u : Bool) (d : Dest) (a b : Value)  -- ISUBS, 06:R120
  | imul (g : Guard) (d : Dest) (a b : Value)  -- IMUL, 06:R120
  | imulh (g : Guard) (d : Dest) (a b : Value)  -- IMULH, 06:R120
  | imulhu (g : Guard) (d : Dest) (a b : Value)  -- IMULHU, 06:R120
  | imad (g : Guard) (d : Dest) (a b c : Value)  -- IMAD, 06:R120
  | imin (g : Guard) (h : Half) (d : Dest) (a b : Value)  -- IMIN, 06:R120
  | imax (g : Guard) (h : Half) (d : Dest) (a b : Value)  -- IMAX, 06:R120
  | iminu (g : Guard) (d : Dest) (a b : Value)  -- IMINU, 06:R120
  | imaxu (g : Guard) (d : Dest) (a b : Value)  -- IMAXU, 06:R120
  | iabs (g : Guard) (d : Dest) (a : Value)  -- IABS, 06:R120
  | ineg (g : Guard) (d : Dest) (a : Value)  -- INEG, 06:R120
  | laneAnd (g : Guard) (h : Half) (d : Dest) (a b : Value)  -- LANE_AND, 06:R120
  | laneOr (g : Guard) (h : Half) (d : Dest) (a b : Value)  -- LANE_OR, 06:R120
  | laneXor (g : Guard) (h : Half) (d : Dest) (a b : Value)  -- LANE_XOR, 06:R120
  | laneAndn (g : Guard) (d : Dest) (a b : Value)  -- LANE_ANDN, 06:R120
  | laneNot (g : Guard) (d : Dest) (a : Value)  -- NOT, 06:R120
  | shl (g : Guard) (h : Half) (d : Dest) (a b : Value)  -- SHL, 06:R120
  | shr (g : Guard) (h : Half) (d : Dest) (a b : Value)  -- SHR, 06:R120
  | sar (g : Guard) (h : Half) (d : Dest) (a b : Value)  -- SAR, 06:R120
  | rol (g : Guard) (d : Dest) (a b : Value)  -- ROL, 06:R120
  | ror (g : Guard) (d : Dest) (a b : Value)  -- ROR, 06:R120
  | laneClz (g : Guard) (d : Dest) (a : Value)  -- LANE_CLZ, 06:R120
  | lanePopc (g : Guard) (d : Dest) (a : Value)  -- LANE_POPC, 06:R120
  | brev (g : Guard) (d : Dest) (a : Value)  -- BREV, 06:R120
  | bfx (g : Guard) (u : Bool) (d : Dest) (a b : Value)  -- BFX, 06:R122
  | bfi (g : Guard) (d : Dest) (a b c : Value)  -- BFI, 06:R122
  | idivu (g : Guard) (d : Dest) (a b : Value)  -- IDIVU, 06:R120
  | iremu (g : Guard) (d : Dest) (a b : Value)  -- IREMU, 06:R120
  | iaddc (g : Guard) (d : Dest) (a b : Value) (co : Pred) (cen : Bool) (ci : Pred)  -- IADDC, 06:R121
  | icmp (g : Guard) (cc : ICond) (p : Pred) (a b : Value)  -- ICMP, 06:R123
  | fcmp (g : Guard) (cc : FCond) (p : Pred) (a b : Value)  -- FCMP, 06:R124
  | pand (g : Guard) (na nb : Bool) (p a b : Pred)  -- PAND, 06:R125
  | por (g : Guard) (na nb : Bool) (p a b : Pred)  -- POR, 06:R125
  | pxor (g : Guard) (na nb : Bool) (p a b : Pred)  -- PXOR, 06:R125
  | pnot (g : Guard) (p a : Pred)  -- PNOT, 06:R125
  | pmov (g : Guard) (p : Pred) (a : Value) (k : BitVec 5)  -- PMOV, 06:R126
  | pget (g : Guard) (d : Dest)  -- PGET, 06:R126
  | sel (g : Guard) (h : Half) (neg : Bool) (k : Pred) (d : Dest) (a b : Value)  -- SEL, 06:R127
  | mset (neg : Bool) (p : Pred)  -- MSET, 06:R128
  | mrst (u : Value)  -- MRST, 06:R128
  | mget (d : Dest)  -- MGET, 06:R128
  | mnot (u : Value)  -- MNOT, 06:R128
  | shfl (g : Guard) (mode : ShflMode) (width : BitVec 3) (d : Dest) (a b : Value) (q : Pred)  -- SHFL, 06:R131
  | vote (g : Guard) (kind : VoteKind) (d : Dest) (p : Pred)  -- VOTE, 06:R132
  | lred (g : Guard) (op : RedOp) (d : Dest) (a : Value)  -- LRED, 06:R134
  | lscan (g : Guard) (op : RedOp) (excl : Bool) (d : Dest) (a : Value)  -- LSCAN, 06:R134
  | lfirst (g : Guard) (d : Dest) (p : Pred)  -- LFIRST, 06:R135
  | bcast (g : Guard) (d : Dest) (a : Value) (j : Option (BitVec 5))  -- BCAST, 06:R135
  | cvtif (g : Guard) (dst : FFmt) (src : IFmt) (r : Rnd) (sat : Bool) (d : Dest) (a : Value)  -- CVTIF, 08:R168
  | cvtfi (g : Guard) (dst : IFmt) (src : FFmt) (r : Rnd) (d : Dest) (a : Value)  -- CVTFI, 08:R169
  | cvtff (g : Guard) (dst src : FFmt) (r : Rnd) (sat : Bool) (d : Dest) (a : Value)  -- CVTFF, 08:R170
  | pack (g : Guard) (dst : FFmt) (r : Rnd) (sat : Bool) (d : Dest) (a b : Value) (rest : PackRest)  -- PACK, 08:R171
  | unpk (g : Guard) (src : FFmt) (d : Dest) (a : Value) (j : BitVec 3)  -- UNPK, 08:R172
  | qbpi (g : Guard) (r : Rnd) (d : Dest) (a b : Value)  -- QBPI, 08:R173
  | fadd (g : Guard) (h : Half) (r : Rnd) (d : Dest) (a b : Value)  -- FADD, 08:R160
  | fsub (g : Guard) (r : Rnd) (d : Dest) (a b : Value)  -- FSUB, 08:R160
  | fmul (g : Guard) (h : Half) (r : Rnd) (d : Dest) (a b : Value)  -- FMUL, 08:R160
  | ffma (g : Guard) (r : Rnd) (d : Dest) (a b c : Value)  -- FFMA, 08:R160
  | fmin (g : Guard) (h : Half) (d : Dest) (a b : Value)  -- FMIN, 08:R162
  | fmax (g : Guard) (h : Half) (d : Dest) (a b : Value)  -- FMAX, 08:R162
  | fabs (g : Guard) (d : Dest) (a : Value)  -- FABS, 08:R162
  | fneg (g : Guard) (d : Dest) (a : Value)  -- FNEG, 08:R162
  | frcp (g : Guard) (r : Rnd) (d : Dest) (a : Value)  -- FRCP, 08:R164, R165
  | frsq (g : Guard) (r : Rnd) (d : Dest) (a : Value)  -- FRSQ, 08:R164, R165
  | fsqrt (g : Guard) (r : Rnd) (d : Dest) (a : Value)  -- FSQRT, 08:R164, R165
  | fdiv (g : Guard) (r : Rnd) (d : Dest) (a b : Value)  -- FDIV, 08:R164, R165
  | fexp2 (g : Guard) (d : Dest) (a : Value)  -- FEXP2, 08:R164, R165
  | flog2 (g : Guard) (d : Dest) (a : Value)  -- FLOG2, 08:R164, R165
  | fsin (g : Guard) (d : Dest) (a : Value)  -- FSIN, 08:R164, R165
  | fcos (g : Guard) (d : Dest) (a : Value)  -- FCOS, 08:R164, R165
  | ftanh (g : Guard) (d : Dest) (a : Value)  -- FTANH, 08:R164, R165
  | fclass (g : Guard) (d : Dest) (a : Value)  -- FCLASS, 08:R163
  | fscale (g : Guard) (r : Rnd) (d : Dest) (a b : Value)  -- FSCALE, 08:R160
  | hadd2 (g : Guard) (bf : Bool) (r : Rnd) (d : Dest) (a b : Value)  -- HADD2, 08:R166
  | hmul2 (g : Guard) (bf : Bool) (r : Rnd) (d : Dest) (a b : Value)  -- HMUL2, 08:R166
  | hfma2 (g : Guard) (bf : Bool) (r : Rnd) (d : Dest) (a b c : Value)  -- HFMA2, 08:R166
  | hmin2 (g : Guard) (bf : Bool) (d : Dest) (a b : Value)  -- HMIN2, 08:R166
  | hmax2 (g : Guard) (bf : Bool) (d : Dest) (a b : Value)  -- HMAX2, 08:R166
  | fdot8 (g : Guard) (e5 mixed : Bool) (r : Rnd) (d : Dest) (a b c : Value)  -- FDOT8, 08:R167
  | ld (g : Guard) (sz : MemSize) (sc : Scale) (pol : Policy) (sx : Bool) (d : VReg) (base : SReg) (off : Value) (disp : W32)  -- LD, 10:R196
  | ldx (g : Guard) (sz : MemSize) (sc : Scale) (pol : Policy) (sx : Bool) (d : VReg) (base : SReg) (off : Value) (disp : W32)  -- LDX, 10:R197
  | st (g : Guard) (sz : MemSize) (sc : Scale) (pol : Policy) (base : SReg) (off : Value) (disp : W32) (c : Value)  -- ST, 10:R198
  | push (g : Guard) (sz : MemSize) (sc : Scale) (ds base : SReg) (off : Value) (disp : W32) (c : Value)  -- PUSH, 10:R199
  | atom (g : Guard) (op : AtomOp) (scope : Scope) (o : Order) (dbl : Bool) (sc : AScale) (d : VReg) (base : SReg) (off : Value) (disp : W32) (c : Value)  -- ATOM, 10:R200
  | atomn (g : Guard) (op : AtomOp) (scope : Scope) (o : Order) (dbl : Bool) (sc : AScale) (base : SReg) (off : Value) (disp : W32) (c : Value)  -- ATOMN, 10:R200
  | laneAcas (g : Guard) (scope : Scope) (o : Order) (dbl : Bool) (sc : AScale) (d : VReg) (base : SReg) (off : Value) (disp : W32) (c : Value)  -- LANE_ACAS, 10:R200
  | disc (g : Guard) (sc : Scale) (base : SReg) (off : Value) (disp : W32)  -- DISC, 10:R202
  | pref (g : Guard) (sc : Scale) (home : Bool) (base : SReg) (off : Value) (disp : W32)  -- PREF, 10:R203
  | append (g : Guard) (sz : MemSize) (q : Pred) (d : VReg) (base : SReg) (disp : W32) (c : Value)  -- APPEND, 10:R205
  | tailq (g : Guard) (d : VReg) (base : SReg) (disp : W32)  -- TAILQ, 10:R206
  | lda (g : Guard) (q : Pred) (d : VReg) (h : SReg) (lo hi : Value)  -- LDA, 11:R230
  | find (g : Guard) (q : Pred) (d : VReg) (h : SReg) (x : Value)  -- FIND, 11:R231
  | pick (g : Guard) (q : Pred) (d : VReg) (h : SReg) (r : Value)  -- PICK, 11:R232
  | chst (g : Guard) (d : Dest) (ch : BitVec 4)  -- CHST, 14:R270
  | chwait (g : Guard) (ch : BitVec 4) (k : BitVec 3)  -- CHWAIT, 14:R271
  | rnext (g : Guard) (d a : VReg) (t : Bool)  -- RNEXT, 14:R273
  | rjump (g : Guard) (d a : VReg) (t : Bool) (b c : Value)  -- RJUMP, 14:R273
  | runi (g : Guard) (f32 : Bool) (d : Dest) (a : VReg) (t : Bool)  -- RUNI, 14:R273
  | rdith (g : Guard) (d : Dest) (a : SReg) (b : Value)  -- RDITH, 14:R273
  | ltrap (g : Guard) (code : BitVec 6)  -- LTRAP, 14:R276
  | lbrk (g : Guard)  -- LBRK, 14:R276
  | ldxFill (w : WarpKey) (id : Nat) (data : List (Nat × BitVec 128)) (poison : Mask)  -- LDX_FILL, 01:R16
  | dataReply (core line : Nat) (data : LineData) (priv poison : Bool) (pref : Option (WarpKey × Nat))  -- DATA_REPLY, 09:R175
  | writeBufferDrain (w : WarpKey) (id : Nat)  -- WRITE_BUFFER_DRAIN, 17:R288
  | classCheckRequest (w : WarpKey)  -- CLASS_CHECK_REQUEST, 10:R193
  | loadRequest (r : LoadReq)  -- LOAD_REQUEST, 09:R175
  | storeRequest (w : WarpKey) (id : Nat)  -- STORE_REQUEST, 10:R198
  | pushRequest (w : WarpKey) (id : Nat)  -- PUSH_REQUEST, 10:R199
  | pushInstall (core line : Nat) (data : PushedLine)  -- PUSH_INSTALL, 09:R185
  | gets (slice : DirAt) (line : Nat) (c : Node)  -- GETS, 17:R300
  | getx (slice : DirAt) (line : Nat) (c : Node)  -- GETX, 17:R300
  | upg (slice : DirAt) (line : Nat) (c : Node)  -- UPG, 17:R302
  | evs (slice : DirAt) (line : Nat) (c : Node)  -- EVS, 17:R300
  | evx (slice : DirAt) (line : Nat) (c : Node) (data : LineData)  -- EVX, 17:R300
  | inv (slice : DirAt) (line : Nat) (c : Node)  -- INV, 17:R303
  | rclDowngrade (slice : DirAt) (line : Nat) (c : Node)  -- RCL_DOWNGRADE, 17:R300
  | rclInvalidate (slice : DirAt) (line : Nat) (c : Node)  -- RCL_INVALIDATE, 17:R300
  | acknowledgement (slice : DirAt) (line : Nat)  -- ACKNOWLEDGEMENT, 17:R300
  | recallReply (slice : DirAt) (line : Nat) (data : Option LineData)  -- RECALL_REPLY, 17:R300
  | grant (slice : DirAt) (line : Nat) (c : Node) (owned : Bool) (data : Option LineData)  -- GRANT, 19:R311
  | pageRecall (ctx page : Nat)  -- PAGE_RECALL, 17:R291
  | barArrival (w : WarpKey) (level id : Nat)  -- BAR_ARRIVAL, 14:R264
  | barRelease (launch level id unit : Nat)  -- BAR_RELEASE, 14:R264
  | wload (t : TeamKey) (seq : BitVec 16)  -- WLOAD, 13:R247
  | mma (t : TeamKey) (seq : BitVec 16)  -- MMA, 13:R249
  | accz (t : TeamKey) (seq : BitVec 16)  -- ACCZ, 13:R250
  | drain (t : TeamKey) (seq : BitVec 16)  -- DRAIN, 13:R252
  | copyin (t : TeamKey) (seq : BitVec 16)  -- COPYIN, 13:R253
  | copyout (t : TeamKey) (seq : BitVec 16)  -- COPYOUT, 13:R253
  | gather (t : TeamKey) (seq : BitVec 16)  -- GATHER, 13:R254
  | fill (t : TeamKey) (seq : BitVec 16)  -- FILL, 13:R255
  | coll (t : TeamKey) (seq : BitVec 16)  -- COLL, 13:R256
  | collPiece (ctx group seq member chunk : Nat) (data : Option CollMsg)  -- COLL_PIECE, 22:R370
  | illegalEncodingWord (lane half : Bool) (reason : Nat)  -- ILLEGAL_ENCODING_WORD, 03:R76
  | storeAcknowledgement (w : WarpKey) (id : Nat)  -- STORE_ACKNOWLEDGEMENT, 09:R177
  | translationConfirmation (w : WarpKey)  -- TRANSLATION_CONFIRMATION, 01:R28
  | tierMove (ctx page : Nat) (cxl : Bool) (ppn : BitVec 32)  -- TIER_MOVE, 20:R324
  | vsync  -- VSYNC, 05:R107
  | brk  -- BRK, 14:R276
  | exit  -- EXIT, 14:R277
  | yieldTurn  -- YIELD, 14:R278
  | mall  -- MALL, 06:R128
  | atomicRequest (r : AtomReq)  -- ATOMIC_REQUEST, 10:R200
  | appendRequest (ctx : Nat) (addr : W64) (sz : MemSize) (elems : List (BitVec 128))  -- APPEND_REQUEST, 10:R205
  | tailqRequest (ctx : Nat) (addr : W64)  -- TAILQ_REQUEST, 10:R206
  | sealRequest (w : WarpKey) (addr : W64)  -- SEAL_REQUEST, 10:R210
  | rangeLoadRequest (ctx : Nat) (q : RangeQuery)  -- RANGE_LOAD_REQUEST, 11:R225
  | dropRequest (ctx handle : Nat)  -- DROP_REQUEST, 11:R220
  | regionTableRequest (region : Nat) (die quad : Nat)  -- REGION_TABLE_REQUEST, 17:R294
  | channelMessage (src : WarpKey) (entry : Nat) (msg : Store 32)  -- CHANNEL_MESSAGE, 14:R269
  | faultAnswer (ticket : W64) (fatal : Bool)  -- FAULT_ANSWER, 20:R328
  | waitNotice (ctx group seq member : Nat)  -- WAIT_NOTICE, 22:R372
  | takePacket (ctx queue : Nat) (binds : List Bind)  -- TAKE_PACKET, 21:R338
  | dispatch (die : Nat)  -- DISPATCH, 21:R347
  | afterParent (launch : Nat)  -- AFTER_PARENT, 21:R342
  | completionRecord (launch : Nat)  -- COMPLETION_RECORD, 21:R340
  | preempt (core : Nat)  -- PREEMPT, 20:R332
  | bankSwap (core : Nat)  -- BANK_SWAP, 20:R332
  | spill (core : Nat)  -- SPILL, 20:R333
  | relaunch (t : TeamKey)  -- RELAUNCH, 20:R330
  | clearing (launch : Nat)  -- CLEARING, 21:R355
  | napExpiry (w : WarpKey)  -- NAP_EXPIRY, 14:R278
  | sampleTick (core : Nat)  -- SAMPLE_TICK, 25:R403
  | rangeRegisterWrite (ctx k : Nat) (w0 w1 w2 w3 : W64)  -- RANGE_REGISTER_WRITE, 20:R317
  | withdraw (ctx page : Nat) (entry : W64)  -- WITHDRAW, 20:R323
  | writeBack (core line : Nat)  -- WRITE_BACK, 19:R312
  | extentCreate (ctx : Nat) (r0 r1 : W64)  -- EXTENT_CREATE, 10:R204
  | queueRegister (ctx : Nat) (control : W64)  -- QUEUE_REGISTER, 21:R339
  | groupRegister (ctx handle : Nat) (record : W64)  -- GROUP_REGISTER, 22:R365
  | memoryKeyRegister (ctx : Nat) (key : BitVec 32) (base len : W64) (r w : Bool)  -- MEMORY_KEY_REGISTER, 24:R391
  | contextCreate (num : Nat) (mask : W64) (numerics : BitVec 8) (pool : Pools) (frames : List Nat) (samples : W64)  -- CONTEXT_CREATE, 04:R87
  | contextDestroy (num : Nat)  -- CONTEXT_DESTROY, 20:R328
  | teamKill (t : TeamKey)  -- TEAM_KILL, 20:R329
  | launchCancel (launch : Nat)  -- LAUNCH_CANCEL, 21:R341
  | collectiveCancel (ctx group seq : Nat)  -- COLLECTIVE_CANCEL, 22:R372
  | latencyReserveSet (die : Nat) (cores : Mask)  -- LATENCY_RESERVE_SET, 21:R348
  | packageNumberAssign (n : BitVec 12)  -- PACKAGE_NUMBER_ASSIGN, 24:R383
  | declareDead (agent : FabricAgent)  -- DECLARE_DEAD, 24:R388, R389
  | pageHandover (ctx page : Nat) (q : BitVec 12)  -- PAGE_HANDOVER, 24:R386
  | pageReturn (ctx page : Nat) (answer : PageAnswer)  -- PAGE_RETURN, 24:R386
  | hostRmaWrite (key : HostOp) (addr : W64) (data : List Byte)  -- HOST_RMA_WRITE, 24:R391
  | hostRmaRead (key : HostOp) (addr : W64) (len : Nat)  -- HOST_RMA_READ, 24:R391
  | hostAtomicCas (key : HostOp) (addr expected new : W64)  -- HOST_ATOMIC_CAS, 24:R391
  | hostFetchAdd (key : HostOp) (addr x : W64)  -- HOST_FETCH_ADD, 24:R391
  | linkCrcError (link : Nat) (outcome : LinkOutcome)  -- LINK_CRC_ERROR, 24:R382
  | cxlPortFail (port : Nat)  -- CXL_PORT_FAIL, 24:R394
  | thermalGate (die : Nat) (on : Bool)  -- THERMAL_GATE, 25:R410
  | thermalShutdown (die : Nat)  -- THERMAL_SHUTDOWN, 25:R410
  | patrolScrub (what : Scrubbed) (bad : Bool)  -- PATROL_SCRUB, 25:R407
  | boot (image : FirmwareImage)  -- BOOT, 25:R408
  | recoveryImage (image : FirmwareImage)  -- RECOVERY_IMAGE, 25:R408
  | spdmRequest (index : Nat)  -- SPDM_REQUEST, 25:R409
  | managementReadback (what : Readback)  -- MANAGEMENT_READBACK, 25:R406
  | stop (cap : BitVec 32) (t : Target)  -- STOP, 25:R398
  | resume (cap : BitVec 32) (t : Target)  -- RESUME, 25:R398
  | step (cap : BitVec 32) (w : WarpKey) (lane : Bool)  -- STEP, 25:R398
  | read (cap : BitVec 32) (w : WarpKey) (item : Item)  -- READ, 25:R397
  | write (cap : BitVec 32) (w : WarpKey) (item : Item) (x : W64) (force : Bool)  -- WRITE, 25:R400
  | memread (cap : BitVec 32) (ctx : Nat) (addr : W64) (len : Nat)  -- MEMREAD, 25:R400
  | memwrite (cap : BitVec 32) (ctx : Nat) (addr : W64) (data : List Byte)  -- MEMWRITE, 25:R400
  | breakpoint (cap : BitVec 32) (ctx : Nat) (slot : Nat) (set : Option (BitVec 56 × Bool))  -- BREAK, 25:R399
  | watch (cap : BitVec 32) (ctx : Nat) (slot : Nat) (set : Option WatchSpec)  -- WATCH, 25:R399
  | trapstop (cap : BitVec 32) (ctx : Nat) (on : Bool)  -- TRAPSTOP, 25:R399
  | abandon (cap : BitVec 32) (ctx group seq : Nat)  -- ABANDON, 22:R373
  | delegate (cap : BitVec 32) (rights : BitVec 8)  -- DELEGATE, 25:R395
  | revoke (cap target : BitVec 32)  -- REVOKE, 25:R396
  | pageTableRootWrite (ctx : Nat) (root : W64)  -- PAGE_TABLE_ROOT_WRITE, 20:R319
  | coreTakenOffline (core : Nat)  -- CORE_TAKEN_OFFLINE, 21:R351
  | coreReturns (core : Nat)  -- CORE_RETURNS, 21:R351
  | agentReturn (agent : FabricAgent)  -- AGENT_RETURN, 24:R389
  | loadRequestRemote (ctx line : Nat) (src : Stamp)  -- LOAD_REQUEST of another package, 24:R385
  deriving DecidableEq, Repr

/-- A lane word of the code: a single instruction or a pair. -/
inductive LaneWord where
  | single (i : Instr)
  | pair (x y : Instr)
  deriving DecidableEq, Repr

end Sys2Proof
end

