-- ==== Sys2Proof/WellFormed.lean ====
section
/-!
DEFINITION. Which instructions are well formed: every operand inside what the encoding and the manual allow (01:R14,
R19, R22, R24; 03:R68 to R75; 06:R115 to R117; 10:R190). A row that is a step of another agent has no encoding and is
always well formed.
-/

namespace Sys2Proof

/-- p0 is no guard to negate (01:R19). -/
def Guard.wf (g : Guard) : Bool := !(g.neg && g.p == 0)

/-- A register below 192; a channel that is no SRQ (01:R22, R24). -/
def Value.wf : Value → Bool
  | .reg n _ => n < 192#8
  | .uni _ => true
  | .con _ => true
  | .chan n _ => n != 15

def Value.isChan : Value → Bool
  | .chan _ _ => true
  | .reg _ _ => false
  | .uni _ => false
  | .con _ => false

def Value.isReg : Value → Bool
  | .chan _ _ => false
  | .reg _ _ => true
  | .uni _ => false
  | .con _ => false

def Dest.wf : Dest → Bool
  | .reg n => n < 192#8
  | .chan _ => true

/-- A group of `n` consecutive registers starts at a multiple of `n` (01:R14). -/
def groupOk (n : Nat) (r : VReg) : Bool := r < 192#8 && r.toNat % n == 0

/-- A value source of `n` registers: one register may be any value (01:R14). -/
def Value.wfGroup (n : Nat) (v : Value) : Bool :=
  match v with
  | .reg r _ => groupOk n r
  | .uni _ => n == 1
  | .con _ => n == 1
  | .chan c _ => n == 1 && c != 15

/-- A destination of `n` registers (08:R155): a channel is one register wide. -/
def Dest.wfGroup (n : Nat) (d : Dest) : Bool :=
  match d with
  | .reg r => groupOk n r
  | .chan _ => n == 1

/-- Cross-lane sources are no channels (06:R130). -/
def Value.wfNoChan (v : Value) : Bool := v.wf && !v.isChan
/-- Operands of MRST and MNOT are uniform (06:R128). -/
def Value.wfUni (v : Value) : Bool := v.wf && !v.isChan && !v.isReg

/-- `.SX` widens bytes and halfwords only (10:R190). -/
def sxFits (sz : MemSize) (sx : Bool) : Bool :=
  !sx || (match sz with | .b => true | .h => true | .w => false | .d => false | .q => false)

/-- FADD has no doubleword form (03:R70). -/
def AtomOp.fits (op : AtomOp) (dbl : Bool) : Bool := !(dbl && op == .fadd)

def RedOp.wf : RedOp → Bool
  | .fadd r => r != .sr
  | .add => true
  | .min _ => true
  | .max _ => true
  | .and => true
  | .or => true
  | .xor => true
  | .fmin => true
  | .fmax => true

def FFmt.isFp8 (f : FFmt) : Bool := f == .e4m3 || f == .e5m2

/-- The elements of a format in a word (08:R172). -/
def FFmt.elems : FFmt → Nat
  | .f32 => 1 | .f16 => 2 | .bf16 => 2 | .e4m3 => 4 | .e5m2 => 4 | .e2m1 => 8

def dblRegs (dbl : Bool) : Nat := if dbl then 2 else 1
def IFmt.regs (f : IFmt) : Nat := if f == .i64 then 2 else 1

/-- The special registers that an MTS may write beside those with a row of their own: DSEED (01:R30). -/
def mtsWritable (n : BitVec 6) : Bool := n == 9
/-- The special registers that MFS reads beside TRAPINFO (01:R30; 14:R279). -/
def mfsReadable (n : BitVec 6) : Bool := n < 24#6 && n != 14

/-- The instruction is inside what the manual admits. -/
def Instr.wf : Instr → Bool
  | .add _ _ _ _ => true
  | .sub _ _ _ _ => true
  | .sAnd _ _ _ _ => true
  | .sOr _ _ _ _ => true
  | .sXor _ _ _ _ => true
  | .sAndn _ _ _ _ => true
  | .sll _ _ _ _ => true
  | .srl _ _ _ _ => true
  | .sra _ _ _ _ => true
  | .mul _ _ _ _ => true
  | .mulh _ _ _ _ => true
  | .mulhu _ _ _ _ => true
  | .div _ _ _ _ => true
  | .divu _ _ _ _ => true
  | .rem _ _ _ _ => true
  | .remu _ _ _ _ => true
  | .sMin _ _ _ _ => true
  | .sMax _ _ _ _ => true
  | .minu _ _ _ _ => true
  | .maxu _ _ _ _ => true
  | .slt _ _ _ _ => true
  | .sltu _ _ _ _ => true
  | .sClz _ _ _ => true
  | .sCtz _ _ _ => true
  | .sPopc _ _ _ => true
  | .addi _ _ _ => true
  | .andi _ _ _ => true
  | .ori _ _ _ => true
  | .xori _ _ _ => true
  | .slti _ _ _ => true
  | .sltiu _ _ _ => true
  | .slli w _ _ n => !(w && n.getLsbD 5)
  | .srli w _ _ n => !(w && n.getLsbD 5)
  | .srai w _ _ n => !(w && n.getLsbD 5)
  | .lui _ _ => true
  | .addhi _ _ _ => true
  | .addpc _ _ => true
  | .ldb _ _ _ => true
  | .ldbu _ _ _ => true
  | .ldh _ _ _ => true
  | .ldhu _ _ _ => true
  | .ldw _ _ _ => true
  | .ldwu _ _ _ => true
  | .ldd _ _ _ => true
  | .stb _ _ _ => true
  | .sth _ _ _ => true
  | .stw _ _ _ => true
  | .std _ _ _ => true
  | .ldacq _ _ _ _ => true
  | .strel _ _ _ _ => true
  | .aadd _ _ _ _ _ _ => true
  | .aand _ _ _ _ _ _ => true
  | .aor _ _ _ _ _ _ => true
  | .axor _ _ _ _ _ _ => true
  | .amin _ _ _ _ _ _ => true
  | .amax _ _ _ _ _ _ => true
  | .aminu _ _ _ _ _ _ => true
  | .amaxu _ _ _ _ _ _ => true
  | .aswp _ _ _ _ _ _ => true
  | .acas _ _ _ _ _ _ => true
  | .phaseEnd _ => true
  | .phaseBegin _ => true
  | .phaseFull _ => true
  | .beq _ _ _ => true
  | .bne _ _ _ => true
  | .blt _ _ _ => true
  | .bge _ _ _ => true
  | .bltu _ _ _ => true
  | .bgeu _ _ _ => true
  | .jmp _ => true
  | .jal _ => true
  | .jalr _ _ _ => true
  | .vex _ _ => true
  | .vexr _ _ => true
  | .srqpop _ => true
  | .vgrow n => n != 0
  | .vgrowTry _ n => n != 0
  | .vshrink n => n != 0
  | .task a => a != 0 && a < 29#5
  | .twait _ => true
  | .agdecl _ _ => true
  | .agdrop _ => true
  | .seal _ _ => true
  | .settle _ => true
  | .launch _ _ _ => true
  | .bar _ _ => true
  | .mfs _ n => mfsReadable n
  | .mfsTrapinfo _ => true
  | .mts _ n => mtsWritable n
  | .mtsTrapinfo _ => true
  | .mtsLbr _ => true
  | .mtsFpstat _ => true
  | .mtsAllowance _ => true
  | .mtsResume _ => true
  | .trap _ => true
  | .chbind _ _ => true
  | .chfree _ => true
  | .nap _ => true
  | .extfree _ _ => true
  | .nop g => g.wf
  | .mov g _ d a => g.wf && d.wf && a.wf
  | .movi g d _ => g.wf && d.wf
  | .waitf g n _ => g.wf && decide (n < 192#8)
  | .bswz g d a b q => g.wf && d.wf && a.wf && b.wf && (match q with | .imm _ => true | .val c => c.wf)
  | .iadd g _ d a b => g.wf && d.wf && a.wf && b.wf
  | .isub g _ d a b => g.wf && d.wf && a.wf && b.wf
  | .iadds g _ d a b => g.wf && d.wf && a.wf && b.wf
  | .isubs g _ d a b => g.wf && d.wf && a.wf && b.wf
  | .imul g d a b => g.wf && d.wf && a.wf && b.wf
  | .imulh g d a b => g.wf && d.wf && a.wf && b.wf
  | .imulhu g d a b => g.wf && d.wf && a.wf && b.wf
  | .imad g d a b c => g.wf && d.wf && a.wf && b.wf && c.wf
  | .imin g _ d a b => g.wf && d.wf && a.wf && b.wf
  | .imax g _ d a b => g.wf && d.wf && a.wf && b.wf
  | .iminu g d a b => g.wf && d.wf && a.wf && b.wf
  | .imaxu g d a b => g.wf && d.wf && a.wf && b.wf
  | .iabs g d a => g.wf && d.wf && a.wf
  | .ineg g d a => g.wf && d.wf && a.wf
  | .laneAnd g _ d a b => g.wf && d.wf && a.wf && b.wf
  | .laneOr g _ d a b => g.wf && d.wf && a.wf && b.wf
  | .laneXor g _ d a b => g.wf && d.wf && a.wf && b.wf
  | .laneAndn g d a b => g.wf && d.wf && a.wf && b.wf
  | .laneNot g d a => g.wf && d.wf && a.wf
  | .shl g _ d a b => g.wf && d.wf && a.wf && b.wf
  | .shr g _ d a b => g.wf && d.wf && a.wf && b.wf
  | .sar g _ d a b => g.wf && d.wf && a.wf && b.wf
  | .rol g d a b => g.wf && d.wf && a.wf && b.wf
  | .ror g d a b => g.wf && d.wf && a.wf && b.wf
  | .laneClz g d a => g.wf && d.wf && a.wf
  | .lanePopc g d a => g.wf && d.wf && a.wf
  | .brev g d a => g.wf && d.wf && a.wf
  | .bfx g _ d a b => g.wf && d.wf && a.wf && b.wf
  | .bfi g d a b c => g.wf && d.wf && a.wf && b.wf && c.wf
  | .idivu g d a b => g.wf && d.wf && a.wf && b.wf
  | .iremu g d a b => g.wf && d.wf && a.wf && b.wf
  | .iaddc g d a b _ _ _ => g.wf && d.wf && a.wf && b.wf
  | .icmp g _ _ a b => g.wf && a.wf && b.wf
  | .fcmp g _ _ a b => g.wf && a.wf && b.wf
  | .pand g _ _ _ _ _ => g.wf
  | .por g _ _ _ _ _ => g.wf
  | .pxor g _ _ _ _ _ => g.wf
  | .pnot g _ _ => g.wf
  | .pmov g _ a _ => g.wf && a.wf
  | .pget g d => g.wf && d.wf
  | .sel g h neg _ d a b => g.wf && d.wf && a.wf && b.wf && (h == .single || !neg)
  | .mset _ _ => true
  | .mrst u => u.wfUni
  | .mget d => d.wf
  | .mnot u => u.wfUni
  | .shfl g _ width d a b _ => g.wf && d.wf && a.wfNoChan && b.wf && 1#3 ≤ width && width ≤ 5#3
  | .vote g _ d _ => g.wf && d.wf
  | .lred g op d a => g.wf && d.wf && a.wfNoChan && op.wf
  | .lscan g op _ d a => g.wf && d.wf && a.wfNoChan && op.wf
  | .lfirst g d _ => g.wf && d.wf
  | .bcast g d a _ => g.wf && d.wf && a.wfNoChan
  | .cvtif g dst src _ _ d a => g.wf && (dst == .f32 || dst == .f16 || dst == .bf16) && d.wf && a.wfGroup src.regs
  | .cvtfi g dst src _ d a => g.wf && (src == .f32 || src == .f16 || src == .bf16) && d.wfGroup dst.regs && a.wf
  | .cvtff g _ _ _ _ d a => g.wf && d.wf && a.wf
  | .pack g dst _ _ d a b rest => g.wf && d.wf && a.wf && b.wf && (match rest with | .none => dst == .f16 || dst == .bf16 | .fp8 c _ => c.wf && dst.isFp8)
  | .unpk g src d a j => g.wf && src != .f32 && d.wf && a.wf && decide (j.toNat < src.elems)
  | .qbpi g _ d a b => g.wf && d.wf && a.wf && b.wf
  | .fadd g _ _ d a b => g.wf && d.wf && a.wf && b.wf
  | .fsub g _ d a b => g.wf && d.wf && a.wf && b.wf
  | .fmul g _ _ d a b => g.wf && d.wf && a.wf && b.wf
  | .ffma g _ d a b c => g.wf && d.wf && a.wf && b.wf && c.wf
  | .fmin g _ d a b => g.wf && d.wf && a.wf && b.wf
  | .fmax g _ d a b => g.wf && d.wf && a.wf && b.wf
  | .fabs g d a => g.wf && d.wf && a.wf
  | .fneg g d a => g.wf && d.wf && a.wf
  | .frcp g _ d a => g.wf && d.wf && a.wf
  | .frsq g _ d a => g.wf && d.wf && a.wf
  | .fsqrt g _ d a => g.wf && d.wf && a.wf
  | .fdiv g _ d a b => g.wf && d.wf && a.wf && b.wf
  | .fexp2 g d a => g.wf && d.wf && a.wf
  | .flog2 g d a => g.wf && d.wf && a.wf
  | .fsin g d a => g.wf && d.wf && a.wf
  | .fcos g d a => g.wf && d.wf && a.wf
  | .ftanh g d a => g.wf && d.wf && a.wf
  | .fclass g d a => g.wf && d.wf && a.wf
  | .fscale g _ d a b => g.wf && d.wf && a.wf && b.wf
  | .hadd2 g _ _ d a b => g.wf && d.wf && a.wf && b.wf
  | .hmul2 g _ _ d a b => g.wf && d.wf && a.wf && b.wf
  | .hfma2 g _ _ d a b c => g.wf && d.wf && a.wf && b.wf && c.wf
  | .hmin2 g _ d a b => g.wf && d.wf && a.wf && b.wf
  | .hmax2 g _ d a b => g.wf && d.wf && a.wf && b.wf
  | .fdot8 g _ _ _ d a b c => g.wf && d.wf && a.wf && b.wf && c.wf
  | .ld g sz _ _ sx d _ off _ => g.wf && groupOk sz.regs d && off.wf && sxFits sz sx
  | .ldx g sz _ _ sx d _ off _ => g.wf && groupOk sz.regs d && off.wf && sxFits sz sx
  | .st g sz _ _ _ off _ c => g.wf && off.wf && c.wfGroup sz.regs
  | .push g sz _ _ _ off _ c => g.wf && off.wf && c.wfGroup sz.regs
  | .atom g op _ _ dbl _ d _ off _ c => g.wf && groupOk (dblRegs dbl) d && off.wf && c.wfGroup (dblRegs dbl) && op.fits dbl
  | .atomn g op _ _ dbl _ _ off _ c => g.wf && off.wf && c.wfGroup (dblRegs dbl) && op.fits dbl
  | .laneAcas g _ _ dbl _ d _ off _ c => g.wf && groupOk (dblRegs dbl) d && off.wf && c.wfGroup (dblRegs dbl)
  | .disc g _ _ off _ => g.wf && off.wf
  | .pref g _ _ _ off _ => g.wf && off.wf
  | .append g sz _ d _ _ c => g.wf && decide (d < 192#8) && c.wfGroup sz.regs && (sz == .w || sz == .d || sz == .q)
  | .tailq g d _ _ => g.wf && decide (d < 192#8)
  | .lda g _ d _ lo hi => g.wf && decide (d < 192#8) && lo.wf && hi.wf
  | .find g _ d _ x => g.wf && decide (d < 192#8) && x.wf
  | .pick g _ d _ r => g.wf && decide (d < 192#8) && r.wf
  | .chst g d ch => g.wf && d.wf && ch != 15
  | .chwait g ch k => g.wf && 1#3 ≤ k && k ≤ 4#3 && ch != 15
  | .rnext g d a _ => g.wf && groupOk 2 d && groupOk 2 a
  | .rjump g d a _ b c => g.wf && groupOk 2 d && groupOk 2 a && b.wf && c.wf
  | .runi g _ d a _ => g.wf && d.wf && groupOk 2 a
  | .rdith g d _ b => g.wf && d.wf && b.wf
  | .ltrap g _ => g.wf
  | .lbrk g => g.wf
  | .ldxFill _ _ _ _ => true
  | .dataReply _ _ _ _ _ _ => true
  | .writeBufferDrain _ _ => true
  | .classCheckRequest _ => true
  | .loadRequest _ => true
  | .storeRequest _ _ => true
  | .pushRequest _ _ => true
  | .pushInstall _ _ _ => true
  | .gets _ _ _ => true
  | .getx _ _ _ => true
  | .upg _ _ _ => true
  | .evs _ _ _ => true
  | .evx _ _ _ _ => true
  | .inv _ _ _ => true
  | .rclDowngrade _ _ _ => true
  | .rclInvalidate _ _ _ => true
  | .acknowledgement _ _ => true
  | .recallReply _ _ _ => true
  | .grant _ _ _ _ _ => true
  | .pageRecall _ _ => true
  | .barArrival _ _ _ => true
  | .barRelease _ _ _ _ => true
  | .wload _ _ => true
  | .mma _ _ => true
  | .accz _ _ => true
  | .drain _ _ => true
  | .copyin _ _ => true
  | .copyout _ _ => true
  | .gather _ _ => true
  | .fill _ _ => true
  | .coll _ _ => true
  | .collPiece _ _ _ _ _ _ => true
  | .illegalEncodingWord _ _ _ => true
  | .storeAcknowledgement _ _ => true
  | .translationConfirmation _ => true
  | .writeBack _ _ => true
  | .vsync => true
  | .brk => true
  | .exit => true
  | .yieldTurn => true
  | .mall => true
  | .atomicRequest _ => true
  | .appendRequest _ _ _ _ => true
  | .tailqRequest _ _ => true
  | .sealRequest _ _ => true
  | .rangeLoadRequest _ _ => true
  | .dropRequest _ _ => true
  | .regionTableRequest _ _ _ => true
  | .channelMessage _ _ _ => true
  | .faultAnswer _ _ => true
  | .waitNotice _ _ _ _ => true
  | .takePacket _ _ _ => true
  | .dispatch _ => true
  | .afterParent _ => true
  | .completionRecord _ => true
  | .preempt _ => true
  | .bankSwap _ => true
  | .spill _ => true
  | .relaunch _ => true
  | .clearing _ => true
  | .napExpiry _ => true
  | .sampleTick _ => true
  | .rangeRegisterWrite _ _ _ _ _ _ => true
  | .withdraw _ _ _ => true
  | .tierMove _ _ _ _ => true
  | .extentCreate _ _ _ => true
  | .queueRegister _ _ => true
  | .groupRegister _ _ _ => true
  | .memoryKeyRegister _ _ _ _ _ _ => true
  | .contextCreate _ _ _ _ _ _ => true
  | .contextDestroy _ => true
  | .teamKill _ => true
  | .launchCancel _ => true
  | .collectiveCancel _ _ _ => true
  | .latencyReserveSet _ _ => true
  | .packageNumberAssign _ => true
  | .declareDead _ => true
  | .pageHandover _ _ _ => true
  | .pageReturn _ _ _ => true
  | .hostRmaWrite _ _ _ => true
  | .hostRmaRead _ _ _ => true
  | .hostAtomicCas _ _ _ _ => true
  | .hostFetchAdd _ _ _ => true
  | .linkCrcError _ _ => true
  | .cxlPortFail _ => true
  | .thermalGate _ _ => true
  | .thermalShutdown _ => true
  | .patrolScrub _ _ => true
  | .boot _ => true
  | .recoveryImage _ => true
  | .spdmRequest _ => true
  | .managementReadback _ => true
  | .stop _ _ => true
  | .resume _ _ => true
  | .step _ _ _ => true
  | .read _ _ _ => true
  | .write _ _ _ _ _ => true
  | .memread _ _ _ _ => true
  | .memwrite _ _ _ _ => true
  | .breakpoint _ _ _ _ => true
  | .watch _ _ _ _ => true
  | .trapstop _ _ _ => true
  | .abandon _ _ _ _ => true
  | .delegate _ _ => true
  | .revoke _ _ => true
  | .pageTableRootWrite _ _ => true
  | .coreTakenOffline _ => true
  | .coreReturns _ => true
  | .agentReturn _ => true
  | .loadRequestRemote _ _ _ => true

/-- A lane word of one instruction or of a pair is well formed: a pair has a half X and a half Y of pairable
instructions under the four restrictions of 03:R75. -/
def Instr.half : Instr → Option Half
  | .mov _ h _ _ => some h
  | .iadd _ h _ _ _ => some h
  | .isub _ h _ _ _ => some h
  | .imin _ h _ _ _ => some h
  | .imax _ h _ _ _ => some h
  | .laneAnd _ h _ _ _ => some h
  | .laneOr _ h _ _ _ => some h
  | .laneXor _ h _ _ _ => some h
  | .shl _ h _ _ _ => some h
  | .shr _ h _ _ _ => some h
  | .sar _ h _ _ _ => some h
  | .sel _ h _ _ _ _ _ => some h
  | .fadd _ h _ _ _ _ => some h
  | .fmul _ h _ _ _ _ => some h
  | .fmin _ h _ _ _ => some h
  | .fmax _ h _ _ _ => some h
  | .add _ _ _ _ => none
  | .sub _ _ _ _ => none
  | .sAnd _ _ _ _ => none
  | .sOr _ _ _ _ => none
  | .sXor _ _ _ _ => none
  | .sAndn _ _ _ _ => none
  | .sll _ _ _ _ => none
  | .srl _ _ _ _ => none
  | .sra _ _ _ _ => none
  | .mul _ _ _ _ => none
  | .mulh _ _ _ _ => none
  | .mulhu _ _ _ _ => none
  | .div _ _ _ _ => none
  | .divu _ _ _ _ => none
  | .rem _ _ _ _ => none
  | .remu _ _ _ _ => none
  | .sMin _ _ _ _ => none
  | .sMax _ _ _ _ => none
  | .minu _ _ _ _ => none
  | .maxu _ _ _ _ => none
  | .slt _ _ _ _ => none
  | .sltu _ _ _ _ => none
  | .sClz _ _ _ => none
  | .sCtz _ _ _ => none
  | .sPopc _ _ _ => none
  | .addi _ _ _ => none
  | .andi _ _ _ => none
  | .ori _ _ _ => none
  | .xori _ _ _ => none
  | .slti _ _ _ => none
  | .sltiu _ _ _ => none
  | .slli _ _ _ _ => none
  | .srli _ _ _ _ => none
  | .srai _ _ _ _ => none
  | .lui _ _ => none
  | .addhi _ _ _ => none
  | .addpc _ _ => none
  | .ldb _ _ _ => none
  | .ldbu _ _ _ => none
  | .ldh _ _ _ => none
  | .ldhu _ _ _ => none
  | .ldw _ _ _ => none
  | .ldwu _ _ _ => none
  | .ldd _ _ _ => none
  | .stb _ _ _ => none
  | .sth _ _ _ => none
  | .stw _ _ _ => none
  | .std _ _ _ => none
  | .ldacq _ _ _ _ => none
  | .strel _ _ _ _ => none
  | .aadd _ _ _ _ _ _ => none
  | .aand _ _ _ _ _ _ => none
  | .aor _ _ _ _ _ _ => none
  | .axor _ _ _ _ _ _ => none
  | .amin _ _ _ _ _ _ => none
  | .amax _ _ _ _ _ _ => none
  | .aminu _ _ _ _ _ _ => none
  | .amaxu _ _ _ _ _ _ => none
  | .aswp _ _ _ _ _ _ => none
  | .acas _ _ _ _ _ _ => none
  | .phaseEnd _ => none
  | .phaseBegin _ => none
  | .phaseFull _ => none
  | .beq _ _ _ => none
  | .bne _ _ _ => none
  | .blt _ _ _ => none
  | .bge _ _ _ => none
  | .bltu _ _ _ => none
  | .bgeu _ _ _ => none
  | .jmp _ => none
  | .jal _ => none
  | .jalr _ _ _ => none
  | .vex _ _ => none
  | .vexr _ _ => none
  | .srqpop _ => none
  | .vgrow _ => none
  | .vgrowTry _ _ => none
  | .vshrink _ => none
  | .task _ => none
  | .twait _ => none
  | .agdecl _ _ => none
  | .agdrop _ => none
  | .seal _ _ => none
  | .settle _ => none
  | .launch _ _ _ => none
  | .bar _ _ => none
  | .mfs _ _ => none
  | .mfsTrapinfo _ => none
  | .mts _ _ => none
  | .mtsTrapinfo _ => none
  | .mtsLbr _ => none
  | .mtsFpstat _ => none
  | .mtsAllowance _ => none
  | .mtsResume _ => none
  | .trap _ => none
  | .chbind _ _ => none
  | .chfree _ => none
  | .nap _ => none
  | .extfree _ _ => none
  | .nop _ => none
  | .movi _ _ _ => none
  | .waitf _ _ _ => none
  | .bswz _ _ _ _ _ => none
  | .iadds _ _ _ _ _ => none
  | .isubs _ _ _ _ _ => none
  | .imul _ _ _ _ => none
  | .imulh _ _ _ _ => none
  | .imulhu _ _ _ _ => none
  | .imad _ _ _ _ _ => none
  | .iminu _ _ _ _ => none
  | .imaxu _ _ _ _ => none
  | .iabs _ _ _ => none
  | .ineg _ _ _ => none
  | .laneAndn _ _ _ _ => none
  | .laneNot _ _ _ => none
  | .rol _ _ _ _ => none
  | .ror _ _ _ _ => none
  | .laneClz _ _ _ => none
  | .lanePopc _ _ _ => none
  | .brev _ _ _ => none
  | .bfx _ _ _ _ _ => none
  | .bfi _ _ _ _ _ => none
  | .idivu _ _ _ _ => none
  | .iremu _ _ _ _ => none
  | .iaddc _ _ _ _ _ _ _ => none
  | .icmp _ _ _ _ _ => none
  | .fcmp _ _ _ _ _ => none
  | .pand _ _ _ _ _ _ => none
  | .por _ _ _ _ _ _ => none
  | .pxor _ _ _ _ _ _ => none
  | .pnot _ _ _ => none
  | .pmov _ _ _ _ => none
  | .pget _ _ => none
  | .mset _ _ => none
  | .mrst _ => none
  | .mget _ => none
  | .mnot _ => none
  | .shfl _ _ _ _ _ _ _ => none
  | .vote _ _ _ _ => none
  | .lred _ _ _ _ => none
  | .lscan _ _ _ _ _ => none
  | .lfirst _ _ _ => none
  | .bcast _ _ _ _ => none
  | .cvtif _ _ _ _ _ _ _ => none
  | .cvtfi _ _ _ _ _ _ => none
  | .cvtff _ _ _ _ _ _ _ => none
  | .pack _ _ _ _ _ _ _ _ => none
  | .unpk _ _ _ _ _ => none
  | .qbpi _ _ _ _ _ => none
  | .fsub _ _ _ _ _ => none
  | .ffma _ _ _ _ _ _ => none
  | .fabs _ _ _ => none
  | .fneg _ _ _ => none
  | .frcp _ _ _ _ => none
  | .frsq _ _ _ _ => none
  | .fsqrt _ _ _ _ => none
  | .fdiv _ _ _ _ _ => none
  | .fexp2 _ _ _ => none
  | .flog2 _ _ _ => none
  | .fsin _ _ _ => none
  | .fcos _ _ _ => none
  | .ftanh _ _ _ => none
  | .fclass _ _ _ => none
  | .fscale _ _ _ _ _ => none
  | .hadd2 _ _ _ _ _ _ => none
  | .hmul2 _ _ _ _ _ _ => none
  | .hfma2 _ _ _ _ _ _ _ => none
  | .hmin2 _ _ _ _ _ => none
  | .hmax2 _ _ _ _ _ => none
  | .fdot8 _ _ _ _ _ _ _ _ => none
  | .ld _ _ _ _ _ _ _ _ _ => none
  | .ldx _ _ _ _ _ _ _ _ _ => none
  | .st _ _ _ _ _ _ _ _ => none
  | .push _ _ _ _ _ _ _ _ => none
  | .atom _ _ _ _ _ _ _ _ _ _ _ => none
  | .atomn _ _ _ _ _ _ _ _ _ _ => none
  | .laneAcas _ _ _ _ _ _ _ _ _ _ => none
  | .disc _ _ _ _ _ => none
  | .pref _ _ _ _ _ _ => none
  | .append _ _ _ _ _ _ _ => none
  | .tailq _ _ _ _ => none
  | .lda _ _ _ _ _ _ => none
  | .find _ _ _ _ _ => none
  | .pick _ _ _ _ _ => none
  | .chst _ _ _ => none
  | .chwait _ _ _ => none
  | .rnext _ _ _ _ => none
  | .rjump _ _ _ _ _ _ => none
  | .runi _ _ _ _ _ => none
  | .rdith _ _ _ _ => none
  | .ltrap _ _ => none
  | .lbrk _ => none
  | .ldxFill _ _ _ _ => none
  | .dataReply _ _ _ _ _ _ => none
  | .writeBufferDrain _ _ => none
  | .classCheckRequest _ => none
  | .loadRequest _ => none
  | .storeRequest _ _ => none
  | .pushRequest _ _ => none
  | .pushInstall _ _ _ => none
  | .gets _ _ _ => none
  | .getx _ _ _ => none
  | .upg _ _ _ => none
  | .evs _ _ _ => none
  | .evx _ _ _ _ => none
  | .inv _ _ _ => none
  | .rclDowngrade _ _ _ => none
  | .rclInvalidate _ _ _ => none
  | .acknowledgement _ _ => none
  | .recallReply _ _ _ => none
  | .grant _ _ _ _ _ => none
  | .pageRecall _ _ => none
  | .barArrival _ _ _ => none
  | .barRelease _ _ _ _ => none
  | .wload _ _ => none
  | .mma _ _ => none
  | .accz _ _ => none
  | .drain _ _ => none
  | .copyin _ _ => none
  | .copyout _ _ => none
  | .gather _ _ => none
  | .fill _ _ => none
  | .coll _ _ => none
  | .collPiece _ _ _ _ _ _ => none
  | .illegalEncodingWord _ _ _ => none
  | .storeAcknowledgement _ _ => none
  | .translationConfirmation _ => none
  | .writeBack _ _ => none
  | .vsync => none
  | .brk => none
  | .exit => none
  | .yieldTurn => none
  | .mall => none
  | .atomicRequest _ => none
  | .appendRequest _ _ _ _ => none
  | .tailqRequest _ _ => none
  | .sealRequest _ _ => none
  | .rangeLoadRequest _ _ => none
  | .dropRequest _ _ => none
  | .regionTableRequest _ _ _ => none
  | .channelMessage _ _ _ => none
  | .faultAnswer _ _ => none
  | .waitNotice _ _ _ _ => none
  | .takePacket _ _ _ => none
  | .dispatch _ => none
  | .afterParent _ => none
  | .completionRecord _ => none
  | .preempt _ => none
  | .bankSwap _ => none
  | .spill _ => none
  | .relaunch _ => none
  | .clearing _ => none
  | .napExpiry _ => none
  | .sampleTick _ => none
  | .rangeRegisterWrite _ _ _ _ _ _ => none
  | .withdraw _ _ _ => none
  | .tierMove _ _ _ _ => none
  | .extentCreate _ _ _ => none
  | .queueRegister _ _ => none
  | .groupRegister _ _ _ => none
  | .memoryKeyRegister _ _ _ _ _ _ => none
  | .contextCreate _ _ _ _ _ _ => none
  | .contextDestroy _ => none
  | .teamKill _ => none
  | .launchCancel _ => none
  | .collectiveCancel _ _ _ => none
  | .latencyReserveSet _ _ => none
  | .packageNumberAssign _ => none
  | .declareDead _ => none
  | .pageHandover _ _ _ => none
  | .pageReturn _ _ _ => none
  | .hostRmaWrite _ _ _ => none
  | .hostRmaRead _ _ _ => none
  | .hostAtomicCas _ _ _ _ => none
  | .hostFetchAdd _ _ _ => none
  | .linkCrcError _ _ => none
  | .cxlPortFail _ => none
  | .thermalGate _ _ => none
  | .thermalShutdown _ => none
  | .patrolScrub _ _ => none
  | .boot _ => none
  | .recoveryImage _ => none
  | .spdmRequest _ => none
  | .managementReadback _ => none
  | .stop _ _ => none
  | .resume _ _ => none
  | .step _ _ _ => none
  | .read _ _ _ => none
  | .write _ _ _ _ _ => none
  | .memread _ _ _ _ => none
  | .memwrite _ _ _ _ => none
  | .breakpoint _ _ _ _ => none
  | .watch _ _ _ _ => none
  | .trapstop _ _ _ => none
  | .abandon _ _ _ _ => none
  | .delegate _ _ => none
  | .revoke _ _ => none
  | .pageTableRootWrite _ _ => none
  | .coreTakenOffline _ => none
  | .coreReturns _ => none
  | .agentReturn _ => none
  | .loadRequestRemote _ _ _ => none

/-- The destination and the sources of a pairable instruction. -/
def Instr.pairOperands : Instr → Option (Dest × List Value)
  | .mov _ _ d a => some (d, [a])
  | .iadd _ _ d a b => some (d, [a, b])
  | .isub _ _ d a b => some (d, [a, b])
  | .imin _ _ d a b => some (d, [a, b])
  | .imax _ _ d a b => some (d, [a, b])
  | .laneAnd _ _ d a b => some (d, [a, b])
  | .laneOr _ _ d a b => some (d, [a, b])
  | .laneXor _ _ d a b => some (d, [a, b])
  | .shl _ _ d a b => some (d, [a, b])
  | .shr _ _ d a b => some (d, [a, b])
  | .sar _ _ d a b => some (d, [a, b])
  | .sel _ _ _ _ d a b => some (d, [a, b])
  | .fadd _ _ _ d a b => some (d, [a, b])
  | .fmul _ _ _ d a b => some (d, [a, b])
  | .fmin _ _ d a b => some (d, [a, b])
  | .fmax _ _ d a b => some (d, [a, b])
  | .add _ _ _ _ => none
  | .sub _ _ _ _ => none
  | .sAnd _ _ _ _ => none
  | .sOr _ _ _ _ => none
  | .sXor _ _ _ _ => none
  | .sAndn _ _ _ _ => none
  | .sll _ _ _ _ => none
  | .srl _ _ _ _ => none
  | .sra _ _ _ _ => none
  | .mul _ _ _ _ => none
  | .mulh _ _ _ _ => none
  | .mulhu _ _ _ _ => none
  | .div _ _ _ _ => none
  | .divu _ _ _ _ => none
  | .rem _ _ _ _ => none
  | .remu _ _ _ _ => none
  | .sMin _ _ _ _ => none
  | .sMax _ _ _ _ => none
  | .minu _ _ _ _ => none
  | .maxu _ _ _ _ => none
  | .slt _ _ _ _ => none
  | .sltu _ _ _ _ => none
  | .sClz _ _ _ => none
  | .sCtz _ _ _ => none
  | .sPopc _ _ _ => none
  | .addi _ _ _ => none
  | .andi _ _ _ => none
  | .ori _ _ _ => none
  | .xori _ _ _ => none
  | .slti _ _ _ => none
  | .sltiu _ _ _ => none
  | .slli _ _ _ _ => none
  | .srli _ _ _ _ => none
  | .srai _ _ _ _ => none
  | .lui _ _ => none
  | .addhi _ _ _ => none
  | .addpc _ _ => none
  | .ldb _ _ _ => none
  | .ldbu _ _ _ => none
  | .ldh _ _ _ => none
  | .ldhu _ _ _ => none
  | .ldw _ _ _ => none
  | .ldwu _ _ _ => none
  | .ldd _ _ _ => none
  | .stb _ _ _ => none
  | .sth _ _ _ => none
  | .stw _ _ _ => none
  | .std _ _ _ => none
  | .ldacq _ _ _ _ => none
  | .strel _ _ _ _ => none
  | .aadd _ _ _ _ _ _ => none
  | .aand _ _ _ _ _ _ => none
  | .aor _ _ _ _ _ _ => none
  | .axor _ _ _ _ _ _ => none
  | .amin _ _ _ _ _ _ => none
  | .amax _ _ _ _ _ _ => none
  | .aminu _ _ _ _ _ _ => none
  | .amaxu _ _ _ _ _ _ => none
  | .aswp _ _ _ _ _ _ => none
  | .acas _ _ _ _ _ _ => none
  | .phaseEnd _ => none
  | .phaseBegin _ => none
  | .phaseFull _ => none
  | .beq _ _ _ => none
  | .bne _ _ _ => none
  | .blt _ _ _ => none
  | .bge _ _ _ => none
  | .bltu _ _ _ => none
  | .bgeu _ _ _ => none
  | .jmp _ => none
  | .jal _ => none
  | .jalr _ _ _ => none
  | .vex _ _ => none
  | .vexr _ _ => none
  | .srqpop _ => none
  | .vgrow _ => none
  | .vgrowTry _ _ => none
  | .vshrink _ => none
  | .task _ => none
  | .twait _ => none
  | .agdecl _ _ => none
  | .agdrop _ => none
  | .seal _ _ => none
  | .settle _ => none
  | .launch _ _ _ => none
  | .bar _ _ => none
  | .mfs _ _ => none
  | .mfsTrapinfo _ => none
  | .mts _ _ => none
  | .mtsTrapinfo _ => none
  | .mtsLbr _ => none
  | .mtsFpstat _ => none
  | .mtsAllowance _ => none
  | .mtsResume _ => none
  | .trap _ => none
  | .chbind _ _ => none
  | .chfree _ => none
  | .nap _ => none
  | .extfree _ _ => none
  | .nop _ => none
  | .movi _ _ _ => none
  | .waitf _ _ _ => none
  | .bswz _ _ _ _ _ => none
  | .iadds _ _ _ _ _ => none
  | .isubs _ _ _ _ _ => none
  | .imul _ _ _ _ => none
  | .imulh _ _ _ _ => none
  | .imulhu _ _ _ _ => none
  | .imad _ _ _ _ _ => none
  | .iminu _ _ _ _ => none
  | .imaxu _ _ _ _ => none
  | .iabs _ _ _ => none
  | .ineg _ _ _ => none
  | .laneAndn _ _ _ _ => none
  | .laneNot _ _ _ => none
  | .rol _ _ _ _ => none
  | .ror _ _ _ _ => none
  | .laneClz _ _ _ => none
  | .lanePopc _ _ _ => none
  | .brev _ _ _ => none
  | .bfx _ _ _ _ _ => none
  | .bfi _ _ _ _ _ => none
  | .idivu _ _ _ _ => none
  | .iremu _ _ _ _ => none
  | .iaddc _ _ _ _ _ _ _ => none
  | .icmp _ _ _ _ _ => none
  | .fcmp _ _ _ _ _ => none
  | .pand _ _ _ _ _ _ => none
  | .por _ _ _ _ _ _ => none
  | .pxor _ _ _ _ _ _ => none
  | .pnot _ _ _ => none
  | .pmov _ _ _ _ => none
  | .pget _ _ => none
  | .mset _ _ => none
  | .mrst _ => none
  | .mget _ => none
  | .mnot _ => none
  | .shfl _ _ _ _ _ _ _ => none
  | .vote _ _ _ _ => none
  | .lred _ _ _ _ => none
  | .lscan _ _ _ _ _ => none
  | .lfirst _ _ _ => none
  | .bcast _ _ _ _ => none
  | .cvtif _ _ _ _ _ _ _ => none
  | .cvtfi _ _ _ _ _ _ => none
  | .cvtff _ _ _ _ _ _ _ => none
  | .pack _ _ _ _ _ _ _ _ => none
  | .unpk _ _ _ _ _ => none
  | .qbpi _ _ _ _ _ => none
  | .fsub _ _ _ _ _ => none
  | .ffma _ _ _ _ _ _ => none
  | .fabs _ _ _ => none
  | .fneg _ _ _ => none
  | .frcp _ _ _ _ => none
  | .frsq _ _ _ _ => none
  | .fsqrt _ _ _ _ => none
  | .fdiv _ _ _ _ _ => none
  | .fexp2 _ _ _ => none
  | .flog2 _ _ _ => none
  | .fsin _ _ _ => none
  | .fcos _ _ _ => none
  | .ftanh _ _ _ => none
  | .fclass _ _ _ => none
  | .fscale _ _ _ _ _ => none
  | .hadd2 _ _ _ _ _ _ => none
  | .hmul2 _ _ _ _ _ _ => none
  | .hfma2 _ _ _ _ _ _ _ => none
  | .hmin2 _ _ _ _ _ => none
  | .hmax2 _ _ _ _ _ => none
  | .fdot8 _ _ _ _ _ _ _ _ => none
  | .ld _ _ _ _ _ _ _ _ _ => none
  | .ldx _ _ _ _ _ _ _ _ _ => none
  | .st _ _ _ _ _ _ _ _ => none
  | .push _ _ _ _ _ _ _ _ => none
  | .atom _ _ _ _ _ _ _ _ _ _ _ => none
  | .atomn _ _ _ _ _ _ _ _ _ _ => none
  | .laneAcas _ _ _ _ _ _ _ _ _ _ => none
  | .disc _ _ _ _ _ => none
  | .pref _ _ _ _ _ _ => none
  | .append _ _ _ _ _ _ _ => none
  | .tailq _ _ _ _ => none
  | .lda _ _ _ _ _ _ => none
  | .find _ _ _ _ _ => none
  | .pick _ _ _ _ _ => none
  | .chst _ _ _ => none
  | .chwait _ _ _ => none
  | .rnext _ _ _ _ => none
  | .rjump _ _ _ _ _ _ => none
  | .runi _ _ _ _ _ => none
  | .rdith _ _ _ _ => none
  | .ltrap _ _ => none
  | .lbrk _ => none
  | .ldxFill _ _ _ _ => none
  | .dataReply _ _ _ _ _ _ => none
  | .writeBufferDrain _ _ => none
  | .classCheckRequest _ => none
  | .loadRequest _ => none
  | .storeRequest _ _ => none
  | .pushRequest _ _ => none
  | .pushInstall _ _ _ => none
  | .gets _ _ _ => none
  | .getx _ _ _ => none
  | .upg _ _ _ => none
  | .evs _ _ _ => none
  | .evx _ _ _ _ => none
  | .inv _ _ _ => none
  | .rclDowngrade _ _ _ => none
  | .rclInvalidate _ _ _ => none
  | .acknowledgement _ _ => none
  | .recallReply _ _ _ => none
  | .grant _ _ _ _ _ => none
  | .pageRecall _ _ => none
  | .barArrival _ _ _ => none
  | .barRelease _ _ _ _ => none
  | .wload _ _ => none
  | .mma _ _ => none
  | .accz _ _ => none
  | .drain _ _ => none
  | .copyin _ _ => none
  | .copyout _ _ => none
  | .gather _ _ => none
  | .fill _ _ => none
  | .coll _ _ => none
  | .collPiece _ _ _ _ _ _ => none
  | .illegalEncodingWord _ _ _ => none
  | .storeAcknowledgement _ _ => none
  | .translationConfirmation _ => none
  | .writeBack _ _ => none
  | .vsync => none
  | .brk => none
  | .exit => none
  | .yieldTurn => none
  | .mall => none
  | .atomicRequest _ => none
  | .appendRequest _ _ _ _ => none
  | .tailqRequest _ _ => none
  | .sealRequest _ _ => none
  | .rangeLoadRequest _ _ => none
  | .dropRequest _ _ => none
  | .regionTableRequest _ _ _ => none
  | .channelMessage _ _ _ => none
  | .faultAnswer _ _ => none
  | .waitNotice _ _ _ _ => none
  | .takePacket _ _ _ => none
  | .dispatch _ => none
  | .afterParent _ => none
  | .completionRecord _ => none
  | .preempt _ => none
  | .bankSwap _ => none
  | .spill _ => none
  | .relaunch _ => none
  | .clearing _ => none
  | .napExpiry _ => none
  | .sampleTick _ => none
  | .rangeRegisterWrite _ _ _ _ _ _ => none
  | .withdraw _ _ _ => none
  | .tierMove _ _ _ _ => none
  | .extentCreate _ _ _ => none
  | .queueRegister _ _ => none
  | .groupRegister _ _ _ => none
  | .memoryKeyRegister _ _ _ _ _ _ => none
  | .contextCreate _ _ _ _ _ _ => none
  | .contextDestroy _ => none
  | .teamKill _ => none
  | .launchCancel _ => none
  | .collectiveCancel _ _ _ => none
  | .latencyReserveSet _ _ => none
  | .packageNumberAssign _ => none
  | .declareDead _ => none
  | .pageHandover _ _ _ => none
  | .pageReturn _ _ _ => none
  | .hostRmaWrite _ _ _ => none
  | .hostRmaRead _ _ _ => none
  | .hostAtomicCas _ _ _ _ => none
  | .hostFetchAdd _ _ _ => none
  | .linkCrcError _ _ => none
  | .cxlPortFail _ => none
  | .thermalGate _ _ => none
  | .thermalShutdown _ => none
  | .patrolScrub _ _ => none
  | .boot _ => none
  | .recoveryImage _ => none
  | .spdmRequest _ => none
  | .managementReadback _ => none
  | .stop _ _ => none
  | .resume _ _ => none
  | .step _ _ _ => none
  | .read _ _ _ => none
  | .write _ _ _ _ _ => none
  | .memread _ _ _ _ => none
  | .memwrite _ _ _ _ => none
  | .breakpoint _ _ _ _ => none
  | .watch _ _ _ _ => none
  | .trapstop _ _ _ => none
  | .abandon _ _ _ _ => none
  | .delegate _ _ => none
  | .revoke _ _ => none
  | .pageTableRootWrite _ _ => none
  | .coreTakenOffline _ => none
  | .coreReturns _ => none
  | .agentReturn _ => none
  | .loadRequestRemote _ _ _ => none

def Value.regNumber : Value → Option Nat
  | .reg n _ => some n.toNat
  | .uni _ => none
  | .con _ => none
  | .chan _ _ => none

def Dest.regNumber : Dest → Option Nat
  | .reg n => some n.toNat
  | .chan _ => none

/-- The four restrictions on the operands of a pair (03:R75): at most two distinct source registers of one bank, at
most three in all, at most one channel operand, and Y neither reads nor writes what X writes. -/
def pairOk (dx dy : Dest) (sx sy : List Value) : Bool :=
  let regs := ((sx ++ sy).filterMap Value.regNumber).eraseDups
  (List.range 4).all (fun k => (regs.filter (fun n => n % 4 == k)).length ≤ 2) &&
  decide (regs.length ≤ 3) &&
  decide (((sx ++ sy).filter Value.isChan).length + ([dx, dy].filter (fun d => d.regNumber.isNone)).length ≤ 1) &&
  (dx.regNumber.isNone || !(sy.filterMap Value.regNumber).contains (dx.regNumber.getD 0)) && dx != dy

/-- A well-formed lane word. -/
def LaneWord.wf : LaneWord → Bool
  | .single i => i.wf && (i.half == some .single || i.half == none)
  | .pair x y =>
    x.wf && y.wf && x.half == some .x && y.half == some .y &&
    (match x.pairOperands, y.pairOperands with
     | some (dx, sx), some (dy, sy) => pairOk dx dy sx sy
     | _, _ => false)

end Sys2Proof
end

