-- ==== Sys2Proof/Decode.lean ====
section
/-!
DEFINITION. From words to instructions and back (03:R66 to R76; 04:R77 to R83).

A decoder gathers every reason of 03:R76 for which a word is refused and answers the smallest; a word with no reason
decodes to an instruction. The encoder follows; it is written from the same tables.
-/

namespace Sys2Proof

/-! ### Reasons -/

/-- Nothing if the condition holds, else the reason. -/
def req (ok : Bool) (reason : Nat) : List Nat := if ok then [] else [reason]

/-- The smallest of a list of reasons. -/
def smallest : List Nat → Option Nat
  | [] => none
  | r :: rest => match smallest rest with
    | none => some r
    | some q => some (if r ≤ q then r else q)

/-- The instruction if there is no reason against it, else the smallest reason. -/
def verdict (rs : List Nat) (i : Instr) : Except Nat Instr :=
  match smallest rs with
  | none => .ok i
  | some r => .error r

/-! ### Coded fields -/

def Scope.bits : Scope → BitVec 3
  | .team => 0 | .quad => 1 | .die => 2 | .pkg => 3 | .sys => 4
def Scope.ofBits (x : BitVec 3) : Scope :=
  if x = 0 then .team else if x = 1 then .quad else if x = 2 then .die else if x = 3 then .pkg else .sys
def Order.bits : Order → BitVec 2
  | .rlx => 0 | .acq => 1 | .rel => 2 | .ar => 3
def Order.ofBits (x : BitVec 2) : Order := if x = 0 then .rlx else if x = 1 then .acq else if x = 2 then .rel else .ar
def Rnd.bits : Rnd → BitVec 3
  | .rn => 0 | .rz => 1 | .rd => 2 | .ru => 3 | .sr => 4
def Rnd.ofBits (x : BitVec 3) : Rnd :=
  if x = 0 then .rn else if x = 1 then .rz else if x = 2 then .rd else if x = 3 then .ru else .sr
/-- The format codes of 03:R65. -/
def FFmt.bits : FFmt → BitVec 4
  | .f32 => 2 | .f16 => 3 | .bf16 => 4 | .e4m3 => 5 | .e5m2 => 6 | .e2m1 => 7
def FFmt.ofBits (x : BitVec 4) : FFmt :=
  if x = 2 then .f32 else if x = 3 then .f16 else if x = 4 then .bf16 else if x = 5 then .e4m3
  else if x = 6 then .e5m2 else .e2m1
def IFmt.bits : IFmt → BitVec 4
  | .i32 => 0 | .u32 => 1 | .i8 => 8 | .u8 => 9 | .i16 => 10 | .u16 => 11 | .i64 => 13
def IFmt.ofBits (x : BitVec 4) : IFmt :=
  if x = 0 then .i32 else if x = 1 then .u32 else if x = 8 then .i8 else if x = 9 then .u8
  else if x = 10 then .i16 else if x = 11 then .u16 else .i64
def ICond.bits : ICond → BitVec 5
  | .eq => 0 | .ne => 1 | .lt => 2 | .le => 3 | .gt => 4 | .ge => 5 | .ltu => 6 | .leu => 7 | .gtu => 8 | .geu => 9
def ICond.ofBits (x : BitVec 5) : ICond :=
  if x = 0 then .eq else if x = 1 then .ne else if x = 2 then .lt else if x = 3 then .le else if x = 4 then .gt
  else if x = 5 then .ge else if x = 6 then .ltu else if x = 7 then .leu else if x = 8 then .gtu else .geu
def FCond.bits : FCond → BitVec 5
  | .eq => 0 | .ne => 1 | .lt => 2 | .le => 3 | .gt => 4 | .ge => 5 | .un => 6 | .ord => 7
def FCond.ofBits (x : BitVec 5) : FCond :=
  if x = 0 then .eq else if x = 1 then .ne else if x = 2 then .lt else if x = 3 then .le else if x = 4 then .gt
  else if x = 5 then .ge else if x = 6 then .un else .ord
def ShflMode.bits : ShflMode → BitVec 2
  | .idx => 0 | .up => 1 | .dn => 2 | .xor => 3
def ShflMode.ofBits (x : BitVec 2) : ShflMode :=
  if x = 0 then .idx else if x = 1 then .up else if x = 2 then .dn else .xor
def VoteKind.bits : VoteKind → BitVec 5
  | .any => 0 | .all => 1 | .bal => 2 | .eq => 3
def VoteKind.ofBits (x : BitVec 5) : VoteKind :=
  if x = 0 then .any else if x = 1 then .all else if x = 2 then .bal else .eq
def MemSize.bits : MemSize → BitVec 3
  | .b => 0 | .h => 1 | .w => 2 | .d => 3 | .q => 4
def MemSize.ofBits (x : BitVec 3) : MemSize :=
  if x = 0 then .b else if x = 1 then .h else if x = 2 then .w else if x = 3 then .d else .q
def Scale.bits : Scale → BitVec 3
  | .x1 => 0 | .x2 => 1 | .x4 => 2 | .x8 => 3 | .x16 => 4
def Scale.ofBits (x : BitVec 3) : Scale :=
  if x = 0 then .x1 else if x = 1 then .x2 else if x = 2 then .x4 else if x = 3 then .x8 else .x16
def AScale.bits : AScale → BitVec 2
  | .x1 => 0 | .x4 => 1 | .x8 => 2 | .x16 => 3
def AScale.ofBits (x : BitVec 2) : AScale :=
  if x = 0 then .x1 else if x = 1 then .x4 else if x = 2 then .x8 else .x16
def Policy.bits : Policy → BitVec 2
  | .l1 => 0 | .h => 1 | .s => 2
def Policy.ofBits (x : BitVec 2) : Policy := if x = 0 then .l1 else if x = 1 then .h else .s
def AtomOp.bits : AtomOp → BitVec 4
  | .add => 0 | .and => 1 | .or => 2 | .xor => 3 | .min => 4 | .max => 5 | .minu => 6 | .maxu => 7 | .swp => 8 | .fadd => 9
def AtomOp.ofBits (x : BitVec 4) : AtomOp :=
  if x = 0 then .add else if x = 1 then .and else if x = 2 then .or else if x = 3 then .xor else if x = 4 then .min
  else if x = 5 then .max else if x = 6 then .minu else if x = 7 then .maxu else if x = 8 then .swp else .fadd
def ConstSrc.bits : ConstSrc → BitVec 8
  | .zero => 224 | .one => 225 | .lane => 226 | .warp => 227 | .team => 228 | .em => 229 | .live => 230
def ConstSrc.ofBits (x : BitVec 8) : ConstSrc :=
  if x = 224 then .zero else if x = 225 then .one else if x = 226 then .lane else if x = 227 then .warp
  else if x = 228 then .team else if x = 229 then .em else .live

/-! ### Operand fields (01:R22, R24; 03:R68; 06:R115) -/

def ofGuard (g : Guard) : BitVec 4 := BitVec.ofBool g.neg ++ g.p
def toGuard (x : BitVec 4) : Guard := ⟨x.getLsbD 3, x.extractLsb' 0 3⟩

def ofReg (n : VReg) (mode : Bool) : BitVec 10 := 0#1 ++ BitVec.ofBool mode ++ n
/-- A uniform scalar as a source field. -/
def ofS (n : SReg) : BitVec 10 := 0#2 ++ (0b110#3 ++ n)
def ofChan (n : BitVec 4) : BitVec 10 := 0b10#2 ++ 0#4 ++ n
def ofVal : Value → BitVec 10
  | .reg n t => ofReg n t
  | .uni n => ofS n
  | .con k => 0#2 ++ k.bits
  | .chan n p => 1#1 ++ BitVec.ofBool p ++ 0#4 ++ n
def toVal (x : BitVec 10) : Value :=
  if x.getLsbD 9 then .chan (x.extractLsb' 0 4) (x.getLsbD 8)
  else if x.extractLsb' 0 8 < 192#8 then .reg (x.extractLsb' 0 8) (x.getLsbD 8)
  else if x.extractLsb' 0 8 < 224#8 then .uni (x.extractLsb' 0 5)
  else .con (ConstSrc.ofBits (x.extractLsb' 0 8))
def toSReg (x : BitVec 10) : SReg := x.extractLsb' 0 5
def toVReg10 (x : BitVec 10) : VReg := x.extractLsb' 0 8
def toChan (x : BitVec 10) : BitVec 4 := x.extractLsb' 0 4
def ofPred10 (p : Pred) : BitVec 10 := 0#7 ++ p
def toPred10 (x : BitVec 10) : Pred := x.extractLsb' 0 3

def ofDest : Dest → BitVec 9
  | .reg n => 0#1 ++ n
  | .chan n => 1#1 ++ 0#4 ++ n
def toDest (x : BitVec 9) : Dest :=
  if x.getLsbD 8 then .chan (x.extractLsb' 0 4) else .reg (x.extractLsb' 0 8)
def ofVReg9 (n : VReg) : BitVec 9 := 0#1 ++ n
def toVReg (x : BitVec 9) : VReg := x.extractLsb' 0 8
def ofS9 (n : SReg) : BitVec 9 := 0#1 ++ (0b110#3 ++ n)
def toSReg9 (x : BitVec 9) : SReg := x.extractLsb' 0 5
/-- A predicate destination in D: bits [81:77] zero, bits [76:74] the number (06:R115). -/
def ofPred9 (p : Pred) : BitVec 9 := 0#6 ++ p
def toPred9 (x : BitVec 9) : Pred := x.extractLsb' 0 3

/-! ### Checks of an operand field -/

/-- Index 231 to 255 of class 0, or a channel above 15 or the SRQ as a source (reason 3). -/
def srcCommon (x : BitVec 10) : List Nat :=
  if x.getLsbD 9 then req (x.extractLsb' 0 8 < 15#8) 3
  else req (x.extractLsb' 0 8 < 231#8) 3 ++ req (x.extractLsb' 0 8 < 192#8 || !x.getLsbD 8) 5
/-- A value source (06:R116). -/
def sV (x : BitVec 10) : List Nat := srcCommon x
/-- A value source that may not be a channel (06:R130). -/
def sRO (x : BitVec 10) : List Nat := srcCommon x ++ req (!x.getLsbD 9) 3
/-- A uniform operand of a mask instruction: index 192 to 230 (06:R128). -/
def sU (x : BitVec 10) : List Nat := srcCommon x ++ req (!x.getLsbD 9 && 192#8 ≤ x.extractLsb' 0 8) 6
/-- The seed of RDITH: index 192 to 223 (14:R273). -/
def sUS (x : BitVec 10) : List Nat :=
  srcCommon x ++ req (!x.getLsbD 9 && 192#8 ≤ x.extractLsb' 0 8 && x.extractLsb' 0 8 < 224#8) 6
/-- The base of a memory operand: index 192 to 223 (03:R72, reason 15). -/
def sB (x : BitVec 10) : List Nat :=
  srcCommon x ++ req (!x.getLsbD 9 && 192#8 ≤ x.extractLsb' 0 8 && x.extractLsb' 0 8 < 224#8) 15
/-- An operand of `n` consecutive registers; one register: any value (01:R14), in C of a store or an atomic a channel peek as well as
the pop that 10:R190 names (DESIGN CHOICE, log 50). -/
def sG (n : Nat) (x : BitVec 10) : List Nat :=
  if n = 1 then sV x
  else srcCommon x ++
    (if !x.getLsbD 9 && x.extractLsb' 0 8 < 192#8 then req ((x.extractLsb' 0 8).toNat % n == 0) 7 else [6])
/-- A predicate source: 06:R115 gives reason 6 for any other value, and the reasons 3 to 5 of a value's index do not come before it
(DESIGN CHOICE, log 50). -/
def sP (x : BitVec 10) : List Nat := req (x < 8#10) 6
/-- The channel of CHST and CHWAIT: class 1, mode 0 (14:R270, R271). -/
def sCh (x : BitVec 10) : List Nat := srcCommon x ++ req (x.getLsbD 9 && !x.getLsbD 8) 6
/-- The register of WAITF (06:R118). -/
def sW (x : BitVec 10) : List Nat := srcCommon x ++ req (!x.getLsbD 9 && x.extractLsb' 0 8 < 192#8) 6
/-- The B of APPEND and TAILQ: %zero (10:R205). -/
def sZ (x : BitVec 10) : List Nat := srcCommon x ++ req (x == 224#10) 6
/-- An unused source or destination field (03:R69). -/
def zero10 (x : BitVec 10) : List Nat := req (x == 0) 2
def zero9 (x : BitVec 9) : List Nat := req (x == 0) 2

/-- A destination of class 0 below 192, or a channel up to 15 (01:R22, R24). -/
def dstCommon (x : BitVec 9) : List Nat :=
  if x.getLsbD 8 then req (x.extractLsb' 0 8 ≤ 15#8) 3
  else req (x.extractLsb' 0 8 < 231#8) 3 ++ req (x.extractLsb' 0 8 < 192#8) 4
def dR (x : BitVec 9) : List Nat := dstCommon x
/-- A register-class destination of `n` consecutive registers (01:R14; 10:R190). -/
def dG (n : Nat) (x : BitVec 9) : List Nat :=
  dstCommon x ++ (if !x.getLsbD 8 then
    (if x.extractLsb' 0 8 < 192#8 then req ((x.extractLsb' 0 8).toNat % n == 0) 7 else req (n == 1) 6) else [6])
/-- A predicate destination: reason 6 alone, as for a predicate source (06:R115; DESIGN CHOICE, log 50). -/
def dP (x : BitVec 9) : List Nat := req (x < 8#9) 6
/-- The destination set of PUSH: class 0, index 192 to 223 (10:R190). -/
def dSet (x : BitVec 9) : List Nat :=
  (if x.getLsbD 8 then req (x.extractLsb' 0 8 ≤ 15#8) 3 else req (x.extractLsb' 0 8 < 231#8) 3) ++
    req (!x.getLsbD 8 && 192#8 ≤ x.extractLsb' 0 8 && x.extractLsb' 0 8 < 224#8) 15

/-! ### The single lane word (03:R68, R70) -/

/-- The fields of a single lane word. -/
structure LaneFields where
  op : BitVec 8
  g : BitVec 4
  d : BitVec 9
  a : BitVec 10
  b : BitVec 10
  c : BitVec 10
  m : BitVec 12
  i : W32
  deriving DecidableEq, Repr

namespace LaneFields
/-- The arithmetic layout of M. -/
def ty (f : LaneFields) : BitVec 4 := f.m.extractLsb' 8 4
def rnd (f : LaneFields) : BitVec 3 := f.m.extractLsb' 5 3
def opx (f : LaneFields) : BitVec 5 := f.m.extractLsb' 0 5
/-- The memory layout of M. -/
def msize (f : LaneFields) : BitVec 3 := f.m.extractLsb' 9 3
def mscale (f : LaneFields) : BitVec 3 := f.m.extractLsb' 6 3
def mpol (f : LaneFields) : BitVec 2 := f.m.extractLsb' 4 2
def mopx (f : LaneFields) : BitVec 4 := f.m.extractLsb' 0 4
/-- The atomic layout of M. -/
def aop (f : LaneFields) : BitVec 4 := f.m.extractLsb' 8 4
def ascope (f : LaneFields) : BitVec 3 := f.m.extractLsb' 5 3
def aord (f : LaneFields) : BitVec 2 := f.m.extractLsb' 3 2
def asize (f : LaneFields) : Bool := f.m.getLsbD 2
def asc (f : LaneFields) : BitVec 2 := f.m.extractLsb' 0 2
end LaneFields

def arithM (ty : BitVec 4) (rnd : BitVec 3) (opx : BitVec 5) : BitVec 12 := ty ++ rnd ++ opx
def memM (size scale : BitVec 3) (pol : BitVec 2) (opx : BitVec 4) : BitVec 12 := size ++ scale ++ pol ++ opx
def atomM (op : BitVec 4) (scope : BitVec 3) (o : BitVec 2) (dbl : Bool) (sc : BitVec 2) : BitVec 12 :=
  op ++ scope ++ o ++ BitVec.ofBool dbl ++ sc

/-- The word of a single instruction: bit 95 is clear. -/
def packLane (f : LaneFields) : BitVec 96 := 0#1 ++ f.op ++ f.g ++ f.d ++ f.a ++ f.b ++ f.c ++ f.m ++ f.i
def unpackLane (w : BitVec 96) : LaneFields where
  op := w.extractLsb' 87 8
  g := w.extractLsb' 83 4
  d := w.extractLsb' 74 9
  a := w.extractLsb' 64 10
  b := w.extractLsb' 54 10
  c := w.extractLsb' 44 10
  m := w.extractLsb' 32 12
  i := w.extractLsb' 0 32

/-- Checks of M in the arithmetic layout: the types accepted, the highest rounding code, whether opx is defined
(04:R83). -/
def arith (f : LaneFields) (types : List (BitVec 4)) (rndMax : Nat) (opxOk : Bool) : List Nat :=
  req (types.contains f.ty) 6 ++ req (decide (f.rnd.toNat ≤ rndMax)) 6 ++ req opxOk 6
/-- Bits of I outside the mask are unused (03:R69; 06:R116). -/
def reqI (f : LaneFields) (mask : W32) : List Nat := req ((f.i &&& ~~~mask) == 0) 2

/-- The instruction of a word: its guard must be zero for the mask instructions (06:R128) and never 0b1000. -/
def fin (f : LaneFields) (guardZero : Bool) (rs : List Nat) (i : Instr) : Except Nat Instr :=
  verdict (rs ++ req (!guardZero || f.g == 0) 2 ++ req (f.g != 8) 8) i

/-- SHFL: width codes 1 to 5 (04:R82). -/
def shflOk (opx : BitVec 5) : Bool := 1#3 ≤ opx.extractLsb' 0 3 && opx.extractLsb' 0 3 ≤ 5#3
/-- The types of LRED and LSCAN by operator (06:R117). -/
def redTypes (opx : BitVec 5) : List (BitVec 4) :=
  if opx.extractLsb' 0 4 == 1#4 || opx.extractLsb' 0 4 == 2#4 then [0, 1]
  else if 6#4 ≤ opx.extractLsb' 0 4 then [2] else [0]
def redRnd (opx : BitVec 5) : Nat := if opx.extractLsb' 0 4 == 6#4 then 3 else 0
def RedOp.ofBits (ty : BitVec 4) (rnd : BitVec 3) (opx : BitVec 5) : RedOp :=
  let k := opx.extractLsb' 0 4
  if k = 0 then .add else if k = 1 then .min (ty == 1) else if k = 2 then .max (ty == 1) else if k = 3 then .and
  else if k = 4 then .or else if k = 5 then .xor else if k = 6 then .fadd (Rnd.ofBits rnd) else if k = 7 then .fmin
  else .fmax
/-- The M of LRED and LSCAN. -/
def RedOp.m (o : RedOp) (excl : Bool) : BitVec 12 :=
  let e := BitVec.ofBool excl
  match o with
  | .add => arithM 0 0 (e ++ 0#4)
  | .min u => arithM (if u then 1 else 0) 0 (e ++ 1#4)
  | .max u => arithM (if u then 1 else 0) 0 (e ++ 2#4)
  | .and => arithM 0 0 (e ++ 3#4)
  | .or => arithM 0 0 (e ++ 4#4)
  | .xor => arithM 0 0 (e ++ 5#4)
  | .fadd r => arithM 2 r.bits (e ++ 6#4)
  | .fmin => arithM 2 0 (e ++ 7#4)
  | .fmax => arithM 2 0 (e ++ 8#4)
/-- The integer sources of CVTIF (08:R155). -/
def ifmtOk (x : BitVec 5) : Bool := x == 0 || x == 1 || x == 8 || x == 9 || x == 10 || x == 11 || x == 13
/-- The float formats of CVTFF (08:R155). -/
def ffmtOk (x : BitVec 5) : Bool := 2#5 ≤ x && x ≤ 7#5
def isFp8 (t : BitVec 4) : Bool := t == 5 || t == 6
/-- The element number of UNPK must be below 32 divided by the width (08:R172). -/
def unpkOk (opx : BitVec 5) (j : BitVec 3) : Bool :=
  if opx == 3 || opx == 4 then j < 2#3 else if opx == 5 || opx == 6 then j < 4#3 else true
/-- CHWAIT: k is 1 to 4 (14:R271). -/
def chwaitOk (k : BitVec 3) : Bool := 1#3 ≤ k && k ≤ 4#3
/-- Registers of a group by size code; a reserved size counts as one. -/
def grp (size : BitVec 3) : Nat := if size == 3 then 2 else if size == 4 then 4 else 1
def agrp (dbl : Bool) : Nat := if dbl then 2 else 1
/-- .SX is for B and H alone (10:R190). -/
def sxOk (size : BitVec 3) (opx : BitVec 4) : Bool := opx == 0 || (opx == 1 && size < 2#3)

/-- The instruction of a single lane word's fields (04:R81). -/
def decodeFields (f : LaneFields) : Except Nat Instr :=
  match f.op.toNat with
  | 0x01 => fin f false (zero9 f.d ++ zero10 f.a ++ zero10 f.b ++ zero10 f.c ++ arith f ([0]) 0 (f.opx == 0) ++ reqI f 0)
      (.nop (toGuard f.g))
  | 0x02 => fin f false (dR f.d ++ sV f.a ++ zero10 f.b ++ zero10 f.c ++ arith f ([0]) 0 (f.opx == 0) ++ reqI f 0)
      (.mov (toGuard f.g) .single (toDest f.d) (toVal f.a))
  | 0x03 => fin f false (dR f.d ++ zero10 f.a ++ zero10 f.b ++ zero10 f.c ++ arith f ([0]) 0 (f.opx == 0))
      (.movi (toGuard f.g) (toDest f.d) f.i)
  | 0x04 => fin f false (zero9 f.d ++ sW f.a ++ zero10 f.b ++ zero10 f.c ++ arith f ([0]) 0 (f.opx == 0) ++ reqI f 0)
      (.waitf (toGuard f.g) (toVReg10 f.a) (f.a.getLsbD 8))
  | 0x05 => fin f false (dR f.d ++ sV f.a ++ sV f.b ++ arith f [0] 0 (f.opx < 2) ++ (if f.opx.getLsbD 0 then sV f.c ++ reqI f 0 else zero10 f.c ++ reqI f 0xEFFFF))
      (.bswz (toGuard f.g) (toDest f.d) (toVal f.a) (toVal f.b) (if f.opx.getLsbD 0 then .val (toVal f.c) else .imm (f.i.extractLsb' 0 20)))
  | 0x10 => fin f false (dR f.d ++ sV f.a ++ sV f.b ++ zero10 f.c ++ arith f ([0]) 0 (f.opx == 0) ++ reqI f 0)
      (.iadd (toGuard f.g) .single (toDest f.d) (toVal f.a) (toVal f.b))
  | 0x11 => fin f false (dR f.d ++ sV f.a ++ sV f.b ++ zero10 f.c ++ arith f ([0]) 0 (f.opx == 0) ++ reqI f 0)
      (.isub (toGuard f.g) .single (toDest f.d) (toVal f.a) (toVal f.b))
  | 0x12 => fin f false (dR f.d ++ sV f.a ++ sV f.b ++ zero10 f.c ++ arith f ([0, 1]) 0 (f.opx == 0) ++ reqI f 0)
      (.iadds (toGuard f.g) (f.ty == 1) (toDest f.d) (toVal f.a) (toVal f.b))
  | 0x13 => fin f false (dR f.d ++ sV f.a ++ sV f.b ++ zero10 f.c ++ arith f ([0, 1]) 0 (f.opx == 0) ++ reqI f 0)
      (.isubs (toGuard f.g) (f.ty == 1) (toDest f.d) (toVal f.a) (toVal f.b))
  | 0x14 => fin f false (dR f.d ++ sV f.a ++ sV f.b ++ zero10 f.c ++ arith f ([0]) 0 (f.opx == 0) ++ reqI f 0)
      (.imul (toGuard f.g) (toDest f.d) (toVal f.a) (toVal f.b))
  | 0x15 => fin f false (dR f.d ++ sV f.a ++ sV f.b ++ zero10 f.c ++ arith f ([0]) 0 (f.opx == 0) ++ reqI f 0)
      (.imulh (toGuard f.g) (toDest f.d) (toVal f.a) (toVal f.b))
  | 0x16 => fin f false (dR f.d ++ sV f.a ++ sV f.b ++ zero10 f.c ++ arith f ([0]) 0 (f.opx == 0) ++ reqI f 0)
      (.imulhu (toGuard f.g) (toDest f.d) (toVal f.a) (toVal f.b))
  | 0x17 => fin f false (dR f.d ++ sV f.a ++ sV f.b ++ sV f.c ++ arith f ([0]) 0 (f.opx == 0) ++ reqI f 0)
      (.imad (toGuard f.g) (toDest f.d) (toVal f.a) (toVal f.b) (toVal f.c))
  | 0x18 => fin f false (dR f.d ++ sV f.a ++ sV f.b ++ zero10 f.c ++ arith f ([0]) 0 (f.opx == 0) ++ reqI f 0)
      (.imin (toGuard f.g) .single (toDest f.d) (toVal f.a) (toVal f.b))
  | 0x19 => fin f false (dR f.d ++ sV f.a ++ sV f.b ++ zero10 f.c ++ arith f ([0]) 0 (f.opx == 0) ++ reqI f 0)
      (.imax (toGuard f.g) .single (toDest f.d) (toVal f.a) (toVal f.b))
  | 0x1A => fin f false (dR f.d ++ sV f.a ++ sV f.b ++ zero10 f.c ++ arith f ([0]) 0 (f.opx == 0) ++ reqI f 0)
      (.iminu (toGuard f.g) (toDest f.d) (toVal f.a) (toVal f.b))
  | 0x1B => fin f false (dR f.d ++ sV f.a ++ sV f.b ++ zero10 f.c ++ arith f ([0]) 0 (f.opx == 0) ++ reqI f 0)
      (.imaxu (toGuard f.g) (toDest f.d) (toVal f.a) (toVal f.b))
  | 0x1C => fin f false (dR f.d ++ sV f.a ++ zero10 f.b ++ zero10 f.c ++ arith f ([0]) 0 (f.opx == 0) ++ reqI f 0)
      (.iabs (toGuard f.g) (toDest f.d) (toVal f.a))
  | 0x1D => fin f false (dR f.d ++ sV f.a ++ zero10 f.b ++ zero10 f.c ++ arith f ([0]) 0 (f.opx == 0) ++ reqI f 0)
      (.ineg (toGuard f.g) (toDest f.d) (toVal f.a))
  | 0x1E => fin f false (dR f.d ++ sV f.a ++ sV f.b ++ zero10 f.c ++ arith f ([0]) 0 (f.opx == 0) ++ reqI f 0)
      (.laneAnd (toGuard f.g) .single (toDest f.d) (toVal f.a) (toVal f.b))
  | 0x1F => fin f false (dR f.d ++ sV f.a ++ sV f.b ++ zero10 f.c ++ arith f ([0]) 0 (f.opx == 0) ++ reqI f 0)
      (.laneOr (toGuard f.g) .single (toDest f.d) (toVal f.a) (toVal f.b))
  | 0x20 => fin f false (dR f.d ++ sV f.a ++ sV f.b ++ zero10 f.c ++ arith f ([0]) 0 (f.opx == 0) ++ reqI f 0)
      (.laneXor (toGuard f.g) .single (toDest f.d) (toVal f.a) (toVal f.b))
  | 0x21 => fin f false (dR f.d ++ sV f.a ++ sV f.b ++ zero10 f.c ++ arith f ([0]) 0 (f.opx == 0) ++ reqI f 0)
      (.laneAndn (toGuard f.g) (toDest f.d) (toVal f.a) (toVal f.b))
  | 0x22 => fin f false (dR f.d ++ sV f.a ++ zero10 f.b ++ zero10 f.c ++ arith f ([0]) 0 (f.opx == 0) ++ reqI f 0)
      (.laneNot (toGuard f.g) (toDest f.d) (toVal f.a))
  | 0x23 => fin f false (dR f.d ++ sV f.a ++ sV f.b ++ zero10 f.c ++ arith f ([0]) 0 (f.opx == 0) ++ reqI f 0)
      (.shl (toGuard f.g) .single (toDest f.d) (toVal f.a) (toVal f.b))
  | 0x24 => fin f false (dR f.d ++ sV f.a ++ sV f.b ++ zero10 f.c ++ arith f ([0]) 0 (f.opx == 0) ++ reqI f 0)
      (.shr (toGuard f.g) .single (toDest f.d) (toVal f.a) (toVal f.b))
  | 0x25 => fin f false (dR f.d ++ sV f.a ++ sV f.b ++ zero10 f.c ++ arith f ([0]) 0 (f.opx == 0) ++ reqI f 0)
      (.sar (toGuard f.g) .single (toDest f.d) (toVal f.a) (toVal f.b))
  | 0x26 => fin f false (dR f.d ++ sV f.a ++ sV f.b ++ zero10 f.c ++ arith f ([0]) 0 (f.opx == 0) ++ reqI f 0)
      (.rol (toGuard f.g) (toDest f.d) (toVal f.a) (toVal f.b))
  | 0x27 => fin f false (dR f.d ++ sV f.a ++ sV f.b ++ zero10 f.c ++ arith f ([0]) 0 (f.opx == 0) ++ reqI f 0)
      (.ror (toGuard f.g) (toDest f.d) (toVal f.a) (toVal f.b))
  | 0x28 => fin f false (dR f.d ++ sV f.a ++ zero10 f.b ++ zero10 f.c ++ arith f ([0]) 0 (f.opx == 0) ++ reqI f 0)
      (.laneClz (toGuard f.g) (toDest f.d) (toVal f.a))
  | 0x29 => fin f false (dR f.d ++ sV f.a ++ zero10 f.b ++ zero10 f.c ++ arith f ([0]) 0 (f.opx == 0) ++ reqI f 0)
      (.lanePopc (toGuard f.g) (toDest f.d) (toVal f.a))
  | 0x2A => fin f false (dR f.d ++ sV f.a ++ zero10 f.b ++ zero10 f.c ++ arith f ([0]) 0 (f.opx == 0) ++ reqI f 0)
      (.brev (toGuard f.g) (toDest f.d) (toVal f.a))
  | 0x2B => fin f false (dR f.d ++ sV f.a ++ sV f.b ++ zero10 f.c ++ arith f ([0, 1]) 0 (f.opx == 0) ++ reqI f 0)
      (.bfx (toGuard f.g) (f.ty == 1) (toDest f.d) (toVal f.a) (toVal f.b))
  | 0x2C => fin f false (dR f.d ++ sV f.a ++ sV f.b ++ sV f.c ++ arith f ([0]) 0 (f.opx == 0) ++ reqI f 0)
      (.bfi (toGuard f.g) (toDest f.d) (toVal f.a) (toVal f.b) (toVal f.c))
  | 0x2D => fin f false (dR f.d ++ sV f.a ++ sV f.b ++ zero10 f.c ++ arith f ([0]) 0 (f.opx == 0) ++ reqI f 0)
      (.idivu (toGuard f.g) (toDest f.d) (toVal f.a) (toVal f.b))
  | 0x2E => fin f false (dR f.d ++ sV f.a ++ sV f.b ++ zero10 f.c ++ arith f ([0]) 0 (f.opx == 0) ++ reqI f 0)
      (.iremu (toGuard f.g) (toDest f.d) (toVal f.a) (toVal f.b))
  | 0x2F => fin f false (dR f.d ++ sV f.a ++ sV f.b ++ zero10 f.c ++ arith f ([0]) 0 (f.opx == 0) ++ reqI f 0xF7)
      (.iaddc (toGuard f.g) (toDest f.d) (toVal f.a) (toVal f.b) (f.i.extractLsb' 0 3) (f.i.getLsbD 7) (f.i.extractLsb' 4 3))
  | 0x30 => fin f false (dP f.d ++ sV f.a ++ sV f.b ++ zero10 f.c ++ arith f ([0]) 0 (f.opx < 10) ++ reqI f 0)
      (.icmp (toGuard f.g) (ICond.ofBits f.opx) (toPred9 f.d) (toVal f.a) (toVal f.b))
  | 0x31 => fin f false (dP f.d ++ sV f.a ++ sV f.b ++ zero10 f.c ++ arith f ([2]) 0 (f.opx < 8) ++ reqI f 0)
      (.fcmp (toGuard f.g) (FCond.ofBits f.opx) (toPred9 f.d) (toVal f.a) (toVal f.b))
  | 0x32 => fin f false (dP f.d ++ sP f.a ++ sP f.b ++ zero10 f.c ++ arith f ([0]) 0 (f.opx < 4) ++ reqI f 0)
      (.pand (toGuard f.g) (f.opx.getLsbD 0) (f.opx.getLsbD 1) (toPred9 f.d) (toPred10 f.a) (toPred10 f.b))
  | 0x33 => fin f false (dP f.d ++ sP f.a ++ sP f.b ++ zero10 f.c ++ arith f ([0]) 0 (f.opx < 4) ++ reqI f 0)
      (.por (toGuard f.g) (f.opx.getLsbD 0) (f.opx.getLsbD 1) (toPred9 f.d) (toPred10 f.a) (toPred10 f.b))
  | 0x34 => fin f false (dP f.d ++ sP f.a ++ sP f.b ++ zero10 f.c ++ arith f ([0]) 0 (f.opx < 4) ++ reqI f 0)
      (.pxor (toGuard f.g) (f.opx.getLsbD 0) (f.opx.getLsbD 1) (toPred9 f.d) (toPred10 f.a) (toPred10 f.b))
  | 0x35 => fin f false (dP f.d ++ sP f.a ++ zero10 f.b ++ zero10 f.c ++ arith f ([0]) 0 (f.opx == 0) ++ reqI f 0)
      (.pnot (toGuard f.g) (toPred9 f.d) (toPred10 f.a))
  | 0x36 => fin f false (dP f.d ++ sV f.a ++ zero10 f.b ++ zero10 f.c ++ arith f ([0]) 0 (f.opx == 0) ++ reqI f 0x1F)
      (.pmov (toGuard f.g) (toPred9 f.d) (toVal f.a) (f.i.extractLsb' 0 5))
  | 0x37 => fin f false (dR f.d ++ zero10 f.a ++ zero10 f.b ++ zero10 f.c ++ arith f ([0]) 0 (f.opx == 0) ++ reqI f 0)
      (.pget (toGuard f.g) (toDest f.d))
  | 0x38 => fin f false (dR f.d ++ sV f.a ++ sV f.b ++ zero10 f.c ++ arith f ([0]) 0 (f.opx < 16) ++ reqI f 0)
      (.sel (toGuard f.g) .single (f.opx.getLsbD 3) (f.opx.extractLsb' 0 3) (toDest f.d) (toVal f.a) (toVal f.b))
  | 0x40 => fin f true (zero9 f.d ++ sP f.a ++ zero10 f.b ++ zero10 f.c ++ arith f ([0]) 0 (f.opx < 2) ++ reqI f 0)
      (.mset (f.opx.getLsbD 0) (toPred10 f.a))
  | 0x41 => fin f true (zero9 f.d ++ sU f.a ++ zero10 f.b ++ zero10 f.c ++ arith f ([0]) 0 (f.opx == 0) ++ reqI f 0)
      (.mrst (toVal f.a))
  | 0x42 => fin f true (dR f.d ++ zero10 f.a ++ zero10 f.b ++ zero10 f.c ++ arith f ([0]) 0 (f.opx == 0) ++ reqI f 0)
      (.mget (toDest f.d))
  | 0x44 => fin f true (zero9 f.d ++ sU f.a ++ zero10 f.b ++ zero10 f.c ++ arith f ([0]) 0 (f.opx == 0) ++ reqI f 0)
      (.mnot (toVal f.a))
  | 0x48 => fin f false (dR f.d ++ sRO f.a ++ sV f.b ++ zero10 f.c ++ arith f ([0]) 0 (shflOk f.opx) ++ reqI f 0x7)
      (.shfl (toGuard f.g) (ShflMode.ofBits (f.opx.extractLsb' 3 2)) (f.opx.extractLsb' 0 3) (toDest f.d) (toVal f.a) (toVal f.b) (f.i.extractLsb' 0 3))
  | 0x49 => fin f false (dR f.d ++ sP f.a ++ zero10 f.b ++ zero10 f.c ++ arith f ([0]) 0 (f.opx < 4) ++ reqI f 0)
      (.vote (toGuard f.g) (VoteKind.ofBits f.opx) (toDest f.d) (toPred10 f.a))
  | 0x4A => fin f false (dR f.d ++ sRO f.a ++ zero10 f.b ++ zero10 f.c ++ arith f (redTypes f.opx) (redRnd f.opx) (f.opx < 9) ++ reqI f 0)
      (.lred (toGuard f.g) (RedOp.ofBits f.ty f.rnd f.opx) (toDest f.d) (toVal f.a))
  | 0x4B => fin f false (dR f.d ++ sRO f.a ++ zero10 f.b ++ zero10 f.c ++ arith f (redTypes f.opx) (redRnd f.opx) ((f.opx &&& 15) < 9) ++ reqI f 0)
      (.lscan (toGuard f.g) (RedOp.ofBits f.ty f.rnd f.opx) (f.opx.getLsbD 4) (toDest f.d) (toVal f.a))
  | 0x4C => fin f false (dR f.d ++ sP f.a ++ zero10 f.b ++ zero10 f.c ++ arith f ([0]) 0 (f.opx == 0) ++ reqI f 0)
      (.lfirst (toGuard f.g) (toDest f.d) (toPred10 f.a))
  | 0x4D => fin f false (dR f.d ++ sRO f.a ++ zero10 f.b ++ zero10 f.c ++ arith f ([0]) 0 (f.opx == 0) ++ reqI f (if f.i.getLsbD 5 then 0x20 else 0x1F))
      (.bcast (toGuard f.g) (toDest f.d) (toVal f.a) (if f.i.getLsbD 5 then none else some (f.i.extractLsb' 0 5)))
  | 0x58 => fin f false (dR f.d ++ (if (f.opx &&& 15) == 13 then sG 2 f.a else sV f.a) ++ zero10 f.b ++ zero10 f.c ++ arith f ([2, 3, 4]) 4 (ifmtOk (f.opx &&& 15)) ++ reqI f 0)
      (.cvtif (toGuard f.g) (FFmt.ofBits f.ty) (IFmt.ofBits (f.opx.extractLsb' 0 4)) (Rnd.ofBits f.rnd) (f.opx.getLsbD 4) (toDest f.d) (toVal f.a))
  | 0x59 => fin f false ((if f.ty == 13 then dG 2 f.d else dR f.d) ++ sV f.a ++ zero10 f.b ++ zero10 f.c ++ arith f ([0, 1, 8, 9, 10, 11, 13]) 4 ((f.opx == 2 || f.opx == 3 || f.opx == 4)) ++ reqI f 0)
      (.cvtfi (toGuard f.g) (IFmt.ofBits f.ty) (FFmt.ofBits (f.opx.extractLsb' 0 4)) (Rnd.ofBits f.rnd) (toDest f.d) (toVal f.a))
  | 0x5A => fin f false (dR f.d ++ sV f.a ++ zero10 f.b ++ zero10 f.c ++ arith f ([2, 3, 4, 5, 6, 7]) 4 (ffmtOk (f.opx &&& 15)) ++ reqI f 0)
      (.cvtff (toGuard f.g) (FFmt.ofBits f.ty) (FFmt.ofBits (f.opx.extractLsb' 0 4)) (Rnd.ofBits f.rnd) (f.opx.getLsbD 4) (toDest f.d) (toVal f.a))
  | 0x5B => fin f false (dR f.d ++ sV f.a ++ sV f.b ++ arith f [3, 4, 5, 6] 4 ((f.opx &&& 15) == 2) ++ (if isFp8 f.ty then sV f.c ++ reqI f 1 else zero10 f.c ++ reqI f 0))
      (.pack (toGuard f.g) (FFmt.ofBits f.ty) (Rnd.ofBits f.rnd) (f.opx.getLsbD 4) (toDest f.d) (toVal f.a) (toVal f.b)
        (if isFp8 f.ty then .fp8 (toVal f.c) (f.i.getLsbD 0) else .none))
  | 0x5C => fin f false (dR f.d ++ sV f.a ++ zero10 f.b ++ zero10 f.c ++ arith f ([2]) 0 ((f.opx == 3 || f.opx == 4 || f.opx == 5 || f.opx == 6 || f.opx == 7)) ++ reqI f 0x7 ++ req (unpkOk f.opx (f.i.extractLsb' 0 3)) 6)
      (.unpk (toGuard f.g) (FFmt.ofBits (f.opx.extractLsb' 0 4)) (toDest f.d) (toVal f.a) (f.i.extractLsb' 0 3))
  | 0x5D => fin f false (dR f.d ++ sV f.a ++ sV f.b ++ zero10 f.c ++ arith f ([12]) 4 (f.opx == 0) ++ reqI f 0)
      (.qbpi (toGuard f.g) (Rnd.ofBits f.rnd) (toDest f.d) (toVal f.a) (toVal f.b))
  | 0x60 => fin f false (dR f.d ++ sV f.a ++ sV f.b ++ zero10 f.c ++ arith f ([2]) 4 (f.opx == 0) ++ reqI f 0)
      (.fadd (toGuard f.g) .single (Rnd.ofBits f.rnd) (toDest f.d) (toVal f.a) (toVal f.b))
  | 0x61 => fin f false (dR f.d ++ sV f.a ++ sV f.b ++ zero10 f.c ++ arith f ([2]) 4 (f.opx == 0) ++ reqI f 0)
      (.fsub (toGuard f.g) (Rnd.ofBits f.rnd) (toDest f.d) (toVal f.a) (toVal f.b))
  | 0x62 => fin f false (dR f.d ++ sV f.a ++ sV f.b ++ zero10 f.c ++ arith f ([2]) 4 (f.opx == 0) ++ reqI f 0)
      (.fmul (toGuard f.g) .single (Rnd.ofBits f.rnd) (toDest f.d) (toVal f.a) (toVal f.b))
  | 0x63 => fin f false (dR f.d ++ sV f.a ++ sV f.b ++ sV f.c ++ arith f ([2]) 4 (f.opx == 0) ++ reqI f 0)
      (.ffma (toGuard f.g) (Rnd.ofBits f.rnd) (toDest f.d) (toVal f.a) (toVal f.b) (toVal f.c))
  | 0x64 => fin f false (dR f.d ++ sV f.a ++ sV f.b ++ zero10 f.c ++ arith f ([2]) 0 (f.opx == 0) ++ reqI f 0)
      (.fmin (toGuard f.g) .single (toDest f.d) (toVal f.a) (toVal f.b))
  | 0x65 => fin f false (dR f.d ++ sV f.a ++ sV f.b ++ zero10 f.c ++ arith f ([2]) 0 (f.opx == 0) ++ reqI f 0)
      (.fmax (toGuard f.g) .single (toDest f.d) (toVal f.a) (toVal f.b))
  | 0x66 => fin f false (dR f.d ++ sV f.a ++ zero10 f.b ++ zero10 f.c ++ arith f ([2]) 0 (f.opx == 0) ++ reqI f 0)
      (.fabs (toGuard f.g) (toDest f.d) (toVal f.a))
  | 0x67 => fin f false (dR f.d ++ sV f.a ++ zero10 f.b ++ zero10 f.c ++ arith f ([2]) 0 (f.opx == 0) ++ reqI f 0)
      (.fneg (toGuard f.g) (toDest f.d) (toVal f.a))
  | 0x68 => fin f false (dR f.d ++ sV f.a ++ zero10 f.b ++ zero10 f.c ++ arith f ([2]) 4 (f.opx == 0) ++ reqI f 0)
      (.frcp (toGuard f.g) (Rnd.ofBits f.rnd) (toDest f.d) (toVal f.a))
  | 0x69 => fin f false (dR f.d ++ sV f.a ++ zero10 f.b ++ zero10 f.c ++ arith f ([2]) 4 (f.opx == 0) ++ reqI f 0)
      (.frsq (toGuard f.g) (Rnd.ofBits f.rnd) (toDest f.d) (toVal f.a))
  | 0x6A => fin f false (dR f.d ++ sV f.a ++ zero10 f.b ++ zero10 f.c ++ arith f ([2]) 4 (f.opx == 0) ++ reqI f 0)
      (.fsqrt (toGuard f.g) (Rnd.ofBits f.rnd) (toDest f.d) (toVal f.a))
  | 0x6B => fin f false (dR f.d ++ sV f.a ++ sV f.b ++ zero10 f.c ++ arith f ([2]) 4 (f.opx == 0) ++ reqI f 0)
      (.fdiv (toGuard f.g) (Rnd.ofBits f.rnd) (toDest f.d) (toVal f.a) (toVal f.b))
  | 0x6C => fin f false (dR f.d ++ sV f.a ++ zero10 f.b ++ zero10 f.c ++ arith f ([2]) 0 (f.opx == 0) ++ reqI f 0)
      (.fexp2 (toGuard f.g) (toDest f.d) (toVal f.a))
  | 0x6D => fin f false (dR f.d ++ sV f.a ++ zero10 f.b ++ zero10 f.c ++ arith f ([2]) 0 (f.opx == 0) ++ reqI f 0)
      (.flog2 (toGuard f.g) (toDest f.d) (toVal f.a))
  | 0x6E => fin f false (dR f.d ++ sV f.a ++ zero10 f.b ++ zero10 f.c ++ arith f ([2]) 0 (f.opx == 0) ++ reqI f 0)
      (.fsin (toGuard f.g) (toDest f.d) (toVal f.a))
  | 0x6F => fin f false (dR f.d ++ sV f.a ++ zero10 f.b ++ zero10 f.c ++ arith f ([2]) 0 (f.opx == 0) ++ reqI f 0)
      (.fcos (toGuard f.g) (toDest f.d) (toVal f.a))
  | 0x70 => fin f false (dR f.d ++ sV f.a ++ zero10 f.b ++ zero10 f.c ++ arith f ([2]) 0 (f.opx == 0) ++ reqI f 0)
      (.ftanh (toGuard f.g) (toDest f.d) (toVal f.a))
  | 0x71 => fin f false (dR f.d ++ sV f.a ++ zero10 f.b ++ zero10 f.c ++ arith f ([2]) 0 (f.opx == 0) ++ reqI f 0)
      (.fclass (toGuard f.g) (toDest f.d) (toVal f.a))
  | 0x72 => fin f false (dR f.d ++ sV f.a ++ sV f.b ++ zero10 f.c ++ arith f ([2]) 4 (f.opx == 0) ++ reqI f 0)
      (.fscale (toGuard f.g) (Rnd.ofBits f.rnd) (toDest f.d) (toVal f.a) (toVal f.b))
  | 0x73 => fin f false (dR f.d ++ sV f.a ++ sV f.b ++ zero10 f.c ++ arith f ([3, 4]) 4 (f.opx == 0) ++ reqI f 0)
      (.hadd2 (toGuard f.g) (f.ty == 4) (Rnd.ofBits f.rnd) (toDest f.d) (toVal f.a) (toVal f.b))
  | 0x74 => fin f false (dR f.d ++ sV f.a ++ sV f.b ++ zero10 f.c ++ arith f ([3, 4]) 4 (f.opx == 0) ++ reqI f 0)
      (.hmul2 (toGuard f.g) (f.ty == 4) (Rnd.ofBits f.rnd) (toDest f.d) (toVal f.a) (toVal f.b))
  | 0x75 => fin f false (dR f.d ++ sV f.a ++ sV f.b ++ sV f.c ++ arith f ([3, 4]) 4 (f.opx == 0) ++ reqI f 0)
      (.hfma2 (toGuard f.g) (f.ty == 4) (Rnd.ofBits f.rnd) (toDest f.d) (toVal f.a) (toVal f.b) (toVal f.c))
  | 0x76 => fin f false (dR f.d ++ sV f.a ++ sV f.b ++ zero10 f.c ++ arith f ([3, 4]) 0 (f.opx == 0) ++ reqI f 0)
      (.hmin2 (toGuard f.g) (f.ty == 4) (toDest f.d) (toVal f.a) (toVal f.b))
  | 0x77 => fin f false (dR f.d ++ sV f.a ++ sV f.b ++ zero10 f.c ++ arith f ([3, 4]) 0 (f.opx == 0) ++ reqI f 0)
      (.hmax2 (toGuard f.g) (f.ty == 4) (toDest f.d) (toVal f.a) (toVal f.b))
  | 0x78 => fin f false (dR f.d ++ sV f.a ++ sV f.b ++ sV f.c ++ arith f ([5, 6]) 4 (f.opx < 2) ++ reqI f 0)
      (.fdot8 (toGuard f.g) (f.ty == 6) (f.opx.getLsbD 0) (Rnd.ofBits f.rnd) (toDest f.d) (toVal f.a) (toVal f.b) (toVal f.c))
  | 0x80 => fin f false ((dG (grp f.msize) f.d) ++ sB f.a ++ sV f.b ++ zero10 f.c ++ req (f.msize < 5) 6 ++ req (f.mscale < 5) 6 ++ req (f.mpol != 3) 6 ++ req (sxOk f.msize f.mopx) 6)
      (.ld (toGuard f.g) (MemSize.ofBits f.msize) (Scale.ofBits f.mscale) (Policy.ofBits f.mpol) (f.mopx.getLsbD 0) (toVReg f.d) (toSReg f.a) (toVal f.b) f.i)
  | 0x81 => fin f false ((dG (grp f.msize) f.d) ++ sB f.a ++ sV f.b ++ zero10 f.c ++ req (f.msize < 5) 6 ++ req (f.mscale < 5) 6 ++ req (f.mpol != 3) 6 ++ req (sxOk f.msize f.mopx) 6)
      (.ldx (toGuard f.g) (MemSize.ofBits f.msize) (Scale.ofBits f.mscale) (Policy.ofBits f.mpol) (f.mopx.getLsbD 0) (toVReg f.d) (toSReg f.a) (toVal f.b) f.i)
  | 0x82 => fin f false (zero9 f.d ++ sB f.a ++ sV f.b ++ (sG (grp f.msize) f.c) ++ req (f.msize < 5) 6 ++ req (f.mscale < 5) 6 ++ req (f.mpol != 3) 6 ++ req (f.mopx == 0) 6)
      (.st (toGuard f.g) (MemSize.ofBits f.msize) (Scale.ofBits f.mscale) (Policy.ofBits f.mpol) (toSReg f.a) (toVal f.b) f.i (toVal f.c))
  | 0x83 => fin f false ((dSet f.d) ++ sB f.a ++ sV f.b ++ (sG (grp f.msize) f.c) ++ req (f.msize < 5) 6 ++ req (f.mscale < 5) 6 ++ req (f.mpol == 0) 6 ++ req (f.mopx == 0) 6)
      (.push (toGuard f.g) (MemSize.ofBits f.msize) (Scale.ofBits f.mscale) (toSReg9 f.d) (toSReg f.a) (toVal f.b) f.i (toVal f.c))
  | 0x84 => fin f false ((dG (agrp f.asize) f.d) ++ sB f.a ++ sV f.b ++ (sG (agrp f.asize) f.c) ++ req (f.aop < 10) 6 ++ req (!(f.aop == 9 && f.asize)) 6 ++ req (f.ascope < 5) 6)
      (.atom (toGuard f.g) (AtomOp.ofBits f.aop) (Scope.ofBits f.ascope) (Order.ofBits f.aord) f.asize (AScale.ofBits f.asc) (toVReg f.d) (toSReg f.a) (toVal f.b) f.i (toVal f.c))
  | 0x85 => fin f false (zero9 f.d ++ sB f.a ++ sV f.b ++ (sG (agrp f.asize) f.c) ++ req (f.aop < 10) 6 ++ req (!(f.aop == 9 && f.asize)) 6 ++ req (f.ascope < 5) 6)
      (.atomn (toGuard f.g) (AtomOp.ofBits f.aop) (Scope.ofBits f.ascope) (Order.ofBits f.aord) f.asize (AScale.ofBits f.asc) (toSReg f.a) (toVal f.b) f.i (toVal f.c))
  | 0x86 => fin f false ((dG (agrp f.asize) f.d) ++ sB f.a ++ sV f.b ++ (sG (agrp f.asize) f.c) ++ req (f.aop == 0) 6 ++ req (f.ascope < 5) 6)
      (.laneAcas (toGuard f.g) (Scope.ofBits f.ascope) (Order.ofBits f.aord) f.asize (AScale.ofBits f.asc) (toVReg f.d) (toSReg f.a) (toVal f.b) f.i (toVal f.c))
  | 0x87 => fin f false (zero9 f.d ++ sB f.a ++ sV f.b ++ zero10 f.c ++ req (f.msize == 0) 6 ++ req (f.mscale < 5) 6 ++ req (f.mpol == 0) 6 ++ req (f.mopx == 0) 6)
      (.disc (toGuard f.g) (Scale.ofBits f.mscale) (toSReg f.a) (toVal f.b) f.i)
  | 0x88 => fin f false (zero9 f.d ++ sB f.a ++ sV f.b ++ zero10 f.c ++ req (f.msize == 0) 6 ++ req (f.mscale < 5) 6 ++ req (f.mpol < 2) 6 ++ req (f.mopx == 0) 6)
      (.pref (toGuard f.g) (Scale.ofBits f.mscale) (f.mpol == 1) (toSReg f.a) (toVal f.b) f.i)
  | 0x89 => fin f false (dG 1 f.d ++ sB f.a ++ sZ f.b ++ (sG (grp f.msize) f.c) ++ req (f.msize == 2 || f.msize == 3 || f.msize == 4) 6 ++ req (f.mscale == 0) 6 ++ req (f.mpol == 0) 6 ++ req (f.mopx < 8) 6)
      (.append (toGuard f.g) (MemSize.ofBits f.msize) (f.mopx.extractLsb' 0 3) (toVReg f.d) (toSReg f.a) f.i (toVal f.c))
  | 0x8A => fin f false (dG 1 f.d ++ sB f.a ++ sZ f.b ++ zero10 f.c ++ req (f.msize == 2) 6 ++ req (f.mscale == 0) 6 ++ req (f.mpol == 0) 6 ++ req (f.mopx == 0) 6)
      (.tailq (toGuard f.g) (toVReg f.d) (toSReg f.a) f.i)
  | 0x8B => fin f false (dG 1 f.d ++ sB f.a ++ sV f.b ++ sV f.c ++ req (f.msize == 0) 6 ++ req (f.mscale == 0) 6 ++ req (f.mpol == 0) 6 ++ req (f.mopx < 8) 6 ++ reqI f 0)
      (.lda (toGuard f.g) (f.mopx.extractLsb' 0 3) (toVReg f.d) (toSReg f.a) (toVal f.b) (toVal f.c))
  | 0x8C => fin f false (dG 1 f.d ++ sB f.a ++ sV f.b ++ zero10 f.c ++ req (f.msize == 0) 6 ++ req (f.mscale == 0) 6 ++ req (f.mpol == 0) 6 ++ req (f.mopx < 8) 6 ++ reqI f 0)
      (.find (toGuard f.g) (f.mopx.extractLsb' 0 3) (toVReg f.d) (toSReg f.a) (toVal f.b))
  | 0x8D => fin f false (dG 1 f.d ++ sB f.a ++ sV f.b ++ zero10 f.c ++ req (f.msize == 0) 6 ++ req (f.mscale == 0) 6 ++ req (f.mpol == 0) 6 ++ req (f.mopx < 8) 6 ++ reqI f 0)
      (.pick (toGuard f.g) (f.mopx.extractLsb' 0 3) (toVReg f.d) (toSReg f.a) (toVal f.b))
  | 0xA0 => fin f false (dR f.d ++ sCh f.a ++ zero10 f.b ++ zero10 f.c ++ arith f ([0]) 0 (f.opx == 0) ++ reqI f 0)
      (.chst (toGuard f.g) (toDest f.d) (toChan f.a))
  | 0xA1 => fin f false (zero9 f.d ++ sCh f.a ++ zero10 f.b ++ zero10 f.c ++ arith f ([0]) 0 (f.opx == 0) ++ reqI f 0x7 ++ req (chwaitOk (f.i.extractLsb' 0 3)) 6)
      (.chwait (toGuard f.g) (toChan f.a) (f.i.extractLsb' 0 3))
  | 0xA8 => fin f false ((dG 2 f.d) ++ (sG 2 f.a) ++ zero10 f.b ++ zero10 f.c ++ arith f ([0]) 0 (f.opx == 0) ++ reqI f 0)
      (.rnext (toGuard f.g) (toVReg f.d) (toVReg10 f.a) (f.a.getLsbD 8))
  | 0xA9 => fin f false ((dG 2 f.d) ++ (sG 2 f.a) ++ sV f.b ++ sV f.c ++ arith f ([0]) 0 (f.opx == 0) ++ reqI f 0)
      (.rjump (toGuard f.g) (toVReg f.d) (toVReg10 f.a) (f.a.getLsbD 8) (toVal f.b) (toVal f.c))
  | 0xAA => fin f false (dR f.d ++ (sG 2 f.a) ++ zero10 f.b ++ zero10 f.c ++ arith f ([1, 2]) 0 (f.opx == 0) ++ reqI f 0)
      (.runi (toGuard f.g) (f.ty == 2) (toDest f.d) (toVReg10 f.a) (f.a.getLsbD 8))
  | 0xAB => fin f false (dR f.d ++ sUS f.a ++ sV f.b ++ zero10 f.c ++ arith f ([0]) 0 (f.opx == 0) ++ reqI f 0)
      (.rdith (toGuard f.g) (toDest f.d) (toSReg f.a) (toVal f.b))
  | 0xF0 => fin f false (zero9 f.d ++ zero10 f.a ++ zero10 f.b ++ zero10 f.c ++ arith f ([0]) 0 (f.opx == 0) ++ reqI f 0x3F)
      (.ltrap (toGuard f.g) (f.i.extractLsb' 0 6))
  | 0xF1 => fin f false (zero9 f.d ++ zero10 f.a ++ zero10 f.b ++ zero10 f.c ++ arith f ([0]) 0 (f.opx == 0) ++ reqI f 0)
      (.lbrk (toGuard f.g))
  | 0x43 => fin f true (zero9 f.d ++ zero10 f.a ++ zero10 f.b ++ zero10 f.c ++ arith f ([0]) 0 (f.opx == 0) ++ reqI f 0)
      (.mall)
  | _ => .error 1

/-- The fields of a single lane word's instruction. -/
def encodeFields : Instr → Option LaneFields
  | .nop g => some ⟨0x01, ofGuard g, 0, 0, 0, 0, 0, 0⟩
  | .mov g .single d a => some ⟨0x02, ofGuard g, ofDest d, ofVal a, 0, 0, 0, 0⟩
  | .movi g d imm => some ⟨0x03, ofGuard g, ofDest d, 0, 0, 0, 0, imm⟩
  | .waitf g n mode => some ⟨0x04, ofGuard g, 0, ofReg n mode, 0, 0, 0, 0⟩
  | .bswz g d a b (.imm sel) => some ⟨0x05, ofGuard g, ofDest d, ofVal a, ofVal b, 0, 0, 0#12 ++ sel⟩
  | .bswz g d a b (.val c) => some ⟨0x05, ofGuard g, ofDest d, ofVal a, ofVal b, ofVal c, arithM 0 0 1, 0⟩
  | .iadd g .single d a b => some ⟨0x10, ofGuard g, ofDest d, ofVal a, ofVal b, 0, 0, 0⟩
  | .isub g .single d a b => some ⟨0x11, ofGuard g, ofDest d, ofVal a, ofVal b, 0, 0, 0⟩
  | .iadds g u d a b => some ⟨0x12, ofGuard g, ofDest d, ofVal a, ofVal b, 0, arithM (if u then 1 else 0) 0 0, 0⟩
  | .isubs g u d a b => some ⟨0x13, ofGuard g, ofDest d, ofVal a, ofVal b, 0, arithM (if u then 1 else 0) 0 0, 0⟩
  | .imul g d a b => some ⟨0x14, ofGuard g, ofDest d, ofVal a, ofVal b, 0, 0, 0⟩
  | .imulh g d a b => some ⟨0x15, ofGuard g, ofDest d, ofVal a, ofVal b, 0, 0, 0⟩
  | .imulhu g d a b => some ⟨0x16, ofGuard g, ofDest d, ofVal a, ofVal b, 0, 0, 0⟩
  | .imad g d a b c => some ⟨0x17, ofGuard g, ofDest d, ofVal a, ofVal b, ofVal c, 0, 0⟩
  | .imin g .single d a b => some ⟨0x18, ofGuard g, ofDest d, ofVal a, ofVal b, 0, 0, 0⟩
  | .imax g .single d a b => some ⟨0x19, ofGuard g, ofDest d, ofVal a, ofVal b, 0, 0, 0⟩
  | .iminu g d a b => some ⟨0x1A, ofGuard g, ofDest d, ofVal a, ofVal b, 0, 0, 0⟩
  | .imaxu g d a b => some ⟨0x1B, ofGuard g, ofDest d, ofVal a, ofVal b, 0, 0, 0⟩
  | .iabs g d a => some ⟨0x1C, ofGuard g, ofDest d, ofVal a, 0, 0, 0, 0⟩
  | .ineg g d a => some ⟨0x1D, ofGuard g, ofDest d, ofVal a, 0, 0, 0, 0⟩
  | .laneAnd g .single d a b => some ⟨0x1E, ofGuard g, ofDest d, ofVal a, ofVal b, 0, 0, 0⟩
  | .laneOr g .single d a b => some ⟨0x1F, ofGuard g, ofDest d, ofVal a, ofVal b, 0, 0, 0⟩
  | .laneXor g .single d a b => some ⟨0x20, ofGuard g, ofDest d, ofVal a, ofVal b, 0, 0, 0⟩
  | .laneAndn g d a b => some ⟨0x21, ofGuard g, ofDest d, ofVal a, ofVal b, 0, 0, 0⟩
  | .laneNot g d a => some ⟨0x22, ofGuard g, ofDest d, ofVal a, 0, 0, 0, 0⟩
  | .shl g .single d a b => some ⟨0x23, ofGuard g, ofDest d, ofVal a, ofVal b, 0, 0, 0⟩
  | .shr g .single d a b => some ⟨0x24, ofGuard g, ofDest d, ofVal a, ofVal b, 0, 0, 0⟩
  | .sar g .single d a b => some ⟨0x25, ofGuard g, ofDest d, ofVal a, ofVal b, 0, 0, 0⟩
  | .rol g d a b => some ⟨0x26, ofGuard g, ofDest d, ofVal a, ofVal b, 0, 0, 0⟩
  | .ror g d a b => some ⟨0x27, ofGuard g, ofDest d, ofVal a, ofVal b, 0, 0, 0⟩
  | .laneClz g d a => some ⟨0x28, ofGuard g, ofDest d, ofVal a, 0, 0, 0, 0⟩
  | .lanePopc g d a => some ⟨0x29, ofGuard g, ofDest d, ofVal a, 0, 0, 0, 0⟩
  | .brev g d a => some ⟨0x2A, ofGuard g, ofDest d, ofVal a, 0, 0, 0, 0⟩
  | .bfx g u d a b => some ⟨0x2B, ofGuard g, ofDest d, ofVal a, ofVal b, 0, arithM (if u then 1 else 0) 0 0, 0⟩
  | .bfi g d a b c => some ⟨0x2C, ofGuard g, ofDest d, ofVal a, ofVal b, ofVal c, 0, 0⟩
  | .idivu g d a b => some ⟨0x2D, ofGuard g, ofDest d, ofVal a, ofVal b, 0, 0, 0⟩
  | .iremu g d a b => some ⟨0x2E, ofGuard g, ofDest d, ofVal a, ofVal b, 0, 0, 0⟩
  | .iaddc g d a b co cen ci => some ⟨0x2F, ofGuard g, ofDest d, ofVal a, ofVal b, 0, 0, (0#24 ++ BitVec.ofBool cen ++ ci ++ 0#1 ++ co)⟩
  | .icmp g cc p a b => some ⟨0x30, ofGuard g, ofPred9 p, ofVal a, ofVal b, 0, arithM 0 0 (ICond.bits cc), 0⟩
  | .fcmp g cc p a b => some ⟨0x31, ofGuard g, ofPred9 p, ofVal a, ofVal b, 0, arithM 2 0 (FCond.bits cc), 0⟩
  | .pand g na nb p a b => some ⟨0x32, ofGuard g, ofPred9 p, ofPred10 a, ofPred10 b, 0, arithM 0 0 (0#3 ++ BitVec.ofBool nb ++ BitVec.ofBool na), 0⟩
  | .por g na nb p a b => some ⟨0x33, ofGuard g, ofPred9 p, ofPred10 a, ofPred10 b, 0, arithM 0 0 (0#3 ++ BitVec.ofBool nb ++ BitVec.ofBool na), 0⟩
  | .pxor g na nb p a b => some ⟨0x34, ofGuard g, ofPred9 p, ofPred10 a, ofPred10 b, 0, arithM 0 0 (0#3 ++ BitVec.ofBool nb ++ BitVec.ofBool na), 0⟩
  | .pnot g p a => some ⟨0x35, ofGuard g, ofPred9 p, ofPred10 a, 0, 0, 0, 0⟩
  | .pmov g p a k => some ⟨0x36, ofGuard g, ofPred9 p, ofVal a, 0, 0, 0, (0#27 ++ k)⟩
  | .pget g d => some ⟨0x37, ofGuard g, ofDest d, 0, 0, 0, 0, 0⟩
  | .sel g .single neg k d a b => some ⟨0x38, ofGuard g, ofDest d, ofVal a, ofVal b, 0, arithM 0 0 (0#1 ++ BitVec.ofBool neg ++ k), 0⟩
  | .mset neg p => some ⟨0x40, 0, 0, ofPred10 p, 0, 0, arithM 0 0 (0#4 ++ BitVec.ofBool neg), 0⟩
  | .mrst u => some ⟨0x41, 0, 0, ofVal u, 0, 0, 0, 0⟩
  | .mget d => some ⟨0x42, 0, ofDest d, 0, 0, 0, 0, 0⟩
  | .mnot u => some ⟨0x44, 0, 0, ofVal u, 0, 0, 0, 0⟩
  | .shfl g mode width d a b q => some ⟨0x48, ofGuard g, ofDest d, ofVal a, ofVal b, 0, arithM 0 0 (ShflMode.bits mode ++ width), (0#29 ++ q)⟩
  | .vote g kind d p => some ⟨0x49, ofGuard g, ofDest d, ofPred10 p, 0, 0, arithM 0 0 (VoteKind.bits kind), 0⟩
  | .lred g op d a => some ⟨0x4A, ofGuard g, ofDest d, ofVal a, 0, 0, RedOp.m op false, 0⟩
  | .lscan g op excl d a => some ⟨0x4B, ofGuard g, ofDest d, ofVal a, 0, 0, RedOp.m op excl, 0⟩
  | .lfirst g d p => some ⟨0x4C, ofGuard g, ofDest d, ofPred10 p, 0, 0, 0, 0⟩
  | .bcast g d a j => some ⟨0x4D, ofGuard g, ofDest d, ofVal a, 0, 0, 0, (match j with | none => 0x20#32 | some x => (0#27 ++ x))⟩
  | .cvtif g dst src r sat d a => some ⟨0x58, ofGuard g, ofDest d, ofVal a, 0, 0, arithM dst.bits r.bits (BitVec.ofBool sat ++ src.bits), 0⟩
  | .cvtfi g dst src r d a => some ⟨0x59, ofGuard g, ofDest d, ofVal a, 0, 0, arithM dst.bits r.bits (0#1 ++ src.bits), 0⟩
  | .cvtff g dst src r sat d a => some ⟨0x5A, ofGuard g, ofDest d, ofVal a, 0, 0, arithM dst.bits r.bits (BitVec.ofBool sat ++ src.bits), 0⟩
  | .pack g dst r sat d a b .none => some ⟨0x5B, ofGuard g, ofDest d, ofVal a, ofVal b, 0, arithM dst.bits r.bits (BitVec.ofBool sat ++ 2#4), 0⟩
  | .pack g dst r sat d a b (.fp8 c h) => some ⟨0x5B, ofGuard g, ofDest d, ofVal a, ofVal b, ofVal c, arithM dst.bits r.bits (BitVec.ofBool sat ++ 2#4), 0#31 ++ BitVec.ofBool h⟩
  | .unpk g src d a j => some ⟨0x5C, ofGuard g, ofDest d, ofVal a, 0, 0, arithM 2 0 (0#1 ++ src.bits), (0#29 ++ j)⟩
  | .qbpi g r d a b => some ⟨0x5D, ofGuard g, ofDest d, ofVal a, ofVal b, 0, arithM 12 r.bits 0, 0⟩
  | .fadd g .single r d a b => some ⟨0x60, ofGuard g, ofDest d, ofVal a, ofVal b, 0, arithM 2 r.bits 0, 0⟩
  | .fsub g r d a b => some ⟨0x61, ofGuard g, ofDest d, ofVal a, ofVal b, 0, arithM 2 r.bits 0, 0⟩
  | .fmul g .single r d a b => some ⟨0x62, ofGuard g, ofDest d, ofVal a, ofVal b, 0, arithM 2 r.bits 0, 0⟩
  | .ffma g r d a b c => some ⟨0x63, ofGuard g, ofDest d, ofVal a, ofVal b, ofVal c, arithM 2 r.bits 0, 0⟩
  | .fmin g .single d a b => some ⟨0x64, ofGuard g, ofDest d, ofVal a, ofVal b, 0, arithM 2 0 0, 0⟩
  | .fmax g .single d a b => some ⟨0x65, ofGuard g, ofDest d, ofVal a, ofVal b, 0, arithM 2 0 0, 0⟩
  | .fabs g d a => some ⟨0x66, ofGuard g, ofDest d, ofVal a, 0, 0, arithM 2 0 0, 0⟩
  | .fneg g d a => some ⟨0x67, ofGuard g, ofDest d, ofVal a, 0, 0, arithM 2 0 0, 0⟩
  | .frcp g r d a => some ⟨0x68, ofGuard g, ofDest d, ofVal a, 0, 0, arithM 2 r.bits 0, 0⟩
  | .frsq g r d a => some ⟨0x69, ofGuard g, ofDest d, ofVal a, 0, 0, arithM 2 r.bits 0, 0⟩
  | .fsqrt g r d a => some ⟨0x6A, ofGuard g, ofDest d, ofVal a, 0, 0, arithM 2 r.bits 0, 0⟩
  | .fdiv g r d a b => some ⟨0x6B, ofGuard g, ofDest d, ofVal a, ofVal b, 0, arithM 2 r.bits 0, 0⟩
  | .fexp2 g d a => some ⟨0x6C, ofGuard g, ofDest d, ofVal a, 0, 0, arithM 2 0 0, 0⟩
  | .flog2 g d a => some ⟨0x6D, ofGuard g, ofDest d, ofVal a, 0, 0, arithM 2 0 0, 0⟩
  | .fsin g d a => some ⟨0x6E, ofGuard g, ofDest d, ofVal a, 0, 0, arithM 2 0 0, 0⟩
  | .fcos g d a => some ⟨0x6F, ofGuard g, ofDest d, ofVal a, 0, 0, arithM 2 0 0, 0⟩
  | .ftanh g d a => some ⟨0x70, ofGuard g, ofDest d, ofVal a, 0, 0, arithM 2 0 0, 0⟩
  | .fclass g d a => some ⟨0x71, ofGuard g, ofDest d, ofVal a, 0, 0, arithM 2 0 0, 0⟩
  | .fscale g r d a b => some ⟨0x72, ofGuard g, ofDest d, ofVal a, ofVal b, 0, arithM 2 r.bits 0, 0⟩
  | .hadd2 g bf r d a b => some ⟨0x73, ofGuard g, ofDest d, ofVal a, ofVal b, 0, arithM (if bf then 4 else 3) r.bits 0, 0⟩
  | .hmul2 g bf r d a b => some ⟨0x74, ofGuard g, ofDest d, ofVal a, ofVal b, 0, arithM (if bf then 4 else 3) r.bits 0, 0⟩
  | .hfma2 g bf r d a b c => some ⟨0x75, ofGuard g, ofDest d, ofVal a, ofVal b, ofVal c, arithM (if bf then 4 else 3) r.bits 0, 0⟩
  | .hmin2 g bf d a b => some ⟨0x76, ofGuard g, ofDest d, ofVal a, ofVal b, 0, arithM (if bf then 4 else 3) 0 0, 0⟩
  | .hmax2 g bf d a b => some ⟨0x77, ofGuard g, ofDest d, ofVal a, ofVal b, 0, arithM (if bf then 4 else 3) 0 0, 0⟩
  | .fdot8 g e5 mixed r d a b c => some ⟨0x78, ofGuard g, ofDest d, ofVal a, ofVal b, ofVal c, arithM (if e5 then 6 else 5) r.bits (0#4 ++ BitVec.ofBool mixed), 0⟩
  | .ld g sz sc pol sx d base off disp => some ⟨0x80, ofGuard g, ofVReg9 d, ofS base, ofVal off, 0, memM sz.bits sc.bits pol.bits (0#3 ++ BitVec.ofBool sx), disp⟩
  | .ldx g sz sc pol sx d base off disp => some ⟨0x81, ofGuard g, ofVReg9 d, ofS base, ofVal off, 0, memM sz.bits sc.bits pol.bits (0#3 ++ BitVec.ofBool sx), disp⟩
  | .st g sz sc pol base off disp c => some ⟨0x82, ofGuard g, 0, ofS base, ofVal off, ofVal c, memM sz.bits sc.bits pol.bits 0, disp⟩
  | .push g sz sc ds base off disp c => some ⟨0x83, ofGuard g, ofS9 ds, ofS base, ofVal off, ofVal c, memM sz.bits sc.bits 0 0, disp⟩
  | .atom g op scope o dbl sc d base off disp c => some ⟨0x84, ofGuard g, ofVReg9 d, ofS base, ofVal off, ofVal c, atomM op.bits scope.bits o.bits dbl sc.bits, disp⟩
  | .atomn g op scope o dbl sc base off disp c => some ⟨0x85, ofGuard g, 0, ofS base, ofVal off, ofVal c, atomM op.bits scope.bits o.bits dbl sc.bits, disp⟩
  | .laneAcas g scope o dbl sc d base off disp c => some ⟨0x86, ofGuard g, ofVReg9 d, ofS base, ofVal off, ofVal c, atomM 0 scope.bits o.bits dbl sc.bits, disp⟩
  | .disc g sc base off disp => some ⟨0x87, ofGuard g, 0, ofS base, ofVal off, 0, memM 0 sc.bits 0 0, disp⟩
  | .pref g sc home base off disp => some ⟨0x88, ofGuard g, 0, ofS base, ofVal off, 0, memM 0 sc.bits (if home then 1 else 0) 0, disp⟩
  | .append g sz q d base disp c => some ⟨0x89, ofGuard g, ofVReg9 d, ofS base, ofVal (.con .zero), ofVal c, memM sz.bits 0 0 (0#1 ++ q), disp⟩
  | .tailq g d base disp => some ⟨0x8A, ofGuard g, ofVReg9 d, ofS base, ofVal (.con .zero), 0, memM 2 0 0 0, disp⟩
  | .lda g q d h lo hi => some ⟨0x8B, ofGuard g, ofVReg9 d, ofS h, ofVal lo, ofVal hi, memM 0 0 0 (0#1 ++ q), 0⟩
  | .find g q d h x => some ⟨0x8C, ofGuard g, ofVReg9 d, ofS h, ofVal x, 0, memM 0 0 0 (0#1 ++ q), 0⟩
  | .pick g q d h r => some ⟨0x8D, ofGuard g, ofVReg9 d, ofS h, ofVal r, 0, memM 0 0 0 (0#1 ++ q), 0⟩
  | .chst g d ch => some ⟨0xA0, ofGuard g, ofDest d, ofChan ch, 0, 0, 0, 0⟩
  | .chwait g ch k => some ⟨0xA1, ofGuard g, 0, ofChan ch, 0, 0, 0, (0#29 ++ k)⟩
  | .rnext g d a t => some ⟨0xA8, ofGuard g, ofVReg9 d, ofReg a t, 0, 0, 0, 0⟩
  | .rjump g d a t b c => some ⟨0xA9, ofGuard g, ofVReg9 d, ofReg a t, ofVal b, ofVal c, 0, 0⟩
  | .runi g f32 d a t => some ⟨0xAA, ofGuard g, ofDest d, ofReg a t, 0, 0, arithM (if f32 then 2 else 1) 0 0, 0⟩
  | .rdith g d a b => some ⟨0xAB, ofGuard g, ofDest d, ofS a, ofVal b, 0, 0, 0⟩
  | .ltrap g code => some ⟨0xF0, ofGuard g, 0, 0, 0, 0, 0, (0#26 ++ code)⟩
  | .lbrk g => some ⟨0xF1, ofGuard g, 0, 0, 0, 0, 0, 0⟩
  | .mall  => some ⟨0x43, 0, 0, 0, 0, 0, 0, 0⟩
  | _ => none

/-! ### The pair word (03:R73, R74) -/

/-- The fields of a half. -/
structure HalfFields where
  op : BitVec 8
  g : BitVec 4
  d : BitVec 9
  a : BitVec 10
  b : BitVec 10
  m : BitVec 6
  deriving DecidableEq, Repr

def HalfFields.rnd (f : HalfFields) : BitVec 3 := f.m.extractLsb' 3 3
def HalfFields.opx (f : HalfFields) : BitVec 3 := f.m.extractLsb' 0 3

def packHalf (f : HalfFields) : BitVec 47 := f.op ++ f.g ++ f.d ++ f.a ++ f.b ++ f.m
def unpackHalf (w : BitVec 47) : HalfFields where
  op := w.extractLsb' 39 8
  g := w.extractLsb' 35 4
  d := w.extractLsb' 26 9
  a := w.extractLsb' 16 10
  b := w.extractLsb' 6 10
  m := w.extractLsb' 0 6

def hfin (f : HalfFields) (rs : List Nat) (i : Instr) : Except Nat Instr := verdict (rs ++ req (f.g != 8) 8) i

/-- The instruction of a half (03:R73). -/
def decodeHalf (h : Half) (f : HalfFields) : Except Nat Instr :=
  match f.op.toNat with
  | 0x02 => hfin f (dR f.d ++ sV f.a ++ zero10 f.b ++ req (f.rnd == 0) 6 ++ req (f.opx == 0) 6)
      (.mov (toGuard f.g) h (toDest f.d) (toVal f.a))
  | 0x10 => hfin f (dR f.d ++ sV f.a ++ sV f.b ++ req (f.rnd == 0) 6 ++ req (f.opx == 0) 6)
      (.iadd (toGuard f.g) h (toDest f.d) (toVal f.a) (toVal f.b))
  | 0x11 => hfin f (dR f.d ++ sV f.a ++ sV f.b ++ req (f.rnd == 0) 6 ++ req (f.opx == 0) 6)
      (.isub (toGuard f.g) h (toDest f.d) (toVal f.a) (toVal f.b))
  | 0x18 => hfin f (dR f.d ++ sV f.a ++ sV f.b ++ req (f.rnd == 0) 6 ++ req (f.opx == 0) 6)
      (.imin (toGuard f.g) h (toDest f.d) (toVal f.a) (toVal f.b))
  | 0x19 => hfin f (dR f.d ++ sV f.a ++ sV f.b ++ req (f.rnd == 0) 6 ++ req (f.opx == 0) 6)
      (.imax (toGuard f.g) h (toDest f.d) (toVal f.a) (toVal f.b))
  | 0x1E => hfin f (dR f.d ++ sV f.a ++ sV f.b ++ req (f.rnd == 0) 6 ++ req (f.opx == 0) 6)
      (.laneAnd (toGuard f.g) h (toDest f.d) (toVal f.a) (toVal f.b))
  | 0x1F => hfin f (dR f.d ++ sV f.a ++ sV f.b ++ req (f.rnd == 0) 6 ++ req (f.opx == 0) 6)
      (.laneOr (toGuard f.g) h (toDest f.d) (toVal f.a) (toVal f.b))
  | 0x20 => hfin f (dR f.d ++ sV f.a ++ sV f.b ++ req (f.rnd == 0) 6 ++ req (f.opx == 0) 6)
      (.laneXor (toGuard f.g) h (toDest f.d) (toVal f.a) (toVal f.b))
  | 0x23 => hfin f (dR f.d ++ sV f.a ++ sV f.b ++ req (f.rnd == 0) 6 ++ req (f.opx == 0) 6)
      (.shl (toGuard f.g) h (toDest f.d) (toVal f.a) (toVal f.b))
  | 0x24 => hfin f (dR f.d ++ sV f.a ++ sV f.b ++ req (f.rnd == 0) 6 ++ req (f.opx == 0) 6)
      (.shr (toGuard f.g) h (toDest f.d) (toVal f.a) (toVal f.b))
  | 0x25 => hfin f (dR f.d ++ sV f.a ++ sV f.b ++ req (f.rnd == 0) 6 ++ req (f.opx == 0) 6)
      (.sar (toGuard f.g) h (toDest f.d) (toVal f.a) (toVal f.b))
  | 0x38 => hfin f (dR f.d ++ sV f.a ++ sV f.b ++ req (f.rnd == 0) 6)
      (.sel (toGuard f.g) h false f.opx (toDest f.d) (toVal f.a) (toVal f.b))
  | 0x60 => hfin f (dR f.d ++ sV f.a ++ sV f.b ++ req (f.rnd < 5) 6 ++ req (f.opx == 0) 6)
      (.fadd (toGuard f.g) h (Rnd.ofBits f.rnd) (toDest f.d) (toVal f.a) (toVal f.b))
  | 0x62 => hfin f (dR f.d ++ sV f.a ++ sV f.b ++ req (f.rnd < 5) 6 ++ req (f.opx == 0) 6)
      (.fmul (toGuard f.g) h (Rnd.ofBits f.rnd) (toDest f.d) (toVal f.a) (toVal f.b))
  | 0x64 => hfin f (dR f.d ++ sV f.a ++ sV f.b ++ req (f.rnd == 0) 6 ++ req (f.opx == 0) 6)
      (.fmin (toGuard f.g) h (toDest f.d) (toVal f.a) (toVal f.b))
  | 0x65 => hfin f (dR f.d ++ sV f.a ++ sV f.b ++ req (f.rnd == 0) 6 ++ req (f.opx == 0) 6)
      (.fmax (toGuard f.g) h (toDest f.d) (toVal f.a) (toVal f.b))
  | _ => .error (if f.g == 8 then 8 else 9)

/-- The fields of a half's instruction; SEL has no negation in a half. -/
def encodeHalf : Instr → Option HalfFields
  | .mov g _h d a => some ⟨0x02, ofGuard g, ofDest d, ofVal a, 0, 0⟩
  | .iadd g _h d a b => some ⟨0x10, ofGuard g, ofDest d, ofVal a, ofVal b, 0⟩
  | .isub g _h d a b => some ⟨0x11, ofGuard g, ofDest d, ofVal a, ofVal b, 0⟩
  | .imin g _h d a b => some ⟨0x18, ofGuard g, ofDest d, ofVal a, ofVal b, 0⟩
  | .imax g _h d a b => some ⟨0x19, ofGuard g, ofDest d, ofVal a, ofVal b, 0⟩
  | .laneAnd g _h d a b => some ⟨0x1E, ofGuard g, ofDest d, ofVal a, ofVal b, 0⟩
  | .laneOr g _h d a b => some ⟨0x1F, ofGuard g, ofDest d, ofVal a, ofVal b, 0⟩
  | .laneXor g _h d a b => some ⟨0x20, ofGuard g, ofDest d, ofVal a, ofVal b, 0⟩
  | .shl g _h d a b => some ⟨0x23, ofGuard g, ofDest d, ofVal a, ofVal b, 0⟩
  | .shr g _h d a b => some ⟨0x24, ofGuard g, ofDest d, ofVal a, ofVal b, 0⟩
  | .sar g _h d a b => some ⟨0x25, ofGuard g, ofDest d, ofVal a, ofVal b, 0⟩
  | .sel g _h false k d a b => some ⟨0x38, ofGuard g, ofDest d, ofVal a, ofVal b, (0#3 ++ k)⟩
  | .fadd g _h r d a b => some ⟨0x60, ofGuard g, ofDest d, ofVal a, ofVal b, (r.bits ++ 0#3)⟩
  | .fmul g _h r d a b => some ⟨0x62, ofGuard g, ofDest d, ofVal a, ofVal b, (r.bits ++ 0#3)⟩
  | .fmin g _h d a b => some ⟨0x64, ofGuard g, ofDest d, ofVal a, ofVal b, 0⟩
  | .fmax g _h d a b => some ⟨0x65, ofGuard g, ofDest d, ofVal a, ofVal b, 0⟩
  | _ => none

/-- The lane-register sources of a half, as numbers. -/
def halfSources (f : HalfFields) : List (BitVec 10) := if f.op.toNat = 2 then [f.a] else [f.a, f.b]
def isRegSrc (x : BitVec 10) : Bool := !x.getLsbD 9 && x.extractLsb' 0 8 < 192#8
/-- The distinct lane-register sources of both halves. -/
def pairSources (x y : HalfFields) : List Nat :=
  (((halfSources x ++ halfSources y).filter isRegSrc).map (fun s => (s.extractLsb' 0 8).toNat)).eraseDups

/-- Restriction 1: at most two distinct sources of one bank (reason 10). -/
def pairBanks (x y : HalfFields) : Bool :=
  (List.range 4).all (fun k => ((pairSources x y).filter (fun n => n % 4 == k)).length ≤ 2)
/-- Restriction 3: at most one channel-class operand (reason 12). -/
def pairChannels (x y : HalfFields) : Bool :=
  (((halfSources x ++ halfSources y).filter (fun s => s.getLsbD 9)).length +
    ([x.d, y.d].filter (fun d => d.getLsbD 8)).length) ≤ 1
/-- Restriction 4: Y reads no register that X writes, and the halves write different destinations (reason 13). -/
def pairIndependent (x y : HalfFields) : Bool :=
  (x.d.getLsbD 8 || !(halfSources y).any (fun s => isRegSrc s && s.extractLsb' 0 8 == x.d.extractLsb' 0 8)) && x.d != y.d

/-- The whole-word checks of a pair: bit 0, then the restrictions. -/
def pairWord (w : BitVec 96) : List Nat :=
  let x := unpackHalf (w.extractLsb' 48 47)
  let y := unpackHalf (w.extractLsb' 1 47)
  req (!w.getLsbD 0) 9 ++ req (pairBanks x y) 10 ++ req ((pairSources x y).length ≤ 3) 11 ++
    req (pairChannels x y) 12 ++ req (pairIndependent x y) 13

/-- The smaller of two optional reasons. -/
def optMin : Option Nat → Option Nat → Option Nat
  | none, b => b
  | a, none => a
  | some a, some b => some (min a b)

def errOf (e : Except Nat Instr) : Option Nat := match e with
  | .ok _ => none
  | .error r => some r

/-- A lane word: the instruction or the pair, or the half and the smallest reason (03:R75, R76). When both halves show
the smallest reason, or the word as a whole does, it is X's or half 0. -/
def decodeLane (w : BitVec 96) : Except (Bool × Nat) LaneWord :=
  if w.getLsbD 95 then
    let x := decodeHalf .x (unpackHalf (w.extractLsb' 48 47))
    let y := decodeHalf .y (unpackHalf (w.extractLsb' 1 47))
    match optMin (optMin (errOf x) (smallest (pairWord w))) (errOf y), x, y with
    | none, .ok i, .ok j => .ok (.pair i j)
    | some r, _, _ => .error (!(optMin (errOf x) (smallest (pairWord w)) == some r), r)
    | none, _, _ => .error (false, 1)
  else
    match decodeFields (unpackLane w) with
    | .ok i => .ok (.single i)
    | .error r => .error (false, r)

/-- The word of a single lane instruction, or of a pair. -/
def encodeLane : LaneWord → Option (BitVec 96)
  | .single i => (encodeFields i).map packLane
  | .pair x y =>
    match encodeHalf x, encodeHalf y with
    | some fx, some fy => some (1#1 ++ packHalf fx ++ packHalf fy ++ 0#1)
    | _, _ => none

/-! ### Scalar words (03:R66, R67; 04:R77 to R80) -/

/-- The fields of a scalar word in every format. -/
structure ScalarFields where
  op : BitVec 6
  d : SReg
  a : SReg
  b : SReg
  f : BitVec 11
  imm : BitVec 16
  off : BitVec 26
  w : Bool
  deriving DecidableEq, Repr

def unpackScalar (x : W32) : ScalarFields where
  op := x.extractLsb' 26 6
  d := x.extractLsb' 21 5
  a := x.extractLsb' 16 5
  b := x.extractLsb' 11 5
  f := x.extractLsb' 0 11
  imm := x.extractLsb' 0 16
  off := x.extractLsb' 0 26
  w := x.getLsbD 4

/-- Format S-R, and the formats S-I and S-B, which place two registers and 16 bits alike. -/
def sR (op : BitVec 6) (d a b : SReg) (f : BitVec 11) : W32 := op ++ d ++ a ++ b ++ f
def sI (op : BitVec 6) (d a : SReg) (imm : BitVec 16) : W32 := op ++ d ++ a ++ imm

def ok (rs : List Nat) (i : Instr) : Except Nat Instr := verdict rs i
def zero5 (x : SReg) : List Nat := req (x == 0) 2
def zeroF (f : ScalarFields) : List Nat := req (f.f == 0) 2
def reqS (b : Bool) (r : Nat) : List Nat := req b r

/-- The ALU opcode (04:R78): F[3:0] must be zero, F[10:5] selects, F[4] is W. -/
def decodeAlu (f : ScalarFields) : Except Nat Instr :=
  let ok (rs : List Nat) (i : Instr) : Except Nat Instr := verdict (req (f.f.extractLsb' 0 4 == 0) 2 ++ rs) i
  match (f.f.extractLsb' 5 6).toNat with
    | 0 => ok [] (.add f.w f.d f.a f.b)
    | 1 => ok [] (.sub f.w f.d f.a f.b)
    | 2 => ok [] (.sAnd f.w f.d f.a f.b)
    | 3 => ok [] (.sOr f.w f.d f.a f.b)
    | 4 => ok [] (.sXor f.w f.d f.a f.b)
    | 5 => ok [] (.sAndn f.w f.d f.a f.b)
    | 6 => ok [] (.sll f.w f.d f.a f.b)
    | 7 => ok [] (.srl f.w f.d f.a f.b)
    | 8 => ok [] (.sra f.w f.d f.a f.b)
    | 9 => ok [] (.mul f.w f.d f.a f.b)
    | 10 => ok [] (.mulh f.w f.d f.a f.b)
    | 11 => ok [] (.mulhu f.w f.d f.a f.b)
    | 12 => ok [] (.div f.w f.d f.a f.b)
    | 13 => ok [] (.divu f.w f.d f.a f.b)
    | 14 => ok [] (.rem f.w f.d f.a f.b)
    | 15 => ok [] (.remu f.w f.d f.a f.b)
    | 16 => ok [] (.sMin f.w f.d f.a f.b)
    | 17 => ok [] (.sMax f.w f.d f.a f.b)
    | 18 => ok [] (.minu f.w f.d f.a f.b)
    | 19 => ok [] (.maxu f.w f.d f.a f.b)
    | 20 => ok [] (.slt f.w f.d f.a f.b)
    | 21 => ok [] (.sltu f.w f.d f.a f.b)
    | 22 => ok (zero5 f.b) (.sClz f.w f.d f.a)
    | 23 => ok (zero5 f.b) (.sCtz f.w f.d f.a)
    | 24 => ok (zero5 f.b) (.sPopc f.w f.d f.a)
    | _ => verdict (req (f.f.extractLsb' 0 4 == 0) 2 ++ [6]) .vsync

/-- Shifts by an immediate (05:R94; 04:R79). -/
def decodeShift (f : ScalarFields) : Except Nat Instr :=
  let w := f.imm.getLsbD 8
  let n := f.imm.extractLsb' 0 6
  let k := f.imm.extractLsb' 6 2
  verdict (req (f.imm.extractLsb' 9 7 == 0) 2 ++ req (!(w && n.getLsbD 5)) 6 ++ req (k != 3) 6)
    (if k = 0 then .slli w f.d f.a n else if k = 1 then .srli w f.d f.a n else .srai w f.d f.a n)

/-- LDACQ and STREL (04:R79, R80). -/
def decodeSyncm (f : ScalarFields) : Except Nat Instr :=
  let k := f.f.extractLsb' 8 3
  let sc := f.f.extractLsb' 5 3
  let w := f.f.getLsbD 4
  let rs := req (f.f.extractLsb' 0 4 == 0) 2 ++ req (sc < 5#3) 6
  if k = 0 then verdict (rs ++ zero5 f.b) (.ldacq w (Scope.ofBits sc) f.d f.a)
  else if k = 1 then verdict (rs ++ zero5 f.d) (.strel w (Scope.ofBits sc) f.a f.b)
  else verdict (rs ++ [6]) .vsync

/-- The scalar atomics (04:R79). -/
def decodeAmo (f : ScalarFields) : Except Nat Instr :=
  let k := f.f.extractLsb' 7 4
  let sc := Scope.ofBits (f.f.extractLsb' 4 3)
  let o := Order.ofBits (f.f.extractLsb' 2 2)
  let w := f.f.getLsbD 1
  verdict (req (!f.f.getLsbD 0) 2 ++ req (f.f.extractLsb' 4 3 < 5#3) 6 ++ req (k < 10#4) 6)
    (if k = 0 then .aadd w sc o f.d f.a f.b else if k = 1 then .aand w sc o f.d f.a f.b
     else if k = 2 then .aor w sc o f.d f.a f.b else if k = 3 then .axor w sc o f.d f.a f.b
     else if k = 4 then .amin w sc o f.d f.a f.b else if k = 5 then .amax w sc o f.d f.a f.b
     else if k = 6 then .aminu w sc o f.d f.a f.b else if k = 7 then .amaxu w sc o f.d f.a f.b
     else if k = 8 then .aswp w sc o f.d f.a f.b else .acas w sc o f.d f.a f.b)

/-- PHASE (04:R79). -/
def decodePhase (f : ScalarFields) : Except Nat Instr :=
  let k := f.f.extractLsb' 9 2
  let sc := Scope.ofBits (f.f.extractLsb' 6 3)
  verdict (zero5 f.d ++ zero5 f.a ++ zero5 f.b ++ req (f.f.extractLsb' 0 6 == 0) 2 ++
      req (f.f.extractLsb' 6 3 < 5#3) 6 ++ req (k != 3) 6)
    (if k = 0 then .phaseEnd sc else if k = 1 then .phaseBegin sc else .phaseFull sc)

/-- SYS (04:R79, R80). An MTS to a register that may not be written decodes; its meaning raises reason 14. -/
def decodeSys (f : ScalarFields) : Except Nat Instr :=
  let n := f.f.extractLsb' 0 6
  match (f.f.extractLsb' 6 5).toNat with
  | 0 => verdict (zero5 f.a ++ zero5 f.b ++ req (n < 24#6) 6) (if n = 14 then .mfsTrapinfo f.d else .mfs f.d n)
  | 1 => verdict (zero5 f.d ++ zero5 f.b ++ req (n < 24#6) 6)
      (if n = 14 then .mtsTrapinfo f.a else if n = 12 then .mtsLbr f.a else if n = 16 then .mtsFpstat f.a
       else if n = 13 then .mtsAllowance f.a else if n = 19 then .mtsResume f.a else .mts f.a n)
  | 2 => verdict (zero5 f.d ++ zero5 f.a ++ zero5 f.b) (.trap n)
  | 3 => verdict (zero5 f.d ++ zero5 f.a ++ zero5 f.b ++ req (n == 0) 2) .brk
  | 4 => verdict (zero5 f.d ++ zero5 f.a ++ zero5 f.b ++ req (n == 0) 2) .exit
  | 5 => verdict (zero5 f.b ++ req (n == 0) 2) (.chbind f.d f.a)
  | 6 => verdict (zero5 f.d ++ zero5 f.b ++ req (n == 0) 2) (.chfree f.a)
  | 7 => verdict (zero5 f.d ++ zero5 f.a ++ zero5 f.b ++ req (n == 0) 2) .yieldTurn
  | 8 => verdict (zero5 f.d ++ zero5 f.b ++ req (n == 0) 2) (.nap f.a)
  | 9 => verdict (zero5 f.b ++ req (n == 0) 2) (.extfree f.d f.a)
  | _ => .error 6

/-- The instruction of a scalar word's fields (04:R77). -/
def decodeScalarFields (f : ScalarFields) : Except Nat Instr :=
  match f.op.toNat with
  | 0x01 => decodeAlu f
  | 0x02 => ok [] (.addi f.d f.a f.imm)
  | 0x03 => ok [] (.andi f.d f.a f.imm)
  | 0x04 => ok [] (.ori f.d f.a f.imm)
  | 0x05 => ok [] (.xori f.d f.a f.imm)
  | 0x06 => ok [] (.slti f.d f.a f.imm)
  | 0x07 => ok [] (.sltiu f.d f.a f.imm)
  | 0x08 => decodeShift f
  | 0x09 => ok (zero5 f.a) (.lui f.d f.imm)
  | 0x0A => ok [] (.addhi f.d f.a f.imm)
  | 0x0B => ok (zero5 f.a) (.addpc f.d f.imm)
  | 0x10 => ok [] (.ldb f.d f.a f.imm)
  | 0x11 => ok [] (.ldbu f.d f.a f.imm)
  | 0x12 => ok [] (.ldh f.d f.a f.imm)
  | 0x13 => ok [] (.ldhu f.d f.a f.imm)
  | 0x14 => ok [] (.ldw f.d f.a f.imm)
  | 0x15 => ok [] (.ldwu f.d f.a f.imm)
  | 0x16 => ok [] (.ldd f.d f.a f.imm)
  | 0x18 => ok [] (.stb f.d f.a f.imm)
  | 0x19 => ok [] (.sth f.d f.a f.imm)
  | 0x1A => ok [] (.stw f.d f.a f.imm)
  | 0x1B => ok [] (.std f.d f.a f.imm)
  | 0x1C => decodeSyncm f
  | 0x1D => decodeAmo f
  | 0x1E => decodePhase f
  | 0x20 => ok [] (.beq f.d f.a f.imm)
  | 0x21 => ok [] (.bne f.d f.a f.imm)
  | 0x22 => ok [] (.blt f.d f.a f.imm)
  | 0x23 => ok [] (.bge f.d f.a f.imm)
  | 0x24 => ok [] (.bltu f.d f.a f.imm)
  | 0x25 => ok [] (.bgeu f.d f.a f.imm)
  | 0x26 => ok [] (.jmp f.off)
  | 0x27 => ok [] (.jal f.off)
  | 0x28 => ok [] (.jalr f.d f.a f.imm)
  | 0x30 => ok [] (.vex (f.off.extractLsb' 16 10) f.imm)
  | 0x31 => ok (zero5 f.d ++ zeroF f) (.vexr f.a f.b)
  | 0x32 => ok (zero5 f.d ++ zero5 f.a ++ zero5 f.b ++ zeroF f) .vsync
  | 0x33 => ok (zero5 f.a ++ zero5 f.b ++ zeroF f) (.srqpop f.d)
  | 0x34 => ok (zero5 f.a ++ reqS ((f.imm >>> 5) == 0) 2 ++ (if f.imm.getLsbD 4 then [] else zero5 f.d)) (if f.imm.getLsbD 4 then .vgrowTry f.d (f.imm.extractLsb' 0 4) else .vgrow (f.imm.extractLsb' 0 4))
  | 0x35 => ok (zero5 f.d ++ zero5 f.a ++ reqS ((f.imm >>> 4) == 0) 2) (.vshrink (f.imm.extractLsb' 0 4))
  | 0x36 => ok (zero5 f.d ++ zero5 f.b ++ zeroF f) (.task f.a)
  | 0x37 => ok (zero5 f.d ++ zero5 f.a) (.twait f.imm)
  | 0x38 => ok (zero5 f.b ++ zeroF f) (.agdecl f.d f.a)
  | 0x39 => ok (zero5 f.d ++ zero5 f.b ++ zeroF f) (.agdrop f.a)
  | 0x3A => ok (zero5 f.b ++ zeroF f) (.seal f.d f.a)
  | 0x3B => ok (zero5 f.d ++ zero5 f.b ++ zeroF f) (.settle f.a)
  | 0x3C => ok (zeroF f) (.launch f.d f.a f.b)
  | 0x3D => ok (zero5 f.d ++ zero5 f.a ++ reqS (f.imm.getLsbD 2 == false) 6) (.bar (f.imm.extractLsb' 0 2) (f.imm.extractLsb' 3 13))
  | 0x3E => decodeSys f
  | _ => .error 1

/-- A scalar word. -/
def decodeScalar (w : W32) : Except Nat Instr := decodeScalarFields (unpackScalar w)

/-- The word of a scalar instruction. -/
def encodeScalar : Instr → Option W32
  | .add w d a b => some (sR 0x01 d a b (0#6 ++ BitVec.ofBool w ++ 0#4))
  | .sub w d a b => some (sR 0x01 d a b (1#6 ++ BitVec.ofBool w ++ 0#4))
  | .sAnd w d a b => some (sR 0x01 d a b (2#6 ++ BitVec.ofBool w ++ 0#4))
  | .sOr w d a b => some (sR 0x01 d a b (3#6 ++ BitVec.ofBool w ++ 0#4))
  | .sXor w d a b => some (sR 0x01 d a b (4#6 ++ BitVec.ofBool w ++ 0#4))
  | .sAndn w d a b => some (sR 0x01 d a b (5#6 ++ BitVec.ofBool w ++ 0#4))
  | .sll w d a b => some (sR 0x01 d a b (6#6 ++ BitVec.ofBool w ++ 0#4))
  | .srl w d a b => some (sR 0x01 d a b (7#6 ++ BitVec.ofBool w ++ 0#4))
  | .sra w d a b => some (sR 0x01 d a b (8#6 ++ BitVec.ofBool w ++ 0#4))
  | .mul w d a b => some (sR 0x01 d a b (9#6 ++ BitVec.ofBool w ++ 0#4))
  | .mulh w d a b => some (sR 0x01 d a b (10#6 ++ BitVec.ofBool w ++ 0#4))
  | .mulhu w d a b => some (sR 0x01 d a b (11#6 ++ BitVec.ofBool w ++ 0#4))
  | .div w d a b => some (sR 0x01 d a b (12#6 ++ BitVec.ofBool w ++ 0#4))
  | .divu w d a b => some (sR 0x01 d a b (13#6 ++ BitVec.ofBool w ++ 0#4))
  | .rem w d a b => some (sR 0x01 d a b (14#6 ++ BitVec.ofBool w ++ 0#4))
  | .remu w d a b => some (sR 0x01 d a b (15#6 ++ BitVec.ofBool w ++ 0#4))
  | .sMin w d a b => some (sR 0x01 d a b (16#6 ++ BitVec.ofBool w ++ 0#4))
  | .sMax w d a b => some (sR 0x01 d a b (17#6 ++ BitVec.ofBool w ++ 0#4))
  | .minu w d a b => some (sR 0x01 d a b (18#6 ++ BitVec.ofBool w ++ 0#4))
  | .maxu w d a b => some (sR 0x01 d a b (19#6 ++ BitVec.ofBool w ++ 0#4))
  | .slt w d a b => some (sR 0x01 d a b (20#6 ++ BitVec.ofBool w ++ 0#4))
  | .sltu w d a b => some (sR 0x01 d a b (21#6 ++ BitVec.ofBool w ++ 0#4))
  | .sClz w d a => some (sR 0x01 d a 0 (22#6 ++ BitVec.ofBool w ++ 0#4))
  | .sCtz w d a => some (sR 0x01 d a 0 (23#6 ++ BitVec.ofBool w ++ 0#4))
  | .sPopc w d a => some (sR 0x01 d a 0 (24#6 ++ BitVec.ofBool w ++ 0#4))
  | .addi d a imm => some (sI 0x02 d a imm)
  | .andi d a imm => some (sI 0x03 d a imm)
  | .ori d a imm => some (sI 0x04 d a imm)
  | .xori d a imm => some (sI 0x05 d a imm)
  | .slti d a imm => some (sI 0x06 d a imm)
  | .sltiu d a imm => some (sI 0x07 d a imm)
  | .addhi d a imm => some (sI 0x0A d a imm)
  | .ldb d a imm => some (sI 0x10 d a imm)
  | .ldbu d a imm => some (sI 0x11 d a imm)
  | .ldh d a imm => some (sI 0x12 d a imm)
  | .ldhu d a imm => some (sI 0x13 d a imm)
  | .ldw d a imm => some (sI 0x14 d a imm)
  | .ldwu d a imm => some (sI 0x15 d a imm)
  | .ldd d a imm => some (sI 0x16 d a imm)
  | .stb d a imm => some (sI 0x18 d a imm)
  | .sth d a imm => some (sI 0x19 d a imm)
  | .stw d a imm => some (sI 0x1A d a imm)
  | .std d a imm => some (sI 0x1B d a imm)
  | .jalr d a imm => some (sI 0x28 d a imm)
  | .lui d imm => some (sI 0x09 d 0 imm)
  | .addpc d imm => some (sI 0x0B d 0 imm)
  | .slli w d a n => some (sI 0x08 d a (0#7 ++ BitVec.ofBool w ++ 0#2 ++ n))
  | .srli w d a n => some (sI 0x08 d a (0#7 ++ BitVec.ofBool w ++ 1#2 ++ n))
  | .srai w d a n => some (sI 0x08 d a (0#7 ++ BitVec.ofBool w ++ 2#2 ++ n))
  | .ldacq w sc d a => some (sR 0x1C d a 0 (0#3 ++ sc.bits ++ BitVec.ofBool w ++ 0#4))
  | .strel w sc a b => some (sR 0x1C 0 a b (1#3 ++ sc.bits ++ BitVec.ofBool w ++ 0#4))
  | .aadd w sc o d a b => some (sR 0x1D d a b (0#4 ++ sc.bits ++ o.bits ++ BitVec.ofBool w ++ 0#1))
  | .aand w sc o d a b => some (sR 0x1D d a b (1#4 ++ sc.bits ++ o.bits ++ BitVec.ofBool w ++ 0#1))
  | .aor w sc o d a b => some (sR 0x1D d a b (2#4 ++ sc.bits ++ o.bits ++ BitVec.ofBool w ++ 0#1))
  | .axor w sc o d a b => some (sR 0x1D d a b (3#4 ++ sc.bits ++ o.bits ++ BitVec.ofBool w ++ 0#1))
  | .amin w sc o d a b => some (sR 0x1D d a b (4#4 ++ sc.bits ++ o.bits ++ BitVec.ofBool w ++ 0#1))
  | .amax w sc o d a b => some (sR 0x1D d a b (5#4 ++ sc.bits ++ o.bits ++ BitVec.ofBool w ++ 0#1))
  | .aminu w sc o d a b => some (sR 0x1D d a b (6#4 ++ sc.bits ++ o.bits ++ BitVec.ofBool w ++ 0#1))
  | .amaxu w sc o d a b => some (sR 0x1D d a b (7#4 ++ sc.bits ++ o.bits ++ BitVec.ofBool w ++ 0#1))
  | .aswp w sc o d a b => some (sR 0x1D d a b (8#4 ++ sc.bits ++ o.bits ++ BitVec.ofBool w ++ 0#1))
  | .acas w sc o d a b => some (sR 0x1D d a b (9#4 ++ sc.bits ++ o.bits ++ BitVec.ofBool w ++ 0#1))
  | .phaseEnd sc => some (sR 0x1E 0 0 0 (0#2 ++ sc.bits ++ 0#6))
  | .phaseBegin sc => some (sR 0x1E 0 0 0 (1#2 ++ sc.bits ++ 0#6))
  | .phaseFull sc => some (sR 0x1E 0 0 0 (2#2 ++ sc.bits ++ 0#6))
  | .beq a b off => some (sI 0x20 a b off)
  | .bne a b off => some (sI 0x21 a b off)
  | .blt a b off => some (sI 0x22 a b off)
  | .bge a b off => some (sI 0x23 a b off)
  | .bltu a b off => some (sI 0x24 a b off)
  | .bgeu a b off => some (sI 0x25 a b off)
  | .jmp off => some (0x26#6 ++ off)
  | .jal off => some (0x27#6 ++ off)
  | .vex cnt loff => some (0x30#6 ++ cnt ++ loff)
  | .vexr a b => some (sR 0x31 0 a b 0)
  | .vsync => some (sR 0x32 0 0 0 0)
  | .srqpop d => some (sR 0x33 d 0 0 0)
  | .vgrow n => some (sI 0x34 0 0 (0#12 ++ n))
  | .vgrowTry d n => some (sI 0x34 d 0 (0#11 ++ 1#1 ++ n))
  | .vshrink n => some (sI 0x35 0 0 (0#12 ++ n))
  | .task a => some (sR 0x36 0 a 0 0)
  | .twait k => some (sI 0x37 0 0 k)
  | .agdecl d a => some (sR 0x38 d a 0 0)
  | .seal d a => some (sR 0x3A d a 0 0)
  | .agdrop a => some (sR 0x39 0 a 0 0)
  | .settle a => some (sR 0x3B 0 a 0 0)
  | .launch d a b => some (sR 0x3C d a b 0)
  | .bar level id => some (sI 0x3D 0 0 (id ++ 0#1 ++ level))
  | .mfs d n => some (sR 0x3E d 0 0 (0#5 ++ n))
  | .mfsTrapinfo d => some (sR 0x3E d 0 0 (0#5 ++ 14#6))
  | .mts a n => some (sR 0x3E 0 a 0 (1#5 ++ n))
  | .mtsTrapinfo a => some (sR 0x3E 0 a 0 (1#5 ++ 14#6))
  | .mtsLbr a => some (sR 0x3E 0 a 0 (1#5 ++ 12#6))
  | .mtsFpstat a => some (sR 0x3E 0 a 0 (1#5 ++ 16#6))
  | .mtsAllowance a => some (sR 0x3E 0 a 0 (1#5 ++ 13#6))
  | .mtsResume a => some (sR 0x3E 0 a 0 (1#5 ++ 19#6))
  | .trap code => some (sR 0x3E 0 0 0 (2#5 ++ code))
  | .brk => some (sR 0x3E 0 0 0 (3#5 ++ 0#6))
  | .exit  => some (sR 0x3E 0 0 0 (4#5 ++ 0#6))
  | .chbind d a => some (sR 0x3E d a 0 (5#5 ++ 0#6))
  | .chfree a => some (sR 0x3E 0 a 0 (6#5 ++ 0#6))
  | .yieldTurn  => some (sR 0x3E 0 0 0 (7#5 ++ 0#6))
  | .nap a => some (sR 0x3E 0 a 0 (8#5 ++ 0#6))
  | .extfree d a => some (sR 0x3E d a 0 (9#5 ++ 0#6))
  | _ => none

/-! ### Words in memory -/

/-- The scalar word that four bytes hold, lowest address first, decoded; what decode refuses is the step that raises
ILLEGAL_ENCODING. -/
def scalarOfBytes (bytes : List Byte) : Instr :=
  match decodeScalar (ofBytes 32 bytes) with
  | .ok i => i
  | .error r => .illegalEncodingWord false false r

/-- The lane word that twelve bytes hold. -/
def laneOfBytes (bytes : List Byte) : LaneWord :=
  match decodeLane (ofBytes 96 bytes) with
  | .ok w => w
  | .error (h, r) => .single (.illegalEncodingWord true h r)

/-- The words of a well-formed instruction as bytes: a scalar word or a single lane word. -/
def encode (i : Instr) : Option (List Byte) :=
  match encodeScalar i with
  | some w => some (toBytes 4 w)
  | none => (encodeFields i).map (fun f => toBytes 12 (packLane f))

/-- The decoder on bytes: four bytes are a scalar word, twelve a lane word. None for a word that decode refuses and for
a pair, which is two instructions. -/
def decode (bytes : List Byte) : Option Instr :=
  if bytes.length = 4 then (decodeScalar (ofBytes 32 bytes)).toOption
  else if bytes.length = 12 then
    match decodeLane (ofBytes 96 bytes) with
    | .ok (.single i) => some i
    | _ => none
  else none

/-- The instruction the decoder reads from the word `w` of the opcode table: up to 32 bits a scalar word, more a lane
word. -/
def decodeTableWord (nbits w : Nat) : Option Instr :=
  if nbits ≤ 32 then decode (toBytes 4 (BitVec.ofNat 32 w)) else decode (toBytes 12 (BitVec.ofNat 96 w))

end Sys2Proof
end

