-- ==== Sys2Proof/Machine/Formats.lean ====
section
/-!
DEFINITION. Number formats, rounding and dither (07:R137 to R151) and the exact arithmetic under the float instructions
(08:R160 to R173): a finite value is a sign, a natural mantissa and a power of two, so every sum and product is exact
and is rounded once. Irrational functions are enclosed between two fixed-point numbers whose precision is doubled until
both round alike.
-/

namespace Sys2Proof.Machine

open Sys2Proof

/-! ### Flags (01:R31) -/

abbrev FFlags := BitVec 5
namespace FlagBit
def invalid : FFlags := 0x01
def divZero : FFlags := 0x02
def overflow : FFlags := 0x04
def underflow : FFlags := 0x08
def inexact : FFlags := 0x10
end FlagBit

/-! ### Formats (07:R137, R138) -/

/-- Bits of the whole format. -/
def fmtWidth : FFmt → Nat
  | .f32 => 32 | .f16 => 16 | .bf16 => 16 | .e4m3 => 8 | .e5m2 => 8 | .e2m1 => 4
/-- Bits of the mantissa. -/
def fmtMant : FFmt → Nat
  | .f32 => 23 | .f16 => 10 | .bf16 => 7 | .e4m3 => 3 | .e5m2 => 2 | .e2m1 => 1
def fmtBias : FFmt → Nat
  | .f32 => 127 | .f16 => 15 | .bf16 => 127 | .e4m3 => 7 | .e5m2 => 15 | .e2m1 => 1
/-- The bits of the largest finite value, sign clear. -/
def fmtMax : FFmt → Nat
  | .f32 => 0x7F7FFFFF | .f16 => 0x7BFF | .bf16 => 0x7F7F | .e4m3 => 0x7E | .e5m2 => 0x7B | .e2m1 => 0x7
/-- The bits of +∞, where there is one. -/
def fmtInf : FFmt → Option Nat
  | .f32 => some 0x7F800000 | .f16 => some 0x7C00 | .bf16 => some 0x7F80 | .e4m3 => none | .e5m2 => some 0x7C
  | .e2m1 => none
/-- The canonical NaN; E2M1 has none and takes +0.0 (07:R146). -/
def fmtNan : FFmt → Nat
  | .f32 => 0x7FC00000 | .f16 => 0x7E00 | .bf16 => 0x7FC0 | .e4m3 => 0x7F | .e5m2 => 0x7E | .e2m1 => 0
def fmtSign (f : FFmt) : Nat := 2 ^ (fmtWidth f - 1)

/-- A decoded value: a NaN, an infinity, or (−1)^neg × m × 2^e. -/
inductive Fp where
  | nan (signalling : Bool)
  | inf (neg : Bool)
  | fin (neg : Bool) (m : Nat) (e : Int)
  deriving DecidableEq, Repr

/-- The value of the low bits of `x` in a format. -/
def fpOf (f : FFmt) (x : Nat) : Fp :=
  let mb := fmtMant f
  let neg := x / fmtSign f % 2 == 1
  let body := x % fmtSign f
  let e := body / 2 ^ mb
  let m := body % 2 ^ mb
  let top := fmtSign f / 2 ^ mb - 1
  let finite : Fp :=
    if e = 0 then .fin neg m (1 - (fmtBias f : Int) - mb) else .fin neg (2 ^ mb + m) ((e : Int) - fmtBias f - mb)
  match f with
  | .e2m1 => finite
  | .e4m3 => if body = 0x7F then .nan false else finite
  | .f32 => if e = top then (if m = 0 then .inf neg else .nan (m < 2 ^ (mb - 1))) else finite
  | .f16 => if e = top then (if m = 0 then .inf neg else .nan (m < 2 ^ (mb - 1))) else finite
  | .bf16 => if e = top then (if m = 0 then .inf neg else .nan (m < 2 ^ (mb - 1))) else finite
  | .e5m2 => if e = top then (if m = 0 then .inf neg else .nan (m < 2 ^ (mb - 1))) else finite

def Fp.isNan : Fp → Bool
  | .nan _ => true | .inf _ => false | .fin _ _ _ => false
def Fp.isSnan : Fp → Bool
  | .nan s => s | .inf _ => false | .fin _ _ _ => false
def Fp.isInf : Fp → Bool
  | .nan _ => false | .inf _ => true | .fin _ _ _ => false
def Fp.isZero : Fp → Bool
  | .nan _ => false | .inf _ => false | .fin _ m _ => m == 0
def Fp.neg : Fp → Bool
  | .nan _ => false | .inf n => n | .fin n _ _ => n
/-- The invalid flag of signalling sources (08:R158). -/
def snanFlag (xs : List Fp) : FFlags := if xs.any Fp.isSnan then FlagBit.invalid else 0

/-! ### Rounding (07:R144 to R147) -/

/-- A result: the bits of the destination format and the flags. -/
structure Rounded where
  bits : Nat
  flags : FFlags
  deriving DecidableEq, Repr

def signed (f : FFmt) (neg : Bool) (body : Nat) : Nat := if neg then fmtSign f + body else body

/-- An infinity in a format (07:R146); where the format has none the flag is invalid alone, and not inexact too (DESIGN CHOICE,
log 60). -/
def infIn (f : FFmt) (sat neg : Bool) : Rounded :=
  match f, fmtInf f with
  | _, some i => ⟨signed f neg i, 0⟩
  | .e4m3, none => ⟨if sat then signed f neg (fmtMax f) else fmtNan f, FlagBit.invalid⟩
  | _, none => ⟨signed f neg (fmtMax f), FlagBit.invalid⟩

/-- A NaN in a format, with the flags of its source. -/
def nanIn (f : FFmt) (flags : FFlags) : Rounded :=
  match f with
  | .e2m1 => ⟨fmtNan f, flags ||| FlagBit.invalid⟩
  | _ => ⟨fmtNan f, flags⟩

/-- Overflow (07:R145). -/
def overflowIn (f : FFmt) (mode : Rnd) (sat neg : Bool) : Rounded :=
  let toMax : Bool := sat || (match mode with
    | .rn => false | .rz => true | .rd => !neg | .ru => neg | .sr => false)
  let bits := if toMax then signed f neg (fmtMax f) else
    match f, fmtInf f with
    | _, some i => signed f neg i
    | .e2m1, none => signed f neg (fmtMax f)
    | _, none => fmtNan f
  ⟨bits, FlagBit.overflow ||| FlagBit.inexact⟩

/-- Whether the magnitude rounds up, from the discarded part of `r` over 2^sh with more below it if `sticky`. -/
def roundsUp (mode : Rnd) (neg odd : Bool) (r sh : Nat) (sticky : Bool) (dither : Nat) : Bool :=
  let some' := r != 0 || sticky
  some' && (match mode with
    | .rn => decide (2 ^ sh < 2 * r) || (decide (2 * r = 2 ^ sh) && (sticky || odd))
    | .rz => false
    | .rd => neg
    | .ru => !neg
    | .sr => decide (256 ≤ r * 256 / 2 ^ sh + dither))

/-- The bits of a magnitude q × 2^u that is representable. -/
def bitsOf (f : FFmt) (q : Nat) (u : Int) : Nat :=
  let mb := fmtMant f
  if q < 2 ^ mb then q
  else
    let (q, u) := if q < 2 ^ (mb + 1) then (q, u) else (q / 2, u + 1)
    (u + fmtBias f + mb).toNat * 2 ^ mb + (q - 2 ^ mb)

/-- Whether q × 2^u is above the largest finite value. -/
def aboveMax (f : FFmt) (q : Nat) (u : Int) : Bool :=
  match fpOf f (fmtMax f) with
  | .fin _ m e => if u ≤ e then decide (m * 2 ^ (e - u).toNat < q) else decide (m < q * 2 ^ (u - e).toNat)
  | .nan _ => false
  | .inf _ => false

/-- Round of a finite value (−1)^neg × (m + δ) × 2^e, 0 < δ < 1 if `sticky`, else δ = 0. With `sticky`, m has more
bits than the format keeps. -/
def roundFin (f : FFmt) (mode : Rnd) (dither : Nat) (sat neg : Bool) (m : Nat) (e : Int) (sticky : Bool) : Rounded :=
  if m = 0 && !sticky then ⟨signed f neg 0, 0⟩
  else
    let mb := fmtMant f
    let emin : Int := 1 - (fmtBias f : Int) - mb
    let top : Int := (Nat.log2 m : Int) + e
    if top > fmtBias f + 2 then overflowIn f mode sat neg
    else
      let u : Int := max (top - mb) emin
      let (q, up, lost) :=
        if u ≤ e then (m * 2 ^ (e - u).toNat, roundsUp mode neg (m * 2 ^ (e - u).toNat % 2 == 1) 0 8 sticky dither, sticky)
        else if top < u - 16 then (0, roundsUp mode neg false 0 8 true dither, true)
        else
          let sh := (u - e).toNat
          let q := m / 2 ^ sh
          let r := m % 2 ^ sh
          (q, roundsUp mode neg (q % 2 == 1) r sh sticky dither, r != 0 || sticky)
      let q := if up then q + 1 else q
      if aboveMax f q u then overflowIn f mode sat neg
      else
        let tiny := decide (q < 2 ^ mb)
        ⟨signed f neg (bitsOf f q u),
          (if lost then FlagBit.inexact else 0) ||| (if lost && tiny then FlagBit.underflow else 0)⟩

/-- Round of any value but a NaN; a NaN becomes canonical (07:R138, R144 to R146). -/
def roundTo (f : FFmt) (mode : Rnd) (dither : Nat) (sat : Bool) (x : Fp) : Rounded :=
  match x with
  | .nan s => nanIn f (if s then FlagBit.invalid else 0)
  | .inf n => infIn f sat n
  | .fin n m e => roundFin f mode dither sat n m e false

/-! ### Exact sums and products (08:R160, R161) -/

/-- The product of two values that are no NaN; none for 0 × ∞. -/
def mulExact (a b : Fp) : Option Fp :=
  match a, b with
  | .fin n m e, .fin n' m' e' => some (.fin (n != n') (m * m') (e + e'))
  | .inf n, .fin n' m' _ => if m' = 0 then none else some (.inf (n != n'))
  | .fin n m _, .inf n' => if m = 0 then none else some (.inf (n != n'))
  | .inf n, .inf n' => some (.inf (n != n'))
  | _, _ => none

/-- The smallest exponent of finite terms. -/
def minExp : List Fp → Int → Int
  | [], e => e
  | .fin _ m e :: rest, e' => minExp rest (if m = 0 then e' else min e e')
  | .nan _ :: rest, e' => minExp rest e'
  | .inf _ :: rest, e' => minExp rest e'

/-- The exact sum of finite terms, in units of 2^e. -/
def sumAt (e : Int) : List Fp → Int
  | [] => 0
  | .fin n m e' :: rest => (if n then -((m * 2 ^ (e' - e).toNat : Nat) : Int) else (m * 2 ^ (e' - e).toNat : Nat)) + sumAt e rest
  | .nan _ :: rest => sumAt e rest
  | .inf _ :: rest => sumAt e rest

/-- The exact sum of terms that are no NaN; none for ∞ − ∞. An exact zero takes its sign by 08:R161. -/
def sumExact (mode : Rnd) (ts : List Fp) : Option Fp :=
  if ts.any Fp.isInf then
    if ts.any (fun t => t.isInf && t.neg) && ts.any (fun t => t.isInf && !t.neg) then none
    else some (.inf (ts.any (fun t => t.isInf && t.neg)))
  else
    let e := minExp ts 4096
    let e := if e = 4096 then 0 else e
    let x := sumAt e (ts.filter (fun t => !t.isZero))
    if x = 0 then
      let neg := if ts.all (fun t => t.isZero && t.neg) then true
        else if ts.all (fun t => t.isZero && !t.neg) then false
        else (match mode with | .rd => true | .rn => false | .rz => false | .ru => false | .sr => false)
      some (.fin neg 0 0)
    else some (.fin (decide (x < 0)) x.natAbs e)

/-- FADD of any number of terms, after the NaN test. -/
def addTerms (f : FFmt) (mode : Rnd) (dither : Nat) (ts : List Fp) : Rounded :=
  if ts.any Fp.isNan then nanIn f (snanFlag ts)
  else match sumExact mode ts with
    | none => ⟨fmtNan f, FlagBit.invalid⟩
    | some x => roundTo f mode dither false x

def negate : Fp → Fp
  | .nan s => .nan s
  | .inf n => .inf (!n)
  | .fin n m e => .fin (!n) m e

def fAdd (f : FFmt) (mode : Rnd) (dither a b : Nat) : Rounded := addTerms f mode dither [fpOf f a, fpOf f b]
def fSub (f : FFmt) (mode : Rnd) (dither a b : Nat) : Rounded := addTerms f mode dither [fpOf f a, negate (fpOf f b)]

def fMul (f : FFmt) (mode : Rnd) (dither a b : Nat) : Rounded :=
  let x := fpOf f a; let y := fpOf f b
  if (x.isZero && y.isInf) || (x.isInf && y.isZero) then ⟨fmtNan f, FlagBit.invalid⟩
  else if x.isNan || y.isNan then nanIn f (snanFlag [x, y])
  else match mulExact x y with
    | none => ⟨fmtNan f, FlagBit.invalid⟩
    | some p => roundTo f mode dither false p

def fFma (f : FFmt) (mode : Rnd) (dither a b c : Nat) : Rounded :=
  let x := fpOf f a; let y := fpOf f b; let z := fpOf f c
  if (x.isZero && y.isInf) || (x.isInf && y.isZero) then ⟨fmtNan f, FlagBit.invalid⟩
  else if x.isNan || y.isNan || z.isNan then nanIn f (snanFlag [x, y, z])
  else match mulExact x y with
    | none => ⟨fmtNan f, FlagBit.invalid⟩
    | some p => addTerms f mode dither [p, z]

/-- FSCALE: a × 2^n. -/
def fScale (mode : Rnd) (dither a : Nat) (n : Int) : Rounded :=
  match fpOf .f32 a with
  | .nan s => nanIn .f32 (if s then FlagBit.invalid else 0)
  | .inf s => ⟨signed .f32 s 0x7F800000, 0⟩
  | .fin s m e => if m = 0 then ⟨a, 0⟩ else roundFin .f32 mode dither false s m (e + n) false

/-! ### Minimum, maximum, comparison, class (08:R162, R163; 06:R124) -/

/-- A total order key of a format's bits that are no NaN: −0 below +0. -/
def orderKey (f : FFmt) (x : Nat) : Int :=
  if x / fmtSign f % 2 = 1 then -((x % fmtSign f : Nat) : Int) - 1 else (x % fmtSign f : Nat)

def fMinMax (f : FFmt) (mx : Bool) (a b : Nat) : Rounded :=
  let x := fpOf f a; let y := fpOf f b
  if x.isNan || y.isNan then nanIn f (snanFlag [x, y])
  else if mx then ⟨if orderKey f a < orderKey f b then b else a, 0⟩
  else ⟨if orderKey f b < orderKey f a then b else a, 0⟩

/-- a < b as numbers; false with a NaN. -/
def fpLt (a b : Fp) : Bool :=
  match a, b with
  | .nan _, _ => false
  | _, .nan _ => false
  | .inf n, .inf n' => n && !n'
  | .inf n, .fin _ _ _ => n
  | .fin _ _ _, .inf n' => !n'
  | .fin _ _ _, .fin _ _ _ =>
    let e := minExp [a, b] 4096
    let e := if e = 4096 then 0 else e
    decide (sumAt e ([a].filter (fun t => !t.isZero)) < sumAt e ([b].filter (fun t => !t.isZero)))

/-- a = b as numbers; false with a NaN. -/
def fpEq (a b : Fp) : Bool := !a.isNan && !b.isNan && !fpLt a b && !fpLt b a

/-- The bit of the mask that FCLASS writes (08:R163). -/
def fClass (a : Nat) : Nat :=
  match fpOf .f32 a with
  | .nan s => if s then 8 else 9
  | .inf n => if n then 0 else 7
  | .fin n m _ =>
    if m = 0 then (if n then 3 else 4)
    else if m < 2 ^ 23 then (if n then 2 else 5) else (if n then 1 else 6)

/-! ### Division and square roots (08:R164, R165) -/

/-- The whole square root of x < 4^fuel, bit by bit from the top. -/
def isqrtFrom (x : Nat) : Nat → Nat → Nat
  | 0, r => r
  | k + 1, r => isqrtFrom x k (if (r + 2 ^ k) * (r + 2 ^ k) ≤ x then r + 2 ^ k else r)
def isqrt (x : Nat) : Nat := isqrtFrom x (Nat.log2 x / 2 + 1) 0

/-- A quotient of finite non-zero values, rounded. -/
def divRound (f : FFmt) (mode : Rnd) (dither : Nat) (neg : Bool) (m m' : Nat) (e : Int) : Rounded :=
  let k : Nat := 128
  roundFin f mode dither false neg (m * 2 ^ k / m') (e - k) (m * 2 ^ k % m' != 0)

def fDiv (mode : Rnd) (dither a b : Nat) : Rounded :=
  match fpOf .f32 a, fpOf .f32 b with
  | .nan s, y => nanIn .f32 (snanFlag [.nan s, y])
  | x, .nan s => nanIn .f32 (snanFlag [x, .nan s])
  | .inf _, .inf _ => ⟨fmtNan .f32, FlagBit.invalid⟩
  | .inf n, .fin n' _ _ => ⟨signed .f32 (n != n') 0x7F800000, 0⟩
  | .fin n _ _, .inf n' => ⟨signed .f32 (n != n') 0, 0⟩
  | .fin n m e, .fin n' m' e' =>
    if m' = 0 then (if m = 0 then ⟨fmtNan .f32, FlagBit.invalid⟩
      else ⟨signed .f32 (n != n') 0x7F800000, FlagBit.divZero⟩)
    else if m = 0 then ⟨signed .f32 (n != n') 0, 0⟩
    else divRound .f32 mode dither (n != n') m m' (e - e')

def fRcp (mode : Rnd) (dither a : Nat) : Rounded := fDiv mode dither 0x3F800000 a

def fSqrt (mode : Rnd) (dither a : Nat) : Rounded :=
  match fpOf .f32 a with
  | .nan s => nanIn .f32 (if s then FlagBit.invalid else 0)
  | .inf n => if n then ⟨fmtNan .f32, FlagBit.invalid⟩ else ⟨0x7F800000, 0⟩
  | .fin n m e =>
    if m = 0 then ⟨a, 0⟩
    else if n then ⟨fmtNan .f32, FlagBit.invalid⟩
    else
      let (m, e) := if e % 2 = 0 then (m, e) else (2 * m, e - 1)
      let x := m * 2 ^ 128
      let r := isqrt x
      roundFin .f32 mode dither false false r (e / 2 - 64) (r * r != x)

def fRsq (mode : Rnd) (dither a : Nat) : Rounded :=
  match fpOf .f32 a with
  | .nan s => nanIn .f32 (if s then FlagBit.invalid else 0)
  | .inf n => if n then ⟨fmtNan .f32, FlagBit.invalid⟩ else ⟨0, 0⟩
  | .fin n m e =>
    if m = 0 then ⟨signed .f32 n 0x7F800000, FlagBit.divZero⟩
    else if n then ⟨fmtNan .f32, FlagBit.invalid⟩
    else
      let (m, e) := if e % 2 = 0 then (m, e) else (2 * m, e - 1)
      let x := 2 ^ 192 / m
      let r := isqrt x
      roundFin .f32 mode dither false false r (-(e / 2) - 96) (r * r * m != 2 ^ 192)

/-! ### Functions with irrational values (08:R164, R165) -/

/-- Σ t(k), t(0) = t, t(k + 1) = t(k) × x / (d(k) × 2^p), over `fuel` terms. -/
def series (p : Nat) (x : Int) (d : Nat → Int) : Nat → Nat → Int → Int → Int
  | 0, _, _, acc => acc
  | fuel + 1, k, t, acc => series p x d fuel (k + 1) (t * x / (d k * 2 ^ p)) (acc + t)

/-- Σ ±(1/n)^(2k+1)/(2k+1) × 2^p: atan(1/n), or atanh(1/n) without alternation. -/
def atanSum (alt : Bool) (n2 : Nat) : Nat → Nat → Int → Int → Int
  | 0, _, _, acc => acc
  | fuel + 1, k, t, acc =>
    atanSum alt n2 fuel (k + 1) (t / n2) (acc + (if alt && k % 2 == 1 then -(t / (2 * k + 1)) else t / (2 * k + 1)))

/-- π × 2^p, off by less than 2^14 for p up to 1,400 (Machin). -/
def piFix (p : Nat) : Int :=
  16 * atanSum true 25 (p / 4 + 2) 0 (2 ^ p / 5) 0 - 4 * atanSum true 57121 (p / 15 + 2) 0 (2 ^ p / 239) 0
/-- ln 2 × 2^p. -/
def ln2Fix (p : Nat) : Int := 2 * atanSum false 9 (p / 3 + 2) 0 (2 ^ p / 3) 0

/-- exp(x / 2^p) × 2^p for |x| < 2^p. -/
def expFix (p : Nat) (x : Int) : Int := series p x (fun k => k + 1) (p + 8) 0 (2 ^ p) 0
/-- sin and cos of r / 2^p, |r| < 2^p. -/
def sinFix (p : Nat) (r : Int) : Int :=
  series p (-(r * r / 2 ^ p)) (fun k => (2 * k + 2) * (2 * k + 3)) (p / 2 + 8) 0 r 0
def cosFix (p : Nat) (r : Int) : Int :=
  series p (-(r * r / 2 ^ p)) (fun k => (2 * k + 1) * (2 * k + 2)) (p / 2 + 8) 0 (2 ^ p) 0

/-- Round an irrational value v × 2^u that lies within `err` of `approx p` units of 2^(u − p), with p doubled until both
ends round alike in RN. It is never exact. -/
def ziv (neg : Bool) (approx : Nat → Int) (u : Int) (err : Int) : List Nat → Rounded
  | [] => ⟨0, 0⟩
  | p :: rest =>
    let v := approx p
    let lo := roundFin .f32 .rn 0 false neg (max (v - err) 1).toNat (u - p) true
    let hi := roundFin .f32 .rn 0 false neg (max (v + err) 1).toNat (u - p) true
    match rest with
    | [] => lo
    | _ :: _ => if lo.bits = hi.bits && lo.flags = hi.flags then lo else ziv neg approx u err rest

def precisions : List Nat := [96, 256, 512, 1024]
/-- The bound on the error of an approximation, in its last place. -/
def fixErr : Int := 2 ^ 20

/-- m × 2^e in units of 2^-p, downwards. -/
def toFix (p : Nat) (m : Nat) (e : Int) : Int :=
  if 0 ≤ e + p then (m * 2 ^ (e + p).toNat : Nat) else (m / 2 ^ (-(e + p)).toNat : Nat)

def fExp2 (a : Nat) : Rounded :=
  match fpOf .f32 a with
  | .nan s => nanIn .f32 (if s then FlagBit.invalid else 0)
  | .inf n => if n then ⟨0, 0⟩ else ⟨0x7F800000, 0⟩
  | .fin n m e =>
    if m = 0 then ⟨0x3F800000, 0⟩
    else
      let top : Int := (Nat.log2 m : Int) + e
      if top ≥ 9 then
        (if n then roundFin .f32 .rn 0 false false 1 (-4000) false
         else roundFin .f32 .rn 0 false false 1 4000 false)
      else
        -- a in units of 2^-160, exact: e is at least −149
        let x := (if n then -(toFix 160 m e) else toFix 160 m e)
        let whole := x / 2 ^ 160
        let frac := x % 2 ^ 160
        if frac = 0 then roundFin .f32 .rn 0 false false 1 whole false
        else ziv false (fun p => expFix p (frac * ln2Fix p / 2 ^ 160)) whole fixErr precisions

def fLog2 (a : Nat) : Rounded :=
  match fpOf .f32 a with
  | .nan s => nanIn .f32 (if s then FlagBit.invalid else 0)
  | .inf n => if n then ⟨fmtNan .f32, FlagBit.invalid⟩ else ⟨0x7F800000, 0⟩
  | .fin n m e =>
    if m = 0 then ⟨0xFF800000, FlagBit.divZero⟩
    else if n then ⟨fmtNan .f32, FlagBit.invalid⟩
    else
      let k := Nat.log2 m
      let whole : Int := (k : Int) + e
      if m = 2 ^ k then roundFin .f32 .rn 0 false (decide (whole < 0)) whole.natAbs 0 false
      else
        let frac (p : Nat) : Int :=
          let z : Int := ((m - 2 ^ k) * 2 ^ p / (m + 2 ^ k) : Nat)
          let zz := z * z / 2 ^ p
          -- ln x = 2 (z + z³/3 + …)
          let rec go : Nat → Nat → Int → Int → Int
            | 0, _, _, acc => acc
            | fuel + 1, j, t, acc => go fuel (j + 1) (t * zz / 2 ^ p) (acc + t / (2 * j + 1))
          2 * go (p / 3 + 8) 0 z 0 * 2 ^ p / ln2Fix p
        let v (p : Nat) : Int := whole * 2 ^ p + frac p
        ziv (decide (whole < 0)) (fun p => if whole < 0 then -(v p) else v p) 0 fixErr precisions

/-- The quadrant and the rest of an angle, in units of 2^-p. -/
def reduceAngle (p : Nat) (x : Int) : Int × Int :=
  -- x in units of 2^-(p + 192)
  let half := piFix (p + 192) / 2
  let k := (x + half / 2) / half
  (k % 4, (x - k * half) / 2 ^ 192)

def sinCos (cos : Bool) (a : Nat) : Rounded :=
  match fpOf .f32 a with
  | .nan s => nanIn .f32 (if s then FlagBit.invalid else 0)
  | .inf _ => ⟨fmtNan .f32, FlagBit.invalid⟩
  | .fin n m e =>
    if m = 0 then ⟨if cos then 0x3F800000 else a, 0⟩
    else
      let v (p : Nat) : Int :=
        let (q, r) := reduceAngle p (if n then -(toFix (p + 192) m e) else toFix (p + 192) m e)
        let q := if cos then (q + 1) % 4 else q
        if q = 0 then sinFix p r else if q = 1 then cosFix p r else if q = 2 then -(sinFix p r) else -(cosFix p r)
      let neg := decide (v 256 < 0)
      ziv neg (fun p => if neg then -(v p) else v p) 0 fixErr precisions

def fSin (a : Nat) : Rounded := sinCos false a
def fCos (a : Nat) : Rounded := sinCos true a

def fTanh (a : Nat) : Rounded :=
  match fpOf .f32 a with
  | .nan s => nanIn .f32 (if s then FlagBit.invalid else 0)
  | .inf n => ⟨if n then 0xBF800000 else 0x3F800000, 0⟩
  | .fin n m e =>
    if m = 0 then ⟨a, 0⟩
    else if (Nat.log2 m : Int) + e ≥ 5 then ⟨if n then 0xBF800000 else 0x3F800000, FlagBit.inexact⟩
    else
      let v (p : Nat) : Int :=
        let x := toFix p m (e + 1)
        let k := x / ln2Fix p
        let y := expFix p (-(x - k * ln2Fix p)) / 2 ^ k.toNat
        (2 ^ p - y) * 2 ^ p / (2 ^ p + y)
      ziv n v 0 fixErr precisions

/-! ### Conversions (08:R168 to R173) -/

/-- An exact integer as a value. -/
def fpOfInt (x : Int) : Fp := .fin (decide (x < 0)) x.natAbs 0

/-- Round a value to an integer with ulp 1 and unbounded range, and whether it differs. -/
def roundInt (mode : Rnd) (dither : Nat) (neg : Bool) (m : Nat) (e : Int) : Int × Bool :=
  if 0 ≤ e then
    -- above 2^80 every integer type saturates
    let x : Int := if e > 100 then (m * 2 ^ 100 : Nat) else (m * 2 ^ e.toNat : Nat)
    (if neg then -x else x, false)
  else
    let sh := (-e).toNat
    let q := m / 2 ^ sh
    let r := m % 2 ^ sh
    let q : Int := if roundsUp mode neg (q % 2 == 1) r sh false dither then q + 1 else q
    (if neg then -q else q, r != 0)

def intMin : IFmt → Int
  | .i32 => -(2 ^ 31) | .u32 => 0 | .i8 => -128 | .u8 => 0 | .i16 => -32768 | .u16 => 0 | .i64 => -(2 ^ 63)
def intMax : IFmt → Int
  | .i32 => 2 ^ 31 - 1 | .u32 => 2 ^ 32 - 1 | .i8 => 127 | .u8 => 255 | .i16 => 32767 | .u16 => 65535 | .i64 => 2 ^ 63 - 1

/-- CVTFI: the integer and the flags (08:R169). -/
def cvtToInt (dst : IFmt) (src : FFmt) (mode : Rnd) (dither a : Nat) : Int × FFlags :=
  match fpOf src a with
  | .nan _ => (0, FlagBit.invalid)
  | .inf n => (if n then intMin dst else intMax dst, FlagBit.invalid)
  | .fin n m e =>
    let (x, lost) := roundInt mode dither n m e
    if x < intMin dst then (intMin dst, FlagBit.invalid)
    else if intMax dst < x then (intMax dst, FlagBit.invalid)
    else (x, if lost then FlagBit.inexact else 0)

/-- The integer that CVTIF reads from a doubleword (08:R168). -/
def intOf (src : IFmt) (x : W64) : Int :=
  match src with
  | .i32 => (x.truncate 32 : BitVec 32).toInt
  | .u32 => (x.truncate 32 : BitVec 32).toNat
  | .i8 => (x.truncate 8 : BitVec 8).toInt
  | .u8 => (x.truncate 8 : BitVec 8).toNat
  | .i16 => (x.truncate 16 : BitVec 16).toInt
  | .u16 => (x.truncate 16 : BitVec 16).toNat
  | .i64 => x.toInt

/-- CVTFF and the elements of PACK (08:R170). -/
def cvtFloat (dst src : FFmt) (mode : Rnd) (dither : Nat) (sat : Bool) (a : Nat) : Rounded :=
  let x := a % 2 ^ fmtWidth src
  if dst = src then
    (match fpOf src x with
     | .nan s => ⟨fmtNan dst, if s then FlagBit.invalid else 0⟩
     | .inf _ => ⟨x, 0⟩
     | .fin _ _ _ => ⟨x, 0⟩)
  else roundTo dst mode dither sat (fpOf src x)

/-- UNPK: the exact FP32 value of element j (08:R172). -/
def unpkOf (src : FFmt) (j a : Nat) : Rounded := cvtFloat .f32 src .rn 0 false (a / 2 ^ (fmtWidth src * j))

/-- QBPI (08:R173). An infinity under the scale 0xFF is treated by the scale: 0 (DESIGN CHOICE, log 60). -/
def qbpiOf (mode : Rnd) (dither a s : Nat) : Int × FFlags :=
  match fpOf .f32 a with
  | .nan _ => (0, FlagBit.invalid)
  | .inf n => if s = 255 then (0, FlagBit.invalid) else (if n then -128 else 127, FlagBit.invalid)
  | .fin n m e =>
    if s = 255 then (0, FlagBit.invalid)
    else
      let (x, lost) := roundInt mode dither n m (e + 127 - s)
      if x < -128 then (-128, FlagBit.inexact)
      else if 127 < x then (127, FlagBit.inexact)
      else (x, if lost then FlagBit.inexact else 0)

/-- FDOT8 (08:R167): FP8 NaNs are quiet. A NaN comes before an invalid product or sum, whose flag is then not set (DESIGN CHOICE,
log 60). -/
def fDot8 (fa fb : FFmt) (mode : Rnd) (dither a b c : Nat) : Rounded :=
  let pairs := (List.range 4).map (fun k => (fpOf fa (a / 2 ^ (8 * k) % 256), fpOf fb (b / 2 ^ (8 * k) % 256)))
  let z := fpOf .f32 c
  if z.isNan || pairs.any (fun p => p.1.isNan || p.2.isNan) then nanIn .f32 (snanFlag [z])
  else
    let ps := pairs.map (fun p => mulExact p.1 p.2)
    if ps.any Option.isNone then ⟨fmtNan .f32, FlagBit.invalid⟩
    else addTerms .f32 mode dither (z :: ps.filterMap id)

/-! ### Streams and dither (07:R148 to R151; 14:R272) -/

/-- Step(s, c). -/
def streamStep (s c : W64) : W64 := s * 0xD1B54A32D192ED0D + c
/-- Out(s). -/
def streamOut (s : W64) : W32 := hi32 s ^^^ (lo32 s).rotateRight (s >>> 59).toNat
/-- Jump(s, n): the state after n steps of increment 1. -/
def streamJump (s n : W64) : W64 :=
  let (a, k, _, _) := (List.range 64).foldl
    (fun (acc : W64 × W64 × W64 × W64) i =>
      let (a, k, m, c) := acc
      let (a, k) := if n.getLsbD i then (a * m, k * m + c) else (a, k)
      (a, k, m * m, c * (m + 1)))
    ((1 : W64), (0 : W64), (0xD1B54A32D192ED0D : W64), (1 : W64))
  a * s + k

/-- T[i]: Out of the (i + 1)-th state from 1. -/
def ditherTable (i : Nat) : W32 := streamOut (Nat.rec (motive := fun _ => W64) 1 (fun _ s => streamStep s 1) (i + 1))

/-- Dither(d, e): 8 bits under N3, one bit under N1 and N2 (07:R148, R150). -/
def dither (n3 : Bool) (d : W64) (e : Nat) : Nat :=
  let e := e % 2 ^ 32
  let i := ((d.truncate 8 : BitVec 8).toNat + e) % 256
  let k := (((d >>> 8).truncate 5 : BitVec 5).toNat + e / 256) % 32
  let w := (ditherTable i).rotateLeft k ^^^ ((d >>> 16).truncate 32 : W32)
  if n3 then (w.truncate 8 : BitVec 8).toNat else if w.getLsbD 7 then 128 else 0

end Sys2Proof.Machine
end

