-- ==== Sys2Proof/Config.lean ====
section
/-!
DEFINITION. What the part fixes (its figures and addresses) and the values that the spec leaves open, which are
constants with no body: nothing can evaluate them or prove what they are.
-/

namespace Sys2Proof.Config

/-- FEAT as the EVL-3024 implements it (04:R87). -/
def featImplemented : W64 := 0x1FFF#64
/-- ISAVER but for its numerics field (04:R86): generation 3, minor 0, major 3. -/
def isaverBase : W64 := 0x00030003#64
/-- Cores of the package, and of a die (00:R2). -/
def cores : Nat := 768
def coresPerDie : Nat := 32
def dies : Nat := 24
/-- Pages of 64 KiB in the HBM of the 24 dies: 256 GB a die, 6,144 GB in all (00:R2), a GB read as 2³⁰ bytes (DESIGN CHOICE, log 41). -/
def hbmPages : Nat := 6144 * 2 ^ 30 / 65536
/-- The scratchpad aperture (05:R102). -/
def apertureBase : Nat := 0x00FFFF0000000000
def apertureSize : Nat := 0x100000
/-- The lane queue, the SRQ, a receive queue, the write buffer, the task ring (01:R7, R23, R26; 17:R288; 13:R238). -/
def laneQueueMax : Nat := 8
def srqMax : Nat := 8
def recvMax : Nat := 4
def writeBufferMax : Nat := 8
def ringMax : Nat := 256
/-- The request queue of a slice for each class, and the operand log of a pipe (17:R292; 01:R28). -/
def sliceQueue : Nat := 8
def operandLog : Nat := 16
/-- Blocks of a pipe's active bank, and warps of a pipe (01:R14 and the text after R15; 21:R345). -/
def pipeBlocks : Nat := 64
def pipeWarps : Nat := 8
/-- Sets and ways of the L1 (17:R286; 19: text after R314). -/
def l1Sets : Nat := 128
def l1Ways : Nat := 16
/-- Sets and ways of a slice's directory: 4,096 entries (17:R297). -/
def dirSets : Nat := 512
def dirWays : Nat := 8
/-- More messages than the transitions of one line's entries can have under way: two for each of 768 cores and 24 dies at the home
and as many at the proxies. -/
def settleSteps : Nat := 4096
/-- The allowance a core returns to when no team is resident (01:R32), and its bound. -/
def allowanceIdle : Nat := 64
def allowanceMax : Nat := 512
/-- The aggregate handles of a context (11:R216), its extents (10:R204), its memory keys (24:R391). -/
def handlesMax : Nat := 1023
def extentsMax : Nat := 1024
def keysMax : Nat := 1024
/-- The key of a tier-1 page's bytes in the one memory: the CXL tier begins above the 48-bit physical space. -/
def cxlBase : Nat := 0x1000000000000

/-- The number of core cycles that have passed when the machine has made a number of steps: timing is not
modelled, so what CYCLE reads is open. -/
opaque cycleAt : W64 → W64
/-- Which warp has issued in the cycle of a sample, and what (word 2 of its record, 25:R404): open as CYCLE is. -/
opaque issuedAt : W64 → W64
/-- Tier pages of 64 KiB that the attached expanders hold (24:R393). -/
opaque tierCapacity : Nat
/-- Whether an image's ECDSA signature over the Brainpool curve verifies under the key it names (25:R408). -/
opaque signatureOk : FirmwareImage → Bool
/-- The measurement blocks of the boot ROM and of the fuses, which take in the revoked keys and the minimum security version
(25:R409). -/
opaque bootMeasurement : Nat
opaque fuseMeasurement : BitVec 4 → Nat → Nat
/-- Doubleword n of the team control of a team image, from TASKSEQ, the count of unissued records and the team's barrier
episodes; and of a weight-set slot, from the latched fields and the contents of the set: the manual names what they hold
and lays no bit of it out (20:R335). -/
opaque teamControl : BitVec 16 → Nat → List (Nat × Nat × List (Nat × Nat)) → Nat → W64
opaque weightSlot : Option (BitVec 4 × Nat × Bool × Nat × List Byte × List Byte) → Nat → W64

end Sys2Proof.Config
end

