-- ==== Sys2Proof/Machine/State.lean ====
section
/-!
DEFINITION. The state of the machine as plain data: all that the spec gives a warp, a team, a core, a context and the
package, the reasons a step can stop, and the state right after reset.

The warp whose streams run next stands in front, with its team, its core and its context; every other warp, team, core
and context stands in a list. A message or a command that is under way stands in `events` until it is carried out.
-/

namespace Sys2Proof.Machine

open Sys2Proof

/-- Why a step stops the machine. -/
inductive Fault where
  /-- Raised by step when `events` holds an instruction that is no message and no command. The device never makes
  such an entry. Safe: the machine stops where a real one has no such state. -/
  | notAMessage
  deriving DecidableEq, Repr

/-- Why an instruction has no meaning here. -/
inductive Refusal where
  /-- Raised by exec for a constructor that has no meaning yet. Safe: nothing is claimed of it. -/
  | notModelled (mnemonic : String)
  deriving DecidableEq, Repr

/-- What a warp is doing as a whole. -/
inductive WStatus where
  | absent | running | exited | stopped | killed | saved
  deriving DecidableEq, Repr

/-- A block of the lane queue with its snapshots (01:R11). -/
structure Block where
  start : BitVec 56
  /-- lane words remaining, 1 to 1,024 -/
  count : Nat
  snap : Store 64
  dseed : W64
  /-- the place of its VEX among those of the warp, for the program order of a quantum (09:R189) -/
  num : Nat
  deriving DecidableEq, Repr

/-- The state of a channel entry (01:R23). -/
inductive ChState where
  | unbound | send | recv
  deriving DecidableEq, Repr

/-- A channel entry: its state, its peer and its receive queue, oldest message first (01:R23; 14:R267). -/
structure Chan where
  st : ChState
  team : Nat
  pwarp : Nat
  pch : Nat
  queue : List (Store 32)
  deriving DecidableEq, Repr

/-- An unbound entry. -/
def Chan.free : Chan := ⟨.unbound, 0, 0, 0, []⟩

/-- How far a write-buffer entry has come (17:R288; 09:R177). -/
inductive WStage where
  | buffered | sent | performed
  deriving DecidableEq, Repr

/-- What a lane stores: its virtual and its intermediate address and its bytes. -/
structure LaneStore where
  lane : Nat
  va : W64
  ia : Nat
  bytes : List Byte
  deriving DecidableEq, Repr

/-- An entry of a warp's write buffer: what is written into one line, in the order written (17:R288; 18:R309). -/
structure WEntry where
  id : Nat
  /-- tagged line -/
  line : Nat
  /-- one for each lane of each store merged here -/
  writes : List LaneStore
  /-- a push's destination set (10:R199) -/
  push : Option W64
  stage : WStage
  /-- a VSYNC or a PHASE stands between the store and what follows it: later accesses of either stream come after it
  (05:R113; 09:R184) -/
  fenced : Bool
  /-- an uncorrectable error has struck it (17:R305) -/
  poison : Bool
  /-- the instruction that made it: the number of the first entry of that execution (20:R326) -/
  exec : Nat
  /-- it writes aggregate elements: all such entries of one execution for one tree home are performed together, with nothing
  between two lanes (12:R237) -/
  elems : Bool
  /-- a store of the scalar stream that its home has accepted and not performed yet (05:R103, R113): it takes no entry of the
  buffer -/
  scalar : Bool
  deriving DecidableEq, Repr

/-- A register of a detached load whose fill has not arrived for every lane, or has brought poison (01:R16;
10:R197). -/
structure Fill where
  /-- the load; its registers share it -/
  id : Nat
  reg : Nat
  /-- which word of the loaded value the register takes -/
  word : Nat
  /-- lanes that were active, lanes whose data have arrived, lanes whose data are poisoned -/
  lanes : Mask
  arrived : Mask
  poison : Mask
  /-- virtual address of each active lane -/
  addrs : List (Nat × W64)
  deriving DecidableEq, Repr

/-- A pending report of a failed task (13:R259). -/
structure Report where
  seq : BitVec 16
  kind : BitVec 8
  reason : Nat
  addr : W64
  ticket : W64
  deriving DecidableEq, Repr

/-- A barrier at which the warp has arrived (14:R265). -/
structure BarWait where
  level : Nat
  id : Nat
  released : Bool
  deriving DecidableEq, Repr

/-- A home: die, quadrant and slice (17:R296). -/
structure HomeOf where
  die : Nat
  quad : Nat
  slice : Nat
  deriving DecidableEq, Repr

/-- An access parked under a ticket (20:R326, R328). -/
structure Parked where
  ticket : W64
  lanes : Mask
  /-- the homes at which it is parked: each holds the later accesses of the warp (20:R326) -/
  homes : List HomeOf
  /-- virtual address of the scalar access or of the lowest lane that parked -/
  va : W64
  /-- the driver answered fatal -/
  fatal : Bool
  /-- a growth window that the driver refused (20:R318) -/
  refused : Bool
  /-- waits for the growth of a range: the whole warp stands (20:R318) -/
  grow : Bool
  deriving DecidableEq, Repr

/-- A memory-side outcome that traps (10:R193; 05:R103). -/
structure MemTrap where
  code : BitVec 8
  lanes : Mask
  addr : W64
  detail : W64
  ticket : W64
  deriving DecidableEq, Repr

/-- A trap whose delivery waits while a debugger holds the warp (14:R281): the stream, the half and its fields. -/
structure PendTrap where
  lane : Bool
  half : Bool
  t : MemTrap
  deriving DecidableEq, Repr

/-- How far the class check of the lane write (or the translation of the LDX) at LPC has come (10:R193; 20:R327). -/
inductive CheckSt where
  | idle | asked | passed
  | failed (t : MemTrap)
  deriving DecidableEq, Repr

/-- The lane access whose check is asked for: the lanes' virtual addresses and the intermediate addresses that Check gave
them (20:R317), the size, whether it writes. -/
structure LaneAsk where
  addrs : List (Nat × W64 × Nat)
  size : Nat
  write : Bool
  /-- an LDX that is performed at the home -/
  home : Bool
  deriving DecidableEq, Repr

/-- An entry of the reorder buffer: a lane memory word that has issued and has not retired (01:R27 to R29; 20:R334). -/
structure RobEntry where
  /-- unretired words before it: 0 for the word at LPC -/
  ahead : Nat
  word : BitVec 56
  /-- lanes active at issue -/
  active : Mask
  /-- the logged operands: Src64(A), each lane's B operand and data operand -/
  base : W64
  offs : List W32
  data : List (BitVec 128)
  /-- the intermediate addresses that Check gave, by lane (20:R317) -/
  ias : List (Nat × Nat)
  completed : Mask
  fault : Mask
  /-- what the completed lanes of a load have read, and which of them are poisoned -/
  values : List (Nat × List Byte)
  poison : Mask
  /-- the ticket of a word that is not the oldest: that of the oldest stands in the warp -/
  park : Option Parked
  /-- it still holds its operand-log entry (01:R28) -/
  logged : Bool
  deriving DecidableEq, Repr

/-- A communication of a DET quantum, held until the clearing (09:R189). -/
inductive Comm where
  /-- what one request of a store or a push writes (18:R309; 12:R237), and the push's destination set -/
  | store (writes : List LaneStore) (push : Option W64)
  /-- a message of a channel entry, with the peer that the entry had -/
  | send (entry : Nat) (peer : Chan) (msg : Store 32)
  /-- an atomic that returns nothing -/
  | atom (op : AtomOp) (dbl : Bool) (ia : Nat) (operand : W64)
  /-- the global writes of a task -/
  | task (seq : BitVec 16)
  deriving DecidableEq, Repr

/-- Where a warp stands at a clearing (21:R354, R355). -/
inductive ClearSt where
  | none
  /-- holds an instruction whose effect comes at the clearing -/
  | waiting
  /-- its turn in the clearing has come: the instruction acts at its next execution -/
  | granted
  deriving DecidableEq, Repr

/-- Which streams have stopped at a breakpoint, and which at a watchpoint whose action is stop: the next issue of such a stream
does not match again (25:R399). -/
structure Pass where
  breakS : Bool
  breakL : Bool
  watchS : Bool
  watchL : Bool
  deriving DecidableEq, Repr

/-- A warp (01:R7, R39). -/
structure Warp where
  key : WarpKey
  status : WStatus
  pipe : Nat
  /-- B, the register blocks owned -/
  blocks : Nat
  live : Mask
  em : Mask
  /-- s1 to s31 -/
  s : Store 64
  /-- 56 bits of address; a jump to a target with a bit above them leaves it here for the fetch to find (05:R99) -/
  spc : W64
  lbr : BitVec 56
  lpc : BitVec 56
  queue : List Block
  /-- vn in lane l at key 32 n + l -/
  v : Store 32
  empty : BitVec 192
  poison : BitVec 192
  fills : List Fill
  /-- pk at key k, one bit a lane -/
  preds : Store 32
  chans : List Chan
  srq : List W32
  dseed : W64
  fpstat : BitVec 5
  retired : W64
  agstatus : W64
  trapSel : BitVec 9
  inHandler : Bool
  trapRec : Store 64
  stopRec : Store 64
  report : Option Report
  pendTrap : Option PendTrap
  /-- the trap recorded last was one of a Y half whose X had completed (01:R33; 14:R282) -/
  trapX : Bool
  /-- places of the VEXes of the blocks that the last trap held -/
  trapNums : List Nat
  /-- a handler may wait at another barrier than the one at which its warp was interrupted -/
  bar : List BarWait
  stalls : Store 64
  /-- the reason for which each stream has waited last (25:R401) -/
  laneReason : Nat
  scalReason : Nat
  /-- the scalar stream is suspended by NAP -/
  nap : Bool
  wbuf : List WEntry
  nextId : Nat
  begins : Nat
  check : CheckSt
  ask : Option LaneAsk
  /-- the X half of the pair at LPC has completed: a return from the handler retries Y alone (01:R33) -/
  xDone : Bool
  /-- lanes of the write or atomic at LPC whose data have left, with the old value of an atomic (20:R327) -/
  done : List (Nat × W64)
  parkS : Option Parked
  parkL : Option Parked
  /-- the reorder buffer's entries of lane memory words, oldest first -/
  rob : List RobEntry
  /-- the scalar access at SPC has reached its home, which holds it (20:R332) -/
  atHome : Bool
  /-- the scalar access at SPC has passed its checks at issue: its virtual and its intermediate address (20:R317) -/
  scalIa : Option (W64 × Nat)
  /-- the next scalar store completes before it is performed (05:R113) -/
  late : Bool
  /-- lines for which the warp's accesses wait, and whether a shared copy is enough: a line that has been granted is not taken
  away before the access has been performed (17:R302; 19:R311) -/
  wants : List (Nat × Bool)
  /-- the warp's team is being killed: only a lane word whose data have begun to leave goes on (20:R327, R329) -/
  halt : Bool
  /-- a SEAL of this warp has closed its extent and waits for the committed tail (10:R210) -/
  sealing : Bool
  /-- the copy of the packet that a LAUNCH has read and not appended yet (14:R275) -/
  packet : Option (List Byte)
  /-- an AGDECL waits for Welhal to move pages up, or an EXTFREE for the packages to drop them (11:R216; 10:R211) -/
  onPages : Bool
  /-- a plain VGROW has begun its wait; its place among the waits (05:R110) -/
  growWait : Option Nat
  laneStalled : Bool
  scalStalled : Bool
  yielded : Bool
  /-- a STEP is running: true for the lane stream (25:R398) -/
  stepping : Option Bool
  pass : Pass
  /-- instructions of the quantum, whether the warp's scalar stream has stopped at its end, and what it holds for the
  clearing (21:R354) -/
  quantum : Nat
  quantumEnd : Bool
  /-- its team was swapped out while it counted as at its quantum end -/
  atEnd : Bool
  /-- VEX and VEXR executed -/
  vexes : Nat
  /-- communications in program order, each with its place (09:R189) -/
  comms : List (Nat × Comm)
  clearS : ClearSt
  clearL : ClearSt
  /-- a clearing of the launch is under way: only an instruction whose turn has come acts -/
  frozen : Bool
  deriving DecidableEq, Repr

/-- The kernel header's fields (03:R60). -/
structure Header where
  feat : W64
  fused : Bool
  idem : Bool
  rename : Nat
  blocks : Nat
  rob : Nat
  numerics : Nat
  isaver : Nat
  entry : BitVec 56
  lanebase : BitVec 56
  handler : BitVec 56
  scratch : Nat
  lanes : Nat
  logical : Nat
  quantum : Nat
  splits : BitVec 56
  deriving DecidableEq, Repr

/-- A write of a task to global memory that has not been performed yet: bytes of one line at a virtual address, a signed
or floating-point addition in place of a store, or a write into the escrow copy (13:R252, R254, R258). -/
structure TaskWrite where
  va : Nat
  bytes : List Byte
  add : Bool
  escrow : Bool
  deriving DecidableEq, Repr

/-- A run of bytes that an issued task has still to read into its scratchpad (22:R362, R364). -/
structure TaskRead where
  va : Nat
  len : Nat
  /-- the scratchpad offset of its first byte -/
  dest : Nat
  deriving DecidableEq, Repr

/-- A ticket under which lines of a task's page are parked: the ticket, the page, and the address of the first of them
(22:R364). -/
structure TaskPark where
  ticket : W64
  /-- intermediate page number -/
  page : Nat
  va : Nat
  deriving DecidableEq, Repr

/-- A record of a team's task ring (13:R238, R239). -/
structure TaskRec where
  seq : BitVec 16
  warp : Nat
  dseed : W64
  /-- the issuing warp's write-buffer entries below this number are older than the TASK (09:R186) -/
  after : Nat
  t0 : W64
  t1 : W64
  t2 : W64
  t3 : W64
  /-- issued and not yet retired -/
  issued : Bool
  /-- the shape record, which an issued task reads once (13:R251) -/
  shape : List W64
  /-- what the task has still to write, once it has read its operands -/
  out : Option (List TaskWrite)
  /-- what a copy into the scratchpad has still to read -/
  reads : Option (List TaskRead)
  /-- the tickets under which lines of the task are parked -/
  parks : List TaskPark
  /-- a ticket of it was answered fatal: the ticket and the address -/
  fatal : Option (W64 × Nat)
  /-- a WLOAD waits for room in a weight buffer: its place among the waits of the core (13:R247) -/
  wait : Option Nat
  deriving DecidableEq, Repr

/-- A loaded weight set (13:R247; 22:R357). -/
structure WSet where
  fmt : BitVec 4
  k : Nat
  mid : Bool
  ncols : Nat
  data : List Byte
  scales : List Byte
  array : Nat
  /-- its buffer holds an uncorrectable error (22:R360) -/
  bad : Bool
  deriving DecidableEq, Repr

/-- What a team is doing. -/
inductive TStatus where
  | absent | running | exited | killed | saved
  deriving DecidableEq, Repr

/-- A team (01:R7; 13:R239 to R245; 14:R274). -/
structure Team where
  key : TeamKey
  ctx : Nat
  core : Nat
  pos : Nat
  status : TStatus
  hdr : Header
  teamCnt : Nat
  lseed : W64
  tseed : W64
  lpb : W64
  det : Bool
  cores : Bool
  scratch : Store 8
  /-- byte b of accumulator unit u at key 96 u + b -/
  acc : Store 8
  /-- doublewords of the scratchpad and accumulator units that hold an uncorrectable error (17:R305; 22:R360) -/
  badScratch : List Nat
  badAcc : List Nat
  ring : List TaskRec
  taskSeq : BitVec 16
  /-- weight sets by handle -/
  wsets : List (Nat × WSet)
  /-- format of the latest WLOAD enqueued, by handle (13:R249) -/
  wsFmt : List (Nat × BitVec 4)
  /-- the record with which the team is being killed, while a lane word of it is still leaving (20:R327, R329) -/
  dying : Option (Store 64)
  /-- bytes of the save area that holds its image, 0 while it has none (20:R334) -/
  area : Nat
  /-- COLL records that the kill has discarded (22:R372) -/
  lost : List TaskRec
  /-- word 0 to 7 of the trap record of the kill -/
  killRec : Store 64
  deriving DecidableEq, Repr

/-- The states of an L1 line; I is a line that is not listed (17:R287). -/
inductive LState where
  | sc | pu | ts | ox | pc | pd
  deriving DecidableEq, Repr

/-- An L1 line (17:R286, R287). -/
structure L1Line where
  /-- tagged line -/
  line : Nat
  st : LState
  data : LineData
  poison : Bool
  /-- how many writes of the line its data include: the count of `Device.vers` when they were taken (09:R181, R185) -/
  ver : W64
  /-- its parity fails (17:R305) -/
  parity : Bool
  deriving DecidableEq, Repr

/-- What a core's bank switch has come to (20:R332, R333). -/
inductive SwitchSt where
  | none
  /-- every warp has stopped; the banks swap next -/
  | begun
  /-- the outgoing image is being spilled -/
  | spilling
  deriving DecidableEq, Repr

/-- The sampler of a core (25:R402 to R405). -/
structure Sampler where
  /-- the control block with which the LFSR has started -/
  block : Option Nat
  lfsr : BitVec 16
  /-- the interval now running, in cycles -/
  wait : Nat
  pipe : Nat
  last : Nat
  seq : Nat
  deriving DecidableEq, Repr

/-- A core (01:R7, R30, R32; 17:R286). -/
structure Core where
  id : Nat
  cycle : W64
  allowance : Nat
  /-- most recently used first -/
  l1 : List L1Line
  /-- the lower bound of 09:R181 for lines of which a pushed copy is held or on its way, by tagged line -/
  floors : Store 64
  gated : Bool
  offline : Bool
  /-- the team position that the task scheduler has served last (13:R239) -/
  served : Nat
  switch : SwitchSt
  sampler : Sampler
  deriving DecidableEq, Repr

/-- A range register as written (20:R315). -/
structure RangeReg where
  w0 : W64
  w1 : W64
  w2 : W64
  w3 : W64
  deriving DecidableEq, Repr

/-- An append extent's entry at its tail home (10:R204). -/
structure Extent where
  base : Nat
  pages : Nat
  reserved : Nat
  committed : Nat
  closed : Bool
  sealed : Bool
  /-- an EXTFREE has told the other packages to drop its pages -/
  freeing : Bool
  /-- the entry holds an uncorrectable error (10:R193) -/
  bad : Bool
  deriving DecidableEq, Repr

/-- A declared aggregate region and its tree (11:R215 to R222). -/
structure Region where
  handle : Nat
  /-- virtual base -/
  base : Nat
  /-- (offset from the base, length, intermediate address) of the pieces that lie under one range register each -/
  parts : List (Nat × Nat × Nat)
  log2n : Nat
  kind : Nat
  /-- node k at key k, 64 bits for ISUM32 and the low 32 bits otherwise -/
  nodes : Store 64
  deriving DecidableEq, Repr

/-- A page of an open escrow: the warp that opened it, the live page, and the HBM page that holds its escrow copy
(10:R212, R213). -/
structure Escrow where
  owner : WarpKey
  /-- intermediate page number -/
  page : Nat
  frame : Nat
  deriving DecidableEq, Repr

/-- A ticket that waits for an answer (20:R325). -/
structure TicketRec where
  ticket : W64
  /-- none: a task, a launch, or an access of a message (`parked` of the machine holds it) -/
  warp : Option WarpKey
  lane : Bool
  task : Option (TeamKey × BitVec 16)
  page : Nat
  deriving DecidableEq, Repr

/-- A memory key (24:R391). -/
structure MemKey where
  key : BitVec 32
  base : Nat
  len : Nat
  r : Bool
  w : Bool
  deriving DecidableEq, Repr

/-- A debug capability (25:R395). -/
structure Cap where
  handle : BitVec 32
  ctx : Nat
  rights : BitVec 8
  /-- the capability it was delegated from; none for a root -/
  parent : Option (BitVec 32)
  deriving DecidableEq, Repr

/-- A collective group registered on this package (22:R365, R366). -/
structure Group where
  handle : Nat
  record : W64
  /-- (package, team) of the members, in member order -/
  members : List (BitVec 12 × Nat)
  waitms : Nat
  fseq : BitVec 32
  fstatus : BitVec 8
  /-- the status word of the record has still to be written, and the ticket on which that waits, 0 for none -/
  unwritten : Bool
  ticket : W64
  /-- the launch that holds the group -/
  holder : Option Nat
  /-- each member's count of COLL tasks -/
  counts : List Nat
  deriving DecidableEq, Repr

/-- A collective under way on this package: the COLL records that have joined it, with their members and teams (22:R366 to
R374). -/
structure Coll where
  ctx : Nat
  group : Nat
  seq : Nat
  joined : List (Nat × TeamKey × TaskRec)
  /-- pieces held in staging for chunks that a member of this package owns: chunk, member, elements -/
  pieces : List (Nat × Nat × List W32)
  /-- those chunks: chunk, members folded, values -/
  accs : List (Nat × Nat × List W32)
  /-- finished chunks that owners on other packages have sent -/
  results : List (Nat × List W32)
  /-- pieces read from send buffers, and recv writes performed: chunk, member -/
  read : List (Nat × Nat)
  written : List (Nat × Nat)
  /-- the seed of member 0 -/
  seed : W64
  failed : Option Nat
  deriving DecidableEq, Repr

/-- A context (20:R315, R319; 11:R216; 10:R204; 21:R339; 25:R395). -/
structure Context where
  num : Nat
  featMask : W64
  numerics : Nat
  ranges : List RangeReg
  /-- registers whose growth window the driver refused to raise are not remembered: a refusal answers one ticket -/
  root : W64
  ticketSeq : BitVec 32
  tickets : List TicketRec
  extents : List Extent
  regions : List Region
  /-- aggregate nodes not allocated -/
  pool : Nat
  /-- pages that the driver has supplied: the escrow pool, which the fault service draws on too (10:R212); page n of the CXL
  tier is 2³² + n -/
  frames : List Nat
  /-- packages that have taken part in the context (24:R385, R387) -/
  pkgs : List (BitVec 12)
  /-- bytes of the save pool (20:R334) -/
  save : Nat
  escrows : List Escrow
  /-- queue control blocks by handle -/
  queues : List (Nat × W64)
  groups : List Group
  keys : List MemKey
  breaks : List (Nat × BitVec 56 × Bool)
  watches : List (Nat × WatchSpec)
  trapStop : Bool
  /-- the array of sample control blocks, 0 for none (25:R402) -/
  samples : W64
  deriving DecidableEq, Repr

/-- A launch known to Welhal (21:R337, R340, R341). -/
structure Launch where
  num : Nat
  ctx : Nat
  header : W64
  hdr : Header
  teams : Nat
  lpb : W64
  done : W64
  lseed : W64
  retry : Nat
  prio : Nat
  latency : Bool
  afterParent : Bool
  det : Bool
  cores : Bool
  parent : W64
  /-- false: waits for its parent -/
  bound : Bool
  kills : Nat
  exited : Nat
  retries : Nat
  kteam : Nat
  killRec : Store 64
  /-- final status, 0 while pending -/
  status : Nat
  recorded : Bool
  /-- the driver has withdrawn the launch -/
  cancelled : Bool
  /-- the ticket on which Welhal's access for the launch waits, 0 for none -/
  ticket : W64
  binds : List Bind
  /-- DET: the cores over which the remap table spreads the logical teams, rising: team t stands on the one numbered t modulo
  their count (21:R351) -/
  remap : List Nat
  /-- DET: warps whose turn in the running clearing has not come, and the quanta begun -/
  clearing : Option (List WarpKey)
  deriving DecidableEq, Repr

/-- A slot of a die's bind table (21:R343). -/
structure BindSlot where
  die : Nat
  slot : Nat
  first : Nat
  count : Nat
  mask : Mask
  prio : Nat
  latency : Bool
  cores : Bool
  valid : Bool
  det : Bool
  launch : Nat
  next : Nat
  retired : Nat
  deriving DecidableEq, Repr

/-- An episode of a barrier in progress: which warps have arrived (14:R264). -/
structure Bar where
  launch : Nat
  level : Nat
  id : Nat
  /-- the team, quadrant or die in which the barrier stands; 0 for the package -/
  unit : Nat
  arrived : List (Nat × Nat)
  deriving DecidableEq, Repr

/-- What the management core runs (25:R408). -/
inductive Boot where
  | off
  | recovery
  | running (image : FirmwareImage)
  deriving DecidableEq, Repr

/-- What leaves the package towards the driver, a host, a debugger or another package. -/
inductive Out where
  /-- a fault notice: ticket, page's intermediate address, virtual address, flags (20:R328) -/
  | notice (ticket ia va flags : W64)
  /-- a wait notice of a collective (22:R372) -/
  | waitNotice (group seq member : Nat)
  /-- the answer to a request of another agent: an old value, data, a status -/
  | value (x : W64)
  | data (bytes : List Byte)
  | words (ws : List W64)
  | error
  /-- a late trap that the requester takes: code and detail (11:R227, R233) -/
  | trap (code : BitVec 8) (detail : Nat)
  /-- a Silrad status (25:R397), with a value for READ -/
  | silrad (status : Nat) (x : W64)
  /-- a handle given by Welhal; 0 when it refuses -/
  | handle (h : Nat)
  /-- a measurement block (25:R409) -/
  | measurement (m : Nat)
  /-- a page that leaves for its owner package (24:R386) -/
  | page (page : Nat) (q : BitVec 12) (data : PageData)
  /-- a page that a remote package owns is wanted back (24:R385) -/
  | pageWanted (page : Nat) (q : BitVec 12)
  /-- a read-sharing package drops a page (24:R385) -/
  | pageDrop (page : Nat) (q : BitVec 12)
  /-- what the engines of other packages need of a collective (22:R368, R374) -/
  | piece (group seq member chunk : Nat) (m : CollMsg)
  /-- telemetry: a launch whose completion record could not be written (21:R340) -/
  | unrecorded (launch : Nat) (done : W64) (status : Nat)
  /-- telemetry: a malformed page entry (20:R320) -/
  | malformed (ctx page : Nat)
  /-- telemetry: an error in a structure, by the number under which it is counted, and whether it was corrected (25:R407) -/
  | errorIn (structure' : Nat) (corrected : Bool)
  /-- telemetry: a message of a dead agent that is dropped: the agent, dies from 0 and packages from 24, its class as 24:R378
  lists them from 0, its line (24:R389) -/
  | dropped (agent cls line : Nat)
  deriving DecidableEq, Repr

/-- Bytes by address; an address that is not listed reads as zero. -/
abbrev Memory := List Host.Cell

/-- The one form of a memory: addresses strictly rising, and no byte listed that is zero. -/
abbrev Memory.wf (m : Memory) : Bool := Store.wf m

/-- A debug command that may have to wait after its capability has permitted it (25:R396, R397). -/
inductive Command where
  | stop (cap : BitVec 32) (t : Target)
  | memread (cap : BitVec 32) (addr : W64) (len : Nat)
  | memwrite (cap : BitVec 32) (addr : W64) (data : List Byte)
  deriving DecidableEq, Repr

/-- What the package shares. -/
structure Device where
  /-- device memory by physical address, the CXL tier above it -/
  mem : Memory
  /-- poisoned lines by physical line number (17:R307) -/
  bad : List Nat
  /-- region-table entries by region number (17:R293) -/
  regionTab : Store 32
  /-- how many writes each line has had, by tagged line (09:R181, R182) -/
  vers : Store 64
  /-- the I/O die through which the host's next access comes -/
  hostDie : Nat
  /-- directory entries at the homes by tagged line, and at the proxies by (die, line) (17:R298, R301) -/
  dir : Store 64
  proxyDir : Store 64
  /-- requests held at a transient entry, in arrival order (17:R300) -/
  dirHeld : List (DirAt × Nat × Instr)
  /-- page records by tagged page (24:R384) -/
  pageRecs : Store 64
  /-- pages that a withdrawal holds at their homes (20:R323), and pages that other packages have been told to drop, with the
  packages whose acknowledgements are awaited (24:R385, R387) -/
  pagesHeld : List Nat
  drops : List (Nat × BitVec 12)
  /-- errors corrected, by structure (17:R305) -/
  corrected : Store 64
  /-- the context and the queue that Welhal has visited last (21:R339) -/
  visited : Nat × Nat
  launches : List Launch
  nextLaunch : Nat
  bindTab : List BindSlot
  bars : List Bar
  colls : List Coll
  caps : List Cap
  nextCap : BitVec 32
  /-- capabilities revoked -/
  revoked : List (BitVec 32)
  /-- reserve cores of each die (21:R348) -/
  reserve : List (Nat × Mask)
  pkgNum : BitVec 12
  /-- incarnations: die d at key d, package p at key 24 + p (24:R388) -/
  incarnation : Store 16
  deadDies : List Nat
  deadPkgs : List (BitVec 12)
  gatedDies : List Nat
  /-- tier pages that Welhal presents (24:R393), and failed CXL ports -/
  tierPages : Nat
  badPorts : List Nat
  /-- links that have failed, and how often the others have failed to retrain (24:R382) -/
  badLinks : List Nat
  linkFails : Store 8
  /-- debug commands that their capabilities have permitted and that are not done yet, with their contexts (25:R396) -/
  taken : List (Nat × Command)
  boot : Boot
  /-- fuses: minimum security version and revoked keys (25:R408) -/
  minSecVersion : Nat
  revokedKeys : BitVec 4
  /-- messages that have left, oldest first -/
  outbox : List Out
  deriving DecidableEq, Repr

/-- What becomes of the message being carried out, if it could not be: it is held and comes back, or it waits for the
answer to a ticket. -/
inductive Again where
  | no | held
  | parked (ticket : W64)
  deriving DecidableEq, Repr

/-- A structure with check bits (17:R305; 22:R360, R370). -/
inductive Upset where
  | l1 (core line : Nat)
  | writeBuffer (w : WarpKey) (id : Nat)
  | l2 (line : Nat)
  | directory (slice : DirAt) (line : Nat)
  | homeCache (core : Nat)
  | nodeCache (ctx handle node : Nat)
  | scratch (t : TeamKey) (offset : Nat)
  | weights (t : TeamKey) (handle : Nat)
  | accumulator (t : TeamKey) (unit : Nat)
  | staging (ctx group seq : Nat)
  | extent (ctx base : Nat)
  | memory (line : Nat)
  | link
  deriving DecidableEq, Repr

/-- Which agent moves next, where the spec gives no rule. -/
inductive Turn where
  /-- the n-th message or command under way -/
  | event (n : Nat)
  | scalar
  | lane
  /-- the lane stream of the warp in front issues the word that stands n words after its oldest one (01:R27) -/
  | ahead (n : Nat)
  /-- the next store of the scalar stream is accepted at its home, and performed there later (05:R103, R113) -/
  | late
  /-- an error strikes a structure; a single-bit error is one that its check corrects -/
  | upset (u : Upset) (single : Bool)
  /-- another warp comes to the front -/
  | switch (w : WarpKey)
  /-- a cycle passes in which no warp of a core issues (25:R401) -/
  | cycle (core : Nat)
  /-- the host's next access comes through another I/O die (17:R294; 24:R381) -/
  | ioDie (n : Nat)
  deriving DecidableEq, Repr

/-- The machine. -/
structure State where
  warp : Warp
  team : Team
  core : Core
  ctx : Context
  dev : Device
  warps : List Warp
  teams : List Team
  cores : List Core
  ctxs : List Context
  events : List Instr
  /-- messages and commands that could not be carried out yet; step brings them back into `events` after each
  instruction of a warp -/
  held : List Instr
  /-- messages whose accesses wait for the answer to a ticket (20:R328; 24:R391) -/
  parked : List (W64 × Instr)
  /-- what becomes of the message being carried out -/
  again : Again
  /-- turns that the warp in front has taken since it came there -/
  turns : Nat
  /-- choices among orders that the spec allows, used from the front; none left: the default order of step -/
  plan : List Turn
  deriving DecidableEq, Repr

/-! ### Reset -/

/-- A header of zeros, for a team that does not exist. -/
def Header.zero : Header := ⟨0, false, false, 0, 0, 0, 0, 0, 0, 0, 0, 0, 0, 0, 0, 0⟩

def Pass.none : Pass := ⟨false, false, false, false⟩

/-- No warp: what stands in front while nothing is resident. -/
def Warp.absent : Warp where
  key := ⟨0, 0, 0⟩
  status := .absent
  pipe := 0
  blocks := 0
  live := 0
  em := 0
  s := []
  spc := 0
  lbr := 0
  lpc := 0
  queue := []
  v := []
  empty := 0
  poison := 0
  fills := []
  preds := []
  chans := List.replicate 15 Chan.free
  srq := []
  dseed := 0
  fpstat := 0
  retired := 0
  agstatus := 0
  trapSel := 0
  inHandler := false
  trapRec := []
  stopRec := []
  report := none
  pendTrap := none
  trapX := false
  trapNums := []
  bar := []
  stalls := []
  laneReason := 0
  scalReason := 0
  nap := false
  wbuf := []
  nextId := 0
  begins := 0
  check := .idle
  ask := none
  xDone := false
  done := []
  parkS := none
  parkL := none
  rob := []
  atHome := false
  scalIa := none
  late := false
  wants := []
  halt := false
  sealing := false
  packet := none
  onPages := false
  growWait := none
  laneStalled := false
  scalStalled := false
  yielded := false
  stepping := none
  pass := Pass.none
  quantum := 0
  quantumEnd := false
  atEnd := false
  vexes := 0
  comms := []
  clearS := .none
  clearL := .none
  frozen := false

def Team.absent : Team where
  key := ⟨0, 0⟩
  ctx := 0
  core := 0
  pos := 0
  status := .absent
  hdr := Header.zero
  teamCnt := 0
  lseed := 0
  tseed := 0
  lpb := 0
  det := false
  cores := false
  scratch := []
  acc := []
  badScratch := []
  badAcc := []
  ring := []
  taskSeq := 0
  wsets := []
  wsFmt := []
  dying := none
  area := 0
  lost := []
  killRec := []

def Sampler.off : Sampler := ⟨none, 0, 0, 0, 0, 0⟩

/-- A core with no team resident: its allowance is 64 (01:R32) and its L1 holds nothing. -/
def Core.empty (id : Nat) : Core := ⟨id, 0, Config.allowanceIdle, [], [], false, false, 3, .none, Sampler.off⟩

def RangeReg.off : RangeReg := ⟨0, 0, 0, 0⟩

/-- A context as nothing has been written into it. -/
def Context.blank (num : Nat) : Context where
  num := num
  featMask := 0
  numerics := 0
  ranges := List.replicate 16 RangeReg.off
  root := 0
  ticketSeq := 0
  tickets := []
  extents := []
  regions := []
  pool := 0
  frames := []
  pkgs := []
  save := 0
  escrows := []
  queues := []
  groups := []
  keys := []
  breaks := []
  watches := []
  trapStop := false
  samples := 0

def Device.reset : Device where
  mem := []
  bad := []
  regionTab := []
  vers := []
  hostDie := 0
  dir := []
  proxyDir := []
  dirHeld := []
  pageRecs := []
  pagesHeld := []
  drops := []
  corrected := []
  visited := (0, 0)
  launches := []
  nextLaunch := 1
  bindTab := []
  bars := []
  colls := []
  caps := []
  nextCap := 1
  revoked := []
  reserve := []
  pkgNum := 0
  incarnation := []
  deadDies := []
  deadPkgs := []
  gatedDies := []
  tierPages := 0
  badPorts := []
  badLinks := []
  linkFails := []
  taken := []
  boot := .off
  minSecVersion := 0
  revokedKeys := 0
  outbox := []

/-- The package right after reset: no image runs, no context exists, nothing is resident. -/
def State.reset : State where
  warp := Warp.absent
  team := Team.absent
  core := Core.empty 0
  ctx := Context.blank 0
  dev := Device.reset
  warps := []
  teams := []
  cores := []
  ctxs := []
  events := []
  held := []
  parked := []
  again := .no
  turns := 0
  plan := []

end Sys2Proof.Machine
end

