-- ==== Sys2Proof/Machine/Ops.lean ====
section
/-!
DEFINITION. Named operations on the agents and registers: finding and changing warps, teams, cores and contexts, the
scalar registers, retiring and waiting, taking a trap (01:R33 to R38; 14:R281), killing a team (20:R329) and returning
from the handler (14:R282).
-/

namespace Sys2Proof.Machine

open Sys2Proof

/-- What every meaning answers. -/
abbrev Result := Host.Outcome State Fault Refusal

/-- What a part of an instruction answers: a value, a wait with its stall reason (25:R401), or a trap. -/
inductive Res (α : Type) where
  | ok (s : State) (x : α)
  | wait (s : State) (reason : Nat)
  | trap (s : State) (t : MemTrap)

/-- Go on with the value of a part. -/
def Res.bind {α β : Type} (r : Res α) (f : State → α → Res β) : Res β :=
  match r with
  | .ok s x => f s x
  | .wait s n => .wait s n
  | .trap s t => .trap s t

/-! ### Agents -/

/-- The warp of a key. -/
def State.warpOf (s : State) (k : WarpKey) : Option Warp :=
  if s.warp.key = k ∧ s.warp.status ≠ .absent then some s.warp else s.warps.find? (fun w => w.key == k)

/-- The team of a key. -/
def State.teamOf (s : State) (k : TeamKey) : Option Team :=
  if s.team.key = k ∧ s.team.status ≠ .absent then some s.team else s.teams.find? (fun t => t.key == k)

/-- The core of a number; a core that nothing has used yet is as after reset. -/
def State.coreOf (s : State) (n : Nat) : Core :=
  if s.core.id = n then s.core else (s.cores.find? (fun c => c.id == n)).getD (Core.empty n)

/-- The context of a number. -/
def State.ctxOf (s : State) (n : Nat) : Option Context :=
  if s.ctx.num = n then some s.ctx else s.ctxs.find? (fun c => c.num == n)

/-- Change every warp that `p` picks. -/
def State.mapWarps (s : State) (p : Warp → Bool) (f : Warp → Warp) : State :=
  { s with warp := if p s.warp then f s.warp else s.warp, warps := s.warps.map (fun w => if p w then f w else w) }

/-- Put a warp back under its key. -/
def State.setWarp (s : State) (w : Warp) : State := s.mapWarps (fun x => x.key == w.key) (fun _ => w)

/-- Put a team back under its key. -/
def State.setTeam (s : State) (t : Team) : State :=
  { s with
    team := if s.team.key = t.key then t else s.team
    teams := s.teams.map (fun x => if x.key = t.key then t else x) }

/-- Put a core back under its number; a core used for the first time joins the list. -/
def State.setCore (s : State) (c : Core) : State :=
  if s.core.id = c.id then { s with core := c }
  else if s.cores.any (fun x => x.id == c.id) then
    { s with cores := s.cores.map (fun x => if x.id = c.id then c else x) }
  else { s with cores := s.cores ++ [c] }

/-- Put a context back under its number. -/
def State.setCtx (s : State) (c : Context) : State :=
  { s with
    ctx := if s.ctx.num = c.num then c else s.ctx
    ctxs := s.ctxs.map (fun x => if x.num = c.num then c else x) }

/-- Every warp of the machine, the one in front first. -/
def State.allWarps (s : State) : List Warp := (s.warp :: s.warps).filter (fun w => w.status != .absent)
/-- Every team of the machine. -/
def State.allTeams (s : State) : List Team := (s.team :: s.teams).filter (fun t => t.status != .absent)
/-- Every core that has been used. -/
def State.allCores (s : State) : List Core := s.core :: s.cores

/-- Add messages and commands at the end. -/
def State.post (s : State) (es : List Instr) : State := { s with events := s.events ++ es }
/-- A message that cannot be carried out yet waits. -/
def State.hold (s : State) (e : Instr) : State := { s with held := s.held ++ [e] }
/-- Something leaves the package. -/
def State.send (s : State) (o : List Out) : State := { s with dev := { s.dev with outbox := s.dev.outbox ++ o } }
/-- Whether a message is already under way. -/
def State.pending (s : State) (e : Instr) : Bool :=
  s.events.contains e || s.held.contains e

/-- The launch of a number. -/
def State.launchOf (s : State) (n : Nat) : Option Launch := s.dev.launches.find? (fun l => l.num == n)
/-- Put a launch back under its number. -/
def State.setLaunch (s : State) (l : Launch) : State :=
  { s with dev := { s.dev with launches := s.dev.launches.map (fun x => if x.num = l.num then l else x) } }

/-- A warp that is on its core: it holds blocks there. -/
def Warp.resident (w : Warp) : Bool := w.status == .running || w.status == .stopped
def Team.resident (t : Team) : Bool := t.status == .running

/-- The warps resident on a core. -/
def State.coreWarps (s : State) (core : Nat) : List Warp :=
  s.allWarps.filter (fun w => w.resident &&
    (match s.teamOf w.key.teamKey with | some t => t.core == core && t.resident | none => false))

/-! ### Scalar registers (01:R9) -/

/-- S(n): s0 reads as zero. -/
def State.S (s : State) (n : SReg) : W64 := if n = 0 then 0 else s.warp.s.get n.toNat

/-- WriteS(n, x): a write to s0 is discarded. -/
def State.writeS (s : State) (n : SReg) (x : W64) : State :=
  if n = 0 then s else { s with warp := { s.warp with s := s.warp.s.set n.toNat x } }

/-! ### Retiring and waiting -/

/-- The quantum length: the header's, or 4,096 (21:R354). -/
def Team.q (t : Team) : Nat := if t.hdr.quantum = 0 then 4096 else t.hdr.quantum

/-- The front warp, its core and its context are changed by a function of the warp. -/
def State.onWarp (s : State) (f : Warp → Warp) : State := { s with warp := f s.warp }

/-- A scalar instruction has executed: the next one stands at `pc`; under DET the quantum count rises by `n` and the
stream stops once it reaches Q (21:R354). -/
def State.retireTo (s : State) (pc : W64) (n : Nat := 1) : State :=
  s.onWarp (fun w => { w with
    spc := pc
    scalStalled := false
    laneStalled := false
    yielded := false
    pass := { w.pass with breakS := false, watchS := false }
    parkS := none
    atHome := false
    scalIa := none
    late := false
    onPages := false
    clearS := .none
    quantum := if s.team.det then w.quantum + n else w.quantum
    quantumEnd := if s.team.det then decide (s.team.q ≤ w.quantum + n) else w.quantumEnd })

/-- A scalar instruction has executed: SPC moves to the next word. -/
def State.retire (s : State) (n : Nat := 1) : State := s.retireTo (s.warp.spc + 4) n

/-- Raise a stall counter (25:R401). -/
def Warp.countStall (w : Warp) (reason : Nat) : Warp := { w with stalls := w.stalls.set reason (w.stalls.get reason + 1) }

/-- The scalar stream waits: it has not executed the instruction (05:R109). A cycle in which nothing of the warp issues passes. -/
def State.waitScalar (s : State) (reason : Nat) : State :=
  s.onWarp (fun w => { w.countStall reason with scalStalled := true, scalReason := reason })

/-- The lane stream waits at its oldest word, and such a cycle passes. -/
def State.waitLane (s : State) (reason : Nat) : State :=
  s.onWarp (fun w => { w.countStall reason with laneStalled := true, laneReason := reason })

/-- LPC: the oldest word that has not retired; with an empty queue, the address after the last retired one (01:R12). -/
def Warp.LPC (w : Warp) : BitVec 56 :=
  match w.queue with
  | b :: _ => b.start
  | [] => w.lpc

/-- The reorder buffer after the oldest word has gone: every other entry is one word nearer (01:R27). -/
def robNext (es : List RobEntry) : List RobEntry :=
  (es.filter (fun e => e.ahead != 0)).map (fun e => { e with ahead := e.ahead - 1 })

/-- Entries of the reorder buffer, as the header chooses (03:R60). -/
def Header.robSize (h : Header) : Nat := if h.rob = 0 then 16 else if h.rob = 1 then 32 else 64

/-- The entry of the oldest lane word. -/
def Warp.headEntry (w : Warp) : Option RobEntry := w.rob.find? (fun e => e.ahead == 0)

/-- The oldest lane word retires (01:R11, R12, R27); an access of the next one may have parked already (R29). -/
def Warp.retireWord (w : Warp) : Warp :=
  match w.queue with
  | [] => w
  | b :: rest =>
    { w with
      lpc := b.start + 12
      queue := if b.count ≤ 1 then rest else { b with start := b.start + 12, count := b.count - 1 } :: rest
      retired := w.retired + 1
      laneStalled := false
      scalStalled := false
      pass := { w.pass with breakL := false, watchL := false }
      check := .idle
      ask := none
      xDone := false
      done := []
      parkL := ((robNext w.rob).find? (fun e => e.ahead == 0)).bind RobEntry.park
      rob := robNext w.rob
      clearL := .none }

def State.retireLane (s : State) : State := s.onWarp Warp.retireWord

/-! ### Traps (01:R33 to R38; 14:R281) -/

namespace Code
def illegalEncoding : BitVec 8 := 0x01
def missingFeature : BitVec 8 := 0x02
def emptyRead : BitVec 8 := 0x03
def rangeFault : BitVec 8 := 0x04
def pageFatal : BitVec 8 := 0x05
def misaligned : BitVec 8 := 0x06
def writeAfterSeal : BitVec 8 := 0x07
def appendClass : BitVec 8 := 0x08
def aggFault : BitVec 8 := 0x09
def scratchBound : BitVec 8 := 0x0A
def channelFault : BitVec 8 := 0x0B
def registerBlock : BitVec 8 := 0x0C
def barScope : BitVec 8 := 0x0D
def trapInstr : BitVec 8 := 0x0E
def breakpoint : BitVec 8 := 0x0F
def escrowFault : BitVec 8 := 0x10
def eccFatal : BitVec 8 := 0x11
def taskFault : BitVec 8 := 0x12
def watch : BitVec 8 := 0x13
end Code

/-- A trap of a code with no lanes and no ticket. -/
def trapOf (code : BitVec 8) (addr detail : W64) : MemTrap := ⟨code, 0, addr, detail, 0⟩

/-- The header words 0 to 7 of a trap record or, with code 0, of a stop record (01:R36). -/
def Warp.recordHead (w : Warp) (lane half : Bool) (t : MemTrap) : List W64 :=
  let b (x : Bool) : W64 := if x then 1 else 0
  [ (t.lanes.zeroExtend 64 <<< 32) ||| (BitVec.ofNat 64 (min w.queue.length 8) <<< 24) ||| (b half <<< 16) |||
      (b lane <<< 8) ||| t.code.zeroExtend 64,
    w.LPC.zeroExtend 64,
    (w.spc.truncate 56 : BitVec 56).zeroExtend 64,
    (w.live.zeroExtend 64 <<< 32) ||| w.em.zeroExtend 64,
    t.addr, t.detail, t.ticket, 0 ]

/-- The 34 words of a held block (01:R38). -/
def Block.words (b : Block) : List W64 :=
  [b.start.zeroExtend 64, BitVec.ofNat 64 b.count, b.dseed] ++ (List.range 31).map (fun k => b.snap.get (k + 1))

/-- A whole record: the header words and the held blocks. -/
def Warp.record (w : Warp) (lane half : Bool) (t : MemTrap) : Store 64 :=
  let words := w.recordHead lane half t ++ (w.queue.take 8).flatMap Block.words
  Store.setAll [] ((List.range words.length).zip words)

/-- Both streams stop precisely: what has not retired is discarded (01:R33). -/
def Warp.precise (w : Warp) : Warp :=
  { w with check := .idle, ask := none, done := [], parkL := none, parkS := none, growWait := none, nap := false,
           rob := [], atHome := false, scalIa := none, late := false, onPages := false, wants := [], packet := none, laneStalled := false, scalStalled := false, clearS := .none, clearL := .none }

/-- What of a warp stops for a debugger: its parked accesses keep their tickets (25:R398). -/
def Warp.paused (w : Warp) : Warp :=
  { w.precise with
    parkS := w.parkS
    parkL := w.parkL
    rob := w.rob.filter (fun e => e.park.isSome || (e.ahead == 0 && w.parkL.isSome)) }

/-- The tickets of a warp whose accesses have been discarded. -/
def State.withdrawTickets (s : State) (k : WarpKey) : State :=
  { s with ctx := { s.ctx with tickets := s.ctx.tickets.filter (fun r => r.warp != some k) } }

/-- Drop the class checks of a warp that are under way: their access has been discarded. -/
def State.dropChecks (s : State) (k : WarpKey) : State :=
  { s with
    events := s.events.filter (fun e => e != .classCheckRequest k && e != .translationConfirmation k)
    held := s.held.filter (fun e => e != .classCheckRequest k && e != .translationConfirmation k) }

/-- The codes that always kill the team (14:R281). -/
def killsTeam (t : MemTrap) : Bool :=
  t.code == Code.pageFatal || t.code == Code.eccFatal || t.code == Code.writeAfterSeal ||
    (t.code == Code.aggFault && (t.detail == 1 || t.detail == 3))

/-! ### Barriers that a team no longer holds up (14:R262, R264) -/

/-- The unit in which a barrier of a level stands for a core. -/
def barUnit (level core : Nat) (t : TeamKey) : Nat :=
  if level = 0 then t.team else if level = 1 then core / 8 else if level = 2 then core / 32 else 0

/-- The participants of a barrier episode that have not arrived: warps that have not exited, of running or saved
teams of the launch in the unit; a team killed or exited counts as arrived, and so does a warp that has exited. -/
def State.barMissing (s : State) (b : Bar) : Bool :=
  s.allWarps.any (fun w =>
    w.key.launch == b.launch && w.status != .exited && w.status != .killed &&
    (match s.teamOf w.key.teamKey with
     | none => false
     | some t => (t.status == .running || t.status == .saved) && (t.det && b.level != 0 || barUnit b.level t.core t.key == b.unit)) &&
    !b.arrived.contains (w.key.team, w.key.warp))

/-- Post the release of every episode that has become complete. DET launches release those above TEAM level at the
clearing (14:R266). -/
def State.releaseBars (s : State) : State :=
  let ready := s.dev.bars.filter (fun b => !s.barMissing b &&
    !(b.level != 0 && (match s.launchOf b.launch with | some l => l.det | none => false)))
  s.post ((ready.map (fun b => Instr.barRelease b.launch b.level b.id b.unit)).filter (fun e => !s.pending e))

/-! ### Killing a team (20:R329) -/

/-- A fill whose data have not all arrived. -/
def Fill.due (f : Fill) : Bool := f.arrived != f.lanes

/-- What a kill leaves of a warp: its write buffer drains; everything else it held is released, its register blocks once no fill
of a detached load is pending into them (01:R13). -/
def Warp.killed (w : Warp) : Warp :=
  let fills := w.fills.filter Fill.due
  { w.precise with status := .killed, queue := [], fills := fills, chans := List.replicate 15 Chan.free, srq := [],
                   v := [], empty := if fills.isEmpty then 0 else w.empty, poison := 0, preds := [],
                   blocks := if fills.isEmpty || w.status == .saved then 0 else w.blocks, comms := [], clearS := .none, clearL := .none, bar := [],
                   sealing := false, report := none, halt := false }

/-- The last fill of a killed warp has arrived: its blocks are free. -/
def Warp.released (w : Warp) : Warp :=
  if w.status = .killed ∧ w.fills.all (fun f => !f.due) then { w with fills := [], v := [], empty := 0, poison := 0, blocks := 0 } else w

/-- A core with no resident team has allowance 64 again (01:R32). -/
def State.refreshAllowance (s : State) (core : Nat) : State :=
  if s.allTeams.any (fun t => t.core == core && t.resident) then s
  else s.setCore { s.coreOf core with allowance := Config.allowanceIdle }

/-- The messages that drain a warp's write buffer. -/
def Warp.drains (w : Warp) : List Instr :=
  (w.wbuf.filter (fun e => e.stage == .buffered)).map (fun e => Instr.writeBufferDrain w.key e.id)

/-- A killed team with no task in flight gives up its scratchpad, accumulator units and weight sets (13:R261). -/
def Team.released (t : Team) : Team :=
  if t.ring.isEmpty then { t with scratch := [], acc := [], badScratch := [], badAcc := [], wsets := [] } else t

/-- The warp and the entry of a store or a push on its way to its home. -/
def storeOf : Instr → Option (WarpKey × Nat)
  | .storeRequest w id => some (w, id)
  | .pushRequest w id => some (w, id)
  | _ => none

/-- The stores of a team that are parked at their homes are cancelled, and their tickets withdrawn (20:R329, step 2). -/
def State.cancelStores (s : State) (cn : Nat) (k : TeamKey) : State :=
  let mine (x : W64 × Instr) : Bool := (storeOf x.2).any (fun y => y.1.teamKey == k)
  let gone := s.parked.filter mine
  let s : State := { s with parked := s.parked.filter (fun x => !mine x) }
  let s := s.mapWarps (fun w => w.key.teamKey == k) (fun w => { w with
    wbuf := w.wbuf.filter (fun e => !gone.any (fun x => storeOf x.2 == some (w.key, e.id))) })
  match s.ctxOf cn with
  | none => s
  | some c => s.setCtx { c with tickets := c.tickets.filter (fun r => !gone.any (fun x => x.1 == r.ticket)) }

/-- Kill a team of which no lane word is half gone: its warps stop, its parked accesses are cancelled, its unissued tasks go,
its write buffers drain, its channels are free, its escrows close without a swap, what it held on the core is released, and
the launch keeps words 0 to 7 of the first kill's record (20:R329). -/
def State.endTeam (s : State) (t : Team) (record : Store 64) : State :=
  let k := t.key
  let mine (w : Warp) : Bool := w.key.teamKey == k && w.status != .exited
  let s := s.cancelStores t.ctx k
  let keys := ((s.allWarps).filter mine).map (fun w => w.key)
  let drains := ((s.allWarps.filter mine).flatMap Warp.drains).filter (fun e => !s.pending e)
  let s := keys.foldl State.dropChecks s
  let s := s.mapWarps mine Warp.killed
  let head : Store 64 := Store.setAll [] ((List.range 8).map (fun n => (n, record.get n)))
  let s := s.setTeam (({ t with status := .killed, dying := none, ring := t.ring.filter (fun r => r.issued), wsFmt := [],
                                lost := t.ring.filter (fun r => !r.issued && (r.t0.truncate 8 : Byte) == 9), killRec := head }).released)
  let s := match s.ctxOf t.ctx with
    | none => s
    | some c => s.setCtx { c with
        tickets := c.tickets.filter (fun r =>
          !(match r.warp with | some w => w.teamKey == k | none => false))
        escrows := c.escrows.filter (fun e => e.owner.teamKey != k)
        frames := c.frames ++ (c.escrows.filter (fun (e : Escrow) => e.owner.teamKey == k)).map Escrow.frame }
  let s := match s.launchOf k.launch with
    | none => s
    | some l => s.setLaunch { l with
        kills := l.kills + 1
        kteam := if l.kills = 0 then k.team else l.kteam
        killRec := if l.kills = 0 then head else l.killRec }
  ((s.refreshAllowance t.core).releaseBars).post drains

/-- A lane word of the team has data that have begun to leave: it completes before the kill takes effect (20:R327). -/
def State.leaving (s : State) (k : TeamKey) : Bool :=
  s.allWarps.any (fun w => w.key.teamKey == k && w.status == .running && !w.done.isEmpty)

/-- Kill a team with the record of the warp that brought it about. Every warp stops at once; while a word is half gone the
team stands until the word has retired (20:R327, R329). -/
def State.killTeam (s : State) (k : TeamKey) (record : Store 64) : State :=
  match s.teamOf k with
  | none => s
  | some t =>
    if t.status != .running && t.status != .saved then s
    else if s.leaving k then
      (s.mapWarps (fun w => w.key.teamKey == k) (fun w => { w with halt := true })).setTeam { t with dying := some (t.dying.getD record) }
    else s.endTeam t (t.dying.getD record)

/-- A kill that waits takes effect once no word of the team is half gone. -/
def State.settleKill (s : State) (k : TeamKey) : State :=
  match s.teamOf k with
  | none => s
  | some t => if t.dying.isSome && !s.leaving k then s.killTeam k [] else s

/-! ### Taking a trap -/

/-- Deliver a trap to the front warp: kill the team, or write the record and enter the handler (14:R281, R282). The record has
no place that says of a trap of the scalar stream that the X half of the pair at LPC has completed: that pair runs whole
again after the return (DESIGN CHOICE, log 39). -/
def State.deliver (s : State) (lane half : Bool) (t : MemTrap) : State :=
  let w := s.warp
  -- a lane word that traps is discarded; one of which data have left goes on (01:R33)
  let s := if lane then s.onWarp (fun w => { w with done := [] }) else s
  if w.inHandler then s.killTeam w.key.teamKey w.trapRec
  else
    let rec' := w.record lane half t
    let s := s.dropChecks w.key
    if killsTeam t || s.team.hdr.handler = 0 then
      (s.onWarp (fun w => { w with trapRec := rec', trapSel := 0 })).killTeam w.key.teamKey rec'
    else
      s.onWarp (fun w => { w.precise with trapRec := rec', trapSel := 0, inHandler := true, queue := [],
                                          spc := s.team.hdr.handler.zeroExtend 64, pass := Pass.none, xDone := false,
                                          trapX := half && w.xDone, trapNums := w.queue.map (fun b => b.num) })

/-- Stop the front warp for a debugger: the stop record has code 0 (01:R37), and the ticket of a scalar access that is parked. -/
def State.stopWarp (s : State) (lane half : Bool) (lanes : Mask) (addr detail : W64) : State :=
  (s.dropChecks s.warp.key).onWarp (fun w =>
    { w.paused with
      stopRec := w.record lane half ⟨0, lanes, addr, detail, match w.parkS with | some p => p.ticket | none => 0⟩
      status := .stopped
      stepping := none })

/-- Stop at a breakpoint: the stream's next issue does not match again (25:R399). -/
def State.stopAtBreak (s : State) (lane : Bool) : State :=
  (s.stopWarp lane false 0 0 0).onWarp (fun w => { w with
    pass := if lane then { w.pass with breakL := true } else { w.pass with breakS := true } })

/-- Stop at a watchpoint whose action is stop. -/
def State.stopAtWatch (s : State) (lane half : Bool) (lanes : Mask) (addr detail : W64) : State :=
  (s.stopWarp lane half lanes addr detail).onWarp (fun w => { w with
    pass := if lane then { w.pass with watchL := true } else { w.pass with watchS := true } })

/-- Take a trap of the front warp. Code 0 is a stop at a watchpoint. A debugger that has asked to stop on traps gets the
warp first, and delivery goes on at its resume; a trap that kills in any case is delivered at once (14:R281). -/
def State.takeTrap (s : State) (lane half : Bool) (t : MemTrap) : State :=
  if t.code = 0 then s.stopAtWatch lane half t.lanes t.addr t.detail
  else if s.ctx.trapStop && !killsTeam t then
    (s.stopWarp lane half t.lanes t.addr t.detail).onWarp (fun w => { w with pendTrap := some ⟨lane, half, t⟩ })
  else s.deliver lane half t

/-- A scalar instruction traps with no lanes. -/
def State.trapScalar (s : State) (code : BitVec 8) (addr detail : W64) : State :=
  s.takeTrap false false (trapOf code addr detail)

/-- ILLEGAL_ENCODING with a reason of 03:R76, raised by a scalar instruction. -/
def State.illegalScalar (s : State) (reason : Nat) : State :=
  s.trapScalar Code.illegalEncoding 0 (BitVec.ofNat 64 reason)

/-! ### Return from the handler (14:R282) -/

/-- Block j of a record; its place in program order stands beside the record. -/
def recordBlock (r : Store 64) (nums : List Nat) (j : Nat) : Block where
  num := nums.getD j 0
  start := (r.get (8 + 34 * j)).truncate 56
  count := ((r.get (9 + 34 * j)).truncate 11 : BitVec 11).toNat
  dseed := r.get (10 + 34 * j)
  snap := Store.setAll [] ((List.range 31).map (fun k => (k + 1, r.get (11 + 34 * j + k))))

/-- The blocks that a record holds. -/
def recordBlocks (r : Store 64) (nums : List Nat) : List Block :=
  (List.range (((r.get 0 >>> 24).truncate 8 : BitVec 8).toNat)).map (recordBlock r nums)

/-- Held blocks with the first word skipped. -/
def skipWord : List Block → List Block
  | [] => []
  | b :: rest => if b.count ≤ 1 then rest else { b with start := b.start + 12, count := b.count - 1 } :: rest

/-- RESUME: EM from word 3, the held blocks with their snapshots, SPC from word 2; bit 0 skips the trapping instruction. A
retry of the Y half runs Y alone if its X had completed, and else the whole pair (01:R33). -/
def State.returnFromHandler (s : State) (skip : Bool) : State :=
  let r := s.warp.trapRec
  let lane : Bool := (r.get 0).getLsbD 8
  let blocks := recordBlocks r s.warp.trapNums
  let spc : W64 := ((r.get 2).truncate 56 : BitVec 56).zeroExtend 64
  let s := s.retireTo (if skip && !lane then spc + 4 else spc)
  s.onWarp (fun w => { w with
    em := (r.get 3).truncate 32
    queue := if skip && lane then skipWord blocks else blocks
    lpc := if skip && lane then (match blocks with | b :: _ => b.start + 12 | [] => w.lpc) else w.lpc
    retired := if skip && lane then w.retired + 1 else w.retired
    xDone := !skip && lane && (r.get 0).getLsbD 16 && w.trapX
    inHandler := false })

end Sys2Proof.Machine
end

