-- ==== Sys2Proof/Machine/Address.lean ====
section
/-!
DEFINITION. Addresses: Check over the range registers (20:R315, R316), the page tables and their entries (R319 to R321),
homing regions and Home (17:R293 to R296), the bytes of memory, the trees of aggregate regions (11:R221 to R225) and
append extents (10:R204).
-/

namespace Sys2Proof.Machine

open Sys2Proof

/-! ### Bytes -/

/-- The value of an address that no entry of memory lists is zero. -/
def readBytes (m : Store 8) (a n : Nat) : List Byte := (List.range n).map (fun k => m.get (a + k))
/-- A doubleword of memory. -/
def readD (m : Store 8) (a : Nat) : W64 := ofBytes 64 (readBytes m a 8)
def readW (m : Store 8) (a : Nat) : W32 := ofBytes 32 (readBytes m a 4)
def writeBytes (m : Store 8) (a : Nat) (bs : List Byte) : Store 8 :=
  Store.setAll m ((List.range bs.length).zipWith (fun k b => (a + k, b)) bs)
def writeD (m : Store 8) (a : Nat) (x : W64) : Store 8 := writeBytes m a (toBytes 8 x)

/-- Bits [hi:lo] as a number. -/
def bitsOf64 (x : W64) (hi lo : Nat) : Nat := x.toNat / 2 ^ lo % 2 ^ (hi + 1 - lo)
/-- A field of a doubleword replaced. -/
def putBits (x : W64) (hi lo : Nat) (v : Nat) : W64 :=
  let mask : W64 := BitVec.ofNat 64 ((2 ^ (hi + 1 - lo) - 1) * 2 ^ lo)
  (x &&& ~~~mask) ||| (BitVec.ofNat 64 (v % 2 ^ (hi + 1 - lo) * 2 ^ lo))

/-! ### Range registers (20:R315, R316) -/

inductive Perm where
  | r | w | x
  deriving DecidableEq, Repr

namespace RangeReg
def vbase (g : RangeReg) : Nat := bitsOf64 g.w0 55 16 * 65536
def vlimit (g : RangeReg) : Nat := bitsOf64 g.w1 55 16 * 65536
def offset (g : RangeReg) : Nat := bitsOf64 g.w2 51 23 * 8388608
def gmax (g : RangeReg) : Nat := bitsOf64 g.w3 55 16 * 65536
def valid (g : RangeReg) : Bool := g.w0.getLsbD 3
def grow (g : RangeReg) : Bool := g.w0.getLsbD 4
def allows (g : RangeReg) : Perm → Bool
  | .r => g.w0.getLsbD 0 | .w => g.w0.getLsbD 1 | .x => g.w0.getLsbD 2
/-- What Welhal refuses to write (20:R315). -/
def legal (g : RangeReg) : Bool :=
  bitsOf64 g.w0 63 56 == 0 && bitsOf64 g.w0 15 5 == 0 && bitsOf64 g.w1 63 56 == 0 && bitsOf64 g.w1 15 0 == 0 &&
  bitsOf64 g.w2 63 52 == 0 && bitsOf64 g.w2 22 0 == 0 && bitsOf64 g.w3 63 56 == 0 && bitsOf64 g.w3 15 0 == 0 &&
  decide (g.vbase < g.vlimit) && decide (g.vlimit ≤ g.gmax)
end RangeReg

/-- What Check answers: an intermediate address, a fault with its detail, or a growth window. -/
inductive Checked where
  | ok (ia : Nat)
  | fault (detail : Nat)
  | growth (k : Nat)
  deriving DecidableEq, Repr

/-- Check(a, p). -/
def check (c : Context) (a : W64) (p : Perm) : Checked :=
  let n := a.toNat
  if 2 ^ 56 ≤ n then .fault 0
  else match c.ranges.find? (fun g => g.valid && decide (g.vbase ≤ n) && decide (n < g.vlimit)) with
    | some g => if g.allows p then .ok ((n + g.offset) % 2 ^ 52) else .fault 2
    | none =>
      match c.ranges.findIdx? (fun g => g.valid && g.grow && g.allows p && decide (g.vlimit ≤ n) && decide (n < g.gmax)) with
      | some k => .growth k
      | none => .fault 0

/-- Check with both R and W: the smaller fault of R first. -/
def checkAll (c : Context) (a : W64) : List Perm → Checked
  | [] => .fault 0
  | [p] => check c a p
  | p :: rest => match check c a p with
    | .ok _ => checkAll c a rest
    | .fault d => .fault d
    | .growth k => (match checkAll c a rest with | .fault d => .fault d | _ => .growth k)

/-- Whether every byte of a virtual range passes Check; a growth window does not. -/
def coveredFrom (c : Context) (p : Perm) (a : Nat) : Nat → Bool
  | 0 => true
  | n + 1 => (match check c (BitVec.ofNat 64 (a + n)) p with | .ok _ => true | .fault _ => false | .growth _ => false) &&
      coveredFrom c p a n

/-- Whether each 64 KiB piece of a virtual range passes Check: ranges begin and end at multiples of 65,536. -/
def covered (c : Context) (p : Perm) (a len : Nat) : Bool :=
  len = 0 || (List.range ((a + len - 1) / 65536 - a / 65536 + 1)).all (fun k =>
    match check c (BitVec.ofNat 64 (max a ((a / 65536 + k) * 65536))) p with
    | .ok _ => true | .fault _ => false | .growth _ => false)

/-- Whether an address lies in the scratchpad aperture (05:R102). -/
def inAperture (a : W64) : Bool :=
  decide (Config.apertureBase ≤ a.toNat) && decide (a.toNat < Config.apertureBase + Config.apertureSize)

/-! ### Pages (20:R319 to R321) -/

/-- A page entry as it stands, and where it stands. -/
structure Page where
  raw : W64
  place : Nat
  deriving DecidableEq, Repr

namespace Page
def large (p : Page) : Bool := p.raw.getLsbD 61
def cls (p : Page) : Nat := bitsOf64 p.raw 60 58
def cxl (p : Page) : Bool := p.raw.getLsbD 57
def share (p : Page) : Nat := bitsOf64 p.raw 56 55
def owner (p : Page) : Nat := bitsOf64 p.raw 54 45
def ppn (p : Page) : Nat := bitsOf64 p.raw 44 13
end Page

/-- What a walk finds. -/
inductive Walked where
  | absent
  | malformed
  | page (p : Page)
  deriving DecidableEq, Repr

/-- The port of a tier page (24:R393): pages go round the 8 ports. -/
def cxlPort (page : Nat) : Nat := page % 8

/-- What is wrong with a valid page entry by itself (20:R320). A page of HBM beyond the stacks' capacity (00:R2) is taken for
malformed: the spec's list does not name it (DESIGN CHOICE, log 41). -/
def pageLegal (d : Device) (raw : W64) : Bool :=
  let p : Page := ⟨raw, 0⟩
  bitsOf64 raw 12 0 == 0 && decide (p.cls < 5) && p.share != 3 && decide (p.owner ≤ 767) &&
  decide (p.ppn < (if p.cxl then d.tierPages else Config.hbmPages))

/-- The 32 entries of a 2 MiB page agree (20:R321). -/
def largeLegal (d : Device) (p : Page) : Bool :=
  let first := p.place - p.place % 256
  let e0 : Page := ⟨readD d.mem first, first⟩
  e0.ppn % 32 == 0 && (List.range 32).all (fun j =>
    let e : Page := ⟨readD d.mem (first + 8 * j), 0⟩
    e.raw.getLsbD 63 && e.large && e.ppn == e0.ppn + j && e.cls == e0.cls && e.cxl == e0.cxl && e.share == e0.share &&
    e.owner == e0.owner)

/-- One level of the walk. -/
def walkTable (d : Device) (table index : Nat) : Walked :=
  let e := readD d.mem (table + 8 * index)
  if !e.getLsbD 63 then .absent
  else if bitsOf64 e 62 46 != 0 || bitsOf64 e 12 0 != 0 then .malformed
  else .page ⟨e, table + 8 * index⟩

def nextTable (e : W64) : Nat := bitsOf64 e 45 13 * 32768

/-- The key of a page in the page records: its context and its intermediate page number. -/
def pageKey (c page : Nat) : Nat := c * 2 ^ 36 + page

/-- The entry that a walk of the tables finds for an intermediate address; a page that a remote package owns is not here. -/
def walkEntry (d : Device) (c : Context) (ia : Nat) : Walked :=
  if bitsOf64 (d.pageRecs.get (pageKey c.num (ia / 65536))) 63 62 = 2 then .absent
  else match walkTable d c.root.toNat (ia / 2 ^ 40 % 4096) with
  | .absent => .absent
  | .malformed => .malformed
  | .page e1 =>
    match walkTable d (nextTable e1.raw) (ia / 2 ^ 28 % 4096) with
    | .absent => .absent
    | .malformed => .malformed
    | .page e2 =>
      let place := nextTable e2.raw + 8 * (ia / 65536 % 4096)
      let raw := readD d.mem place
      let p : Page := ⟨raw, place⟩
      if !raw.getLsbD 63 then .absent
      else if !pageLegal d raw || (p.large && !largeLegal d p) then .malformed
      else if p.cxl && d.badPorts.contains (cxlPort p.ppn) then .malformed
      else .page p

/-- The page on which an access acts: while a withdrawal or a tier move is under way its page is held at the home (20:R323,
R324). -/
def walk (d : Device) (c : Context) (ia : Nat) : Walked :=
  if d.pagesHeld.contains (pageKey c.num (ia / 65536)) then .absent else walkEntry d c ia

/-- The key of the page record of a page: a 2 MiB page has one record, under its first part (24:R384). -/
def Device.recordKey (d : Device) (c : Context) (page : Nat) : Nat :=
  match walkEntry d c (page * 65536) with
  | .page p => pageKey c.num (if p.large then page / 32 * 32 else page)
  | .absent => pageKey c.num page
  | .malformed => pageKey c.num page

def Device.pageRecord (d : Device) (c : Context) (page : Nat) : W64 := d.pageRecs.get (d.recordKey c page)

/-- Whether a remote package owns a page. -/
def Device.away (d : Device) (c : Context) (ia : Nat) : Bool := bitsOf64 (d.pageRecs.get (pageKey c.num (ia / 65536))) 63 62 == 2

/-- The ticket kind of an access whose page cannot be had now: a remote package has it or a withdrawal holds it, or no entry
is valid (20:R323 to R325; 24:R386). -/
def absentKind (d : Device) (c : Context) (ia : Nat) : Nat :=
  if d.away c ia || d.pagesHeld.contains (pageKey c.num (ia / 65536)) then 2 else 1

/-- The key of a byte of a page in memory. -/
def Page.phys (p : Page) (ia : Nat) : Nat :=
  (if p.cxl then Config.cxlBase else 0) + p.ppn * 65536 + ia % 65536

/-- Update the entry of a page, and of all 32 of a 2 MiB page (20:R321). -/
def Device.putPage (d : Device) (p : Page) (f : W64 → W64) : Device :=
  if p.large then
    let first := p.place - p.place % 256
    { d with mem := (List.range 32).foldl (fun m j => writeD m (first + 8 * j) (f (readD m (first + 8 * j)))) d.mem }
  else { d with mem := writeD d.mem p.place (f p.raw) }

def setShare (share owner : Nat) (e : W64) : W64 := putBits (putBits e 56 55 share) 54 45 owner
def setDirty (e : W64) : W64 := e ||| (1 <<< 62)
def setClass (k : Nat) (e : W64) : W64 := putBits e 60 58 k

/-! ### Homes (17:R293 to R296) -/

/-- The entry of a region homed at a die and a quadrant, unpinned. -/
def regionEntry (die quad : Nat) : W32 :=
  BitVec.ofNat 32 (2 ^ 31 + die % 32 * 2 ^ 21 + quad % 4 * 2 ^ 19)

/-- The first touch homes a region (17:R294). -/
def Device.touch (d : Device) (region die quad : Nat) : Device :=
  if (d.regionTab.get region).getLsbD 31 then d else { d with regionTab := d.regionTab.set region (regionEntry die quad) }

/-- Home(a) of a homed region (17:R296). -/
def homeOf (d : Device) (ia : Nat) : HomeOf :=
  let e := (d.regionTab.get (ia / 65536)).toNat
  let l := ia / 128
  ⟨e / 2 ^ 21 % 32, e / 2 ^ 19 % 4,
    if e / 2 ^ 30 % 2 = 1 then e / 2 ^ 26 % 16
    else (l % 16) ^^^ (l / 16 % 16) ^^^ (l / 256 % 16) ^^^ (l / 4096 % 16)⟩

/-- Home(a) for an agent of a die and a quadrant: a region that is not homed yet is homed there by the access (17:R294,
R296). -/
def homeNear (d : Device) (die quad ia : Nat) : HomeOf := homeOf (d.touch (ia / 65536) die quad) ia

/-- The die and the quadrant at which an access from the host homes a region: quadrant 0 of the compute die to which the I/O
die of the access attaches (17:R294; 24:R381). -/
def Device.hostPlace (d : Device) : Nat × Nat := (([0, 5, 18, 23] : List Nat).getD d.hostDie 0, 0)

/-- The key of a line in the L1 caches and the directories: its context and its line number. -/
def tagged (c ia : Nat) : Nat := c * 2 ^ 45 + ia / 128

/-- The address of a tagged line. -/
def untag (line : Nat) : Nat × Nat := (line / 2 ^ 45, line % 2 ^ 45 * 128)

def dieOf (core : Nat) : Nat := core / 32
def quadOf (core : Nat) : Nat := core / 8 % 4

/-! ### Aggregate regions (11:R221 to R225, R230 to R232) -/

namespace Region
def n (g : Region) : Nat := 2 ^ g.log2n
/-- Element i's intermediate address. -/
def elemIa (g : Region) (i : Nat) : Nat :=
  match g.parts.find? (fun p => decide (p.1 ≤ 4 * i) && decide (4 * i < p.1 + p.2.1)) with
  | some p => p.2.2 + (4 * i - p.1)
  | none => 0
/-- The element that holds an intermediate address. -/
def elemAt (g : Region) (ia : Nat) : Option Nat :=
  (g.parts.find? (fun p => decide (p.2.2 ≤ ia) && decide (ia < p.2.2 + p.2.1))).map (fun p => (p.1 + (ia - p.2.2)) / 4)
/-- Whether it has a byte in [ia, ia + len). -/
def overlaps (g : Region) (ia len : Nat) : Bool :=
  g.parts.any (fun p => decide (p.2.2 < ia + len) && decide (ia < p.2.2 + p.2.1))
/-- The intermediate address of element 0. -/
def ia (g : Region) : Nat := g.elemIa 0
/-- The 64 KiB regions of the intermediate space in which it has elements. -/
def homings (g : Region) : List Nat :=
  g.parts.flatMap (fun p => (List.range ((p.2.2 + p.2.1 - 1) / 65536 - p.2.2 / 65536 + 1)).map (fun k => p.2.2 / 65536 + k))
end Region

/-- Combine(x, y) on node words (11:R222). -/
def combine (kind : Nat) (x y : W64) : W64 :=
  if kind = 0 then x + y
  else if kind = 1 then BitVec.ofNat 64 (fAdd .f32 .rn 0 (lo32 x).toNat (lo32 y).toNat).bits
  else if kind = 2 then (if (lo32 x).slt (lo32 y) then y else x)
  else if kind = 3 then (if (lo32 y).slt (lo32 x) then y else x)
  else BitVec.ofNat 64 (fMinMax .f32 (kind == 4) (lo32 x).toNat (lo32 y).toNat).bits

/-- The identity of a kind. -/
def identityOf (kind : Nat) : W64 :=
  if kind = 2 then 0x80000000 else if kind = 3 then 0x7FFFFFFF else if kind = 4 then 0xFF800000
  else if kind = 5 then 0x7F800000 else 0

/-- An element widened to the node type. -/
def leafOf (kind : Nat) (e : W32) : W64 := if kind = 0 then sext64 e else zext64 e

/-- Element i as it stands in memory. -/
def elemOf (d : Device) (c : Context) (g : Region) (i : Nat) : W32 :=
  match walkEntry d c (g.elemIa i) with
  | .page p => readW d.mem (p.phys (g.elemIa i))
  | .absent => 0
  | .malformed => 0

/-- Val(j) (11:R221). -/
def valOf (d : Device) (c : Context) (g : Region) (j : Nat) : W64 :=
  if j < g.n then g.nodes.get j else leafOf g.kind (elemOf d c g (j - g.n))

/-- Rewrite the nodes on a path to the root (11:R225). -/
def pathUp (d : Device) (c : Context) : Nat → Region → Nat → Region
  | 0, g, _ => g
  | fuel + 1, g, k =>
    if k = 0 then g
    else
      let g := { g with nodes := g.nodes.set k (combine g.kind (valOf d c g (2 * k)) (valOf d c g (2 * k + 1))) }
      pathUp d c fuel g (k / 2)

/-- The update of element i, whose new value stands in memory. -/
def Region.update (d : Device) (c : Context) (g : Region) (i : Nat) : Region := pathUp d c 25 g ((g.n + i) / 2)

/-- Build every node from k down to 1. -/
def Region.build (d : Device) (c : Context) : Nat → Region → Region
  | 0, g => g
  | k + 1, g =>
    let x := combine g.kind (valOf d c g (2 * (k + 1))) (valOf d c g (2 * (k + 1) + 1))
    Region.build d c k { g with nodes := g.nodes.set (k + 1) x }

/-- Join(x, y) (11:R230). -/
def joinOpt (kind : Nat) : Option W64 → Option W64 → Option W64
  | none, y => y
  | x, none => x
  | some x, some y => some (combine kind x y)

/-- The loop of LDA; each round halves a and b. -/
def ldaLoop (val : Nat → W64) (kind : Nat) : Nat → Nat → Nat → Option W64 → Option W64 → Option W64
  | 0, _, _, l, r => joinOpt kind l r
  | fuel + 1, a, b, l, r =>
    if a < b then
      let (a, l) := if a % 2 = 1 then (a + 1, joinOpt kind l (some (val a))) else (a, l)
      let (b, r) := if b % 2 = 1 then (b - 1, joinOpt kind (some (val (b - 1))) r) else (b, r)
      ldaLoop val kind fuel (a / 2) (b / 2) l r
    else joinOpt kind l r

/-- LDA over [lo, hi) (11:R230). -/
def ldaAnswer (d : Device) (c : Context) (g : Region) (lo hi : Nat) : W64 :=
  (ldaLoop (valOf d c g) g.kind 27 (lo + g.n) (hi + g.n) none none).getD (identityOf g.kind)

/-- u < s in a sum kind: signed integers, or FP32. -/
def sumLess (kind : Nat) (u s : W64) : Bool :=
  if kind = 0 then u.slt s else fpLt (fpOf .f32 (lo32 u).toNat) (fpOf .f32 (lo32 s).toNat)
def sumSub (kind : Nat) (u s : W64) : W64 :=
  if kind = 0 then u - s else BitVec.ofNat 64 (fSub .f32 .rn 0 (lo32 u).toNat (lo32 s).toNat).bits

/-- The descent of Search. -/
def searchDown (val : Nat → W64) (kind n : Nat) : Nat → Nat → W64 → Nat
  | 0, k, _ => k - n
  | fuel + 1, k, u =>
    if k < n then
      let s := val (2 * k)
      if sumLess kind u s then searchDown val kind n fuel (2 * k) u
      else searchDown val kind n fuel (2 * k + 1) (sumSub kind u s)
    else k - n

/-- Search(u) (11:R231). -/
def search (d : Device) (c : Context) (g : Region) (u : W64) : Nat :=
  let t := valOf d c g 1
  if !sumLess g.kind 0 t || !sumLess g.kind u t then g.n else searchDown (valOf d c g) g.kind g.n 25 1 u

/-- Qual(v) against x (11:R231). -/
def qual (kind : Nat) (x v : W64) : Bool :=
  if kind = 2 then (lo32 x).sle (lo32 v)
  else if kind = 3 then (lo32 v).sle (lo32 x)
  else
    let a := fpOf .f32 (lo32 v).toNat
    let b := fpOf .f32 (lo32 x).toNat
    if kind = 4 then fpLt b a || fpEq a b else fpLt a b || fpEq a b

def extremeDown (val : Nat → W64) (q : W64 → Bool) (n : Nat) : Nat → Nat → Nat
  | 0, k => k - n
  | fuel + 1, k => if k < n then extremeDown val q n fuel (if q (val (2 * k)) then 2 * k else 2 * k + 1) else k - n

/-- FIND (11:R231). -/
def findAnswer (d : Device) (c : Context) (g : Region) (x : W32) : Nat :=
  if g.kind = 0 then search d c g (sext64 x)
  else if g.kind = 1 then search d c g (zext64 x)
  else if !qual g.kind (zext64 x) (valOf d c g 1) then g.n
  else extremeDown (valOf d c g) (qual g.kind (zext64 x)) g.n 25 1

/-- PICK (11:R232). -/
def pickAnswer (d : Device) (c : Context) (g : Region) (r : W32) : Nat :=
  let t := valOf d c g 1
  if g.kind = 0 then
    (if (0 : Int) < t.toInt then search d c g (BitVec.ofNat 64 (r.toNat * t.toNat / 2 ^ 32)) else g.n)
  else
    match fpOf .f32 (lo32 t).toNat with
    | .nan _ => search d c g (BitVec.ofNat 64 (fmtNan .f32))
    | .inf s => if r.toNat / 256 = 0 then search d c g (BitVec.ofNat 64 (fmtNan .f32))
        else search d c g (BitVec.ofNat 64 (signed .f32 s 0x7F800000))
    | .fin s m e =>
      search d c g (BitVec.ofNat 64 (roundTo .f32 .rn 0 false (.fin s (m * (r.toNat / 256)) (e - 24))).bits)

/-- The standing region of a context that holds an intermediate address. -/
def regionAt (c : Context) (ia : Nat) : Option Region := c.regions.find? (fun g => (g.elemAt ia).isSome)

/-- The update of the tree for every element in [ia, ia + n), elements rising (10:R198). -/
def updateTree (d : Device) (c : Context) (ia n : Nat) : Context :=
  (List.range ((ia + n + 3) / 4 - ia / 4)).foldl (fun c j =>
    let a := 4 * (ia / 4 + j)
    match regionAt c a with
    | none => c
    | some g =>
      match g.elemAt a with
      | none => c
      | some i => { c with regions := c.regions.map (fun x => if x.handle = g.handle then g.update d c i else x) }) c

/-! ### Extents and escrows (10:R204, R213) -/

/-- The extent that holds a virtual address. -/
def extentAt (c : Context) (a : W64) : Option Extent :=
  c.extents.find? (fun x => decide (x.base ≤ a.toNat) && decide (a.toNat < x.base + 65536 * x.pages))

def Context.setExtent (c : Context) (x : Extent) : Context :=
  { c with extents := c.extents.map (fun y => if y.base = x.base then x else y) }

/-- The HBM frames of the context's pool; those of the CXL tier stand at 2³² and above. -/
def Context.hbmFrames (c : Context) : List Nat := c.frames.filter (fun f => decide (f < 2 ^ 32))

/-- The page of an open escrow that has an intermediate address. -/
def escrowAt (c : Context) (ia : Nat) : Option Escrow := c.escrows.find? (fun e => e.page == ia / 65536)

end Sys2Proof.Machine
end

