-- ==== Sys2Proof/Machine/Caches.lean ====
section
/-!
DEFINITION. The L1 of each core (17:R286 to R291), the directory at the homes and the proxies (17:R297 to R304), and the
admission of an access at its home: translation, first touch, classification and recall (17:R289 to R294; 20:R322).
-/

namespace Sys2Proof.Machine

open Sys2Proof

/-! ### Lines as bytes -/

/-- Replace bytes of a line, given as (offset, byte). -/
def patchLine (x : LineData) : List (Nat × Byte) → LineData
  | [] => x
  | (k, b) :: rest =>
    let mask : LineData := ((0xFF : Byte).zeroExtend 1024) <<< (8 * k)
    patchLine ((x &&& ~~~mask) ||| ((b.zeroExtend 1024 : LineData) <<< (8 * k))) rest

/-- The bytes [k, k + n) of a line. -/
def lineBytes (x : LineData) (k n : Nat) : List Byte := toBytes n (x >>> (8 * k))

/-! ### Lines in an L1 -/

def Core.find (c : Core) (line : Nat) : Option L1Line := c.l1.find? (fun l => l.line == line)
def Core.drop (c : Core) (line : Nat) : Core := { c with l1 := c.l1.filter (fun l => l.line != line) }
/-- A line used last stands in front. -/
def Core.put (c : Core) (l : L1Line) : Core := { c with l1 := l :: c.l1.filter (fun x => x.line != l.line) }
/-- Change a line where it stands. -/
def Core.change (c : Core) (line : Nat) (f : L1Line → L1Line) : Core :=
  { c with l1 := c.l1.map (fun l => if l.line = line then f l else l) }

/-- The lines counted against ALLOWANCE (17:R287). -/
def Core.pushedLines (c : Core) : Nat := (c.l1.filter (fun l => l.st == .pu)).length

/-! ### Writing a line back -/

/-- Write bytes at a physical place, and the poison of its line: a whole line clears it (17:R307). -/
def Device.writePhys (d : Device) (pa : Nat) (bs : List Byte) : Device :=
  { d with mem := writeBytes d.mem pa bs
           bad := if bs.length = 128 then d.bad.filter (fun l => l != pa / 128) else d.bad }

/-- The first write sets the dirty bit of the page entry (20:R320). -/
def Device.markDirty (d : Device) (p : Page) : Device := if p.raw.getLsbD 62 then d else d.putPage p setDirty

/-- A line of data goes to memory, with its poison. -/
def State.storeLine (s : State) (line : Nat) (data : LineData) (poison : Bool) : State :=
  let (cn, ia) := untag line
  match s.ctxOf cn with
  | none => s
  | some c =>
    match walkEntry s.dev c ia with
    | .page p =>
      let d := (s.dev.writePhys (p.phys ia) (toBytes 128 data)).markDirty p
      { s with dev := { d with bad := if poison then d.bad ++ [p.phys ia / 128] else d.bad } }
    | .absent => s
    | .malformed => s

/-- Data of a line that come back from an owner: the poison that the line had stays (17:R307). -/
def State.returnLine (s : State) (line : Nat) (data : LineData) : State :=
  let (cn, ia) := untag line
  let bad := match s.ctxOf cn with
    | none => false
    | some c => match walkEntry s.dev c ia with
      | .page p => s.dev.bad.contains (p.phys ia / 128)
      | .absent => false
      | .malformed => false
  s.storeLine line data bad

/-- Memory keeps the bytes of a line, which cannot be read any more (17:R305, R307; 24:R389). -/
def State.poisonLine (s : State) (line : Nat) : State :=
  let (cn, ia) := untag line
  match s.ctxOf cn with
  | none => s
  | some c => match walkEntry s.dev c ia with
    | .page p =>
      let l := p.phys ia / 128
      if s.dev.bad.contains l then s else { s with dev := { s.dev with bad := s.dev.bad ++ [l] } }
    | .absent => s
    | .malformed => s

/-- The line that memory holds, and whether it is poisoned. -/
def State.fetchLine (s : State) (c : Context) (ia : Nat) : Option (LineData × Bool) :=
  match walkEntry s.dev c ia with
  | .page p =>
    let pa := p.phys ia / 128 * 128
    some (ofBytes 1024 (readBytes s.dev.mem pa 128), s.dev.bad.contains (pa / 128))
  | .absent => none
  | .malformed => none

/-- A clean line whose parity fails is fetched again from its home, on which it depends (17:R305, R306). -/
def State.verify (s : State) (core line : Nat) : State :=
  match (s.coreOf core).find line with
  | none => s
  | some l =>
    if l.parity then
      match (s.ctxOf (untag line).1).bind (fun c => s.fetchLine c (untag line).2) with
      | some (x, bad) => s.setCore ((s.coreOf core).change line (fun l =>
          { l with data := x, poison := bad, ver := s.dev.vers.get line, parity := false }))
      | none => s.setCore ((s.coreOf core).drop line)
    else s

/-- A PD line is written back and becomes PC (19:R312). -/
def State.writeBackLine (s : State) (core line : Nat) : State :=
  let c := s.coreOf core
  match c.find line with
  | none => s
  | some l =>
    if l.st = .pd then
      (s.storeLine line l.data l.poison).setCore (c.change line (fun l => { l with st := .pc }))
    else s

/-! ### The directory: entries (17:R298) -/

namespace DirE
def unc : Nat := 0
def shr : Nat := 1
def own : Nat := 2
def s2o : Nat := 3
def o2o : Nat := 4
def o2s : Nat := 5
def hwr : Nat := 6
def state (e : W64) : Nat := bitsOf64 e 63 61
def coarse (e : W64) : Bool := e.getLsbD 60
def npt (e : W64) : Nat := bitsOf64 e 59 57
def dievec (e : W64) : Nat := bitsOf64 e 56 33
def ptr (e : W64) (k : Nat) : Nat := bitsOf64 e (17 + 5 * k) (13 + 5 * k)
def groups (e : W64) : Nat := bitsOf64 e 20 13
def acks (e : W64) : Nat := bitsOf64 e 12 7
def req (e : W64) : Nat := bitsOf64 e 6 1
def wdata (e : W64) : Bool := e.getLsbD 0
def hasDie (e : W64) (d : Nat) : Bool := decide (dievec e / 2 ^ d % 2 = 1)
def setState (e : W64) (x : Nat) : W64 := putBits e 63 61 x
def setAcks (e : W64) (x : Nat) : W64 := putBits e 12 7 x
def transient (e : W64) : Bool := decide (3 ≤ state e)
/-- The local cores of pointer form. -/
def ptrs (e : W64) : List Nat := if coarse e then [] else (List.range (npt e)).map (ptr e)
/-- The local cores of every marked group. -/
def groupCores (e : W64) : List Nat :=
  if coarse e then (List.range 32).filter (fun k => decide (groups e / 2 ^ (k / 4) % 2 = 1)) else []
/-- A stable entry that names nobody. -/
def empty (st : Nat) : W64 := putBits 0 63 61 st
/-- Pointer form of a list of up to four local cores, with a die vector. -/
def ofPtrs (st : Nat) (cores : List Nat) (dies : Nat) : W64 :=
  let e := putBits (putBits (empty st) 59 57 cores.length) 56 33 dies
  (List.range cores.length).foldl (fun e k => putBits e (17 + 5 * k) (13 + 5 * k) (cores.getD k 0)) e
/-- The pending requester. -/
def setReq (e : W64) (c : Node) : W64 :=
  match c with
  | .core n => putBits e 6 1 (n % 32)
  | .die d => putBits e 6 1 (32 + d)
/-- Add a sharer; the fifth local core turns the entry coarse (17:R299). -/
def addSharer (e : W64) (c : Node) : W64 :=
  match c with
  | .die d => putBits e 56 33 (if hasDie e d then dievec e else dievec e + 2 ^ d)
  | .core n =>
    let n := n % 32
    if coarse e then (if groups e / 2 ^ (n / 4) % 2 = 1 then e else putBits e 20 13 (groups e + 2 ^ (n / 4)))
    else if (ptrs e).contains n then e
    else if npt e < 4 then ofPtrs (state e) (ptrs e ++ [n]) (dievec e)
    else
      let all := ptrs e ++ [n]
      let g := (List.range 8).foldl (fun v k => if all.any (fun c => c / 4 == k) then v + 2 ^ k else v) 0
      putBits (putBits (putBits (empty (state e)) 56 33 (dievec e)) 60 60 1) 20 13 g
end DirE

/-- The entry of a line at a slice. -/
def Device.dirGet (d : Device) (at' : DirAt) (line : Nat) : W64 :=
  match at' with
  | .home => d.dir.get line
  | .proxy k => d.proxyDir.get (line * 32 + k)
def State.dirGet (s : State) (at' : DirAt) (line : Nat) : W64 := s.dev.dirGet at' line
def State.dirPut (s : State) (at' : DirAt) (line : Nat) (e : W64) : State :=
  match at' with
  | .home => { s with dev := { s.dev with dir := s.dev.dir.set line e } }
  | .proxy k => { s with dev := { s.dev with proxyDir := s.dev.proxyDir.set (line * 32 + k) e } }

/-- The home die of a tagged line. -/
def State.lineDie (s : State) (line : Nat) : Nat := (homeOf s.dev (untag line).2).die

/-- The die whose cores a slice's pointers name. -/
def State.sliceDie (s : State) (at' : DirAt) (line : Nat) : Nat :=
  match at' with
  | .home => s.lineDie line
  | .proxy k => k

/-- Where a core sends its directory requests: its die's proxy for a line homed elsewhere (17:R301). -/
def State.sliceFor (s : State) (core line : Nat) : DirAt :=
  if dieOf core = s.lineDie line then .home else .proxy (dieOf core)

/-- The slice itself, as a place: a proxy is the slice of the home's number in the home's quadrant number (17:R301). -/
def State.sliceOf (s : State) (at' : DirAt) (line : Nat) : HomeOf :=
  let h := homeOf s.dev (untag line).2
  match at' with
  | .home => h
  | .proxy d => { h with die := d }

/-- The sharers of an entry, as nodes. -/
def State.sharers (s : State) (at' : DirAt) (line : Nat) (e : W64) : List Node :=
  let base := 32 * s.sliceDie at' line
  ((DirE.ptrs e ++ DirE.groupCores e).map (fun k => Node.core (base + k))) ++
    ((List.range 24).filter (fun d => DirE.hasDie e d)).map Node.die

/-- The owner of an OWN entry. -/
def State.ownerOf (s : State) (at' : DirAt) (line : Nat) (e : W64) : Option Node := (s.sharers at' line e).head?

/-- The pending requester of an entry. -/
def State.requester (s : State) (at' : DirAt) (line : Nat) (e : W64) : Node :=
  if DirE.req e < 32 then .core (32 * s.sliceDie at' line + DirE.req e) else .die (DirE.req e - 32)

/-- An entry in which only a node stands. -/
def onlyNode (st : Nat) (c : Node) : W64 :=
  match c with
  | .core n => DirE.ofPtrs st [n % 32] 0
  | .die d => DirE.ofPtrs st [] (2 ^ d)

/-- An entry that lists nobody. -/
def listsNobody (e : W64) : Bool := !DirE.coarse e && DirE.npt e == 0 && DirE.dievec e == 0

/-- Row 13 at a slice: every copy of a line is taken back; `note` says for whom. An entry in HWR lists nobody. -/
def State.takeCopies (s : State) (at' : DirAt) (line : Nat) (note : W64) : State :=
  let e := s.dirGet at' line
  let who := s.sharers at' line e
  if who.isEmpty then s.dirPut at' line 0
  else if DirE.state e = DirE.own then
    (s.dirPut at' line (DirE.setAcks (DirE.empty DirE.hwr) 1 ||| note)).post
      ((who.take 1).map (fun c => Instr.rclInvalidate at' line c))
  else (s.dirPut at' line (DirE.setAcks (DirE.empty DirE.hwr) who.length ||| note)).post
    (who.map (fun c => Instr.inv at' line c))

/-- An entry whose copies have been recalled for a home-performed access, which has still to be performed. -/
def recalled (e : W64) : Bool := DirE.state e == DirE.hwr && DirE.acks e == 0

/-- The entry that such an access leaves: UNC after row 13, SHR with the owner that was after row 14. -/
def afterRecall (e : W64) : W64 := if listsNobody e then 0 else DirE.setState e DirE.shr

/-- Rows 13 and 14 for an access performed at the home: whether it must wait for a line's copies, whose invalidations or recalls
are then on their way (17:R300, R304). Where the replies have come the access is performed, and the entry is stable
again. -/
def State.recallCopies (s : State) (line : Nat) (write : Bool) : State × Bool :=
  let e := s.dirGet .home line
  let s := if recalled e then s.dirPut .home line (afterRecall e) else s
  let e := if recalled e then afterRecall e else e
  let st := DirE.state e
  if st = DirE.unc || (st = DirE.shr && !write) then (s, false)
  else if (st = DirE.shr || st = DirE.own) && (s.sharers .home line e).isEmpty then (s.dirPut .home line 0, false)
  else if st = DirE.shr || (st = DirE.own && write) then (s.takeCopies .home line 0, true)
  else if st = DirE.own then
    match s.ownerOf .home line e with
    | none => (s, true)
    | some o => ((s.dirPut .home line (DirE.setAcks (DirE.setState (onlyNode DirE.own o) DirE.hwr) 1)).post
        [Instr.rclDowngrade .home line o], true)
  else (s, true)

/-! ### Installing in an L1 (17:R286) -/

/-- A line leaves an L1: written back if dirty, given up if tracked (17:R297). -/
def State.evictLine (s : State) (core : Nat) (l : L1Line) : State :=
  let s := match l.st with
    | .pd => s.storeLine l.line l.data l.poison
    | .ts => s.post [Instr.evs (s.sliceFor core l.line) l.line (.core core)]
    | .ox => (if l.poison then s.poisonLine l.line else s).post
        [Instr.evx (s.sliceFor core l.line) l.line (.core core) l.data]
    | .sc => s
    | .pu => s
    | .pc => s
  s.setCore ((s.coreOf core).drop l.line)

/-- The lines of a line's set. -/
def Core.setOf (c : Core) (line : Nat) : List L1Line := c.l1.filter (fun l => l.line % Config.l1Sets == line % Config.l1Sets)

/-- The victim of a full set: the one used longest ago that is no unread pushed line, unless all are. -/
def Core.victim (c : Core) (line : Nat) : Option L1Line :=
  let ways := (c.setOf line).filter (fun l => l.line != line)
  if ways.length < Config.l1Ways then none
  else match (ways.filter (fun l => l.st != .pu)).getLast? with
    | some l => some l
    | none => ways.getLast?

/-- Install a line. -/
def State.install (s : State) (core : Nat) (l : L1Line) : State :=
  let s := match (s.coreOf core).victim l.line with
    | none => s
    | some v => s.evictLine core v
  s.setCore ((s.coreOf core).put l)

/-! ### Admission at the home -/

/-- Who makes an access: a core's stream, or an engine, an I/O die or another package near a die and quadrant. -/
inductive Agent where
  | core (n : Nat)
  | other (die quad : Nat)
  deriving DecidableEq, Repr

def Agent.place : Agent → Nat × Nat
  | .core n => (dieOf n, quadOf n)
  | .other d q => (d, q)

/-- What the memory side answers: the access may be performed, the page is missing under a ticket kind, or the access is
held until a recall is done. -/
inductive Adm (α : Type) where
  | ok (s : State) (x : α)
  | absent (kind : Nat)
  | hold (s : State)

/-- Withdraw the core's own private copy of a line: an access of its own that is performed at the home (17:R290). -/
def State.flushPrivate (s : State) (core line : Nat) : State :=
  match (s.coreOf core).find line with
  | none => s
  | some l =>
    if l.st = .pd then
      let s := s.storeLine line l.data l.poison
      s.setCore ((s.coreOf core).drop line)
    else if l.st = .pc then s.setCore ((s.coreOf core).drop line)
    else s

/-- The classification that an access to an ordinary page makes or finds (17:R289 to R291). -/
def State.classify (s : State) (c : Context) (ag : Agent) (excl : Bool) (p : Page) (ia : Nat) : Adm Unit :=
  if p.cls != 0 then .ok s ()
  else if p.share = 0 then
    match ag, excl with
    | .core n, false => .ok { s with dev := s.dev.putPage p (setShare 1 n) } ()
    | .core _, true => .ok { s with dev := s.dev.putPage p (setShare 2 0) } ()
    | .other _ _, _ => .ok { s with dev := s.dev.putPage p (setShare 2 0) } ()
  else if p.share = 1 then
    -- a recall of the page, once asked for, comes before any later request, the owner's included
    let e := Instr.pageRecall c.num (ia / 65536)
    if s.pending e then .hold s
    else if !excl && ag = .core p.owner then .ok s ()
    else .hold (s.post [e])
  else .ok s ()

/-- Admission of an access to a line at its home: the page as it stands afterwards. `atHome` says that the access is
performed at the home although its agent may hold the line privately. -/
def State.letIn (s : State) (c : Context) (ag : Agent) (write excl atHome : Bool) (ia : Nat) : Adm Page :=
  match walk s.dev c ia with
  | .absent => .absent (absentKind s.dev c ia)
  | .malformed => .absent 3
  | .page p =>
    let s := { s with dev := s.dev.touch (ia / 65536) ag.place.1 ag.place.2 }
    match s.classify c ag excl p ia with
    | .absent k => .absent k
    | .hold s => .hold s
    | .ok s _ =>
      let line := tagged c.num ia
      let s := match ag, atHome with
        | .core n, true => s.flushPrivate n line
        | .core _, false => s
        | .other _ _, _ => s
      match s.recallCopies line write with
      | (s, true) => .hold s
      | (s, false) =>
        match walk s.dev c ia with
        | .page p => .ok s p
        | .absent => .absent (absentKind s.dev c ia)
        | .malformed => .absent 3

/-! ### The lower bound of a pushed copy (09:R181, R185)

A pushed copy survives BEGIN, and a store of another party does not remove it; a read of it must still give nothing older
than the floor. Each write of a line is counted, a copy carries the count of the writes that it includes, and a core keeps
for a line of which it holds a pushed copy, or of which one is on its way, the count below which it may not read. -/

/-- A write of a line takes its place in the order of the line (09:R182). -/
def Device.bump (d : Device) (line : Nat) : Device := { d with vers := d.vers.set line (d.vers.get line + 1) }

/-- The cores for which a pushed line is on its way. -/
def pushFor (core line : Nat) : Instr → Bool
  | .pushInstall k l _ => k == core && l == line
  | _ => false

def State.pushComing (s : State) (core line : Nat) : Bool :=
  s.events.any (pushFor core line) || s.held.any (pushFor core line)

/-- What the core has read or written of a line bounds the pushes of it that are on their way. -/
def State.raiseFloor (s : State) (core line : Nat) (ver : W64) : State :=
  let c := s.coreOf core
  if s.pushComing core line && decide (c.floors.get line < ver) then s.setCore { c with floors := c.floors.set line ver }
  else s

/-- A pushed copy that a read may not return: it is older than the floor. -/
def Core.stale (c : Core) (l : L1Line) : Bool := l.st == .pu && decide (l.ver < c.floors.get l.line)

/-- An acquire bounds every pushed copy of the core, held or on its way, by all that has been performed (09:R180). -/
def State.floorAll (s : State) (core : Nat) : State :=
  let c := s.coreOf core
  let coming (e : Instr) : Option Nat := match e with
    | .pushInstall k l _ => if k = core then some l else none
    | _ => none
  let lines := (c.l1.filter (fun l => l.st == .pu)).map (fun (l : L1Line) => l.line) ++ (s.events ++ s.held).filterMap coming
  s.setCore { c with floors := Store.setAll c.floors (lines.map (fun l => (l, s.dev.vers.get l))) }

/-! ### Performing at the home -/

/-- The bytes that stand at the home of an admitted access, and whether their line is poisoned. -/
def State.homeRead (s : State) (p : Page) (ia n : Nat) : List Byte × Bool :=
  (readBytes s.dev.mem (p.phys ia) n, s.dev.bad.contains (p.phys ia / 128))

/-- Own copies of a line take a store's bytes (17:R287, R288). -/
def State.updateCopy (s : State) (core line : Nat) (bs : List (Nat × Byte)) : State :=
  match (s.coreOf core).find line with
  | none => s
  | some l =>
    if l.st = .sc || l.st = .pu || l.st = .ts then
      s.setCore ((s.coreOf core).change line (fun l => { l with data := patchLine l.data bs }))
    else s

/-- The packages that a record of a page lists (24:R384). -/
def recordPackages (r : W64) : List (BitVec 12) :=
  (List.range (min (bitsOf64 r 60 58) 4)).map (fun k => (r >>> (12 * k)).truncate 12)

/-- The packages that are told when a shared page is written: those listed, or with the mark every one of the context (24:R384,
R385). -/
def Context.sharersOf (c : Context) (r : W64) : List (BitVec 12) := if r.getLsbD 61 then c.pkgs else recordPackages r

/-- Other packages are told to drop pages, and their acknowledgements are awaited (24:R385, R387). -/
def State.dropPages (s : State) (keys : List Nat) (qs : List (BitVec 12)) : State :=
  let new := keys.flatMap (fun k => (qs.filter (fun q => !s.dev.deadPkgs.contains q)).map (fun q => (k, q)))
  ({ s with dev := { s.dev with drops := s.dev.drops ++ new } }).send (new.map (fun (x : Nat × BitVec 12) => Out.pageDrop x.1 x.2))

/-- A write at the home of a page that remote packages read-share: they drop it, and its record becomes HOME (24:R385). -/
def State.endShare (s : State) (cn page : Nat) : State :=
  match s.ctxOf cn with
  | none => s
  | some c =>
    let key := s.dev.recordKey c page
    let r := s.dev.pageRecs.get key
    if bitsOf64 r 63 62 = 1 then
      ({ s with dev := { s.dev with pageRecs := s.dev.pageRecs.set key 0 } }).dropPages [key] (c.sharersOf r)
    else s

/-- Perform a write at the home: memory, the dirty bit, the trees above the elements written, and the L1 copy of the core
whose access it is. -/
def State.homeWrite (s : State) (cn : Nat) (core : Option Nat) (p : Page) (ia : Nat) (bs : List Byte) : State :=
  let line := tagged cn ia
  let d := ((s.dev.writePhys (p.phys ia) bs).markDirty p).bump line
  let s := ({ s with dev := d }).endShare cn (ia / 65536)
  let s := match s.ctxOf cn with
    | none => s
    | some c => if c.regions.any (fun g => g.overlaps ia bs.length)
        then s.setCtx (updateTree s.dev c ia bs.length) else s
  match core with
  | none => s
  | some k => (s.updateCopy k line ((List.range bs.length).zipWith (fun j b => (ia % 128 + j, b)) bs)).raiseFloor k line
      (s.dev.vers.get line)

/-- After a read performed at the home, the core's own untracked copies do not go back behind it (09:R181): a clean copy
is dropped, and an unread pushed copy takes the line as it stands. -/
def State.refreshCopy (s : State) (c : Context) (core ia : Nat) : State :=
  let line := tagged c.num ia
  let s := s.raiseFloor core line (s.dev.vers.get line)
  match (s.coreOf core).find line with
  | none => s
  | some l =>
    if l.st = .sc then s.setCore ((s.coreOf core).drop line)
    else if l.st = .pu then
      match s.fetchLine c ia with
      | none => s
      | some (x, bad) => s.setCore ((s.coreOf core).change line (fun l =>
          { l with data := x, poison := bad, ver := s.dev.vers.get line }))
    else s

/-- A line that the L1 may read: present, no pushed copy below the floor, and no untracked copy whose parity fails. -/
def Core.readable (c : Core) (line : Nat) : Option L1Line :=
  match c.find line with
  | some l => if c.stale l || (l.parity && (l.st == .sc || l.st == .pu)) then none else some l
  | none => none

/-- Whether a read of a line must ask the memory side: the L1 cannot give it. -/
def State.misses (s : State) (c : Context) (core ia : Nat) : Bool := ((s.coreOf core).readable (tagged c.num ia)).isNone

/-- A line read through the L1: a hit, or a fill from the home (09:R175; 17:R287). A pushed copy below the floor is dropped
(09:R185). -/
def State.readLine (s : State) (c : Context) (core ia : Nat) : Adm (LineData × Bool) :=
  let line := tagged c.num ia
  let s := s.verify core line
  match (s.coreOf core).readable line with
  | some l =>
    let l := if l.st = .pu then { l with st := .sc } else l
    .ok ((s.setCore ((s.coreOf core).put l)).raiseFloor core line l.ver) (l.data, l.poison)
  | none =>
    match s.letIn c (.core core) false false false ia with
    | .absent k => .absent k
    | .hold s => .hold s
    | .ok s p =>
      let (bs, bad) := s.homeRead p (ia / 128 * 128) 128
      let x : LineData := ofBytes 1024 bs
      let ver := s.dev.vers.get line
      let s := (s.setCore ((s.coreOf core).drop line)).raiseFloor core line ver
      if p.cls = 1 then .ok s (x, bad)
      else .ok (s.install core ⟨line, if p.share = 1 then .pc else .sc, x, bad, ver, false⟩) (x, bad)

/-- The ticket kind under which a page is missing, if it is. -/
def missingKind (d : Device) (c : Context) (ia : Nat) : Option Nat :=
  match walk d c ia with
  | .absent => some (absentKind d c ia)
  | .malformed => some 3
  | .page _ => none

/-! ### BEGIN (09:R178) -/

/-- Whether a line lies on a sealed page. -/
def State.onSealed (s : State) (line : Nat) : Bool :=
  let (cn, ia) := untag line
  match s.ctxOf cn with
  | none => false
  | some c => match walkEntry s.dev c ia with
    | .page p => p.cls == 2
    | .absent => false
    | .malformed => false

/-- BEGIN at a scope drops the shared-clean lines of a core's L1, sealed pages apart, and bounds its pushed copies; at TEAM it
drops nothing. -/
def State.beginAt (s : State) (core : Nat) (sc : Scope) : State :=
  let drop (s : State) : State :=
    let c := s.coreOf core
    s.setCore { c with l1 := c.l1.filter (fun l => l.st != .sc || s.onSealed l.line) }
  match sc with
  | .team => s
  | .quad => (drop s).floorAll core
  | .die => (drop s).floorAll core
  | .pkg => (drop s).floorAll core
  | .sys => (drop s).floorAll core

/-- What has been read ahead is read again; the class check of a write stands. -/
def RobEntry.again (e : RobEntry) : RobEntry := if e.values.isEmpty then e else { e with completed := 0, values := [], poison := 0 }

/-- What younger loads of the front warp have read ahead is read again (09:R178). -/
def robAgain (es : List RobEntry) : List RobEntry := es.map (fun e => if e.ahead = 0 then e else e.again)

/-- BEGIN by the front warp; prefetches on the way are older than it (10:R203). -/
def State.begin (s : State) (sc : Scope) : State :=
  (s.beginAt s.team.core sc).onWarp (fun w => { w with begins := w.begins + 1, rob := robAgain w.rob })

end Sys2Proof.Machine
end

