-- ==== Sys2Proof/Machine/TaskRecords.lean ====
section
/-!
DEFINITION. Task records (13:R243 to R256): their maps, the checks that TASK makes, and the scratchpad and accumulator
ranges of a record.
-/

namespace Sys2Proof.Machine

open Sys2Proof

namespace TaskRec

def kind (t : TaskRec) : Nat := bitsOf64 t.t0 7 0
/-- WLOAD and MMA: the weight-set handle. -/
def wsLoad (t : TaskRec) : Nat := bitsOf64 t.t0 11 8
def wsMma (t : TaskRec) : Nat := bitsOf64 t.t0 19 16
def fmt (t : TaskRec) : Nat := bitsOf64 t.t0 15 12
def planes (t : TaskRec) : Nat := bitsOf64 t.t0 19 16
def mid (t : TaskRec) : Bool := t.t0.getLsbD 20
def ncols (t : TaskRec) : Nat := bitsOf64 t.t0 26 21 + 1
def off1 (t : TaskRec) : Nat := bitsOf64 t.t1 19 0
def off2 (t : TaskRec) : Nat := bitsOf64 t.t1 51 32
def accum (t : TaskRec) : Bool := t.t0.getLsbD 8
def sr (t : TaskRec) : Bool := t.t0.getLsbD 9
def sat (t : TaskRec) : Bool := t.t0.getLsbD 8
def af (t : TaskRec) : Nat := bitsOf64 t.t0 11 10
def acc (t : TaskRec) : Nat := bitsOf64 t.t0 31 20
def rows (t : TaskRec) : Nat := bitsOf64 t.t0 41 32 + 1
def klen (t : TaskRec) : Nat := bitsOf64 t.t0 48 42 + 1
def stride (t : TaskRec) : Nat := bitsOf64 t.t2 15 0
def dir (t : TaskRec) : Bool := t.t0.getLsbD 8
def soff (t : TaskRec) : Nat := bitsOf64 t.t0 35 16
def pitch (t : TaskRec) : Nat := bitsOf64 t.t0 47 36
/-- Scratchpad bytes of a copy. -/
def len (t : TaskRec) : Nat := (if bitsOf64 t.t0 63 48 = 0 then 65536 else bitsOf64 t.t0 63 48) * 16
def ioff (t : TaskRec) : Nat := bitsOf64 t.t2 19 0
def cnt (t : TaskRec) : Nat := bitsOf64 t.t2 41 32 + 1
def fillOff (t : TaskRec) : Nat := bitsOf64 t.t0 31 12
def fillLen (t : TaskRec) : Nat := (if bitsOf64 t.t1 15 0 = 0 then 65536 else bitsOf64 t.t1 15 0) * 16
def pattern (t : TaskRec) : W32 := hi32 t.t0
/-- Units of an accumulator row: two for FP32. -/
def unitsOf (af : Nat) : Nat := if af = 0 then 2 else 1
/-- The accumulator format's type. -/
def afFmt (af : Nat) : FFmt := if af = 0 then .f32 else if af = 1 then .bf16 else .f16
def collOp (t : TaskRec) : Nat := bitsOf64 t.t0 11 8
def collRed (t : TaskRec) : Nat := bitsOf64 t.t0 15 12
def collType (t : TaskRec) : Nat := bitsOf64 t.t0 19 16
def collSr (t : TaskRec) : Bool := t.t0.getLsbD 20
def collGroup (t : TaskRec) : Nat := bitsOf64 t.t0 47 32
def collSend (t : TaskRec) : Nat := bitsOf64 t.t1 55 0
def collRecv (t : TaskRec) : Nat := bitsOf64 t.t2 55 0
def collCount (t : TaskRec) : Nat := bitsOf64 t.t3 31 0
def collRoot (t : TaskRec) : Nat := bitsOf64 t.t3 63 32
/-- The element size of a collective (22:R367). -/
def esize (t : TaskRec) : Nat := if t.collType = 4 then 2 else 4
def shapeAt (t : TaskRec) : Nat := bitsOf64 t.t1 55 0
/-- The ESCROW flag of the shape record that the task has read (03:R64). -/
def escrow (t : TaskRec) : Bool := (t.shape.getD 1 0).getLsbD 16

/-- Bits [hi:lo] set. -/
def field (hi lo : Nat) : W64 := BitVec.ofNat 64 ((2 ^ (hi + 1 - lo) - 1) * 2 ^ lo)

/-- The bits of each doubleword that a record's map names (13:R243). -/
def mapOf (t : TaskRec) : Option (W64 × W64 × W64 × W64) :=
  let k := field 7 0
  let all := field 63 0
  match t.kind with
  | 1 => some (field 26 0, field 19 0 ||| field 51 32, 0, 0)
  | 2 => some (field 48 0, field 19 0 ||| field 51 32, field 15 0, 0)
  | 3 => some (k ||| field 31 20 ||| field 44 32, 0, 0, 0)
  | 4 => some (field 11 0 ||| field 31 20 ||| field 41 32, field 55 0, all, all)
  | 5 => some (k ||| field 63 16, field 55 0, all, all)
  | 6 => some (field 9 0 ||| field 15 12 ||| field 63 16, field 55 0, all, all)
  | 7 => some (field 8 0 ||| field 63 16, field 55 0, field 19 0 ||| field 41 32, 0)
  | 8 => if t.dir then some (field 8 0 ||| field 63 32, field 55 0, all, all)
      else some (field 8 0 ||| field 63 12, field 15 0, 0, 0)
  | 9 => some (field 20 0 ||| field 47 32, field 55 0, field 55 0, all)
  | _ => none

/-- Reason 1: a reserved kind or a bit outside the map. -/
def badMap (t : TaskRec) : Bool :=
  match t.mapOf with
  | none => true
  | some (m0, m1, m2, m3) => (t.t0 &&& ~~~m0) != 0 || (t.t1 &&& ~~~m1) != 0 || (t.t2 &&& ~~~m2) != 0 || (t.t3 &&& ~~~m3) != 0

/-- Bytes of a row of activations (13:R249). -/
def rowBytes (afmt : Nat) : Nat := if afmt = 3 || afmt = 4 then 256 else if afmt = 7 then 64 else 128

/-- Reason 2: a field outside its limits or a misaligned offset. -/
def badField (t : TaskRec) : Bool :=
  match t.kind with
  | 1 =>
    let bpi := t.fmt == 12
    (if bpi then !(decide (2 ≤ t.planes) && decide (t.planes ≤ 8)) else t.planes != 0 || t.mid) ||
      decide (48 < t.ncols) || t.off1 % 16 != 0 ||
      (if t.fmt = 7 || bpi then t.off2 % 4 != 0 else t.off2 != 0)
  | 2 =>
    t.af == 3 || (t.af == 0 && t.acc % 2 != 0) || t.off1 % 16 != 0 ||
      (if t.fmt = 7 then t.off2 % 4 != 0 else t.off2 != 0) || t.stride % 16 != 0 || decide (t.stride < rowBytes t.fmt)
  | 3 => !(decide (1 ≤ bitsOf64 t.t0 44 32) && decide (bitsOf64 t.t0 44 32 ≤ 4096))
  | 4 => t.af == 3 || (t.af == 0 && t.acc % 2 != 0)
  | 5 => t.soff % 16 != 0 || t.pitch == 0
  | 6 => t.soff % 16 != 0 || t.pitch == 0
  | 7 => t.soff % 16 != 0 || t.pitch == 0 || t.ioff % 4 != 0
  | 8 => !t.dir && t.fillOff % 16 != 0
  | 9 =>
    !([0, 2, 4].contains t.collType) || decide (3 < t.collOp) || decide (2 < t.collRed) || (decide (2 ≤ t.collOp) && t.collRed != 0) ||
      (t.collType == 0 && t.collSr) || t.collCount == 0 || (t.collOp != 3 && t.collRoot != 0) ||
      t.collSend % t.esize != 0 || t.collRecv % t.esize != 0 ||
      ((t.collOp == 0 || t.collOp == 3) && t.collSend != t.collRecv &&
        decide (t.collSend < t.collRecv + t.esize * t.collCount) && decide (t.collRecv < t.collSend + t.esize * t.collCount))
  | _ => false

/-- The feature bit of a format code (04:R87). -/
def fmtFeature (f : Nat) : Option Nat :=
  if f = 5 || f = 6 then some 1 else if f = 7 then some 2 else if f = 12 then some 3 else none
def fmtEnabled (feat : W64) (f : Nat) : Bool :=
  match fmtFeature f with | some b => feat.getLsbD b | none => true

/-- The pairs of a weight-set format and an activation format (13:R249). -/
def pairOk (w a : Nat) : Bool :=
  if w = 3 || w = 4 then a == 3 || a == 4
  else if w = 5 || w = 6 then a == 5 || a == 6
  else if w = 7 then a == 7
  else if w = 12 then a == 8 || a == 5 || a == 6
  else false

/-- Reason 3: a format or a pair not accepted, or its feature clear. -/
def badFormat (t : TaskRec) (feat : W64) (wsFmt : Option (BitVec 4)) : Bool :=
  match t.kind with
  | 1 => !([3, 4, 5, 6, 7, 12].contains t.fmt) || !fmtEnabled feat t.fmt
  | 2 => !([3, 4, 5, 6, 7, 8].contains t.fmt) || !fmtEnabled feat t.fmt ||
      (match wsFmt with | none => false | some w => !pairOk w.toNat t.fmt || !fmtEnabled feat w.toNat)
  | 6 => decide (13 < t.fmt) || !fmtEnabled feat t.fmt
  | _ => false

/-- Scratchpad ranges [lo, hi): read, then written. -/
def scratchRanges (t : TaskRec) (wfmt : Nat) : List (Nat × Nat) × List (Nat × Nat) :=
  match t.kind with
  | 1 =>
    let size := if t.fmt = 3 || t.fmt = 4 then 256 * t.ncols else if t.fmt = 5 || t.fmt = 6 then 128 * t.ncols
      else if t.fmt = 7 then 64 * t.ncols else 16 * t.ncols * t.planes
    ((t.off1, t.off1 + size) :: (if t.fmt = 7 || t.fmt = 12 then [(t.off2, t.off2 + 4 * t.ncols)] else []), [])
  | 2 =>
    ((t.off1, t.off1 + (t.rows - 1) * t.stride + rowBytes t.fmt) ::
      (if wfmt = 7 then [(t.off2, t.off2 + 4 * t.rows)] else []), [])
  | 5 => ([], [(t.soff, t.soff + t.len)])
  | 6 => ([(t.soff, t.soff + t.len)], [])
  | 7 =>
    let data := (t.soff, t.soff + t.len)
    let index := (t.ioff, t.ioff + 4 * t.cnt)
    if t.dir then ([index, data], []) else ([index], [data])
  | 8 => if t.dir then ([], []) else ([], [(t.fillOff, t.fillOff + t.fillLen)])
  | _ => ([], [])

/-- Accumulator unit ranges: read, then written. -/
def accRanges (t : TaskRec) : List (Nat × Nat) × List (Nat × Nat) :=
  match t.kind with
  | 2 =>
    let r := (t.acc, t.acc + t.rows * unitsOf t.af)
    (if t.accum then [r] else [], [r])
  | 3 => ([], [(t.acc, t.acc + bitsOf64 t.t0 44 32)])
  | 4 => ([(t.acc, t.acc + t.rows * unitsOf t.af)], [])
  | _ => ([], [])

/-- Weight-set handles: read, then written. -/
def wsRanges (t : TaskRec) : List (Nat × Nat) × List (Nat × Nat) :=
  match t.kind with
  | 1 => ([], [(t.wsLoad, t.wsLoad + 1)])
  | 2 => ([(t.wsMma, t.wsMma + 1)], [])
  | _ => ([], [])

/-- Reason 4: units beyond the team's. -/
def badUnits (t : TaskRec) (scrsize : Nat) : Bool :=
  (t.accRanges.1 ++ t.accRanges.2).any (fun r => decide (scrsize / 256 < r.2))

/-- Reason 5: an MMA whose handle no earlier TASK has loaded. -/
def badHandle (t : TaskRec) (wsFmt : Option (BitVec 4)) : Bool := t.kind == 2 && wsFmt.isNone

/-- The smallest of reasons 1 to 5 against a record (13:R238, R260). -/
def reasonAgainst (t : TaskRec) (feat : W64) (scrsize : Nat) (wsFmt : Option (BitVec 4)) : Option Nat :=
  if t.badMap then some 1 else if t.badField then some 2 else if t.badFormat feat wsFmt then some 3
  else if t.badUnits scrsize then some 4 else if t.badHandle wsFmt then some 5 else none

/-- The first byte of a scratchpad range beyond SCRSIZE (13:R238). -/
def beyond (t : TaskRec) (scrsize wfmt : Nat) : Option Nat :=
  (((t.scratchRanges wfmt).1 ++ (t.scratchRanges wfmt).2).find? (fun r => decide (scrsize < r.2))).map
    (fun r => max r.1 scrsize)

end TaskRec

/-- Two lists of ranges overlap. -/
def overlaps (xs ys : List (Nat × Nat)) : Bool :=
  xs.any (fun x => ys.any (fun y => decide (x.1 < y.2) && decide (y.1 < x.2)))

/-- The format of the set that an MMA of the ring reads, as its TASK found it: by the latest WLOAD before it in the
ring, else by the loaded set. -/
def Team.fmtBefore (t : Team) (ws : Nat) : List TaskRec → Option (BitVec 4)
  | [] => (t.wsets.find? (fun e => e.1 == ws)).map (fun e => e.2.fmt)
  | r :: earlier => if r.kind = 1 && r.wsLoad = ws then some (BitVec.ofNat 4 r.fmt) else Team.fmtBefore t ws earlier

/-- The scratchpad ranges of all tasks in flight (13:R240). -/
def Team.flightRanges (t : Team) : List (Nat × Nat) × List (Nat × Nat) :=
  let each := t.ring.map (fun r => r.scratchRanges r.fmt)
  (each.flatMap Prod.fst, each.flatMap Prod.snd)

end Sys2Proof.Machine
end

