-- ==== Sys2Proof/Machine/Access.lean ====
section
/-!
DEFINITION. Accesses of a warp's streams: the checks at issue (05:R102; 10:R192), parking under a ticket (20:R325 to R328),
loads, stores, the write buffer (17:R288), atomics at the home and under ownership (10:R200; 17:R297).
-/

namespace Sys2Proof.Machine

open Sys2Proof

/-! ### Checks at issue -/

/-- A lane and the virtual address it accesses. -/
abbrev LaneAddr := Nat × W64

def maskOf (lanes : List Nat) : Mask := Mask.of (fun l => lanes.contains l)

/-- The trap of the lanes that fail a step: their mask, and the address and detail of the lowest. -/
def lanesTrap (code : BitVec 8) (detail : W64 → Nat) : List LaneAddr → Option MemTrap
  | [] => none
  | (l, a) :: rest => some ⟨code, maskOf (l :: rest.map Prod.fst), a, BitVec.ofNat 64 (detail a), 0⟩

def State.scrsize (s : State) : Nat := s.team.hdr.scratch

/-- Whether an aperture access of a size runs past the team's scratchpad. -/
def pastScratch (scrsize size : Nat) (a : W64) : Bool := decide (scrsize < a.toNat - Config.apertureBase + size)

/-- The detail of a RANGE_FAULT at an address, if it fails step 3. -/
def rangeDetail (c : Context) (perms : List Perm) (aperture : Bool) (a : W64) : Option Nat :=
  if inAperture a then (if aperture then none else some 1)
  else match checkAll c a perms with
    | .ok _ => none
    | .fault d => some d
    | .growth _ => none

/-- The first step of 10:R192 that a lane fails. `align` is the alignment asked for; `aperture` says whether the
instruction may access the scratchpad, `bound` whether it has step 2. -/
def addrTrap (s : State) (perms : List Perm) (aperture bound : Bool) (align size : Nat) (lanes : List LaneAddr) : Option MemTrap :=
  match lanesTrap Code.misaligned (fun _ => 0) (lanes.filter (fun x => x.2.toNat % align != 0)) with
  | some t => some t
  | none =>
    match lanesTrap Code.scratchBound (fun _ => 0)
        (lanes.filter (fun x => bound && inAperture x.2 && pastScratch s.scrsize size x.2)) with
    | some t => some t
    | none =>
      lanesTrap Code.rangeFault (fun a => (rangeDetail s.ctx perms aperture a).getD 0)
        (lanes.filter (fun x => (rangeDetail s.ctx perms aperture x.2).isSome))

/-- The lanes that fall in a growth window. -/
def growing (c : Context) (perms : List Perm) (lanes : List LaneAddr) : List LaneAddr :=
  lanes.filter (fun x => !inAperture x.2 && (match checkAll c x.2 perms with
    | .growth _ => true | .ok _ => false | .fault _ => false))

/-- The same checks for a scalar access: its mask is zero (05:R102). -/
def scalarTrap (s : State) (perms : List Perm) (aperture : Bool) (align size : Nat) (a : W64) : Option MemTrap :=
  (addrTrap s perms aperture aperture align size [(0, a)]).map (fun t => { t with lanes := 0 })

/-! ### Watchpoints (25:R399) -/

/-- Whether an access of a size at an address covers a watched byte with a matching kind. -/
def watched (w : WatchSpec) (perms : List Perm) (size : Nat) (a : W64) : Bool :=
  ((w.r && perms.contains .r) || (w.w && perms.contains .w)) &&
    decide (a.toNat < w.base.toNat + 2 ^ w.log2len) && decide (w.base.toNat < a.toNat + size)

/-- The match of the lowest slot: WATCH, or with code 0 a stop. A stream that goes on from such a stop does not match
again. -/
def watchTrap (s : State) (lane : Bool) (perms : List Perm) (size : Nat) (lanes : List LaneAddr) : Option MemTrap :=
  (List.range 4).findSome? (fun slot =>
    match s.ctx.watches.find? (fun x => x.1 == slot) with
    | none => none
    | some (_, w) =>
      if !w.trap && (if lane then s.warp.pass.watchL else s.warp.pass.watchS) then none
      else lanesTrap (if w.trap then Code.watch else 0) (fun _ => slot)
        (lanes.filter (fun x => watched w perms size x.2)))

/-- The intermediate address of a checked address. -/
def iaOf (c : Context) (p : Perm) (a : W64) : Nat :=
  match check c a p with | .ok ia => ia | .fault _ => 0 | .growth _ => 0

/-! ### Parking under a ticket (20:R325 to R328) -/

def ticketWord (ctx kind die quad slice : Nat) (engine : Bool) (seq : BitVec 32) : W64 :=
  BitVec.ofNat 64 (ctx % 65536 * 2 ^ 48 + kind % 16 * 2 ^ 44 + die % 32 * 2 ^ 39 + quad % 4 * 2 ^ 37 +
    slice % 16 * 2 ^ 33 + (if engine then 2 ^ 32 else 0) + seq.toNat)

/-- The next sequence number: zero is skipped. -/
def nextSeq (x : BitVec 32) : BitVec 32 := if x + 1 = 0 then 1 else x + 1

/-- Ask the package that owns a page to return it (24:R385, R386). -/
def State.askBack (s : State) (c : Context) (page : Nat) : State :=
  s.send [.pageWanted (pageKey c.num page) ((s.dev.pageRecs.get (pageKey c.num page)).truncate 12)]

/-- The home of an address for a core: a region that is not homed is homed near it (17:R294, R296). -/
def State.homeFor (s : State) (core ia : Nat) : HomeOf := homeNear s.dev (dieOf core) (quadOf core) ia
/-- The home of an address for the warp in front. -/
def State.home (s : State) (ia : Nat) : HomeOf := s.homeFor s.team.core ia

/-- The requests of the warp in front have reached the homes of some addresses, and have homed the regions that were not (17:R294). -/
def State.touchAll (s : State) (ias : List Nat) : State :=
  { s with dev := ias.foldl (fun d ia => d.touch (ia / 65536) (dieOf s.team.core) (quadOf s.team.core)) s.dev }

/-- Whether the walk of an address meets an entry that is malformed in itself, not for a failed port (20:R320; 24:R394). -/
def badEntry (d : Device) (c : Context) (ia : Nat) : Bool :=
  match walkEntry { d with badPorts := [] } c ia with | .malformed => true | .absent => false | .page _ => false

/-- Park an access of the front warp's stream at homes. The request has reached its home, which the access has homed if it was
not (17:R294). A ticket of kind 3 is answered fatal at once, and Welhal logs a malformed entry (20:R320); one of kind 2 waits
for the page to come back (24:R386), the others send a notice to the driver (R328). Kind 4 is the growth of a range, and
stops the warp (R318). -/
def State.parkAt (s : State) (lane : Bool) (lanes : Mask) (kind ia : Nat) (va : W64) (write fetch : Bool) (homes : List HomeOf) :
    State :=
  let seq := nextSeq s.ctx.ticketSeq
  let h := s.home ia
  let ticket := if kind = 4 then ticketWord s.ctx.num 4 (dieOf s.team.core) 0 0 false seq
    else ticketWord s.ctx.num kind h.die h.quad h.slice false seq
  let p : Parked := ⟨ticket, lanes, if kind = 4 then [] else homes, va, kind == 3, false, kind == 4⟩
  let rec' : TicketRec := ⟨ticket, some s.warp.key, lane, none, ia / 65536⟩
  let s := s.onWarp (fun w => if lane then { w with parkL := some p } else { w with parkS := some p, scalIa := none })
  let s := if kind = 4 then s
    else { s with dev := s.dev.touch (ia / 65536) (dieOf s.team.core) (quadOf s.team.core) }
  let s := { s with ctx := { s.ctx with
    ticketSeq := seq, tickets := if kind = 3 then s.ctx.tickets else s.ctx.tickets ++ [rec'] } }
  if kind = 3 then (if badEntry s.dev s.ctx ia then s.send [.malformed s.ctx.num (ia / 65536)] else s)
  else if kind = 2 then (if s.dev.away s.ctx ia then s.askBack s.ctx (ia / 65536) else s)
  else s.send [.notice ticket (BitVec.ofNat 64 (ia / 65536 * 65536)) va
    ((if write then 1 else 0) ||| (if fetch then 2 else 0))]

def State.park (s : State) (lane : Bool) (lanes : Mask) (kind ia : Nat) (va : W64) (write fetch : Bool) : State :=
  s.parkAt lane lanes kind ia va write fetch [s.home ia]

/-- Park the lanes whose pages are missing under the one ticket of the execution (20:R326): those of kind 3 if any. -/
def State.parkLanes (s : State) (write : Bool) (missing : List (Nat × W64 × Nat × Nat)) : Option State :=
  let homes (xs : List (Nat × W64 × Nat × Nat)) : List HomeOf := (xs.map (fun x => s.home x.2.2.1)).eraseDups
  let s := s.touchAll (missing.map (fun x => x.2.2.1))
  match missing with
  | [] => none
  | (_, va, ia, k) :: _ =>
    match missing.filter (fun x => x.2.2.2 == 3) with
    | [] => some (s.parkAt true (maskOf (missing.map Prod.fst)) k ia va write false (homes missing))
    | (l, va', ia', q) :: rest =>
      some (s.parkAt true (maskOf (l :: rest.map Prod.fst)) 3 ia' va' write false (homes ((l, va', ia', q) :: rest)))

/-- A store of a warp that is parked at a home (20:R326). -/
def State.storeParked (s : State) (w : Warp) (h : HomeOf) : Bool :=
  s.parked.any (fun x =>
    let mine (k : WarpKey) (id : Nat) : Bool := k == w.key && w.wbuf.any (fun e => e.id == id && s.home (untag e.line).2 == h)
    match x.2 with
    | .storeRequest k id => mine k id
    | .pushRequest k id => mine k id
    | _ => false)

/-- An access is parked at a home. -/
def parkedAt (h : HomeOf) (p : Option Parked) : Bool := match p with | some p => p.homes.contains h | none => false

/-- A home at which an access of the front warp is parked holds every later access of the warp (20:R326). The lane words that
have issued ahead are younger than the word at LPC. -/
def State.homeHolds (s : State) (h : HomeOf) (lane : Bool) : Bool :=
  (lane && parkedAt h s.warp.parkS) || (!lane && (parkedAt h s.warp.parkL || s.warp.rob.any (fun e => parkedAt h e.park))) ||
    s.storeParked s.warp h

/-- The intermediate address that an address in a growth window has once the window's register is raised (20:R315, R318). -/
def growthIa (c : Context) (a : W64) (k : Nat) : Nat := (a.toNat + (c.ranges.getD k RangeReg.off).offset) % 2 ^ 52

/-- Stop for the growth of a range: the warp stops precisely at the instruction, and nothing of it has been performed (20:R318;
01:R33). -/
def State.parkGrowth (s : State) (lane : Bool) (perms : List Perm) (fetch : Bool) : List LaneAddr → State
  | [] => s
  | (l, a) :: rest =>
    let ia := match checkAll s.ctx a perms with | .growth k => growthIa s.ctx a k | .ok ia => ia | .fault _ => 0
    (((s.dropChecks s.warp.key).withdrawTickets s.warp.key).onWarp Warp.precise).park lane
      (if lane && !fetch then maskOf (l :: rest.map Prod.fst) else 0) 4 ia a (perms.contains .w) fetch

/-! ### All checks at issue -/

/-- The checks of 10:R192 on the lanes of an access, then growth, then watchpoints. -/
def State.issueLane (s : State) (perms : List Perm) (aperture : Bool) (align size : Nat) (lanes : List LaneAddr) : Res Unit :=
  match addrTrap s perms aperture true align size lanes with
  | some t => .trap s t
  | none =>
    match growing s.ctx perms lanes with
    | x :: rest => .wait (s.parkGrowth true perms false (x :: rest)) 9
    | [] =>
      match watchTrap s true perms size lanes with
      | some t => .trap s t
      | none => .ok s ()

/-- Change the entry of the oldest lane word; one that has none gets one. -/
def State.onHead (s : State) (f : RobEntry → RobEntry) : State :=
  s.onWarp (fun w => { w with rob := match w.headEntry with
    | some e => f e :: w.rob.filter (fun y => y.ahead != 0)
    | none => f ⟨0, w.LPC, 0, 0, [], [], [], 0, 0, [], 0, none, true⟩ :: w.rob })

/-- The intermediate addresses that Check gives the lanes outside the scratchpad. -/
def State.iasOf (s : State) (p : Perm) (lanes : List LaneAddr) : List (Nat × Nat) :=
  (lanes.filter (fun x => !inAperture x.2)).map (fun x => (x.1, iaOf s.ctx p x.2))

/-- The checks at issue of a lane access. A word that has passed them has its entry and keeps the addresses that they gave
(20:R317); the lanes that a fault has held back are checked again when it is resolved (20:R328). -/
def State.issueAccess (s : State) (perms : List Perm) (aperture : Bool) (align size : Nat) (lanes : List LaneAddr) : Res Unit :=
  match s.warp.headEntry with
  | none =>
    (s.issueLane perms aperture align size lanes).bind (fun s _ =>
      .ok (s.onHead (fun e => { e with ias := s.iasOf (perms.getLastD .r) lanes })) ())
  | some e =>
    let back := lanes.filter (fun x => e.fault.has x.1)
    (s.issueLane perms aperture align size back).bind (fun s _ =>
      .ok (s.onHead (fun y => { y with
        fault := 0, ias := y.ias.filter (fun z => !e.fault.has z.1) ++ s.iasOf (perms.getLastD .r) back })) ())

/-- The intermediate address of a lane of the access at LPC. -/
def State.laneIa (s : State) (p : Perm) (x : LaneAddr) : Nat :=
  match s.warp.headEntry.bind (fun e => e.ias.find? (fun y => y.1 == x.1)) with
  | some y => y.2
  | none => iaOf s.ctx p x.2

/-- The lanes of the access at LPC that have completed. -/
def State.laneDone (s : State) : Mask := match s.warp.headEntry with | some e => e.completed | none => 0

/-- The checks of 05:R102 on a scalar access. While they run the warp issues nothing, and reason 8 is counted. An access that has
passed them keeps the address that they gave (20:R317). -/
def State.issueScalar (s : State) (perms : List Perm) (aperture : Bool) (align size : Nat) (a : W64) : Res Unit :=
  if s.warp.scalIa.isSome then .ok s ()
  else
    let s := s.onWarp (fun w => w.countStall 8)
    match scalarTrap s perms aperture align size a with
    | some t => .trap s t
    | none =>
      match growing s.ctx perms [(0, a)] with
      | x :: rest => .wait (s.parkGrowth false perms false (x :: rest)) 15
      | [] =>
        match watchTrap s false perms size [(0, a)] with
        | some t => .trap s { t with lanes := 0 }
        | none => .ok (s.onWarp (fun w => { w with scalIa := some (a, iaOf s.ctx (perms.getLastD .r) a) })) ()

/-- The intermediate address of the scalar access at SPC. -/
def State.scalarIa (s : State) (p : Perm) (a : W64) : Nat :=
  match s.warp.scalIa with
  | some (v, ia) => (ia + (a - v).toNat) % 2 ^ 52
  | none => iaOf s.ctx p a

/-! ### What a write may meet (05:R103; 10:R193; 11:R224) -/

/-- Whether a write of n bytes covers part of an aggregate element only. -/
def coversPart (c : Context) (ia n : Nat) : Bool :=
  (ia % 4 != 0 && (regionAt c ia).isSome) || ((ia + n) % 4 != 0 && n != 0 && (regionAt c (ia + n - 1)).isSome)

/-- The trap against a write of n bytes at an intermediate address on a present page: code and detail. -/
def writeVerdict (d : Device) (c : Context) (ia n : Nat) : Option (BitVec 8 × Nat) :=
  match walk d c ia with
  | .absent => none
  | .malformed => none
  | .page p =>
    if p.cls = 1 || p.cls = 2 then some (Code.appendClass, 0)
    else if (escrowAt c ia).isSome then some (Code.escrowFault, 0)
    else if coversPart c ia n then some (Code.aggFault, 1)
    else none

/-- The verdict against the lanes of a write: the trap of the first finding of 10:R193 that a lane meets. -/
def lanesVerdict (d : Device) (c : Context) (n : Nat) (lanes : List (Nat × W64 × Nat)) : Option MemTrap :=
  let bad := lanes.filterMap (fun x => (writeVerdict d c x.2.2 n).map (fun v => (x.1, x.2.1, v)))
  match bad with
  | [] => none
  | (_, _, v) :: _ =>
    let same := bad.filter (fun x => x.2.2 == v)
    match same with
    | [] => none
    | (l, a, _) :: rest => some ⟨v.1, maskOf (l :: rest.map Prod.fst), a, BitVec.ofNat 64 v.2, 0⟩

/-! ### A warp's own bytes (09:R181; 17:R288) -/

/-- The stored bytes with their addresses. -/
def LaneStore.cells (x : LaneStore) : List (Nat × Byte) := (List.range x.bytes.length).zipWith (fun k b => (x.ia + k, b)) x.bytes

/-- The bytes that a communication stores. -/
def Comm.bytes : Comm → List (Nat × Byte)
  | .store ws _ => ws.flatMap LaneStore.cells
  | .send _ _ _ => []
  | .atom _ _ _ _ => []
  | .task _ => []

/-- The place in program order of what a stream of the warp does now: the scalar stream stands after every VEX executed, a lane
word at its own (09:R189). -/
def Warp.place (w : Warp) (lane : Bool) : Nat :=
  if lane then 2 * (match w.queue with | b :: _ => b.num | [] => w.vexes) else 2 * w.vexes + 1

/-- A communication of the quantum is kept in program order (09:R189). -/
def Warp.keep (w : Warp) (lane : Bool) (m : Comm) : Warp :=
  let n := w.place lane
  { w with comms := w.comms.filter (fun x => decide (x.1 ≤ n)) ++ (n, m) :: w.comms.filter (fun x => decide (n < x.1)) }

/-- What an entry of the write buffer writes, in the order written. -/
def WEntry.bytes (e : WEntry) : List (Nat × Byte) := e.writes.flatMap LaneStore.cells

/-- What the warp has written and its home has not yet: the write buffer and, under DET, the stores of the quantum that are
older than the stream's access. A store of the scalar stream comes before no access of the lane stream (05:R113). -/
def Warp.ownBytes (w : Warp) (lane : Bool) : List (Nat × Byte) :=
  ((w.wbuf.filter (fun e => e.stage != .performed && !(lane && e.scalar))).flatMap WEntry.bytes) ++
    (w.comms.filter (fun x => decide (x.1 ≤ w.place lane))).flatMap (fun x => x.2.bytes)

/-- Bytes at an address under a warp's own newer bytes. -/
def overlay (own : List (Nat × Byte)) (ia : Nat) (bs : List Byte) : List Byte :=
  (List.range bs.length).zipWith (fun k b => own.foldl (fun x e => if e.1 = ia + k then e.2 else x) b) bs

/-- A store of the lane stream to the same home slice is still on its way, or one that a VSYNC or a PHASE orders before this
access (09:R184; 05:R113). -/
def State.homeBusy (s : State) (ia : Nat) : Bool :=
  s.warp.wbuf.any (fun e => e.stage != .performed && (e.fenced || (!e.scalar && s.home (untag e.line).2 == s.home ia)))

/-- A store that a VSYNC or a PHASE orders before what follows has not been performed (05:R113). -/
def State.fenceBusy (s : State) : Bool := s.warp.wbuf.any (fun e => e.fenced && e.stage != .performed)

/-- The core of a warp's team. -/
def State.coreOfWarp (s : State) (k : WarpKey) : Nat := match s.teamOf k.teamKey with | some t => t.core | none => 0

/-- Requests of class REQ that have been sent to a slice: the first 8 stand in its queue, the others on the ring (17:R292;
18:R310). -/
def State.queuedAt (s : State) (h : HomeOf) : Nat :=
  (s.allWarps.flatMap (fun w => w.wbuf.filter (fun e => e.stage == .sent && s.homeFor (s.coreOfWarp w.key) (untag e.line).2 == h))).length +
    (s.dev.dirHeld.filter (fun x => s.sliceOf x.1 x.2.1 == h)).length

/-- The stall reason of a request that cannot be performed yet: 7 while the slice's queue is full (17:R292; 25:R401). -/
def State.homeReason (s : State) (ia : Nat) : Nat := if Config.sliceQueue ≤ s.queuedAt (s.home ia) then 7 else 15

/-- The ring holds a request of the warp for a slice whose queue is full: a later one for that slice does not pass it (18:R310). -/
def State.ringHolds (s : State) (ia : Nat) : Bool :=
  decide (Config.sliceQueue ≤ s.queuedAt (s.home ia)) &&
    s.warp.wbuf.any (fun e => e.stage == .sent && s.home (untag e.line).2 == s.home ia)

/-! ### The scratchpad -/

def Team.readScratch (t : Team) (a : W64) (n : Nat) : List Byte := readBytes t.scratch (a.toNat - Config.apertureBase) n
/-- Bytes of the scratchpad are written; a doubleword that is written whole holds no error any more (17:R305). -/
def Team.putScratch (t : Team) (off : Nat) (bs : List Byte) : Team :=
  { t with scratch := writeBytes t.scratch off bs
           badScratch := t.badScratch.filter (fun k => !(decide (off ≤ 8 * k) && decide (8 * k + 8 ≤ off + bs.length))) }
/-- Whether a range of the scratchpad holds an uncorrectable error (17:R305). -/
def Team.scratchBad (t : Team) (off n : Nat) : Bool := t.badScratch.any (fun k => decide (off < 8 * k + 8) && decide (8 * k < off + n))
def Team.apertureBad (t : Team) (a : W64) (n : Nat) : Bool := inAperture a && t.scratchBad (a.toNat - Config.apertureBase) n
def State.writeScratch (s : State) (a : W64) (bs : List Byte) : State :=
  { s with team := s.team.putScratch (a.toNat - Config.apertureBase) bs }

/-- A lane access that meets the ranges of a task in flight (10:R194): a load those written, a write all. -/
def State.scratchBusy (s : State) (write : Bool) (n : Nat) (lanes : List LaneAddr) : Bool :=
  let (rs, ws) := s.team.flightRanges
  let mine := (lanes.filter (fun x => inAperture x.2)).map (fun x =>
    (x.2.toNat - Config.apertureBase, x.2.toNat - Config.apertureBase + n))
  overlaps mine (if write then rs ++ ws else ws)

/-! ### Loads -/

/-- The loads of lanes outside the aperture, one after another: the bytes and whether they are poisoned. -/
def readLanes (c : Context) (core : Nat) (home : Bool) (n : Nat) :
    List (Nat × Nat) → State → List (Nat × List Byte × Bool) → Adm (List (Nat × List Byte × Bool))
  | [], s, acc => .ok s acc.reverse
  | (l, ia) :: rest, s, acc =>
    if home then
      match s.letIn c (.core core) false false true ia with
      | .absent k => .absent k
      | .hold s => .hold s
      | .ok s p =>
        let (bs, bad) := s.homeRead p ia n
        readLanes c core home n rest (s.refreshCopy c core ia) ((l, bs, bad) :: acc)
    else
      match s.readLine c core ia with
      | .absent k => .absent k
      | .hold s => .hold s
      | .ok s (x, bad) => readLanes c core home n rest s ((l, lineBytes x (ia % 128) n, bad) :: acc)

/-- The pages that lanes miss, of those that the memory side must answer for. -/
def State.missing (s : State) (home : Bool) (lanes : List (Nat × W64 × Nat)) : List (Nat × W64 × Nat × Nat) :=
  lanes.filterMap (fun x =>
    if home || s.misses s.ctx s.team.core x.2.2 then (missingKind s.dev s.ctx x.2.2).map (fun k => (x.1, x.2.1, x.2.2, k))
    else none)

/-- What younger loads have read of the lines that an older one reads now is read again: reads of one location never go
backwards (09:R181). -/
def State.readAgain (s : State) (ias : List Nat) : State :=
  s.onWarp (fun w => { w with rob := w.rob.map (fun e =>
    if e.ahead ≠ 0 ∧ e.ias.any (fun x => ias.any (fun a => a / 128 == x.2 / 128)) then e.again else e) })

/-- The lanes of a load that have been read: their values, which of them are poisoned, and the lanes that fault. The entry keeps
its operands until the memory side has confirmed every lane (01:R28). -/
def State.keepLanes (s : State) (values : List (Nat × List Byte)) (bad : Mask) (fault : Mask) : State :=
  s.onHead (fun e => { e with
    completed := e.completed ||| maskOf (values.map Prod.fst), values := e.values ++ values, poison := e.poison ||| bad,
    fault := fault, logged := true })

/-- The request of a lane waits: behind a parked access of the warp at its home, behind an older store there, or on the ring
(20:R326; 09:R184; 18:R310). -/
def State.laneWaits (s : State) (home : Bool) (ia : Nat) : Bool :=
  (home && s.homeBusy ia) || ((home || s.misses s.ctx s.team.core ia) && (s.homeHolds (s.home ia) true || s.ringHolds ia))

/-- Lanes whose pages are there are read: their bytes with the warp's own newer bytes on top, and which of them are poisoned. -/
def State.readNow (s : State) (n : Nat) (home : Bool) (lanes : List (Nat × W64 × Nat)) : Res (List (Nat × List Byte) × Mask) :=
  match readLanes s.ctx s.team.core home n (lanes.map (fun x => (x.1, x.2.2))) s [] with
  | .absent _ => .wait s 15
  | .hold s => .wait s 15
  | .ok s got =>
    let own := s.warp.ownBytes true
    .ok (s.readAgain (lanes.map (fun x => x.2.2)))
      (lanes.map (fun x => (x.1, overlay own x.2.2 (((got.find? (fun g => g.1 == x.1)).map (fun g => g.2.1)).getD []))),
        maskOf ((got.filter (fun x => x.2.2)).map Prod.fst))

/-- The lanes of an access outside the scratchpad, with their intermediate addresses. -/
def State.outside (s : State) (p : Perm) (lanes : List LaneAddr) : List (Nat × W64 × Nat) :=
  (lanes.filter (fun x => !inAperture x.2)).map (fun x => (x.1, x.2, s.laneIa p x))

/-- Load n bytes in each lane, after the issue checks: the bytes of each lane, and which lanes are poisoned. Lanes whose pages are
missing park, and those whose requests wait are held, while the others are read; later only the former are read (01:R29;
18:R310). Data that are poisoned raise ECC_FATAL, or are handed on to an LDX with their lanes. -/
def State.laneLoad (s : State) (n : Nat) (home ldx : Bool) (lanes : List LaneAddr) : Res (List (Nat × List Byte) × Mask) :=
  let todo := (s.outside .r lanes).filter (fun x => !s.laneDone.has x.1)
  let missing := s.missing home todo
  let gone := maskOf (missing.map Prod.fst)
  let late := todo.filter (fun x => !gone.has x.1 && s.laneWaits home x.2.2)
  if s.scratchBusy false n lanes then .wait s 10
  else if !lanes.isEmpty && s.fenceBusy then .wait s 15
  else (s.readNow n home (todo.filter (fun x => !gone.has x.1 && !s.laneWaits home x.2.2))).bind (fun s got =>
    match s.parkLanes false missing with
    | some t => .wait (t.keepLanes got.1 got.2 gone) 9
    | none =>
      match late with
      | x :: _ => .wait (s.keepLanes got.1 got.2 0) (s.homeReason x.2.2)
      | [] =>
        let (kept, badBefore) : List (Nat × List Byte) × Mask := match s.warp.headEntry with
          | some e => (e.values, e.poison)
          | none => ([], 0)
        let bad := badBefore ||| got.2 ||| maskOf ((lanes.filter (fun x => s.team.apertureBad x.2 n)).map Prod.fst)
        if bad != 0 && !ldx then
          let low := (lanes.find? (fun x => bad.has x.1)).map Prod.snd
          .trap s ⟨Code.eccFatal, bad, low.getD 0, 0, 0⟩
        else
          .ok s (lanes.map (fun x =>
            if inAperture x.2 then (x.1, s.team.readScratch x.2 n)
            else (x.1, (((got.1 ++ kept).find? (fun g => g.1 == x.1)).map Prod.snd).getD [])), bad))

/-- A store of the scalar stream that has not been performed yet stands before an access of that stream: at its home, or to its
line (05:R104, R113; 09:R184). -/
def State.scalarBusy (s : State) (ia : Nat) : Bool :=
  s.warp.wbuf.any (fun e => e.scalar && e.stage != .performed &&
    (s.home (untag e.line).2 == s.home ia || e.line == tagged s.ctx.num ia))

/-- A scalar access waits at its home (20:R332). -/
def State.waitHome {α : Type} (s : State) (ia : Nat) : Res α := .wait (s.onWarp (fun w => { w with atHome := true })) (s.homeReason ia)

/-- A scalar access reaches a home: it waits behind an access that a VSYNC or a PHASE orders before it, behind a request that the
ring holds, and at the home behind a parked access of the warp and its older stores (05:R113; 18:R310; 20:R326, R332). -/
def State.holdScalar (s : State) (ia : Nat) : Res Unit :=
  if s.fenceBusy then .wait s 15
  else if s.ringHolds ia then .wait s 7
  else if s.homeHolds (s.home ia) false || s.scalarBusy ia then s.waitHome ia
  else .ok s ()

/-- A scalar load after its issue checks (05:R103, R104). -/
def State.scalarLoad (s : State) (n : Nat) (a : W64) : Res (List Byte) :=
  if inAperture a then
    (if s.fenceBusy then .wait s 15
     else if s.team.apertureBad a n then .trap s (trapOf Code.eccFatal a 0) else .ok s (s.team.readScratch a n))
  else
    let ia := s.scalarIa .r a
    let miss := s.misses s.ctx s.team.core ia
    (if miss then s.holdScalar ia else if s.fenceBusy || s.scalarBusy ia then .wait s 15 else .ok s ()).bind (fun s _ =>
      match (if miss then missingKind s.dev s.ctx ia else none) with
      | some k => .wait (s.park false 0 k ia a false false) 15
      | none =>
        match s.readLine s.ctx s.team.core ia with
        | .absent _ => .wait s 15
        | .hold s => s.waitHome ia
        | .ok s (x, bad) =>
          if bad then .trap s (trapOf Code.eccFatal a 0)
          else .ok s (overlay (s.warp.ownBytes false) ia (lineBytes x (ia % 128) n)))

/-! ### Stores -/

/-- A write to a line that the core holds privately, which is performed there (17:R290): a whole line clears the poison
(17:R307). -/
def State.privateWrite (s : State) (core : Nat) (l : L1Line) (ia : Nat) (bs : List Byte) : State :=
  let s := { s with dev := s.dev.bump l.line }
  s.setCore ((s.coreOf core).put { l with
    st := .pd, ver := s.dev.vers.get l.line, poison := l.poison && bs.length != 128
    data := patchLine l.data ((List.range bs.length).zipWith (fun k b => (ia % 128 + k, b)) bs) })

/-- Perform a store at the place of 09:R175: in the L1 on a page private to the core whose line it holds, else at the
home. -/
def State.placeStore (s : State) (c : Context) (core ia : Nat) (bs : List Byte) : Adm Unit :=
  let line := tagged c.num ia
  let s := s.verify core line
  match ((s.coreOf core).find line).filter (fun l => l.st == .pc || l.st == .pd) with
  | some l => .ok (s.privateWrite core l ia bs) ()
  | none =>
    match s.letIn c (.core core) true false false ia with
    | .absent k => .absent k
    | .hold s => .hold s
    | .ok s p => .ok (s.homeWrite c.num (some core) p ia bs) ()

/-- The line of an address stands in the core's L1 on a page private to it. -/
def Core.holdsPrivate (c : Core) (line : Nat) : Bool := (c.find line).any (fun l => l.st == .pc || l.st == .pd)

/-- A scalar store that its home has accepted is performed there later: the lane stream's accesses may come before it (05:R103,
R113). -/
def State.acceptLate (s : State) (x : LaneStore) : State :=
  let id := s.warp.nextId
  let e : WEntry := ⟨id, tagged s.ctx.num x.ia, [x], none, .sent, false, false, id, false, true⟩
  (s.onWarp (fun w => { w with wbuf := w.wbuf ++ [e], nextId := id + 1 })).post [.storeRequest s.warp.key id]

/-- A scalar store after its issue checks (05:R103): it completes when it is performed, or under `late` when it has been accepted. -/
def State.scalarStore (s : State) (a : W64) (bs : List Byte) : Res Unit :=
  if inAperture a then (if s.fenceBusy then .wait s 15 else .ok (s.writeScratch a bs) ())
  else
    let ia := s.scalarIa .w a
    (s.holdScalar ia).bind (fun s _ =>
      match missingKind s.dev s.ctx ia with
      | some k => .wait (s.park false 0 k ia a true false) 15
      | none =>
        match writeVerdict s.dev s.ctx ia bs.length with
        | some (code, detail) => .trap s (trapOf code a (BitVec.ofNat 64 detail))
        | none =>
          if s.team.det then .ok (s.onWarp (fun w => w.keep false (.store [⟨0, a, ia, bs⟩] none))) ()
          else if s.warp.late && !s.core.holdsPrivate (tagged s.ctx.num ia) then .ok (s.acceptLate ⟨0, a, ia, bs⟩) ()
          else
            match s.placeStore s.ctx s.team.core ia bs with
            | .absent _ => .wait s 15
            | .hold s => s.waitHome ia
            | .ok s _ => .ok s ())

/-- Whether a store may merge into an entry: same line, not yet sent, no push, no aggregate element, no fence between, and no
younger entry for its home (17:R288). -/
def State.mergeable (s : State) (line : Nat) (e : WEntry) : Bool :=
  e.line == line && e.stage == .buffered && e.push.isNone && !e.elems && !e.scalar && !e.fenced &&
  !s.warp.wbuf.any (fun y => decide (e.id < y.id) && s.home (untag y.line).2 == s.home (untag line).2)

/-- What lanes of one instruction store into one line (18:R309). -/
abbrev LaneGroup := List LaneStore

/-- Elements in groups of one key, the groups in the order of their first elements. -/
def groupOn {α : Type} (key : α → Nat) : List α → List (List α)
  | [] => []
  | x :: rest =>
    let gs := groupOn key rest
    let mine := gs.filter (fun g => g.any (fun y => key y == key x))
    (x :: mine.flatten) :: gs.filter (fun g => !g.any (fun y => key y == key x))

/-- A lane's store writes bytes of an aggregate region. -/
def State.elemental (s : State) (x : LaneStore) : Bool := x.cells.any (fun b => (regionAt s.ctx b.1).isSome)

/-- What leaves together: one line, or all the lines with aggregate elements that one tree home gets from an instruction, since
it accepts nothing between two lanes of the instruction (12:R237). -/
structure StoreUnit where
  elems : Bool
  lines : List LaneGroup

/-- The key of a line of an instruction's stores: the line, or its tree home. -/
def State.unitKey (s : State) (g : LaneGroup) : Nat :=
  match g with
  | [] => 0
  | x :: _ =>
    if g.any s.elemental then
      let h := s.home x.ia
      2 ^ 60 + h.die * 64 + h.quad * 16 + h.slice
    else tagged s.ctx.num x.ia

/-- The stores of an instruction: the lines in the order of their lowest lanes (18:R309), those of one tree home together. -/
def State.storeUnits (s : State) (far : List LaneStore) : List StoreUnit :=
  (groupOn s.unitKey (groupOn (fun x => tagged s.ctx.num x.ia) far)).map (fun u => ⟨u.any (fun g => g.any s.elemental), u⟩)

/-- The stores of a unit in lane order. -/
def StoreUnit.lanes (u : StoreUnit) : List LaneStore := u.lines.flatten.mergeSort (fun x y => decide (x.lane ≤ y.lane))

/-- Entries of the write buffer that are taken (17:R288). -/
def Warp.entries (w : Warp) : Nat := (w.wbuf.filter (fun e => !e.scalar)).length

/-- One line enters the write buffer; its drain is posted. -/
def State.enterLine (s : State) (push : Option W64) (elems : Bool) (g : LaneGroup) : State :=
  match g with
  | [] => s
  | x :: _ =>
    let id := s.warp.nextId
    let e : WEntry := ⟨id, tagged s.ctx.num x.ia, g, push, .buffered, false, false, s.warp.retired.toNat, elems, false⟩
    (s.onWarp (fun w => { w with wbuf := w.wbuf ++ [e], nextId := id + 1 })).post [.writeBufferDrain s.warp.key id]

/-- A unit enters the write buffer, if there is room. A line takes one entry, or merges into one. The lines of a tree home enter
together, and need no more than the whole buffer: one line more would never find room, since none of them is performed before
all have arrived (DESIGN CHOICE, log 54). -/
def State.bufferUnit (s : State) (push : Option W64) (u : StoreUnit) : Option State :=
  if u.elems then
    if s.warp.entries + min u.lines.length Config.writeBufferMax ≤ Config.writeBufferMax then
      some (u.lines.foldl (fun s g => s.enterLine push true g) s)
    else none
  else
    let g := u.lines.flatten
    let line := match g with | x :: _ => tagged s.ctx.num x.ia | [] => 0
    match (if push.isNone then s.warp.wbuf.find? (s.mergeable line) else none) with
    | some e => some (s.onWarp (fun w => { w with wbuf := w.wbuf.map (fun y =>
        if y.id = e.id then { y with writes := y.writes ++ g } else y) }))
    | none => if s.warp.entries < Config.writeBufferMax then some (s.enterLine push false g) else none

/-- The lanes whose data have left. -/
def State.laneLeft (s : State) (lanes : List Nat) : State := s.onWarp (fun w => { w with done := w.done ++ lanes.map (fun l => (l, 0)) })

/-- The units leave one after another; those that find no room wait (17:R288). -/
def State.sendUnits (s : State) (push : Option W64) : List StoreUnit → State × Bool
  | [] => (s, true)
  | u :: rest =>
    match s.bufferUnit push u with
    | none => (s, false)
    | some s => (s.laneLeft (u.lanes.map (fun x => x.lane))).sendUnits push rest

/-- The data of lanes leave for device memory; under DET they wait for the clearing instead (09:R189). -/
def State.sendFar (s : State) (push : Option W64) (far : List LaneStore) : State × Bool :=
  if s.team.det then
    ((s.storeUnits far).foldl (fun s u =>
      (s.onWarp (fun w => w.keep true (.store u.lanes push))).laneLeft (u.lanes.map (fun x => x.lane))) s, true)
  else s.sendUnits push (s.storeUnits far)

/-- The data of lanes leave. The scratchpad is written last, in the step in which the instruction retires (23:R375). -/
def State.storeLanes (s : State) (push : Option W64) (data : List (Nat × W64 × List Byte)) : State × Bool :=
  let todo := data.filter (fun x => !s.warp.done.any (fun d => d.1 == x.1))
  let far := (todo.filter (fun x => !inAperture x.2.1)).map (fun x => (⟨x.1, x.2.1, s.laneIa .w (x.1, x.2.1), x.2.2⟩ : LaneStore))
  match s.sendFar push far with
  | (s, false) => (s, false)
  | (s, true) => ((todo.filter (fun x => inAperture x.2.1)).foldl (fun s x => s.writeScratch x.2.1 x.2.2) s, true)

/-- Ask the memory side for the translation and class check of a lane write before any of its data leave (10:R193). Lanes that
have passed it are not asked for again (01:R29). -/
def State.laneCheck (s : State) (n : Nat) (lanes : List LaneAddr) : Res Unit :=
  let outside := s.outside .w lanes
  let todo := outside.filter (fun x => !s.laneDone.has x.1)
  if outside.isEmpty then .ok s ()
  else match s.warp.check with
    | .passed => .ok s ()
    | .failed t => .trap s t
    | .asked => .wait s 8
    | .idle =>
      if todo.isEmpty then .ok (s.onWarp (fun w => { w with check := .passed })) ()
      else if outside.any (fun x => s.homeHolds (s.home x.2.2) true) then .wait s 15
      else
        let s := s.onWarp (fun w => { w with check := .asked, ask := some ⟨todo, n, true, false⟩ })
        .wait ((s.keepLanes [] 0 0).post [.classCheckRequest s.warp.key]) 8

/-- A write of the scratchpad comes after every access that a VSYNC or a PHASE orders before it (05:R113). -/
def State.apertureFenced (s : State) (lanes : List LaneAddr) : Bool := s.fenceBusy && lanes.any (fun x => inAperture x.2)

/-- A lane store or push after its issue checks: its check, then its data. -/
def State.laneStore (s : State) (n : Nat) (push : Option W64) (data : List (Nat × W64 × List Byte)) : Res Unit :=
  let lanes := data.map (fun x => (x.1, x.2.1))
  if s.scratchBusy true n lanes then .wait s 10
  else if s.apertureFenced lanes then .wait s 15
  else (s.laneCheck n lanes).bind (fun s _ =>
    match s.storeLanes push data with
    | (s, true) => .ok s ()
    | (s, false) => .wait s 7)

/-! ### Atomics (10:R200) -/

/-- The operation on values of a width; none: compare-and-swap. The second part says whether it writes. -/
def atomNew {w : Nat} (op : Option AtomOp) (old b expected : BitVec w) : BitVec w × Bool :=
  match op with
  | none => (b, old == expected)
  | some .add => (old + b, true)
  | some .and => (old &&& b, true)
  | some .or => (old ||| b, true)
  | some .xor => (old ^^^ b, true)
  | some .min => (if b.slt old then b else old, true)
  | some .max => (if old.slt b then b else old, true)
  | some .minu => (if b.ult old then b else old, true)
  | some .maxu => (if old.ult b then b else old, true)
  | some .swp => (b, true)
  | some .fadd => (BitVec.ofNat w (fAdd .f32 .rn 0 old.toNat b.toNat).bits, true)

/-- The new bytes of an atomic of 4 or 8 bytes, and whether they are written. -/
def atomBytes (op : Option AtomOp) (dbl : Bool) (old : List Byte) (b expected : W64) : List Byte × Bool :=
  if dbl then
    let (x, wr) := atomNew op (ofBytes 64 old) b expected
    (toBytes 8 x, wr)
  else
    let (x, wr) := atomNew op (ofBytes 32 old) (lo32 b) (lo32 expected)
    (toBytes 4 x, wr)

def widthOf (dbl : Bool) : Nat := if dbl then 8 else 4

/-- An atomic performed at the home for an agent: the old bytes, or that they are poisoned. -/
def State.homeAtomic (s : State) (c : Context) (ag : Agent) (op : Option AtomOp) (dbl : Bool) (ia : Nat) (b expected : W64) :
    Adm (List Byte × Bool) :=
  match s.letIn c ag true false true ia with
  | .absent k => .absent k
  | .hold s => .hold s
  | .ok s p =>
    let (old, bad) := s.homeRead p ia (widthOf dbl)
    if bad then .ok s (old, true)
    else
      let (new, wr) := atomBytes op dbl old b expected
      let core := match ag with | .core n => some n | .other _ _ => none
      let s := if wr then s.homeWrite c.num core p ia new else s.endShare c.num (ia / 65536)
      .ok (match core with | some n => s.refreshCopy c n ia | none => s) (old, false)

/-- The requests for a line that the core already has under way (17:R297): the directory must not get a second one. -/
def State.lineAsked (s : State) (core line : Nat) : Bool :=
  let me := Node.core core
  let mine (e : Instr) : Bool :=
    match e with
    | .gets _ l c => l == line && c == me
    | .getx _ l c => l == line && c == me
    | .upg _ l c => l == line && c == me
    | .grant _ l c _ _ => l == line && c == me
    -- a notice of the core must arrive before it asks for the line again
    | .evs _ l c => l == line && c == me
    | .evx _ l c _ => l == line && c == me
    | _ => false
  let slice := s.sliceFor core line
  let e := s.dirGet slice line
  s.events.any mine || s.held.any mine || s.dev.dirHeld.any (fun h => mine h.2.2) ||
    (DirE.transient e && DirE.state e != DirE.hwr && s.requester slice line e == me)

/-- The warp in front waits for a line, or has it. -/
def State.want (s : State) (line : Nat) (share : Bool) : State :=
  s.onWarp (fun w => { w with wants := if w.wants.contains (line, share) then w.wants else w.wants ++ [(line, share)] })
def State.gotLine (s : State) (line : Nat) : State := s.onWarp (fun w => { w with wants := w.wants.filter (fun x => x.1 != line) })

/-- The request with which a core that holds no copy asks for a line. -/
def State.lineRequest (s : State) (share : Bool) (core line : Nat) : Instr :=
  if share then .gets (s.sliceFor core line) line (.core core) else .getx (s.sliceFor core line) line (.core core)

/-- A line owned in the L1, or shared under the directory if `share` is enough: present, or asked for (17:R297). -/
def State.ownLine (s : State) (share : Bool) (ia : Nat) : Adm L1Line :=
  let core := s.team.core
  let line := tagged s.ctx.num ia
  let s := s.verify core line
  match ((s.coreOf core).find line).filter (fun l => l.st == .ox || (share && l.st == .ts)) with
  | some l => .ok (s.gotLine line) l
  | none =>
    match walk s.dev s.ctx ia with
    | .absent => .absent (absentKind s.dev s.ctx ia)
    | .malformed => .absent 3
    | .page p =>
      let s := { s with dev := s.dev.touch (ia / 65536) (dieOf core) (quadOf core) }
      match s.classify s.ctx (.core core) false p ia with
      | .absent k => .absent k
      | .hold s => .hold s
      | .ok s _ =>
        if s.lineAsked core line then .hold s
        else if ((s.coreOf core).find line).any (fun l => l.st == .ts) then
          .hold ((s.want line share).post [.upg (s.sliceFor core line) line (.core core)])
        else
          let s := s.flushPrivate core line
          let s := s.setCore ((s.coreOf core).drop line)
          .hold ((s.want line share).post [s.lineRequest share core line])

/-- Accesses under ownership to lines that no L1 may own, those that hold aggregate elements and those of unsealed append
extents, are performed at the home (09:R175; 11:R226; 12:R236). -/
def neverOwned (d : Device) (c : Context) (ia : Nat) : Bool :=
  c.regions.any (fun g => g.overlaps (ia / 128 * 128) 128) ||
  (match walk d c ia with
   | .page p => p.cls == 1
   | .absent => false
   | .malformed => false)

/-- An access under ownership has read a line in the L1: no older push of it is read after that (09:R181). -/
def State.ownedRead (s : State) (l : L1Line) : State :=
  (s.setCore ((s.coreOf s.team.core).put l)).raiseFloor s.team.core l.line l.ver

/-- An access under ownership has changed bytes of a line in the L1 (09:R181, R182). -/
def State.ownedWrite (s : State) (l : L1Line) (ia : Nat) (bs : List Byte) : State :=
  let s := { s with dev := s.dev.bump l.line }
  s.ownedRead { l with
    data := patchLine l.data ((List.range bs.length).zipWith (fun k x => (ia % 128 + k, x)) bs), ver := s.dev.vers.get l.line }

/-- An atomic under ownership in the L1. -/
def State.ownedAtomic (s : State) (op : Option AtomOp) (dbl : Bool) (ia : Nat) (b expected : W64) : Adm (List Byte × Bool) :=
  if neverOwned s.dev s.ctx ia then
    (s.gotLine (tagged s.ctx.num ia)).homeAtomic s.ctx (.core s.team.core) op dbl ia b expected
  else match s.ownLine false ia with
    | .absent k => .absent k
    | .hold s => .hold s
    | .ok s l =>
      let old := lineBytes l.data (ia % 128) (widthOf dbl)
      if l.poison then .ok s (old, true)
      else
        let (new, wr) := atomBytes op dbl old b expected
        .ok (if wr then s.ownedWrite l ia new else s.ownedRead l) (old, false)

def Scope.owned : Scope → Bool
  | .team => true | .quad => true | .die => false | .pkg => false | .sys => false

/-- An atomic at the place its scope selects (09:R175); the scope has no effect under DET (09:R189). -/
def State.placeAtomic (s : State) (sc : Scope) (op : Option AtomOp) (dbl : Bool) (ia : Nat) (b expected : W64) :
    Adm (List Byte × Bool) :=
  if Scope.owned sc && !s.team.det then s.ownedAtomic op dbl ia b expected
  else s.homeAtomic s.ctx (.core s.team.core) op dbl ia b expected

/-- An atomic on the scratchpad, atomic for every warp of the team (10:R194): the old bytes, and whether they cannot be read, in
which case nothing is written (17:R305). -/
def State.scratchAtomic (s : State) (op : Option AtomOp) (dbl : Bool) (a : W64) (b expected : W64) : State × List Byte × Bool :=
  let old := s.team.readScratch a (widthOf dbl)
  if s.team.apertureBad a (widthOf dbl) then (s, old, true)
  else
    let (new, wr) := atomBytes op dbl old b expected
    (if wr then s.writeScratch a new else s, old, false)

/-! ### Ends of a phase (09:R177; 02:R44) -/

/-- A task that stores to global memory. -/
def TaskRec.storesGlobal (t : TaskRec) : Bool :=
  t.kind == 4 || t.kind == 6 || (t.kind == 7 && t.dir) || (t.kind == 8 && t.dir) || t.kind == 9

/-- Whether a task writes an escrow copy: those writes are published by SETTLE, and an END does not wait for them (09:R177,
R186). The flag stands in the record's shape, which the task has read when it issued. -/
def TaskRec.escrowOnly (t : TaskRec) : Bool := t.escrow && (t.kind == 4 || t.kind == 6)

/-- END at any scope has completed: the blocks enqueued before it have retired and every earlier store of the warp, its
tasks' included, has been performed and acknowledged. Under DET the stores that wait for the clearing are not counted: they
are performed there whatever the warp does, and an END that waited for them would keep the clearing from beginning
(09:R189; 21:R354; DESIGN CHOICE, log 15). -/
def State.endDone (s : State) : Bool :=
  s.warp.queue.isEmpty && s.warp.wbuf.isEmpty &&
    (s.team.det || !s.team.ring.any (fun t => t.warp == s.warp.key.warp && t.storesGlobal && !t.escrowOnly))

/-- A release of the lane stream: the stores older in lane order have been performed (10:R201). -/
def State.laneEndDone (s : State) : Bool := s.warp.wbuf.isEmpty

end Sys2Proof.Machine
end

