-- ==== Sys2Proof/Machine/Flags.lean ====
section
/-!
DEFINITION. FPSTAT (01:R31; 08:R159): the sticky flags of the warp, the flags that the lanes of an instruction contribute,
and the numerics level and dither of a lane's rounding (04:R89; 07:R151).
-/

namespace Sys2Proof.Machine

open Sys2Proof

/-- An instruction ORs the flags of its active lanes into FPSTAT when it retires. -/
def State.orFlags (s : State) (f : FFlags) : State := s.onWarp (fun w => { w with fpstat := w.fpstat ||| f })

/-- An MTS to FPSTAT replaces all five flags; higher bits are ignored. -/
def State.setFlags (s : State) (x : W64) : State := s.onWarp (fun w => { w with fpstat := x.truncate 5 })

/-- The flags of the lanes in a mask. -/
def flagsOf (m : Mask) (f : Nat → FFlags) : FFlags := m.lanes.foldl (fun acc l => acc ||| f l) 0

/-- Whether the launch rounds stochastically with 8 bits: level N3 (04:R89). -/
def State.n3 (s : State) : Bool := s.team.hdr.numerics == 3

/-- TeamLane. -/
def State.teamLane (s : State) (l : Nat) : Nat := 32 * s.warp.key.warp + l

/-- The DSEED snapshot of the block that holds the oldest lane word. -/
def State.blockSeed (s : State) : W64 := match s.warp.queue with | b :: _ => b.dseed | [] => s.warp.dseed

/-- D of lane l and sub-element j under SR, 0 in the other modes, which do not use it. -/
def State.laneDither (s : State) (r : Rnd) (l j : Nat) : Nat :=
  match r with
  | .sr => dither s.n3 s.blockSeed (s.teamLane l + 1024 * j)
  | .rn => 0
  | .rz => 0
  | .rd => 0
  | .ru => 0

end Sys2Proof.Machine
end

