-- ==== Sys2Proof/Machine/Operands.lean ====
section
/-!
DEFINITION. Lane operands: which lanes are active (01:R19 to R21, R40), the index space of sources (R22), channels and the
SRQ (R23 to R26; 14:R269), full/empty and poison bits (R16 to R18; 10:R197), the checks of an issuing lane word in the
order of 04:R85, and the frame in which every lane instruction runs.
-/

namespace Sys2Proof.Machine

open Sys2Proof

/-! ### Active lanes -/

def predBit (w : Warp) (k : Nat) (l : Nat) : Bool := if k = 0 then true else (w.preds.get k).getLsbD l

/-- GuardTrue(l) (01:R40). -/
def guardTrue (w : Warp) (g : Guard) (l : Nat) : Bool :=
  if g = ⟨false, 0⟩ then true else Bool.xor (predBit w g.p.toNat l) g.neg

/-- The active lanes of an instruction. -/
def State.active (s : State) (g : Guard) : Mask := Mask.of (fun l => s.warp.em.has l && guardTrue s.warp g l)

/-! ### Sources (01:R22, R24, R25) -/

/-- A value in each lane. -/
abbrev LaneVec := Nat → W32

def State.vreg (s : State) (n : Nat) : LaneVec := fun l => s.warp.v.get (32 * n + l)

/-- The snapshot of the block that holds the oldest lane word; with no block, the live registers. -/
def State.snap (s : State) : Store 64 := match s.warp.queue with | b :: _ => b.snap | [] => s.warp.s

/-- Src64 of a uniform scalar: all 64 bits of the snapshot, 0 for s0. -/
def State.src64 (s : State) (n : SReg) : W64 := if n = 0 then 0 else s.snap.get n.toNat

/-- TEAMID. -/
def State.teamId (s : State) : Nat := s.team.key.team

def State.constant (s : State) (k : ConstSrc) : LaneVec := fun l =>
  match k with
  | .zero => 0
  | .one => 1
  | .lane => BitVec.ofNat 32 l
  | .warp => BitVec.ofNat 32 s.warp.key.warp
  | .team => BitVec.ofNat 32 s.teamId
  | .em => s.warp.em
  | .live => s.warp.live

/-- A channel entry. -/
def Warp.chan (w : Warp) (n : Nat) : Chan := w.chans.getD n Chan.free
def Warp.setChan (w : Warp) (n : Nat) (c : Chan) : Warp := { w with chans := listPut w.chans n c }

/-- Read a source in every lane; a pop takes its message away (01:R25). `any` says that some lane is active. -/
def State.readSrc (s : State) (any : Bool) (v : Value) : State × LaneVec :=
  match v with
  | .reg n _ => (s, s.vreg n.toNat)
  | .uni n => (s, fun _ => lo32 (s.src64 n))
  | .con k => (s, s.constant k)
  | .chan n peek =>
    let c := s.warp.chan n.toNat
    match c.queue, any with
    | m :: rest, true =>
      (if peek then s else s.onWarp (fun w => w.setChan n.toNat { c with queue := rest }), fun l => m.get l)
    | _, _ => (s, fun _ => 0)

/-- ReadGroup: the words of a group, low register first; a single value counts once. -/
def State.readGroup (s : State) (any : Bool) (v : Value) (n : Nat) : State × (Nat → List W32) :=
  match v with
  | .reg r _ => (s, fun l => (List.range n).map (fun k => s.vreg (r.toNat + k) l))
  | _ => let (s, x) := s.readSrc any v; (s, fun l => [x l])

/-! ### Destinations -/

/-- A write makes a name full and clears its poison; a late fill changes nothing (01:R18; 10:R197). -/
def Warp.fillDone (w : Warp) (n : Nat) : Warp :=
  let bit : BitVec 192 := 1 <<< n
  { w with empty := w.empty &&& ~~~bit, poison := w.poison &&& ~~~bit, fills := w.fills.filter (fun f => f.reg != n) }

/-- WriteV in the lanes of a mask. -/
def State.writeV (s : State) (n : Nat) (m : Mask) (x : LaneVec) : State :=
  s.onWarp (fun w =>
    { (if m = 0 then w else w.fillDone n) with v := Store.setAll w.v (m.lanes.map (fun l => (32 * n + l, x l))) })

/-- WriteP in the lanes of a mask: a write to p0 is discarded. -/
def State.writeP (s : State) (k : Pred) (m : Mask) (b : Nat → Bool) : State :=
  if k = 0 then s
  else s.onWarp (fun w =>
    let old := w.preds.get k.toNat
    { w with preds := w.preds.set k.toNat ((old &&& ~~~m) ||| (Mask.of b &&& m)) })

/-- The message that a send makes: the values of the active lanes, zero elsewhere (01:R25). -/
def message (m : Mask) (x : LaneVec) : Store 32 := Store.setAll [] (m.lanes.map (fun l => (l, x l)))

/-- What a peer says to a send (14:R269). -/
inductive Peer where
  | accepts
  | waits
  | fault (detail : Nat)
  deriving DecidableEq, Repr

/-- What the peer of a send entry says to a message of warp `k`. -/
def State.peer (s : State) (k : WarpKey) (entry : Nat) (c : Chan) : Peer :=
  match s.warpOf ⟨k.launch, c.team, c.pwarp⟩ with
  | none => .waits
  | some p =>
    -- a DET team that has been swapped out is as it was (21:R355)
    let resident := match s.teamOf p.key.teamKey with | some t => t.resident || (t.det && t.status == .saved) | none => false
    if p.status = .exited then .fault 3
    else if !resident ∨ (p.status ≠ .running ∧ p.status ≠ .stopped ∧ p.status ≠ .saved) then .waits
    else
      let pc := p.chan c.pch
      match pc.st with
      | .unbound => .waits
      | .send => .fault 2
      | .recv =>
        if pc.team = k.team ∧ pc.pwarp = k.warp ∧ pc.pch = entry then
          (if pc.queue.length < Config.recvMax then .accepts else .waits)
        else .fault 2

/-- A message enters the peer's receive queue and ends the peer's NAP (14:R269, R278). -/
def State.deliverMsg (s : State) (k : WarpKey) (c : Chan) (msg : Store 32) : State :=
  match s.warpOf ⟨k.launch, c.team, c.pwarp⟩ with
  | none => s
  | some p => s.setWarp { p.setChan c.pch { p.chan c.pch with queue := (p.chan c.pch).queue ++ [msg] } with
      nap := false, laneStalled := false, scalStalled := false }

/-- Messages of an entry that wait for the clearing (09:R189). -/
def Warp.queuedSends (w : Warp) (entry : Nat) : Nat :=
  (w.comms.filter (fun m => match m.2 with | .send e _ _ => e == entry | .store _ _ => false | .atom _ _ _ _ => false | .task _ => false)).length

/-- Write a destination of one register: a lane register, a message, or an SRQ entry (01:R24 to R26). With no active lane
nothing is sent and nothing is pushed. -/
def State.writeDest (s : State) (d : Dest) (m : Mask) (x : LaneVec) : State :=
  match d with
  | .reg n => s.writeV n.toNat m x
  | .chan n =>
    if m = 0 then s
    else if n = 15 then
      s.onWarp (fun w => { w with srq := w.srq ++ [x ((m.lanes.head?).getD 0)] })
    else if s.team.det then
      s.onWarp (fun w => w.keep true (.send n.toNat { w.chan n.toNat with queue := [] } (message m x)))
    else s.deliverMsg s.warp.key (s.warp.chan n.toNat) (message m x)

/-- WriteGroup: word k of each lane's value goes to register n + k. -/
def State.writeGroup (s : State) (n count : Nat) (m : Mask) (x : Nat → List W32) : State :=
  (List.range count).foldl (fun s k => s.writeV (n + k) m (fun l => (x l).getD k 0)) s

/-! ### What an instruction uses -/

/-- The operands of a lane instruction: its guard, its sources with the registers each takes, register-only sources with
their mode bit, its destination, whether the destination is read too, and the feature bits of its opcode and types. -/
structure LaneUse where
  g : Guard := ⟨false, 0⟩
  srcs : List (Value × Nat) := []
  regs : List (VReg × Nat × Bool) := []
  dst : Option (Dest × Nat) := none
  also : Bool := false
  feats : List Nat := []
  /-- what a memory access logs (01:R28): its base, its offset source, and its data operand with the registers that it takes -/
  log : Option (SReg × Option Value × Option (Value × Nat)) := none
  /-- a channel entry that must be bound, though no message is taken (14:R271) -/
  chan : Option (BitVec 4) := none
  /-- its registers are waited for and not read (06:R118) -/
  quiet : Bool := false

/-- The feature bits of float formats (04:R87). -/
def fmtFeats (fs : List FFmt) : List Nat :=
  fs.flatMap (fun f => match f with
    | .e4m3 => [1] | .e5m2 => [1] | .e2m1 => [2] | .f32 => [] | .f16 => [] | .bf16 => [])

/-- The uses of each lane instruction (04:R81, R87; 06:R116; 08:R155; 10:R190; 11:R228; 14:R270 to R273). -/
def Instr.use : Instr → LaneUse
  | .nop g => { g := g }
  | .mov g _ d a => { g := g, srcs := [(a, 1)], dst := some (d, 1) }
  | .movi g d _ => { g := g, dst := some (d, 1) }
  | .waitf g n m => { g := g, regs := [(n, 1, m)], feats := [4], quiet := true }
  | .bswz g d a b (.imm _) => { g := g, srcs := [(a, 1), (b, 1)], dst := some (d, 1) }
  | .bswz g d a b (.val c) => { g := g, srcs := [(a, 1), (b, 1), (c, 1)], dst := some (d, 1) }
  | .iadd g _ d a b => { g := g, srcs := [(a, 1), (b, 1)], dst := some (d, 1) }
  | .isub g _ d a b => { g := g, srcs := [(a, 1), (b, 1)], dst := some (d, 1) }
  | .iadds g _ d a b => { g := g, srcs := [(a, 1), (b, 1)], dst := some (d, 1) }
  | .isubs g _ d a b => { g := g, srcs := [(a, 1), (b, 1)], dst := some (d, 1) }
  | .imul g d a b => { g := g, srcs := [(a, 1), (b, 1)], dst := some (d, 1) }
  | .imulh g d a b => { g := g, srcs := [(a, 1), (b, 1)], dst := some (d, 1) }
  | .imulhu g d a b => { g := g, srcs := [(a, 1), (b, 1)], dst := some (d, 1) }
  | .imad g d a b c => { g := g, srcs := [(a, 1), (b, 1), (c, 1)], dst := some (d, 1) }
  | .imin g _ d a b => { g := g, srcs := [(a, 1), (b, 1)], dst := some (d, 1) }
  | .imax g _ d a b => { g := g, srcs := [(a, 1), (b, 1)], dst := some (d, 1) }
  | .iminu g d a b => { g := g, srcs := [(a, 1), (b, 1)], dst := some (d, 1) }
  | .imaxu g d a b => { g := g, srcs := [(a, 1), (b, 1)], dst := some (d, 1) }
  | .iabs g d a => { g := g, srcs := [(a, 1)], dst := some (d, 1) }
  | .ineg g d a => { g := g, srcs := [(a, 1)], dst := some (d, 1) }
  | .laneAnd g _ d a b => { g := g, srcs := [(a, 1), (b, 1)], dst := some (d, 1) }
  | .laneOr g _ d a b => { g := g, srcs := [(a, 1), (b, 1)], dst := some (d, 1) }
  | .laneXor g _ d a b => { g := g, srcs := [(a, 1), (b, 1)], dst := some (d, 1) }
  | .laneAndn g d a b => { g := g, srcs := [(a, 1), (b, 1)], dst := some (d, 1) }
  | .laneNot g d a => { g := g, srcs := [(a, 1)], dst := some (d, 1) }
  | .shl g _ d a b => { g := g, srcs := [(a, 1), (b, 1)], dst := some (d, 1) }
  | .shr g _ d a b => { g := g, srcs := [(a, 1), (b, 1)], dst := some (d, 1) }
  | .sar g _ d a b => { g := g, srcs := [(a, 1), (b, 1)], dst := some (d, 1) }
  | .rol g d a b => { g := g, srcs := [(a, 1), (b, 1)], dst := some (d, 1) }
  | .ror g d a b => { g := g, srcs := [(a, 1), (b, 1)], dst := some (d, 1) }
  | .laneClz g d a => { g := g, srcs := [(a, 1)], dst := some (d, 1) }
  | .lanePopc g d a => { g := g, srcs := [(a, 1)], dst := some (d, 1) }
  | .brev g d a => { g := g, srcs := [(a, 1)], dst := some (d, 1) }
  | .bfx g _ d a b => { g := g, srcs := [(a, 1), (b, 1)], dst := some (d, 1) }
  | .bfi g d a b c => { g := g, srcs := [(a, 1), (b, 1), (c, 1)], dst := some (d, 1) }
  | .idivu g d a b => { g := g, srcs := [(a, 1), (b, 1)], dst := some (d, 1) }
  | .iremu g d a b => { g := g, srcs := [(a, 1), (b, 1)], dst := some (d, 1) }
  | .iaddc g d a b _ _ _ => { g := g, srcs := [(a, 1), (b, 1)], dst := some (d, 1) }
  | .icmp g _ _ a b => { g := g, srcs := [(a, 1), (b, 1)] }
  | .fcmp g _ _ a b => { g := g, srcs := [(a, 1), (b, 1)] }
  | .pand g _ _ _ _ _ => { g := g }
  | .por g _ _ _ _ _ => { g := g }
  | .pxor g _ _ _ _ _ => { g := g }
  | .pnot g _ _ => { g := g }
  | .pmov g _ a _ => { g := g, srcs := [(a, 1)] }
  | .pget g d => { g := g, dst := some (d, 1) }
  | .sel g _ _ _ d a b => { g := g, srcs := [(a, 1), (b, 1)], dst := some (d, 1) }
  | .mset _ _ => {}
  | .mrst u => { srcs := [(u, 1)] }
  | .mget d => { dst := some (d, 1) }
  | .mall => {}
  | .mnot u => { srcs := [(u, 1)] }
  | .shfl g _ _ d a b _ => { g := g, srcs := [(a, 1), (b, 1)], dst := some (d, 1) }
  | .vote g _ d _ => { g := g, dst := some (d, 1) }
  | .lred g _ d a => { g := g, srcs := [(a, 1)], dst := some (d, 1) }
  | .lscan g _ _ d a => { g := g, srcs := [(a, 1)], dst := some (d, 1) }
  | .lfirst g d _ => { g := g, dst := some (d, 1) }
  | .bcast g d a _ => { g := g, srcs := [(a, 1)], dst := some (d, 1) }
  | .cvtif g dst src _ _ d a => { g := g, srcs := [(a, src.regs)], dst := some (d, 1), feats := fmtFeats [dst] }
  | .cvtfi g dst src _ d a => { g := g, srcs := [(a, 1)], dst := some (d, dst.regs), feats := fmtFeats [src] }
  | .cvtff g dst src _ _ d a => { g := g, srcs := [(a, 1)], dst := some (d, 1), feats := fmtFeats [dst, src] }
  | .pack g dst _ _ d a b .none => { g := g, srcs := [(a, 1), (b, 1)], dst := some (d, 1), feats := fmtFeats [dst] }
  | .pack g dst _ _ d a b (.fp8 c _) =>
    { g := g, srcs := [(a, 1), (b, 1), (c, 1)], dst := some (d, 1), feats := fmtFeats [dst] }
  | .unpk g src d a _ => { g := g, srcs := [(a, 1)], dst := some (d, 1), feats := fmtFeats [src] }
  | .qbpi g _ d a b => { g := g, srcs := [(a, 1), (b, 1)], dst := some (d, 1), feats := [3] }
  | .fadd g _ _ d a b => { g := g, srcs := [(a, 1), (b, 1)], dst := some (d, 1) }
  | .fsub g _ d a b => { g := g, srcs := [(a, 1), (b, 1)], dst := some (d, 1) }
  | .fmul g _ _ d a b => { g := g, srcs := [(a, 1), (b, 1)], dst := some (d, 1) }
  | .ffma g _ d a b c => { g := g, srcs := [(a, 1), (b, 1), (c, 1)], dst := some (d, 1) }
  | .fmin g _ d a b => { g := g, srcs := [(a, 1), (b, 1)], dst := some (d, 1) }
  | .fmax g _ d a b => { g := g, srcs := [(a, 1), (b, 1)], dst := some (d, 1) }
  | .fabs g d a => { g := g, srcs := [(a, 1)], dst := some (d, 1) }
  | .fneg g d a => { g := g, srcs := [(a, 1)], dst := some (d, 1) }
  | .frcp g _ d a => { g := g, srcs := [(a, 1)], dst := some (d, 1) }
  | .frsq g _ d a => { g := g, srcs := [(a, 1)], dst := some (d, 1) }
  | .fsqrt g _ d a => { g := g, srcs := [(a, 1)], dst := some (d, 1) }
  | .fdiv g _ d a b => { g := g, srcs := [(a, 1), (b, 1)], dst := some (d, 1) }
  | .fexp2 g d a => { g := g, srcs := [(a, 1)], dst := some (d, 1) }
  | .flog2 g d a => { g := g, srcs := [(a, 1)], dst := some (d, 1) }
  | .fsin g d a => { g := g, srcs := [(a, 1)], dst := some (d, 1) }
  | .fcos g d a => { g := g, srcs := [(a, 1)], dst := some (d, 1) }
  | .ftanh g d a => { g := g, srcs := [(a, 1)], dst := some (d, 1) }
  | .fclass g d a => { g := g, srcs := [(a, 1)], dst := some (d, 1) }
  | .fscale g _ d a b => { g := g, srcs := [(a, 1), (b, 1)], dst := some (d, 1) }
  | .hadd2 g _ _ d a b => { g := g, srcs := [(a, 1), (b, 1)], dst := some (d, 1) }
  | .hmul2 g _ _ d a b => { g := g, srcs := [(a, 1), (b, 1)], dst := some (d, 1) }
  | .hfma2 g _ _ d a b c => { g := g, srcs := [(a, 1), (b, 1), (c, 1)], dst := some (d, 1) }
  | .hmin2 g _ d a b => { g := g, srcs := [(a, 1), (b, 1)], dst := some (d, 1) }
  | .hmax2 g _ d a b => { g := g, srcs := [(a, 1), (b, 1)], dst := some (d, 1) }
  | .fdot8 g _ _ _ d a b c => { g := g, srcs := [(a, 1), (b, 1), (c, 1)], dst := some (d, 1), feats := [1] }
  | .ld g sz _ _ _ d base off _ => { g := g, srcs := [(off, 1)], dst := some (.reg d, sz.regs), log := some (base, some off, none) }
  | .ldx g sz _ _ _ d base off _ => { g := g, srcs := [(off, 1)], dst := some (.reg d, sz.regs), feats := [4], log := some (base, some off, none) }
  | .st g sz _ _ base off _ c => { g := g, srcs := [(off, 1), (c, sz.regs)], log := some (base, some off, some (c, sz.regs)) }
  | .push g sz _ _ base off _ c => { g := g, srcs := [(off, 1), (c, sz.regs)], feats := [6], log := some (base, some off, some (c, sz.regs)) }
  | .atom g _ _ _ dbl _ d base off _ c => { g := g, srcs := [(off, 1), (c, dblRegs dbl)], dst := some (.reg d, dblRegs dbl), log := some (base, some off, some (c, dblRegs dbl)) }
  | .atomn g _ _ _ dbl _ base off _ c => { g := g, srcs := [(off, 1), (c, dblRegs dbl)], log := some (base, some off, some (c, dblRegs dbl)) }
  | .laneAcas g _ _ dbl _ d base off _ c =>
    { g := g, srcs := [(off, 1), (c, dblRegs dbl)], dst := some (.reg d, dblRegs dbl), also := true, log := some (base, some off, some (c, dblRegs dbl)) }
  | .disc g _ base off _ => { g := g, srcs := [(off, 1)], log := some (base, some off, none) }
  | .pref g _ _ base off _ => { g := g, srcs := [(off, 1)], log := some (base, some off, none) }
  | .append g sz _ d base _ c => { g := g, srcs := [(c, sz.regs)], dst := some (.reg d, 1), feats := [8], log := some (base, none, some (c, sz.regs)) }
  | .tailq g d base _ => { g := g, dst := some (.reg d, 1), feats := [8], log := some (base, none, none) }
  | .lda g _ d h lo hi => { g := g, srcs := [(lo, 1), (hi, 1)], dst := some (.reg d, 1), feats := [7], log := some (h, some lo, some (hi, 1)) }
  | .find g _ d h x => { g := g, srcs := [(x, 1)], dst := some (.reg d, 1), feats := [7], log := some (h, some x, none) }
  | .pick g _ d h r => { g := g, srcs := [(r, 1)], dst := some (.reg d, 1), feats := [7], log := some (h, some r, none) }
  | .chst g d _ => { g := g, dst := some (d, 1), feats := [5] }
  | .chwait g ch _ => { g := g, feats := [5], chan := some ch }
  | .rnext g d a t => { g := g, regs := [(a, 2, t)], dst := some (.reg d, 2), feats := [10] }
  | .rjump g d a t b c => { g := g, srcs := [(b, 1), (c, 1)], regs := [(a, 2, t)], dst := some (.reg d, 2), feats := [10] }
  | .runi g _ d a t => { g := g, regs := [(a, 2, t)], dst := some (d, 1), feats := [10] }
  | .rdith g d _ b => { g := g, srcs := [(b, 1)], dst := some (d, 1), feats := [10] }
  | .ltrap g _ => { g := g }
  | .lbrk g => { g := g }
  | _ => {}

/-! ### The checks of a lane word (04:R85) -/

/-- FEAT as the context reads it (04:R87): bit 0 is always set. -/
def Context.feat (c : Context) : W64 := Config.featImplemented &&& (c.featMask ||| 1)

namespace LaneUse

/-- Feature bits of the operands: channels and the SRQ, and mode 1. -/
def operandFeats (u : LaneUse) : List Nat :=
  (if u.srcs.any (fun x => x.1.isChan) || (match u.dst with | some (.chan _, _) => true | some (.reg _, _) => false | none => false)
   then [5] else []) ++
  (if u.srcs.any (fun x => match x.1 with | .reg _ t => t | .uni _ => false | .con _ => false | .chan _ _ => false) ||
      u.regs.any (fun x => x.2.2)
   then [4] else [])

/-- Step 2: the lowest feature bit used that FEAT has clear (04:R88). -/
def missing (u : LaneUse) (feat : W64) : Option Nat :=
  (List.range 13).find? (fun b => (u.feats ++ u.operandFeats).contains b && !feat.getLsbD b)

/-- The lane registers that the word names, with their counts. -/
def named (u : LaneUse) : List (Nat × Nat) :=
  u.srcs.filterMap (fun x => x.1.regNumber.map (fun n => (n, x.2))) ++
  u.regs.map (fun x => (x.1.toNat, x.2.1)) ++
  (match u.dst with | some (.reg n, k) => [(n.toNat, k)] | some (.chan _, _) => [] | none => [])

/-- Step 3: a register at or beyond 16 × B (01:R14). -/
def beyondB (u : LaneUse) (b : Nat) : Bool := u.named.any (fun x => decide (16 * b < x.1 + x.2))

/-- Step 4: an entry that is unbound, or used the wrong way (01:R24). -/
def badChannel (u : LaneUse) (w : Warp) : Bool :=
  u.srcs.any (fun x => match x.1 with
    | .chan n _ => (w.chan n.toNat).st != .recv
    | .reg _ _ => false | .uni _ => false | .con _ => false) ||
  (match u.chan with | some n => (w.chan n.toNat).st == .unbound | none => false) ||
  (match u.dst with
   | some (.chan n, _) => n != 15 && (w.chan n.toNat).st != .send
   | some (.reg _, _) => false
   | none => false)

/-- Registers read, with their mode bits. -/
def reads (u : LaneUse) : List (Nat × Bool) :=
  u.srcs.flatMap (fun x => match x.1 with
    | .reg n t => (List.range x.2).map (fun k => (n.toNat + k, t))
    | .uni _ => [] | .con _ => [] | .chan _ _ => []) ++
  u.regs.flatMap (fun x => (List.range x.2.1).map (fun k => (x.1.toNat + k, x.2.2))) ++
  (if u.also then (match u.dst with
    | some (.reg n, c) => (List.range c).map (fun k => (n.toNat + k, false))
    | some (.chan _, _) => [] | none => []) else [])

def writes (u : LaneUse) : List Nat :=
  match u.dst with
  | some (.reg n, c) => (List.range c).map (fun k => n.toNat + k)
  | some (.chan _, _) => []
  | none => []

/-- How many messages of an entry the sources need. -/
def popsOf (u : LaneUse) (n : BitVec 4) : Nat :=
  let ops := u.srcs.filterMap (fun x => match x.1 with
    | .chan c p => if c = n then some p else none
    | .reg _ _ => none | .uni _ => none | .con _ => none)
  -- a pop takes a message, and a peek needs one more than the pops before it
  let pops := (ops.filter (fun p => !p)).length
  match ops.getLast? with | some true => pops + 1 | some false => pops | none => 0

end LaneUse

/-- What the checks of an issuing word say. -/
inductive Gate where
  | go
  | wait (reason : Nat)
  | trap (t : MemTrap)
  /-- a trap that arises when the word performs: the other half of a pair may have completed (03:R75) -/
  | late (t : MemTrap)

/-- The trap of steps 2 to 5, with the number of its step. -/
def LaneUse.early (u : LaneUse) (s : State) : Option (Nat × MemTrap) :=
  match u.missing s.ctx.feat with
  | some b => some (2, trapOf Code.missingFeature 0 (BitVec.ofNat 64 b))
  | none =>
    if u.beyondB s.warp.blocks then some (3, trapOf Code.registerBlock 0 0)
    else if u.badChannel s.warp then some (4, trapOf Code.channelFault 0 1)
    else if u.reads.any (fun r => r.2 && s.warp.empty.getLsbD r.1) then some (5, trapOf Code.emptyRead 0 0)
    else none

/-- The lanes of a mask in which a register that is marked poisoned holds data that came poisoned. -/
def Warp.poisoned (w : Warp) (n : Nat) (m : Mask) : Mask :=
  if !w.poison.getLsbD n then 0
  else match w.fills.find? (fun f => f.reg == n && f.poison != 0) with
    | some f => f.poison &&& m
    | none => m

/-- ECC_FATAL of a poisoned source, for the active lanes whose data came poisoned (01:R15, R21): word 5 has bit 0 set, word 4 the
address of the lowest of those lanes (10:R197; DEDUCED, log 40). -/
def poisonTrap (w : Warp) (n : Nat) (m : Mask) : MemTrap :=
  let bad := w.poisoned n m
  ⟨Code.eccFatal, bad, ((w.fills.find? (fun f => f.reg == n && f.poison != 0)).bind (fun f =>
    (f.addrs.find? (fun x => bad.has x.1)).map Prod.snd)).getD 0, 1, 0⟩

/-- The waits at issue, and the traps of performing: an empty source or a register still filling that the word covers
only in part (reason 2), a full SRQ (1), an empty channel or a peer that does not accept (11). The spec names no wait of a
write that covers only some of the lanes of a fill (01:R18): the model's choice (DESIGN CHOICE, log 53). -/
def LaneUse.rest (u : LaneUse) (s : State) : Gate :=
  let m := s.active u.g
  let w := s.warp
  if u.reads.any (fun r => w.empty.getLsbD r.1) then .wait 2
  else if u.writes.any (fun n => w.fills.any (fun f => f.reg == n && f.arrived != f.lanes && (f.lanes &&& ~~~m) != 0 && m != 0)) then
    .wait 2
  else
    match (if u.quiet then none else u.reads.find? (fun r => w.poisoned r.1 m != 0)) with
    | some r => .late (poisonTrap w r.1 m)
    | none =>
      if m = 0 then .go
      else if u.srcs.any (fun x => match x.1 with
          | .chan n _ => decide ((w.chan n.toNat).queue.length < u.popsOf n)
          | .reg _ _ => false | .uni _ => false | .con _ => false) then .wait 11
      else
        match u.dst with
        | some (.chan n, _) =>
          if n = 15 then (if w.srq.length < Config.srqMax then .go else .wait 1)
          else
            match s.peer w.key n.toNat (w.chan n.toNat) with
            | .accepts => if s.team.det && Config.recvMax ≤ w.queuedSends n.toNat then .wait 11 else .go
            | .waits => .wait 11
            | .fault k => .late (trapOf Code.channelFault 0 (BitVec.ofNat 64 k))
        | some (.reg _, _) => .go
        | none => .go

/-- All checks of a single word. -/
def LaneUse.gate (u : LaneUse) (s : State) : Gate :=
  match u.early s with
  | some (_, t) => .trap t
  | none => u.rest s

/-! ### Running a lane instruction -/

/-- The outcome of a stream's part as a state: done, waiting, or trapped. -/
def State.laneTrap (s : State) (half : Bool) (t : MemTrap) : State := s.takeTrap true half t

/-- What stands before a lane word that has parked: a fatal or refused answer traps, no answer yet waits (20:R318,
R328). -/
def State.parkedLane (s : State) : Option State :=
  match s.warp.parkL with
  | none => none
  | some p =>
    if p.fatal then some (s.laneTrap false ⟨Code.pageFatal, p.lanes, p.va, 0, p.ticket⟩)
    else if p.refused then some (s.laneTrap false ⟨Code.rangeFault, p.lanes, p.va, 3, p.ticket⟩)
    else some (s.waitLane 9)

/-- Run a lane instruction whose effect cannot wait or trap. A single word makes the checks and retires; a half runs
after the checks of its pair, and the word retires with Y. -/
def State.laneRun (s : State) (u : LaneUse) (h : Half) (body : State → State) : State :=
  match h with
  | .x => body s
  | .y => (body s).retireLane
  | .single =>
    match u.gate s with
    | .trap t => s.laneTrap false t
    | .late t => s.laneTrap false t
    | .wait n => s.waitLane n
    | .go => (body s).retireLane

/-- The operands with which a lane access runs: the lanes active, Src64(A), the offsets, the words of the data operand, and the
state after the operands have been read, whose channels have given up their messages. -/
structure LaneArgs where
  m : Mask
  base : W64
  offs : LaneVec
  data : Nat → List W32
  after : State

/-- The operands as the registers hold them. -/
def State.readArgs (s : State) (u : LaneUse) : LaneArgs :=
  let m := s.active u.g
  match u.log with
  | none => ⟨m, 0, fun _ => 0, fun _ => [], s⟩
  | some (base, off, data) =>
    let (t, x) := match off with | some v => s.readSrc (m != 0) v | none => (s, fun _ => 0)
    let (t, y) := match data with | some (v, n) => t.readGroup (m != 0) v n | none => (t, fun _ => [])
    ⟨m, s.src64 base, x, y, t⟩

/-- How many registers the data operand takes. -/
def LaneUse.dataRegs (u : LaneUse) : Nat := match u.log with | some (_, _, some (_, n)) => n | some (_, _, none) => 0 | none => 0

/-- The operands of the access at LPC: those that its execution has logged, or else those that the registers hold (01:R28,
R29; 20:R336). -/
def State.laneArgs (s : State) (u : LaneUse) : LaneArgs :=
  let a := s.readArgs u
  match s.warp.headEntry with
  | none => a
  | some e =>
    if e.offs.isEmpty then a
    else { a with
      m := e.active, base := e.base, offs := fun l => e.offs.getD l 0
      data := fun l => (List.range u.dataRegs).map (fun k => ((e.data.getD l 0) >>> (32 * k)).truncate 32) }

/-- An access that waits keeps its operands (01:R28, R29). -/
def RobEntry.log (e : RobEntry) (a : LaneArgs) : RobEntry :=
  if e.offs.isEmpty then
    { e with active := a.m, base := a.base, offs := (List.range 32).map a.offs,
             data := (List.range 32).map (fun l => ofBytes 128 ((a.data l).flatMap (fun y => toBytes 4 y))) }
  else e

def State.logWord (s : State) (a : LaneArgs) : State :=
  s.onWarp (fun w => { w with rob := w.rob.map (fun e => if e.ahead = 0 then e.log a else e) })

/-- Operand-log entries of the pipe of the warp in front that are taken (01:R28). -/
def State.logUsed (s : State) : Nat :=
  ((s.coreWarps s.team.core).filter (fun w => w.pipe == s.warp.pipe)).foldl
    (fun n w => n + (w.rob.filter (fun e => e.logged)).length) 0

/-- An access that has not issued finds no free entry of the operand log. -/
def State.logFull (s : State) (u : LaneUse) : Bool :=
  u.log.isSome && s.warp.headEntry.isNone && decide (Config.operandLog ≤ s.logUsed)

/-- Run a lane instruction with an access: it may wait or trap after the checks. -/
def State.laneAccess (s : State) (u : LaneUse) (body : LaneArgs → State → Res Unit) : State :=
  match s.parkedLane with
  | some s => s
  | none =>
    match u.gate s with
    | .trap t => s.laneTrap false t
    | .late t => s.laneTrap false t
    | .wait n => s.waitLane n
    | .go =>
      if s.logFull u then s.waitLane 7
      else
        let a := s.laneArgs u
        match body a s with
        | .ok s _ => s.retireLane
        | .wait s n => (s.logWord a).waitLane n
        | .trap s t => s.laneTrap false t

/-- V1: D := f(A) in each active lane (06:R114, R116). -/
def State.lane1 (s : State) (g : Guard) (d : Dest) (a : Value) (f : Nat → W32 → W32) : State :=
  let m := s.active g
  let (s, x) := s.readSrc (m != 0) a
  s.writeDest d m (fun l => f l (x l))

/-- V2: D := f(A, B) in each active lane. -/
def State.lane2 (s : State) (g : Guard) (d : Dest) (a b : Value) (f : Nat → W32 → W32 → W32) : State :=
  let m := s.active g
  let (s, x) := s.readSrc (m != 0) a
  let (s, y) := s.readSrc (m != 0) b
  s.writeDest d m (fun l => f l (x l) (y l))

/-- V3: D := f(A, B, C) in each active lane. -/
def State.lane3 (s : State) (g : Guard) (d : Dest) (a b c : Value) (f : Nat → W32 → W32 → W32 → W32) : State :=
  let m := s.active g
  let (s, x) := s.readSrc (m != 0) a
  let (s, y) := s.readSrc (m != 0) b
  let (s, z) := s.readSrc (m != 0) c
  s.writeDest d m (fun l => f l (x l) (y l) (z l))

/-- Write float results and their flags. -/
def State.writeRounded (s : State) (d : Dest) (m : Mask) (f : Nat → Rounded) : State :=
  (s.writeDest d m (fun l => BitVec.ofNat 32 (f l).bits)).orFlags (flagsOf m (fun l => (f l).flags))

/-- The float forms of V1 to V3. -/
def State.float1 (s : State) (g : Guard) (d : Dest) (a : Value) (f : State → Nat → Nat → Rounded) : State :=
  let m := s.active g
  let (s', x) := s.readSrc (m != 0) a
  s'.writeRounded d m (fun l => f s l (x l).toNat)

def State.float2 (s : State) (g : Guard) (d : Dest) (a b : Value) (f : State → Nat → Nat → Nat → Rounded) : State :=
  let m := s.active g
  let (s', x) := s.readSrc (m != 0) a
  let (s', y) := s'.readSrc (m != 0) b
  s'.writeRounded d m (fun l => f s l (x l).toNat (y l).toNat)

def State.float3 (s : State) (g : Guard) (d : Dest) (a b c : Value) (f : State → Nat → Nat → Nat → Nat → Rounded) : State :=
  let m := s.active g
  let (s', x) := s.readSrc (m != 0) a
  let (s', y) := s'.readSrc (m != 0) b
  let (s', z) := s'.readSrc (m != 0) c
  s'.writeRounded d m (fun l => f s l (x l).toNat (y l).toNat (z l).toNat)

end Sys2Proof.Machine
end

