-- ==== Sys2Proof/Machine/Fetch.lean ====
section
/-!
DEFINITION. Fetching a word (01:R8; 05:R105), breakpoints (25:R399), and the checks of a pair (03:R75): what the next
turn of a stream runs.
-/

namespace Sys2Proof.Machine

open Sys2Proof

/-! ### Fetch -/

/-- A fetched word in the parts that lie in one line each: the virtual address and the length. -/
def fetchParts (a : W64) (n : Nat) : List (W64 × Nat) :=
  let first := 128 - a.toNat % 128
  if n ≤ first then [(a, n)] else [(a, first), (a + BitVec.ofNat 64 first, n - first)]

/-- The detail with which the lowest failing byte fails Check with X. -/
def fetchFault (c : Context) : List (W64 × Nat) → Option Nat
  | [] => none
  | (a, _) :: rest =>
    match check c a .x with
    | .fault d => some d
    | .ok _ => fetchFault c rest
    | .growth _ => fetchFault c rest

/-- The bytes of one part: the core's own private or owned copy of the line, else the home. A code word that the running launch has
stored may be fetched old or new (05:R100): here it is fetched as it stands there now (DESIGN CHOICE, log 55). -/
def State.fetchPart (s : State) (a : W64) (n : Nat) : Adm (List Byte × Bool) :=
  let core := s.team.core
  let ia := iaOf s.ctx .x a
  let own : Option L1Line := match (s.coreOf core).find (tagged s.ctx.num ia) with
    | some l => if l.st = .pc || l.st = .pd || l.st = .ox then some l else none
    | none => none
  match own with
  | some l => .ok s (lineBytes l.data (ia % 128) n, l.poison)
  | none =>
    match s.letIn s.ctx (.core core) false false false ia with
    | .absent k => .absent k
    | .hold s => .hold s
    | .ok s p => .ok s (s.homeRead p ia n)

/-- Every part, one after another. -/
def State.fetchAll : List (W64 × Nat) → State → List Byte → Bool → Adm (List Byte × Bool)
  | [], s, bs, bad => .ok s (bs, bad)
  | (a, n) :: rest, s, bs, bad =>
    match s.fetchPart a n with
    | .absent k => .absent k
    | .hold s => .hold s
    | .ok s (x, b) => State.fetchAll rest s (bs ++ x) (bad || b)

/-- The first part whose page is missing, with its ticket kind. -/
def State.fetchMissing (s : State) (parts : List (W64 × Nat)) : Option (Nat × Nat) :=
  parts.findSome? (fun x =>
    let ia := iaOf s.ctx .x x.1
    if (s.coreOf s.team.core).find (tagged s.ctx.num ia) = none then (missingKind s.dev s.ctx ia).map (fun k => (ia, k))
    else none)

/-- A stream's word at an address. A word that cannot be fetched yet waits; a fetch that is answered fatal, or whose
growth is refused, traps (20:R318, R328). -/
def State.fetch (s : State) (lane : Bool) (a : W64) (n : Nat) : Res (List Byte) :=
  let parts := fetchParts a n
  let parked := if lane then s.warp.parkL else s.warp.parkS
  let reason := if lane then 9 else 15
  match fetchFault s.ctx parts with
  | some d => .trap s (trapOf Code.rangeFault a (BitVec.ofNat 64 d))
  | none =>
    let grows := parts.find? (fun x => match check s.ctx x.1 .x with
      | .growth _ => true | .ok _ => false | .fault _ => false)
    match (match grows with | some x => some (x.1, 0, 4) | none => (s.fetchMissing parts).map (fun x => (a, x))) with
    | some (va, ia, k) =>
      match parked with
      | some p =>
        if p.fatal then .trap s ⟨Code.pageFatal, 0, a, 0, p.ticket⟩
        else if p.refused then .trap s ⟨Code.rangeFault, 0, a, 3, p.ticket⟩
        else .wait s reason
      | none => .wait (if k = 4 then s.parkGrowth lane [.x] true [(0, va)] else s.park lane 0 k ia a false true) reason
    | none =>
      match State.fetchAll parts s [] false with
      | .absent _ => .wait s 15
      | .hold s => .wait s 15
      | .ok s (bs, bad) => if bad then .trap s (trapOf Code.eccFatal a 0) else .ok s bs

/-! ### Breakpoints -/

/-- Whether a breakpoint of the stream matches an address, and matches again after a resume (25:R399). -/
def State.breakHit (s : State) (lane : Bool) (a : W64) : Bool :=
  !(if lane then s.warp.pass.breakL else s.warp.pass.breakS) && s.ctx.breaks.any (fun b => b.2.1.zeroExtend 64 == a && b.2.2 == lane)

/-! ### The next turn of a stream -/

/-- What a stream's turn does. -/
inductive Next where
  /-- no instruction runs: the stream has waited, trapped or stopped -/
  | done (s : State)
  | run (i : Instr) (s : State)
  /-- both halves of a pair, X first -/
  | pair (x y : Instr) (s : State)
  /-- X completes and Y traps -/
  | half (x : Instr) (t : MemTrap) (s : State)

/-- The earliest step that a half of a pair fails; X's trap is taken when both fail that step. -/
def pairEarly (x y : Option (Nat × MemTrap)) : Option (Bool × MemTrap) :=
  match x, y with
  | none, none => none
  | some (_, t), none => some (false, t)
  | none, some (_, t) => some (true, t)
  | some (m, t), some (n, u) => if m ≤ n then some (false, t) else some (true, u)

/-- The stall reason of a pair of which only one half is ready: it stands beside the reason that holds the other half, and the lower
number counts (25:R401). -/
def pairSplit : Nat := 6

/-- A pair word goes through the checks as one word (03:R75). It issues only whole; a trap that arises when Y performs
leaves X's effects standing (01:R33). -/
def State.pairNext (s : State) (x y : Instr) : Next :=
  let ux := Instr.use x
  let uy := Instr.use y
  if s.warp.xDone then
    match uy.gate s with
    | .trap t => .done (s.laneTrap true t)
    | .late t => .done (s.laneTrap true t)
    | .wait n => .done (s.waitLane n)
    | .go => .run y s
  else
    match pairEarly (ux.early s) (uy.early s) with
    | some (half, t) => .done (s.laneTrap half t)
    | none =>
      match ux.rest s, uy.rest s with
      | .wait n, .wait m => .done (s.waitLane (min n m))
      | .wait n, _ => .done (s.waitLane (min n pairSplit))
      | _, .wait n => .done (s.waitLane (min n pairSplit))
      | .trap t, _ => .done (s.laneTrap false t)
      | .late t, _ => .done (s.laneTrap false t)
      | .go, .trap t => .done (s.laneTrap true t)
      | .go, .late t => .half x t s
      | .go, .go => .pair x y s

/-- The turn of the lane stream: the word at LPC. -/
def State.nextLane (s : State) : Next :=
  if s.breakHit true (s.warp.LPC.zeroExtend 64) && s.warp.done.isEmpty then .done (s.stopAtBreak true)
  else
    match s.fetch true (s.warp.LPC.zeroExtend 64) 12 with
    | .trap s t => .done (s.takeTrap true false t)
    | .wait s n => .done (s.waitLane n)
    | .ok s bs =>
      match laneOfBytes bs with
      | .single i => .run i s
      | .pair x y => s.pairNext x y

/-- The turn of the scalar stream: the word at SPC. -/
def State.nextScalar (s : State) : Next :=
  if s.breakHit false s.warp.spc then .done (s.stopAtBreak false)
  else
    match s.fetch false s.warp.spc 4 with
    | .trap s t => .done (s.takeTrap false false t)
    | .wait s n => .done (s.waitScalar n)
    | .ok s bs => .run (scalarOfBytes bs) s

end Sys2Proof.Machine
end

