-- ==== Sys2Proof/Machine/Schedule.lean ====
section
/-!
DEFINITION. Which warp and which stream moves next where the spec gives no rule (21:R349: the orders fix timing only): the
warp in front, its turn, and what happens when neither of its streams can go on.
-/

namespace Sys2Proof.Machine

open Sys2Proof

/-! ### The warp in front -/

/-- Bring a warp to the front with its team, its core and its context. -/
def State.focus (s : State) (k : WarpKey) : State :=
  if s.warp.key = k ∧ s.warp.status ≠ .absent then s
  else match s.warps.find? (fun w => w.key == k) with
    | none => s
    | some w =>
      let s := { s with
        warp := w
        warps := if s.warp.status = .absent then s.warps.filter (fun x => x.key != k)
          else s.warps.map (fun x => if x.key = k then s.warp else x) }
      let s := if s.team.key = k.teamKey ∧ s.team.status ≠ .absent then s
        else match s.teams.find? (fun t => t.key == k.teamKey) with
          | none => s
          | some t => { s with
              team := t
              teams := if s.team.status = .absent then s.teams.filter (fun x => x.key != k.teamKey)
                else s.teams.map (fun x => if x.key = k.teamKey then s.team else x) }
      let s := if s.core.id = s.team.core then s
        else { s with
          core := s.coreOf s.team.core
          cores := if s.cores.any (fun c => c.id == s.team.core)
            then s.cores.map (fun c => if c.id = s.team.core then s.core else c)
            else s.cores ++ [s.core] }
      if s.ctx.num = s.team.ctx then s
      else match s.ctxs.find? (fun c => c.num == s.team.ctx) with
        | none => s
        | some c => { s with
            ctx := c
            ctxs := s.ctxs.map (fun x => if x.num = c.num then s.ctx else x) }

/-- Do something with another warp in front. -/
def State.asWarp (s : State) (k : WarpKey) (f : State → State) : State :=
  let back := s.warp.key
  let s := f (s.focus k)
  s.focus back

/-! ### Turns -/

/-- A stream is stopped until a growth window is answered (20:R318). -/
def Warp.growing (w : Warp) : Bool :=
  let waits (p : Option Parked) : Bool := match p with
    | some p => p.grow && !p.fatal && !p.refused
    | none => false
  waits w.parkS || waits w.parkL

/-- The core issues for its warps: it is not gated, not offline and not in a bank switch. A DET team stays on a core that is
taken offline until the next clearing (21:R351). -/
def State.issues (s : State) (w : Warp) : Bool :=
  match s.teamOf w.key.teamKey with
  | none => false
  | some t =>
    let c := s.coreOf t.core
    t.resident && !c.gated && (!c.offline || t.det) && c.switch != .begun && !s.dev.gatedDies.contains (dieOf t.core)

/-- The lane stream may take a turn; of a team that is being killed, only a word whose data have begun to leave (20:R327). -/
def Warp.laneMay (w : Warp) : Bool :=
  w.status == .running && (!w.halt || !w.done.isEmpty) && !w.queue.isEmpty && w.stepping != some false && !w.growing && (!w.frozen || w.clearL == .granted)

/-- The scalar stream may take a turn: nothing of a lane access has left without the rest. -/
def Warp.scalarMay (w : Warp) : Bool :=
  w.status == .running && !w.halt && w.stepping != some true && !w.growing && w.done.isEmpty && !w.nap &&
    ((!w.frozen && !w.quantumEnd) || w.clearS == .granted)

/-- A turn of either stream could bring the warp further. -/
def Warp.ready (w : Warp) : Bool := (w.laneMay && !w.laneStalled) || (w.scalarMay && !w.scalStalled)

/-! ### Stall counters (25:R401) -/

/-- The issue slot of a warp is gated: its core, its die (25:R410), or a bank switch (20:R332). -/
def State.gated (s : State) (w : Warp) : Bool :=
  match s.teamOf w.key.teamKey with
  | none => false
  | some t => (s.coreOf t.core).gated || s.dev.gatedDies.contains (dieOf t.core) || (s.coreOf t.core).switch == .begun

/-- Lane words that the warp has enqueued and that have not retired. -/
def Warp.laneWords (w : Warp) : Nat := (w.queue.map (fun (b : Block) => b.count)).sum

/-- The oldest lane word that has not issued, counted from the oldest one: the words at LPC whose lanes are parked have, and so
have those with an entry of their own. -/
def Warp.unissued (w : Warp) : Option Nat :=
  if w.parkL.isNone then (if w.queue.isEmpty then none else some 0)
  else (List.range w.laneWords).find? (fun n => n != 0 && !w.rob.any (fun e => e.ahead == n))

/-- The reason that holds a stream: the one for which it has waited; none: its instruction is ready, as far as its last try has
shown (log 35). -/
def stalledFor (stalled : Bool) (reason : Nat) : Option Nat := if stalled then some reason else none

/-- The reason that a warp counts in a cycle in which it does not issue; none: it is ready, and issues unless another warp takes the
pipe. A word behind a parked one that has not issued waits for the reorder buffer, or for older words. -/
def State.stallReason (s : State) (w : Warp) : Option Nat :=
  if w.status = .stopped ∨ w.nap ∨ s.gated w then some 15
  else match w.unissued with
    | some 0 => if w.frozen && w.clearL != .granted then some 14 else stalledFor w.laneStalled w.laneReason
    | some n => some (match s.teamOf w.key.teamKey with
      | some t => if t.hdr.robSize ≤ n then 3 else 15
      | none => 15)
    | none =>
      if w.parkL.isSome then some 9
      else if (w.frozen || w.quantumEnd) && w.clearS != .granted then some 14
      else stalledFor w.scalStalled w.scalReason

/-- A cycle passes on a core: every warp there but one counts its reason, and one that is ready counts 5 if that one has taken the
issue slot of its pipe. -/
def State.passCycle (s : State) (core : Nat) (but : WarpKey) (issued : Bool) : State :=
  let pipe := match s.warpOf but with | some w => w.pipe | none => 4
  let here (w : Warp) : Bool := w.key != but && w.resident &&
    (match s.teamOf w.key.teamKey with | some t => t.core == core && t.resident | none => false)
  let count (w : Warp) : Warp := match s.stallReason w with
    | some r => w.countStall r
    | none => if issued && w.pipe == pipe then w.countStall 5 else w
  s.mapWarps here count

/-- A cycle in which no warp of a core issues: each that is not ready counts its reason. -/
def State.idleCycle (s : State) (core : Nat) : State :=
  s.mapWarps (fun w => w.resident && (match s.teamOf w.key.teamKey with | some t => t.core == core && t.resident | none => false))
    (fun w => match s.stallReason w with | some r => w.countStall r | none => w)

def WarpKey.before (a b : WarpKey) : Bool :=
  decide (a.launch < b.launch) || (a.launch == b.launch &&
    (decide (a.team < b.team) || (a.team == b.team && decide (a.warp < b.warp))))

/-- The lowest key of a list. -/
def lowestKey : List WarpKey → Option WarpKey
  | [] => none
  | k :: rest => match lowestKey rest with
    | none => some k
    | some j => some (if WarpKey.before k j then k else j)

/-- A list of keys in rising order. -/
def sortKeys : List WarpKey → List WarpKey
  | [] => []
  | k :: rest =>
    let ks := sortKeys rest
    ks.filter (fun j => WarpKey.before j k) ++ k :: ks.filter (fun j => !WarpKey.before j k)

/-- The warps that may take a turn, in rotation: those after the one in front first, itself last. -/
def State.rotation (s : State) : List WarpKey :=
  let can := s.allWarps.filter (fun w => (w.laneMay || w.scalarMay || (w.nap && w.status == .running)) && s.issues w)
  let keys := sortKeys (can.map (fun w => w.key))
  keys.filter (fun k => WarpKey.before s.warp.key k) ++ keys.filter (fun k => !WarpKey.before s.warp.key k)

/-- The next warp in rotation, and the warps passed over on the way: each that has yielded is passed over once (14:R278;
21:R349). If all have yielded, the first of them has its turn after that. -/
def State.nextWarp (s : State) : Option (WarpKey × List WarpKey) :=
  let ks := s.rotation
  let yielded (k : WarpKey) : Bool := match s.warpOf k with | some w => w.yielded | none => false
  match ks.find? (fun k => !yielded k), ks with
  | some k, _ => some (k, ks.takeWhile yielded)
  | none, k :: _ => some (k, ks)
  | none, [] => none

/-- Messages that could not be carried out come back: they have arrived before those that are on their way. -/
def State.bringBack (s : State) : State := { s with events := s.held ++ s.events, held := [] }

/-- What follows an instruction of a stream: messages held come back, a kill that has waited for a lane word takes effect
(20:R327), a cycle passes for the other warps of the core (25:R401), and a STEP that has done its instruction stops the warp again (25:R398). -/
def State.afterTurn (s : State) (lane : Bool) : State :=
  let s := { (s.settleKill s.warp.key.teamKey).bringBack with turns := s.turns + 1 }
  let s := s.passCycle s.team.core s.warp.key (!(if lane then s.warp.laneStalled else s.warp.scalStalled))
  if s.warp.stepping = some lane ∧ s.warp.status = .running ∧
      (if lane then s.warp.laneStalled else s.warp.scalStalled) = false then
    s.stopWarp lane false 0 0 0
  else s

/-- Turns of a warp before the next one in rotation has its own: a warp with a ready instruction issues within 8 of its
pipe's issuing cycles (21:R349). -/
def turnsMax : Nat := 8

/-- The warp in front has no turn left, or has given its next one up. -/
def State.turnsOver (s : State) : Bool := decide (turnsMax ≤ s.turns) || s.warp.yielded

/-- No stream of the warp in front can go on, or its turns are over: a cycle passes, messages held come back and the next warp in
rotation comes to the front, ready to try again. -/
def State.rotate (s : State) : State :=
  let s := ({ s.bringBack with turns := 0 } : State).idleCycle s.team.core
  match s.nextWarp with
  | none => s
  | some (k, passed) => ((s.mapWarps (fun w => passed.contains w.key) (fun w => { w with yielded := false })).focus k).onWarp (fun w => { w with laneStalled := false, scalStalled := false, yielded := false, nap := false })

/-- What becomes of a message that has been carried out, or could not be. The warp in front tries again after one that has
been: it may be what the warp waits for. -/
def State.keepMessage (s : State) (e : Instr) : State :=
  match s.again with
  | .no => s.onWarp (fun w => { w with laneStalled := false, scalStalled := false })
  | .held => { s with again := .no, held := s.held ++ [e] }
  | .parked t => { s with again := .no, parked := s.parked ++ [(t, e)] }

/-- A message or a command, which no stream fetches. -/
def isMessage (i : Instr) : Bool :=
  match i with
  | .illegalEncodingWord _ _ _ => false
  | i => (encode i).isNone

end Sys2Proof.Machine
end

