-- ==== Sys2Proof/Machine/Teams.lean ====
section
/-!
DEFINITION. Teams as they start (01:R20, R39; 14:R274; 21:R345, R346): their warps, and what a core has free for them.
-/

namespace Sys2Proof.Machine

open Sys2Proof

/-- Warps of a team (03:R60). -/
def Header.warps (h : Header) : Nat := (h.lanes + 31) / 32

/-- The live mask of warp w (01:R20). -/
def Header.live (h : Header) (w : Nat) : Mask := Mask.of (fun l => decide (32 * w + l < h.lanes))

/-- TSEED of team t (14:R274). -/
def teamSeed (lseed : W64) (t : Nat) : W64 := streamJump lseed (BitVec.ofNat 64 (t * 2 ^ 40))

/-- A warp in its initial state (01:R39). -/
def Warp.start (key : WarpKey) (pipe : Nat) (h : Header) (tseed : W64) : Warp :=
  { Warp.absent with
    key := key
    status := .running
    pipe := pipe
    blocks := h.blocks
    live := h.live key.warp
    em := h.live key.warp
    spc := h.entry.zeroExtend 64
    lbr := h.lanebase
    lpc := h.lanebase
    dseed := tseed }

/-- A team that starts: team t of a launch, on a core, at a position. -/
def Team.start (l : Launch) (t core pos : Nat) : Team :=
  { Team.absent with
    key := ⟨l.num, t⟩
    ctx := l.ctx
    core := core
    pos := pos
    status := .running
    hdr := l.hdr
    teamCnt := l.teams
    lseed := l.lseed
    tseed := teamSeed l.lseed t
    lpb := l.lpb
    det := l.det
    cores := l.cores }

/-- The warps of a team that starts: warp w on pipe (w + position) mod 4 (21:R346). -/
def Team.freshWarps (t : Team) : List Warp :=
  (List.range t.hdr.warps).map (fun w =>
    Warp.start ⟨t.key.launch, t.key.team, w⟩ ((w + t.pos) % 4) t.hdr t.tseed)

/-- A team that starts on its core: its warps, and the implicit BEGIN at SYS scope (09:R187). A team of the same key that
was there before is gone. -/
def State.startTeam (s : State) (t : Team) : State :=
  let gone := s.warps.filter (fun w => w.key.teamKey != t.key)
  let front := s.warp.key.teamKey == t.key && s.warp.status != .absent
  let s := if front then { s with warp := Warp.absent, team := Team.absent } else s
  let s := { s with warps := gone ++ t.freshWarps, teams := s.teams.filter (fun (x : Team) => x.key != t.key) ++ [t] }
  s.beginAt t.core .sys

/-! ### Room on a core (21:R345) -/

/-- The warps of a core that hold registers, as (pipe, blocks with budget): the resident ones, and those of killed teams into
whose blocks a fill is still to come (01:R13). -/
def State.coreLoad (s : State) (core : Nat) (gone : Team → Bool := fun _ => false) : List (Nat × Nat) :=
  s.allWarps.filterMap (fun w => match s.teamOf w.key.teamKey with
    | none => none
    | some t =>
      if t.core != core || gone t then none
      else if t.resident && w.resident then some (w.pipe, w.blocks + t.hdr.rename)
      else if t.status == .killed && w.status == .killed && w.blocks != 0 then some (w.pipe, w.blocks)
      else none)

/-- Blocks that a pipe has given away: those of its warps, and their rename budgets. -/
def State.pipeUsed (s : State) (core pipe : Nat) : Nat :=
  (((s.coreLoad core).filter (fun x => x.1 == pipe)).map Prod.snd).sum

def State.pipeFree (s : State) (core pipe : Nat) : Nat := Config.pipeBlocks - s.pipeUsed core pipe

/-- Teams resident on a core. -/
def State.coreTeams (s : State) (core : Nat) : List Team := s.allTeams.filter (fun t => t.core == core && t.resident)

/-- The lowest free team position of a core. -/
def freePos (ts : List Team) : Nat := ((List.range 4).find? (fun p => !ts.any (fun t => t.pos == p))).getD 4

/-- Whether a team with a scratchpad and warps, as (index, blocks with budget), fits a core that holds the given teams, and
warps as (pipe, blocks with budget). -/
def fitsOn (scratch : Nat) (warps : List (Nat × Nat)) (ts : List Team) (ws : List (Nat × Nat)) : Bool :=
  let pos := freePos ts
  decide (ts.length < 4) &&
  decide ((ts.map (fun (x : Team) => x.hdr.scratch)).sum + scratch ≤ 1048576) &&
  (List.range 4).all (fun p =>
    let mine := warps.filter (fun w => (w.1 + pos) % 4 == p)
    let there := ws.filter (fun w => w.1 == p)
    decide (mine.length + there.length ≤ Config.pipeWarps) &&
    decide ((mine.map Prod.snd).sum + (there.map Prod.snd).sum ≤ Config.pipeBlocks))

/-- The warps of a team that starts, as (index, blocks with budget). -/
def Header.load (h : Header) : List (Nat × Nat) := (List.range h.warps).map (fun w => (w, h.blocks + h.rename))

/-- Whether a team of a header that starts fits. -/
def fits (h : Header) (ts : List Team) (ws : List (Nat × Nat)) : Bool := fitsOn h.scratch h.load ts ws

end Sys2Proof.Machine
end

