-- ==== Sys2Proof/Machine/Bench.lean ====
section
/-!
DEFINITION. A loaded machine: a launch of one team with one warp, placed by hand, whose code page holds a given word.
`withFetchWord` stands for the loading that the driver, the host and Welhal do from outside (notes/assumptions/8.md).
-/

namespace Sys2Proof.Machine

open Sys2Proof

/-- The virtual address at which the code stands. -/
def benchCode : Nat := 0x10000

/-- The header of the loaded kernel: one warp of 32 lanes, 12 blocks, numerics N3. -/
def benchHeader : Header :=
  { Header.zero with numerics := 3, isaver := 3, rename := 2, blocks := 12, entry := 0x10000, lanebase := 0x10000, lanes := 32 }

/-- Its launch. -/
def benchLaunch : Launch where
  num := 1
  ctx := 1
  header := 0
  hdr := benchHeader
  teams := 1
  lpb := 0
  done := 0
  lseed := 0
  retry := 0
  prio := 0
  latency := false
  afterParent := false
  det := false
  cores := false
  parent := 0
  bound := true
  kills := 0
  exited := 0
  retries := 0
  kteam := 0
  killRec := []
  status := 0
  recorded := false
  cancelled := false
  ticket := 0
  binds := []
  remap := []
  clearing := none

/-- Its context: every feature, and one range register that maps the code page, with R, W and X. -/
def benchContext : Context :=
  { Context.blank 1 with
    featMask := 0x1FFF
    numerics := 3
    ranges := ⟨0x1000F, 0x20000, 0, 0x20000⟩ :: List.replicate 15 RangeReg.off
    root := 0x100000 }

/-- Page tables at 0x100000, 0x108000 and 0x110000; the code page is shared and lies at 0x200000. -/
def benchTables (m : Store 8) : Store 8 :=
  writeD (writeD (writeD m 0x100000 0x8000000000042000) 0x108000 0x8000000000044000) 0x110008 0x8100000000040000

/-- The loaded machine: nothing is under way, and the warp stands in front. -/
def State.bench (s : State) : State :=
  let t := Team.start benchLaunch 0 0 0
  { s with
    warp := Warp.start ⟨1, 0, 0⟩ 0 benchHeader t.tseed
    team := t
    core := Core.empty 0
    ctx := benchContext
    dev := { s.dev with
      mem := benchTables s.dev.mem, regionTab := s.dev.regionTab.set 1 (regionEntry 0 0), launches := [benchLaunch],
      nextLaunch := 2 }
    warps := []
    teams := []
    cores := []
    ctxs := []
    events := []
    held := []
    again := .no
    parked := []
    turns := 0
    plan := [] }

/-- A scalar word at SPC. -/
def State.benchScalar (s : State) (w : BitVec 32) : State :=
  { s with dev := { s.dev with mem := writeBytes s.dev.mem 0x200000 (toBytes 4 w) } }

/-- A lane word in a block of one word. -/
def State.benchLane (s : State) (w : BitVec 96) : State :=
  { s with
    dev := { s.dev with mem := writeBytes s.dev.mem 0x200000 (toBytes 12 w) }
    warp := { s.warp with queue := [⟨0x10000, 1, [], 0, 0⟩] } }

/-! ### A word where a running warp fetches -/

/-- Where the byte at a virtual address stands, if a fetch reads it from memory. -/
def State.fetchPlace (s : State) (a : W64) : Option Nat :=
  match check s.ctx a .x with
  | .ok ia =>
    if ((s.coreOf s.team.core).find (tagged s.ctx.num ia)).isSome then none
    else match walk s.dev s.ctx ia with
      | .page p => some (p.phys ia)
      | .absent => none
      | .malformed => none
  | .fault _ => none
  | .growth _ => none

/-- Put bytes where a fetch at an address reads them. -/
def State.placeCode (s : State) (a : W64) (bs : List Byte) : Option State :=
  let places := (List.range bs.length).map (fun k => s.fetchPlace (a + BitVec.ofNat 64 k))
  if places.all Option.isSome then
    some { s with dev := { s.dev with mem := Store.setAll s.dev.mem ((places.filterMap id).zip bs) } }
  else none

/-- A scalar word where the scalar stream of the warp in front fetches, whose turn comes next; none if it cannot. -/
def State.placeScalar (s : State) (w : BitVec 32) : Option State :=
  if s.warp.scalarMay && s.issues s.warp then
    ({ s with plan := [.scalar] }).placeCode s.warp.spc (toBytes 4 w)
  else none

/-- A lane word where the lane stream of the warp in front fetches, whose turn comes next; an empty queue gets a block of
one word. -/
def State.placeLane (s : State) (w : BitVec 96) : Option State :=
  let s := if s.warp.queue.isEmpty then s.onWarp (fun w => { w with queue := [⟨w.lpc, 1, w.s, w.dseed, w.vexes⟩] }) else s
  if s.warp.laneMay && s.issues s.warp then
    ({ s with plan := [.lane] }).placeCode (s.warp.LPC.zeroExtend 64) (toBytes 12 w)
  else none

end Sys2Proof.Machine
end

