-- ==== Sys2Proof/Machine/ScalarRun.lean ====
section
/-!
DEFINITION. The frame of a scalar instruction that may wait or trap, and what several of them share: a parked access, a
pending task report (13:R259), the wait for lane blocks, the wait for a clearing (09:R189; 10:R214).
-/

namespace Sys2Proof.Machine

open Sys2Proof

/-- What stands before a scalar access that has parked: a fatal or refused answer traps, no answer yet waits. -/
def State.parkedScalar (s : State) : Option State :=
  match s.warp.parkS with
  | none => none
  | some p =>
    if p.fatal then some (s.takeTrap false false ⟨Code.pageFatal, 0, p.va, 0, p.ticket⟩)
    else if p.refused then some (s.takeTrap false false ⟨Code.rangeFault, 0, p.va, 3, p.ticket⟩)
    else some (s.waitScalar 15)

/-- A scalar part as an outcome; an instruction that goes on moves SPC to the next word. -/
def finish (r : Res Unit) : Result :=
  match r with
  | .ok s _ => .next s.retire
  | .wait s n => .next (s.waitScalar n)
  | .trap s t => .next (s.takeTrap false false t)

/-- Run a scalar instruction that may wait or trap. -/
def State.scalarRun (s : State) (body : State → Res Unit) : Result :=
  match s.parkedScalar with
  | some s => .next s
  | none => finish (body s)

/-- Word 5 of a TASK_FAULT (13:R260). -/
def taskDetail (seq : BitVec 16) (kind reason : Nat) : W64 :=
  BitVec.ofNat 64 (seq.toNat * 65536 + kind % 256 * 256 + reason)

/-- Take a pending task report (13:R259). -/
def State.takeReport (s : State) : Res Unit :=
  match s.warp.report with
  | none => .ok s ()
  | some r =>
    .trap (s.onWarp (fun w => { w with report := none }))
      ⟨Code.taskFault, 0, r.addr, taskDetail r.seq r.kind.toNat r.reason, r.ticket⟩

/-- Every earlier lane block has retired. -/
def State.lanesRetired (s : State) (reason : Nat) : Res Unit :=
  if s.warp.queue.isEmpty then .ok s () else .wait s reason

/-- The stores of the warp that are still on their way come before every access after this point (05:R113). -/
def State.fence (s : State) : State :=
  s.onWarp (fun w => { w with wbuf := w.wbuf.map (fun e => { e with fenced := true }) })

/-- Step 2 of 04:R85 for an opcode that a feature bit governs. -/
def State.needs (s : State) (bit : Nat) : Res Unit :=
  if s.ctx.feat.getLsbD bit then .ok s () else .trap s (trapOf Code.missingFeature 0 (BitVec.ofNat 64 bit))

/-- END: every earlier store of the warp has been performed and acknowledged (09:R177). -/
def State.ended (s : State) : Res Unit := if s.endDone then .ok s () else .wait s 12

/-- Under DET the effect comes at the warp's turn in the clearing. -/
def State.atClearingS (s : State) : Res Unit :=
  if !s.team.det || s.warp.clearS == .granted then .ok s ()
  else .wait (s.onWarp (fun w => { w with clearS := .waiting })) 14

def State.atClearingL (s : State) : Res Unit :=
  if !s.team.det || s.warp.clearL == .granted then .ok s ()
  else .wait (s.onWarp (fun w => { w with clearL := .waiting })) 14

/-- Write a scalar register and go on. -/
def State.give (s : State) (d : SReg) (x : W64) : Res Unit := .ok (s.writeS d x) ()


end Sys2Proof.Machine
end

