-- ==== Sys2Proof/Machine/Recall.lean ====
section
/-!
DEFINITION. Recalling the lines of pages from every L1 and every directory (20:R323; 11:R218), and the page recall that ends
private classification (17:R291).
-/

namespace Sys2Proof.Machine

open Sys2Proof

/-- The line that a message of the directory is about, when the message carries or awaits a copy; its data, if it
carries the only ones. -/
def copyMessage : Instr → Option (Nat × Option LineData)
  | .inv _ line _ => some (line, none)
  | .rclDowngrade _ line _ => some (line, none)
  | .rclInvalidate _ line _ => some (line, none)
  | .acknowledgement _ line => some (line, none)
  | .recallReply _ line data => some (line, data)
  | .grant _ line _ _ _ => some (line, none)
  | .evs _ line _ => some (line, none)
  | .evx _ line _ data => some (line, some data)
  | _ => none

/-- The line of a request for a copy (17:R297). -/
def requestLine : Instr → Option Nat
  | .gets _ line _ => some line
  | .getx _ line _ => some line
  | .upg _ line _ => some line
  | _ => none

/-- Whether a tagged line lies in [ia, ia + len) of a context. -/
def lineIn (cn ia len line : Nat) : Bool :=
  let (c, a) := untag line
  c == cn && decide (a < ia + len) && decide (ia < a + 128)

/-- Data that messages under way carry go to memory, and the messages about copies of the lines are void: the recall
takes their place, and whoever has asked for a copy asks again, if the line may still have one (11:R226). -/
def State.voidMessages (s : State) (p : Nat → Bool) : State :=
  let mine (e : Instr) : Bool := (match copyMessage e with | some (l, _) => p l | none => false) || (requestLine e).any p
  let s := (s.events ++ s.held).foldl (fun s e =>
    match copyMessage e with
    | some (l, some x) => if p l then s.returnLine l x else s
    | some (_, none) => s
    | none => s) s
  { s with events := s.events.filter (fun e => !mine e), held := s.held.filter (fun e => !mine e) }

/-- The line that a pushed copy on its way has. -/
def pushedLine : Instr → Option Nat
  | .pushInstall _ l _ => some l
  | _ => none

/-- Pushed copies of lines that are on their way do not arrive. -/
def State.voidPushes (s : State) (p : Nat → Bool) : State :=
  let keep (e : Instr) : Bool := (pushedLine e).all (fun l => !p l)
  { s with events := s.events.filter keep, held := s.held.filter keep }

/-- Take every tracked and private copy of the lines from every L1, with dirty data written back; with `all`, the clean and
pushed copies go too, and those on their way. The directories forget the lines. -/
def State.recallLines (s : State) (p : Nat → Bool) (all : Bool) : State :=
  let gone (l : L1Line) : Bool :=
    p l.line && (all || l.st == .ts || l.st == .ox || l.st == .pc || l.st == .pd)
  let s := s.voidMessages p
  let s := if all then s.voidPushes p else s
  let s := s.allCores.foldl (fun s c =>
    (c.l1.filter (fun l => p l.line && (l.st == .pd || l.st == .ox))).foldl
      (fun s l => s.storeLine l.line l.data l.poison) s) s
  let s := s.allCores.foldl (fun s c =>
    let c := s.coreOf c.id
    s.setCore { c with l1 := c.l1.filter (fun l => !gone l) }) s
  { s with dev := { s.dev with
      dir := s.dev.dir.filter (fun e => !p e.1)
      dirHeld := s.dev.dirHeld.filter (fun h => !p h.2.1)
      proxyDir := s.dev.proxyDir.filter (fun e => !p (e.1 / 32)) } }

/-- Every line of a range of a context is recalled from everywhere. -/
def State.recallRange (s : State) (cn ia len : Nat) (all : Bool) : State :=
  s.recallLines (lineIn cn ia len) all

/-- Lines of which copies stand in an L1 or are on their way have been written (09:R181, R182): a line with no copy needs no
count. -/
def State.bumpHeld (s : State) (p : Nat → Bool) : State :=
  let lines := s.allCores.flatMap (fun c => c.l1.map (fun (l : L1Line) => l.line)) ++ (s.events ++ s.held).filterMap pushedLine
  { s with dev := ((lines.filter p).eraseDups).foldl Device.bump s.dev }

/-- The page recall of 17:R291: the owner's L1 writes back the PD lines of the page and keeps its lines as SC; the page is
shared from then on, and so is one that nobody has classified (17:R289). -/
def State.sharePage (s : State) (cn page : Nat) : State :=
  match s.ctxOf cn with
  | none => s
  | some c =>
    match walkEntry s.dev c (page * 65536) with
    | .absent => s
    | .malformed => s
    | .page p =>
      if p.share == 2 then s else
      let start := if p.large then page / 32 * 32 else page
      let len := if p.large then 32 * 65536 else 65536
      let mine (l : Nat) : Bool := lineIn cn (start * 65536) len l
      let lines := (s.coreOf p.owner).l1.filter (fun l => mine l.line && p.share == 1)
      let s := lines.foldl (fun s l => if l.st = .pd then s.storeLine l.line l.data l.poison else s) s
      let core := s.coreOf p.owner
      let s := s.setCore { core with l1 := core.l1.map (fun l =>
        if mine l.line && p.share == 1 && (l.st == .pc || l.st == .pd) then { l with st := .sc } else l) }
      match walkEntry s.dev c (page * 65536) with
      | .page p => { s with dev := s.dev.putPage p (setShare 2 0) }
      | .absent => s
      | .malformed => s

/-- The bytes of one frame of memory, and their poison, go over those of another. -/
def Device.copyFrame (d : Device) (old new : Nat) : Device :=
  let inside (a k : Nat) : Bool := decide (a ≤ k) && decide (k < a + 65536)
  let bytes := d.mem.filter (fun e => inside old e.1)
  let clear := d.mem.filter (fun e => !inside new e.1)
  let badHere := d.bad.filter (fun l => inside old (128 * l))
  { d with
    mem := Store.setAll clear (bytes.map (fun e => (e.1 - old + new, e.2)))
    bad := d.bad.filter (fun l => !inside new (128 * l)) ++ badHere.map (fun l => l - old / 128 + new / 128) }

/-- The key of the first byte of a frame of a tier. -/
def frameAt (cxl : Bool) (ppn : Nat) : Nat := (if cxl then Config.cxlBase else 0) + ppn * 65536

end Sys2Proof.Machine
end

