-- ==== Sys2Proof/Machine/Directory.lean ====
section
/-!
DEFINITION. The directory protocol (17:R297 to R304; 19:R311 to R314): what a slice does with each request and reply, what a core
does with an invalidation, a recall and a grant, and the part that a die's proxy takes (17:R301).

A proxy keeps the entries of its own die by the same table. Before it asks the home for ownership it collects the copies of
the other cores of its die; while it waits for the home's grant its entry is O2S or O2O and names no holder, so that it can
answer every message of the home (17:R303).
-/

namespace Sys2Proof.Machine

open Sys2Proof

/-! ### Messages under way -/

/-- The grant of a line that is on its way to a node: whether it owns. -/
def grantFor (slice : DirAt) (line : Nat) (c : Node) : Instr → Option Bool
  | .grant a l x owned _ => if a = slice ∧ l = line ∧ x = c then some owned else none
  | _ => none

/-- An invalidation or a recall that arrives before a grant which was sent earlier: the classes have no order between them, and
neither waits (24:R379, R380). The grant is void, and the request that it answered stands at the home again (19:R314). -/
def State.voidGrant (s : State) (slice : DirAt) (line : Nat) (c : Node) : State :=
  match (s.events ++ s.held).findSome? (grantFor slice line c) with
  | none => s
  | some owned =>
    ({ s with events := s.events.filter (fun e => (grantFor slice line c e).isNone)
              held := s.held.filter (fun e => (grantFor slice line c e).isNone) }).post
      [if owned then .getx slice line c else .gets slice line c]

/-- The EVX of a node that is on its way: its data. -/
def evxData (slice : DirAt) (line : Nat) (c : Node) : Instr → Option LineData
  | .evx a l x data => if a = slice ∧ l = line ∧ x = c then some data else none
  | _ => none

/-- A recall that crosses the EVX of its owner: the home uses the data of the EVX, which is ignored as a notice (17:R303). -/
def State.takeEvx (s : State) (slice : DirAt) (line : Nat) (c : Node) : State :=
  match (s.events ++ s.held).findSome? (evxData slice line c) with
  | none => s
  | some x =>
    let s := s.returnLine line x
    { s with events := s.events.filter (fun e => (evxData slice line c e).isNone)
             held := s.held.filter (fun e => (evxData slice line c e).isNone) }

/-- A notice with which a die gives a line up is on its way to the home. -/
def State.leavingDie (s : State) (d line : Nat) : Bool :=
  let mine (e : Instr) : Bool := match e with
    | .evs .home l c => l == line && c == .die d
    | .evx .home l c _ => l == line && c == .die d
    | _ => false
  s.events.any mine || s.held.any mine

/-! ### The request queue of a slice (17:R292, R300) -/

/-- Requests for a line stand in the slice's queue. -/
def State.queuedFor (s : State) (slice : DirAt) (line : Nat) : Bool := s.dev.dirHeld.any (fun h => h.1 == slice && h.2.1 == line)

/-- A request enters the slice's queue; while the queue is full it waits on its way (24:R380). -/
def State.holdAt (s : State) (slice : DirAt) (line : Nat) (e : Instr) : State :=
  if Config.sliceQueue ≤ s.queuedAt (s.sliceOf slice line) then { s with again := .held }
  else { s with dev := { s.dev with dirHeld := s.dev.dirHeld ++ [(slice, line, e)] } }

/-- The entries that stand in the set of a line at its slice; which bits of an address choose the set is the model's choice
(log 9). -/
def State.dirSet (s : State) (slice : DirAt) (line : Nat) : List (DirAt × Nat) :=
  let at' := s.sliceOf slice line
  let same (x : DirAt × Nat) : Bool := (untag x.2).2 / 128 % Config.dirSets == (untag line).2 / 128 % Config.dirSets &&
    s.sliceOf x.1 x.2 == at'
  ((s.dev.dir.map (fun (e : Nat × W64) => (DirAt.home, e.1))) ++
    (s.dev.proxyDir.map (fun (e : Nat × W64) => (DirAt.proxy (e.1 % 32), e.1 / 32)))).filter same

/-- The set of a line has a free way, or the line stands in it. -/
def State.hasWay (s : State) (slice : DirAt) (line : Nat) : Bool :=
  s.dirGet slice line != 0 || decide ((s.dirSet slice line).length < Config.dirWays)

/-- The mark of an entry that is being evicted: nobody's access waits for it. -/
def evicting (slice : DirAt) : W64 := match slice with | .home => 1 | .proxy _ => putBits 0 6 1 3

/-- A set without a free way: one entry goes as by row 13 (17:R297). -/
def State.evictEntry (s : State) (slice : DirAt) (line : Nat) : State :=
  let set := s.dirSet slice line
  let going (x : DirAt × Nat) : Bool := DirE.state (s.dirGet x.1 x.2) == DirE.hwr
  if set.any going then s
  else match set.find? (fun x => !DirE.transient (s.dirGet x.1 x.2)) with
    | none => s
    | some x => s.takeCopies x.1 x.2 (evicting x.1)

/-- The data of a line as memory holds them. -/
def State.lineNow (s : State) (line : Nat) : Option LineData :=
  let (cn, ia) := untag line
  (s.ctxOf cn).bind (fun c => (s.fetchLine c ia).map Prod.fst)

/-- Grant a line; ownership at the home ends the sharing of the page with other packages, as a write does (24:R385). -/
def State.grantTo (s : State) (slice : DirAt) (line : Nat) (c : Node) (owned data : Bool) : State :=
  let s := if owned && slice == .home then s.endShare (untag line).1 ((untag line).2 / 65536) else s
  s.post [.grant slice line c owned (if data then s.lineNow line else none)]

/-- The entry in which nodes share. -/
def sharedBy (cs : List Node) : W64 := cs.foldl DirE.addSharer (DirE.empty DirE.shr)

/-- The cores and dies that an entry lists one by one include a node. -/
def pointed (e : W64) (c : Node) : Bool :=
  match c with
  | .core n => (DirE.ptrs e).contains (n % 32)
  | .die d => !DirE.coarse e && DirE.hasDie e d

/-- Whether a proxy's entry waits for the home. -/
def waitsHome (e : W64) : Bool :=
  (DirE.state e == DirE.o2s || DirE.state e == DirE.o2o) && listsNobody e

/-- Whether the home lists a die as the owner of a line, in a stable entry. -/
def State.dieOwns (s : State) (line d : Nat) : Bool :=
  let e := s.dirGet .home line
  DirE.state e == DirE.own && s.ownerOf .home line e == some (.die d)

/-- wdata. -/
def withData (e : W64) (data : Bool) : W64 := if data then e ||| 1 else e

/-! ### Requests (17:R300 rows 1 to 9, R302) -/

/-- The proxy asks the home for a line on behalf of one of its cores: for ownership without data where that core holds a
copy. -/
def State.askHome (s : State) (d line : Nat) (c : Node) (owned data : Bool) : State :=
  let e := withData (DirE.setReq (DirE.empty (if owned then DirE.o2o else DirE.o2s)) c) data
  (s.dirPut (.proxy d) line e).post
    [if !owned then .gets .home line (.die d) else if data then .getx .home line (.die d) else .upg .home line (.die d)]

/-- A request that a stable entry can serve: not one of the node that the entry lists as owner, whose EVX is on its way (R300),
nor one for which the set has no free way, or whose die has a notice on its way. -/
def State.servable (s : State) (slice : DirAt) (line : Nat) (c : Node) : Bool :=
  let e := s.dirGet slice line
  !DirE.transient e && s.hasWay slice line &&
    !(DirE.state e == DirE.own && (s.ownerOf slice line e).all (fun o => o == c)) &&
    (match slice with
     | .home => true
     | .proxy d => DirE.state e != DirE.unc || !s.leavingDie d line)

/-- GETS c at an entry that can serve it. -/
def State.getShared (s : State) (slice : DirAt) (line : Nat) (c : Node) : State :=
  let e := s.dirGet slice line
  if DirE.state e = DirE.unc then
    match slice with
    | .home => (s.dirPut slice line (onlyNode DirE.shr c)).grantTo slice line c false true
    | .proxy d => s.askHome d line c false true
  else if DirE.state e = DirE.shr then (s.dirPut slice line (DirE.addSharer e c)).grantTo slice line c false true
  else match s.ownerOf slice line e with
    | none => s
    | some o => (s.dirPut slice line (DirE.setReq (DirE.setState (onlyNode DirE.own o) DirE.o2s) c)).post [.rclDowngrade slice line o]

/-- No other copy is left among the cores of a slice: ownership is granted, by a proxy once the home lists its die as the
owner. -/
def State.ownNow (s : State) (slice : DirAt) (line : Nat) (c : Node) (data : Bool) : State :=
  match slice with
  | .home => (s.dirPut slice line (onlyNode DirE.own c)).grantTo slice line c true data
  | .proxy d =>
    if s.dieOwns line d then (s.dirPut slice line (onlyNode DirE.own c)).grantTo slice line c true data
    else s.askHome d line c true data

/-- GETX c, or UPG c, which brings no data to a core that the entry points to (row 4), at an entry that can serve it. -/
def State.getOwned (s : State) (slice : DirAt) (line : Nat) (c : Node) (upgrade : Bool) : State :=
  let e := s.dirGet slice line
  if DirE.state e = DirE.unc then s.ownNow slice line c true
  else if DirE.state e = DirE.shr then
    let others := (s.sharers slice line e).filter (fun x => x != c)
    let data := !(upgrade && pointed e c)
    if others.isEmpty then s.ownNow slice line c data
    else (s.dirPut slice line (withData (DirE.setAcks (DirE.setReq (DirE.empty DirE.s2o) c) others.length) data)).post
      (others.map (fun x => Instr.inv slice line x))
  else match s.ownerOf slice line e with
    | none => s
    | some o => (s.dirPut slice line (withData (DirE.setReq (DirE.setState (onlyNode DirE.own o) DirE.o2o) c) true)).post
        [.rclInvalidate slice line o]

/-- The slice, the line and the node of a request. -/
def requestOf : Instr → Option (DirAt × Nat × Node)
  | .gets slice line c => some (slice, line, c)
  | .getx slice line c => some (slice, line, c)
  | .upg slice line c => some (slice, line, c)
  | _ => none

/-- Serve a request. -/
def State.serveRequest (s : State) (e : Instr) : State :=
  match e with
  | .gets slice line c => s.getShared slice line c
  | .getx slice line c => s.getOwned slice line c false
  | .upg slice line c => s.getOwned slice line c true
  | _ => s

/-- A request arrives: it is served, or it is held behind those for its line that are held already. -/
def State.takeRequest (s : State) (slice : DirAt) (line : Nat) (c : Node) (e : Instr) : State :=
  if s.queuedFor slice line || !s.servable slice line c then s.holdAt slice line e else s.serveRequest e

def execGets (slice : DirAt) (line : Nat) (c : Node) (s : State) : Result := .next (s.takeRequest slice line c (.gets slice line c))
def execGetx (slice : DirAt) (line : Nat) (c : Node) (s : State) : Result := .next (s.takeRequest slice line c (.getx slice line c))
def execUpg (slice : DirAt) (line : Nat) (c : Node) (s : State) : Result := .next (s.takeRequest slice line c (.upg slice line c))

/-! ### Held requests are served (17:R300) -/

/-- An access that is performed at the home may still come for the copies that have been taken back for it. -/
def State.homeAwaited (s : State) (line : Nat) : Bool :=
  let mine (e : Instr) : Bool := match e with
    | .storeRequest w id => ((s.warpOf w).bind (fun x => x.wbuf.find? (fun y => y.id == id))).any (fun y => y.bytes.any (fun b =>
        tagged (untag y.line).1 b.1 == line))
    | .pushRequest w id => ((s.warpOf w).bind (fun x => x.wbuf.find? (fun y => y.id == id))).any (fun y => y.line == line)
    | .loadRequest _ => true
    | _ => false
  (s.events ++ s.held).any mine ||
    s.allWarps.any (fun w => w.status == .running && !w.halt && (w.atHome || (w.wants.isEmpty && (w.check == .passed || !w.rob.isEmpty))))

/-- Copies that have been taken back for an access which will not come: the entry is stable. -/
def State.settleRecalled (s : State) (slice : DirAt) (line : Nat) : State :=
  let e := s.dirGet slice line
  if recalled e && !s.homeAwaited line then s.dirPut slice line (afterRecall e) else s

/-- The first held request of each line, in arrival order. -/
def firstOfLines : List (DirAt × Nat × Instr) → List (DirAt × Nat) → List (DirAt × Nat × Instr)
  | [], _ => []
  | h :: rest, seen =>
    if seen.contains (h.1, h.2.1) then firstOfLines rest seen else h :: firstOfLines rest ((h.1, h.2.1) :: seen)

/-- The first request that can be served is served; one for which only a way is missing has an entry evicted. -/
def State.serveFirst (s : State) : List (DirAt × Nat × Instr) → State × Bool
  | [] => (s, false)
  | h :: rest =>
    let s := s.settleRecalled h.1 h.2.1
    match requestOf h.2.2 with
    | none => s.serveFirst rest
    | some (slice, line, c) =>
      if s.servable slice line c then
        ({ s with dev := { s.dev with dirHeld := s.dev.dirHeld.erase h } }.serveRequest h.2.2, true)
      else (if s.hasWay slice line then s else s.evictEntry slice line).serveFirst rest

/-- Requests held at entries that are stable again are served, in arrival order. -/
def State.serveQueue : Nat → State → State
  | 0, s => s
  | n + 1, s => match s.serveFirst (firstOfLines s.dev.dirHeld []) with
    | (s, true) => State.serveQueue n s
    | (s, false) => s

def State.serveHeld (s : State) : State := State.serveQueue s.dev.dirHeld.length s

/-! ### Eviction notices (rows 10 to 12) -/

/-- The proxy has no holder left on its die: it gives the line up towards the home. -/
def State.proxyGivesUp (s : State) (d line : Nat) : State :=
  match s.lineNow line with
  | none => s
  | some x => s.post [if s.dieOwns line d then .evx .home line (.die d) x else .evs .home line (.die d)]

/-- Row 11: remove a sharer. -/
def removeSharer (e : W64) (c : Node) : W64 :=
  match c with
  | .die d => if DirE.hasDie e d then putBits e 56 33 (DirE.dievec e - 2 ^ d) else e
  | .core n => if DirE.coarse e then e
      else DirE.ofPtrs (DirE.state e) ((DirE.ptrs e).filter (fun k => k != n % 32)) (DirE.dievec e)

/-- A sharer gives its copy up. -/
def State.giveShared (s : State) (slice : DirAt) (line : Nat) (c : Node) : State :=
  let e := s.dirGet slice line
  if DirE.state e = DirE.shr then
    let e' := removeSharer e c
    if listsNobody e' then
      let s := s.dirPut slice line 0
      match slice with
      | .home => s
      | .proxy d => s.proxyGivesUp d line
    else s.dirPut slice line e'
  else s

/-- An owner gives its line up: the data are written; from the owner of a stable entry it ends the ownership. -/
def State.giveOwned (s : State) (slice : DirAt) (line : Nat) (c : Node) (data : LineData) : State :=
  let e := s.dirGet slice line
  if DirE.state e = DirE.own ∧ s.ownerOf slice line e = some c then
    let s := ((s.returnLine line data).dirPut slice line 0)
    match slice with
    | .home => s
    | .proxy d => s.post [.evx .home line (.die d) data]
  else if DirE.transient e then s.returnLine line data
  else s

/-- EVS c. -/
def execEvs (slice : DirAt) (line : Nat) (c : Node) (s : State) : Result := .next (s.giveShared slice line c)

/-- EVX o. -/
def execEvx (slice : DirAt) (line : Nat) (c : Node) (data : LineData) (s : State) : Result :=
  .next (s.giveOwned slice line c data)

/-! ### Invalidations and recalls (17:R303) -/

/-- What the home asks of a proxy. -/
inductive Ask where
  | inv | invalidate | downgrade
  deriving DecidableEq, Repr

/-- What is kept in a proxy's HWR entry of what was asked: [6:1] 0 to 2, and 3 for an eviction of its own. -/
def Ask.code : Ask → Nat
  | .inv => 0 | .invalidate => 1 | .downgrade => 2

/-- The proxy's answer to the home; an eviction of its own gives the line up. -/
def State.proxyAnswers (s : State) (d line code : Nat) : State :=
  if code = 3 then s.proxyGivesUp d line
  else s.post [if code = 0 then .acknowledgement .home line else .recallReply .home line none]

/-- A proxy that waits for the home: the core for which it asks may still hold a copy, which goes first unless the line is to be
shared. The count of its entry then says what the home has asked. -/
def State.askWaiting (s : State) (d line : Nat) (a : Ask) : State :=
  let e := s.dirGet (.proxy d) line
  if a = .downgrade ∨ DirE.state e ≠ DirE.o2o ∨ DirE.wdata e then
    (s.takeEvx .home line (.die d)).proxyAnswers d line a.code
  else (s.dirPut (.proxy d) line (withData (DirE.setAcks e (a.code + 1)) true)).post
    [.inv (.proxy d) line (s.requester (.proxy d) line e)]

/-- The home's message reaches the proxy of a die, which collects the replies of its cores first. -/
def State.askProxy (s : State) (d line : Nat) (a : Ask) : State :=
  let slice := DirAt.proxy d
  let s := s.voidGrant .home line (.die d)
  let e := s.dirGet slice line
  let st := DirE.state e
  if st = DirE.unc then (s.takeEvx .home line (.die d)).proxyAnswers d line a.code
  else if waitsHome e && DirE.acks e == 0 then s.askWaiting d line a
  else if st = DirE.shr then
    let all := s.sharers slice line e
    if a = .downgrade || all.isEmpty then
      (if a = .downgrade then s else s.dirPut slice line 0).proxyAnswers d line a.code
    else (s.dirPut slice line (putBits (DirE.setAcks (DirE.empty DirE.hwr) all.length) 6 1 a.code)).post
      (all.map (fun x => Instr.inv slice line x))
  else if st = DirE.own then
    match s.ownerOf slice line e with
    | none => (s.dirPut slice line 0).proxyAnswers d line a.code
    | some o =>
      let e' := putBits (DirE.setAcks (DirE.setState (onlyNode DirE.own o) DirE.hwr) 1) 6 1 a.code
      (s.dirPut slice line e').post [if a = .downgrade then .rclDowngrade slice line o else .rclInvalidate slice line o]
  else { s with again := .held }

/-- A warp whose next access waits for nothing but its line: no request of its own is outstanding, on which the answer to an
invalidation or a recall would then wait (24:R380). -/
def Warp.clearToGo (w : Warp) : Bool :=
  w.parkS.isNone && w.parkL.isNone && w.rob.all (fun e => e.park.isNone) && w.wbuf.all (fun e => e.stage == .performed)

/-- A line for which a warp of the core has waited, and which has been granted: the access that waits is performed before an
invalidation or a recall that came later takes it (17:R302; 19:R311). -/
def State.justGranted (s : State) (core line : Nat) : Bool :=
  match (s.coreOf core).find line with
  | none => false
  | some l => (s.coreWarps core).any (fun w => (w.laneMay || w.scalarMay) && w.clearToGo && s.issues w &&
      w.wants.any (fun x => x.1 == line && (l.st == .ox || (l.st == .ts && x.2))))

/-- A core drops its shared tracked copy. -/
def State.dropShared (s : State) (core line : Nat) : State :=
  let c := s.coreOf core
  s.setCore { c with l1 := c.l1.filter (fun l => !(l.line == line && l.st == .ts)) }

/-- A core drops its copy, and acknowledges. -/
def State.invCore (s : State) (slice : DirAt) (line core : Nat) : State :=
  ((s.voidGrant slice line (.core core)).dropShared core line).post [.acknowledgement slice line]

/-- INV: the core acknowledges, whether or not it holds the line (17:R303; 19:R313, R314). -/
def execInv (slice : DirAt) (line : Nat) (c : Node) (s : State) : Result :=
  match c with
  | .die d => .next (s.askProxy d line .inv)
  | .core n =>
    if s.justGranted n line then .next { s with again := .held }
    else .next (s.invCore slice line n)

/-- The owned line of a core. -/
def State.ownedAt (s : State) (core line : Nat) : Option L1Line :=
  match (s.coreOf core).find line with
  | some l => if l.st = .ox then some l else none
  | none => none

/-- A core answers a recall with its data, or with none if it has given the line up. -/
def State.answerRecall (s : State) (slice : DirAt) (line core : Nat) (keep : Bool) : State :=
  match s.ownedAt core line with
  | some l =>
    let c := s.coreOf core
    let s := if keep then s.setCore (c.change line (fun l => { l with st := .ts })) else s.setCore (c.drop line)
    (if l.poison then s.poisonLine line else s).post [.recallReply slice line (some l.data)]
  | none =>
    let s := (s.takeEvx slice line (.core core)).voidGrant slice line (.core core)
    (if keep then s else s.dropShared core line).post [.recallReply slice line none]

/-- A recall reaches a core. -/
def State.recallCore (s : State) (slice : DirAt) (line core : Nat) (keep : Bool) : State :=
  if s.justGranted core line then { s with again := .held } else s.answerRecall slice line core keep

def execRclDowngrade (slice : DirAt) (line : Nat) (c : Node) (s : State) : Result :=
  match c with
  | .die d => .next (s.askProxy d line .downgrade)
  | .core n => .next (s.recallCore slice line n true)

def execRclInvalidate (slice : DirAt) (line : Nat) (c : Node) (s : State) : Result :=
  match c with
  | .die d => .next (s.askProxy d line .invalidate)
  | .core n => .next (s.recallCore slice line n false)

/-! ### Replies (rows 5, 7, 9, 13, 14) -/

/-- The last reply that an entry in HWR awaited has come. At the home the entry stays so until the access for which it was sent
is performed (rows 13 and 14), unless it is evicted; a proxy answers the home. -/
def State.collected (s : State) (slice : DirAt) (line : Nat) (e : W64) : State :=
  match slice with
  | .home => s.dirPut slice line (if DirE.wdata e then 0 else DirE.setAcks e 0)
  | .proxy d =>
    let code := DirE.req e
    (s.dirPut slice line (if code = 2 then afterRecall (putBits (DirE.setAcks e 0) 6 1 0) else 0)).proxyAnswers d line code

/-- One reply fewer to await. -/
def State.countReply (s : State) (slice : DirAt) (line : Nat) : State :=
  let e := s.dirGet slice line
  let left := DirE.acks e - 1
  if DirE.acks e = 0 then s
  else if waitsHome e then
    match slice with
    | .home => s
    | .proxy d => (s.dirPut slice line (DirE.setAcks e 0)).proxyAnswers d line left
  else if 0 < left then s.dirPut slice line (DirE.setAcks e left)
  else if DirE.state e = DirE.hwr then s.collected slice line e
  else if DirE.state e = DirE.s2o then s.ownNow slice line (s.requester slice line e) (DirE.wdata e)
  else s

def execAcknowledgement (slice : DirAt) (line : Nat) (s : State) : Result := .next (s.countReply slice line)

/-- The reply to a recall, with the data of the line if the owner had them. -/
def State.takeReply (s : State) (slice : DirAt) (line : Nat) (data : Option LineData) : State :=
  let s := match data with | some x => s.returnLine line x | none => s
  let e := s.dirGet slice line
  let c := s.requester slice line e
  if waitsHome e then s.countReply slice line
  else if DirE.state e = DirE.o2s then
    let o := s.ownerOf slice line e
    let e' := sharedBy ((match o with | some o => [o] | none => []) ++ [c])
    (s.dirPut slice line e').grantTo slice line c false true
  else if DirE.state e = DirE.o2o then (s.dirPut slice line (onlyNode DirE.own c)).grantTo slice line c true true
  else s.countReply slice line

def execRecallReply (slice : DirAt) (line : Nat) (data : Option LineData) (s : State) : Result :=
  .next (s.takeReply slice line data)

/-! ### Grants (19:R311) -/

/-- A grant reaches a core: an upgrade keeps the data of the copy that stands. -/
def State.takeGrant (s : State) (core line : Nat) (owned : Bool) (data : Option LineData) : State :=
  let s := s.verify core line
  let st : LState := if owned then .ox else .ts
  let new (x : LineData) : L1Line := ⟨line, st, x, false, s.dev.vers.get line, false⟩
  match (s.coreOf core).find line, data with
  | some l, none => s.setCore ((s.coreOf core).put { l with st := st })
  | _, some x => s.install core (new x)
  | none, none => match s.lineNow line with | some x => s.install core (new x) | none => s

/-- A line of memory that is poisoned carries its poison into the copy (17:R307). -/
def State.grantPoison (s : State) (core line : Nat) : State :=
  let (cn, ia) := untag line
  match (s.ctxOf cn).bind (fun c => s.fetchLine c ia) with
  | some (_, true) => s.setCore ((s.coreOf core).change line (fun l => { l with poison := true }))
  | some (_, false) => s
  | none => s

/-- A grant reaches a proxy that waits for it: it goes on to the core that asked. -/
def State.proxyGrant (s : State) (d line : Nat) (owned : Bool) : State :=
  let slice := DirAt.proxy d
  let e := s.dirGet slice line
  if waitsHome e then
    let c := s.requester slice line e
    (s.dirPut slice line (onlyNode (if owned then DirE.own else DirE.shr) c)).grantTo slice line c owned (!owned || DirE.wdata e)
  else s

/-- A grant arrives. -/
def State.grantArrives (s : State) (line : Nat) (c : Node) (owned : Bool) (data : Option LineData) : State :=
  match c with
  | .core n => (s.takeGrant n line owned data).grantPoison n line
  | .die d => s.proxyGrant d line owned

def execGrant (_slice : DirAt) (line : Nat) (c : Node) (owned : Bool) (data : Option LineData) (s : State) : Result :=
  .next (s.grantArrives line c owned data)

/-! ### Accesses of engines, the host and other packages (17:R300, R304) -/

/-- A message about copies of a line, which is no request, is carried out. -/
def State.arriveCopy (s : State) (e : Instr) : State :=
  match e with
  | .inv slice line (.core n) => s.invCore slice line n
  | .inv _ line (.die d) => s.askProxy d line .inv
  | .rclDowngrade slice line (.core n) => s.answerRecall slice line n true
  | .rclDowngrade _ line (.die d) => s.askProxy d line .downgrade
  | .rclInvalidate slice line (.core n) => s.answerRecall slice line n false
  | .rclInvalidate _ line (.die d) => s.askProxy d line .invalidate
  | .acknowledgement slice line => s.countReply slice line
  | .recallReply slice line data => s.takeReply slice line data
  | .grant _ line c owned data => s.grantArrives line c owned data
  | .evs slice line c => s.giveShared slice line c
  | .evx slice line c data => s.giveOwned slice line c data
  | _ => s

/-- The first message under way about copies of a line, taken out. -/
def State.nextAbout (s : State) (line : Nat) : Option (Instr × State) :=
  let about (e : Instr) : Bool := match copyMessage e with | some (l, _) => l == line | none => false
  match s.events.find? about with
  | some e => some (e, { s with events := s.events.erase e })
  | none => match s.held.find? about with
    | some e => some (e, { s with held := s.held.erase e })
    | none => none

/-- The messages about copies of a line are carried out, until none is under way. One that must wait for another comes after it. -/
def State.settleCopies (line : Nat) : Nat → State → State
  | 0, s => s
  | n + 1, s => match s.nextAbout line with
    | none => s
    | some (e, s) =>
      let s := s.arriveCopy e
      State.settleCopies line n (if s.again = .held then { s with again := .no, held := s.held ++ [e] } else s)

/-- The first request that the home holds for a line is served, if its entry is stable. -/
def State.serveLine (s : State) (line : Nat) : State × Bool :=
  s.serveFirst ((s.dev.dirHeld.filter (fun h => h.1 == .home && h.2.1 == line)).take 1)

/-- A transition of a line's entry comes to its end, and the requests held there are served (17:R300). -/
def State.settleLine (line : Nat) : Nat → State → State
  | 0, s => s
  | n + 1, s => match (State.settleCopies line Config.settleSteps s).serveLine line with
    | (s, true) => State.settleLine line n s
    | (s, false) => s

/-- The page is shared, and rows 13 and 14 are gone through for an access of an agent that is no core: it is held while the entry is
transient, then the line's copies are recalled, and what is left is the access itself. -/
def State.recallFor (s : State) (cn ia : Nat) (write : Bool) : State :=
  let line := tagged cn ia
  let s := State.settleLine line (s.dev.dirHeld.length + 1) (s.sharePage cn (ia / 65536))
  let s := match s.recallCopies line write with
    | (_, false) => s
    | (s, true) => State.settleCopies line Config.settleSteps s
  if (s.recallCopies line write).2 then s.recallRange cn (ia / 128 * 128) 128 false else s

def State.quiesce (s : State) (cn ia : Nat) : State := s.recallFor cn ia true
def State.quiesceRead (s : State) (cn ia : Nat) : State := s.recallFor cn ia false

end Sys2Proof.Machine
end

