-- ==== Sys2Proof/Machine/LaneCheck.lean ====
section
/-!
DEFINITION. What the lane memory instructions share: their addresses (10:R191), the channel messages that their operands
take, and the translation and class checks that the memory side makes for them (10:R193; 01:R28).
-/

namespace Sys2Proof.Machine

open Sys2Proof

/-- LaneAddr of the lanes of an access. -/
def LaneArgs.addrs (a : LaneArgs) (scale : Nat) (disp : W32) : List LaneAddr :=
  a.m.lanes.map (fun l => (l, a.base + zext64 (a.offs l) * BitVec.ofNat 64 scale + sext64 disp))

/-- The messages that the operands of a completed access have taken: `t` is the state after its operands were read. -/
def State.takePops (s t : State) : State := s.onWarp (fun w => { w with chans := t.warp.chans })

/-- The detached load's translation: asked for, and confirmed for every lane outside the scratchpad (01:R28). After a fault only
the lanes that it held back are asked for again (23:R377). -/
def State.laneConfirm (s : State) (n : Nat) (home : Bool) (lanes : List LaneAddr) : Res Unit :=
  let outside := s.outside .r lanes
  let todo := outside.filter (fun x => !s.laneDone.has x.1)
  if outside.isEmpty then .ok s ()
  else match s.warp.check with
    | .passed => .ok s ()
    | .failed t => .trap s t
    | .asked => .wait s 8
    | .idle =>
      if todo.isEmpty then .ok (s.onWarp (fun w => { w with check := .passed })) ()
      else if outside.any (fun x => s.homeHolds (s.home x.2.2) true) then .wait s 15
      else
        let s := s.onWarp (fun w => { w with check := .asked, ask := some ⟨todo, n, false, home⟩ })
        .wait ((s.keepLanes [] 0 0).post [.translationConfirmation s.warp.key]) 8

/-- The lanes of a check that pass it: for a write, its page lets it in. -/
def State.passing (s : State) (write : Bool) (size : Nat) (lanes : List (Nat × W64 × Nat)) : List (Nat × W64 × Nat) :=
  lanes.filter (fun x => !write || (writeVerdict s.dev s.ctx x.2.2 size).isNone)

/-- The data of the lanes of a detached load that have not faulted enter the destination's physical register as they arrive; the
entry holds them until the others are there (23:R377). -/
def State.earlyData (s : State) (n : Nat) (home : Bool) (lanes : List (Nat × W64 × Nat)) (fault : Mask) : State :=
  match s.readNow n home (lanes.filter (fun x => !s.laneWaits home x.2.2)) with
  | .ok t got => t.keepLanes got.1 got.2 fault
  | .wait _ _ => s
  | .trap _ _ => s

/-- The check that the front warp's lane access has asked for: lanes whose pages are missing park, and are asked for again
when the fault is resolved, while the others have passed (01:R29); a write that its page does not let in fails. Every
request has homed its region (17:R294). -/
def State.answerCheck (s : State) (a : LaneAsk) : State :=
  let s := s.touchAll (a.addrs.map (fun x => x.2.2))
  let missing := a.addrs.filterMap (fun x => (missingKind s.dev s.ctx x.2.2).map (fun k => (x.1, x.2.1, x.2.2, k)))
  let gone := maskOf (missing.map Prod.fst)
  match s.parkLanes a.write missing with
  | some t =>
    let passed := s.passing a.write a.size (a.addrs.filter (fun x => !gone.has x.1))
    let t := (t.onWarp (fun w => { w with check := .idle, ask := none })).onHead (fun e => { e with
      fault := gone, completed := if a.write then e.completed ||| maskOf (passed.map Prod.fst) else e.completed, logged := true })
    if a.write then t else t.earlyData a.size a.home passed gone
  | none =>
    let verdict := if a.write then lanesVerdict s.dev s.ctx a.size a.addrs else none
    (s.onWarp (fun w => { w with check := (match verdict with | some t => .failed t | none => .passed),
                                 ask := none, laneStalled := false })).onHead (fun e => { e with logged := false })

/-- The answer reaches the warp that asked, if it still asks. -/
def State.answerFor (s : State) (k : WarpKey) : State :=
  match s.warpOf k with
  | none => s
  | some w =>
    match w.ask with
    | none => s
    | some a => s.asWarp k (fun s => s.answerCheck a)

/-- The class check of a lane write (10:R193). -/
def execClassCheckRequest (w : WarpKey) (s : State) : Result := .next (s.answerFor w)

/-- The translation of a detached load (01:R28). -/
def execTranslationConfirmation (w : WarpKey) (s : State) : Result := .next (s.answerFor w)

end Sys2Proof.Machine
end

