-- ==== Sys2Proof/Machine/ScalarMemory.lean ====
section
/-!
DEFINITION. Scalar loads and stores (05:R101 to R104), LDACQ and STREL (10:R207), the scalar atomics (R208) and PHASE
(R209; 09:R177, R178).
-/

namespace Sys2Proof.Machine

open Sys2Proof

/-! ### Loads and stores (05:R101) -/

/-- A load of n bytes at S(SA) + imm, extended to 64 bits. -/
def State.loadS (s : State) (n : Nat) (ext : List Byte → W64) (d a : SReg) (imm : BitVec 16) : Result :=
  s.scalarRun (fun s =>
    let addr := s.S a + imm.signExtend 64
    (s.issueScalar [.r] true n n addr).bind (fun s _ => (s.scalarLoad n addr).bind (fun s bs => s.give d (ext bs))))

/-- A store of the low n bytes of S(SD). -/
def State.storeS (s : State) (n : Nat) (d a : SReg) (imm : BitVec 16) : Result :=
  s.scalarRun (fun s =>
    let addr := s.S a + imm.signExtend 64
    (s.issueScalar [.w] true n n addr).bind (fun s _ => s.scalarStore addr (toBytes n (s.S d))))

/-- Bytes sign-extended from w bits, and zero-extended. -/
def extS (w : Nat) (bs : List Byte) : W64 := (ofBytes w bs).signExtend 64
def extZ (bs : List Byte) : W64 := ofBytes 64 bs

def execLdb (d a : SReg) (imm : BitVec 16) (s : State) : Result := s.loadS 1 (extS 8) d a imm
def execLdbu (d a : SReg) (imm : BitVec 16) (s : State) : Result := s.loadS 1 extZ d a imm
def execLdh (d a : SReg) (imm : BitVec 16) (s : State) : Result := s.loadS 2 (extS 16) d a imm
def execLdhu (d a : SReg) (imm : BitVec 16) (s : State) : Result := s.loadS 2 extZ d a imm
def execLdw (d a : SReg) (imm : BitVec 16) (s : State) : Result := s.loadS 4 (extS 32) d a imm
def execLdwu (d a : SReg) (imm : BitVec 16) (s : State) : Result := s.loadS 4 extZ d a imm
def execLdd (d a : SReg) (imm : BitVec 16) (s : State) : Result := s.loadS 8 extZ d a imm
def execStb (d a : SReg) (imm : BitVec 16) (s : State) : Result := s.storeS 1 d a imm
def execSth (d a : SReg) (imm : BitVec 16) (s : State) : Result := s.storeS 2 d a imm
def execStw (d a : SReg) (imm : BitVec 16) (s : State) : Result := s.storeS 4 d a imm
def execStd (d a : SReg) (imm : BitVec 16) (s : State) : Result := s.storeS 8 d a imm

/-! ### LDACQ and STREL (10:R207) -/

/-- 8 bytes, or 4 under `.W` sign-extended. -/
def extW (w : Bool) (bs : List Byte) : W64 := if w then extS 32 bs else extZ bs
def widthW (w : Bool) : Nat := if w then 4 else 8

/-- A scalar access to a missing page parks; one that the page's class or an open escrow forbids traps (05:R103). -/
def State.homeVerdict (s : State) (write : Bool) (n ia : Nat) (a : W64) : Res Unit :=
  match missingKind s.dev s.ctx ia with
  | some k => .wait (s.park false 0 k ia a write false) 15
  | none =>
    if write then
      match writeVerdict s.dev s.ctx ia n with
      | some (code, detail) => .trap s (trapOf code a (BitVec.ofNat 64 detail))
      | none => .ok s ()
    else .ok s ()

/-- The bytes of an owned load: from the line in the L1, or from the home where no L1 may own the line. -/
def State.ownedLoad (s : State) (n ia : Nat) : Adm (List Byte × Bool) :=
  if neverOwned s.dev s.ctx ia then
    match s.letIn s.ctx (.core s.team.core) false false true ia with
    | .absent k => .absent k
    | .hold s => .hold s
    | .ok s p => .ok s (s.homeRead p ia n)
  else
    match s.ownLine true ia with
    | .absent k => .absent k
    | .hold s => .hold s
    | .ok s l => .ok (s.ownedRead l) (lineBytes l.data (ia % 128) n, l.poison)

/-- An owned store. -/
def State.ownedStore (s : State) (ia : Nat) (bs : List Byte) : Adm Unit :=
  if neverOwned s.dev s.ctx ia then
    match s.letIn s.ctx (.core s.team.core) true false true ia with
    | .absent k => .absent k
    | .hold s => .hold s
    | .ok s p => .ok (s.homeWrite s.ctx.num (some s.team.core) p ia bs) ()
  else
    match s.ownLine false ia with
    | .absent k => .absent k
    | .hold s => .hold s
    | .ok s l => .ok (s.ownedWrite l ia bs) ()

/-- LDACQ: an owned load, then BEGIN at the scope. Under DET the warp's own stores of the quantum lie over what it reads (09:R189). -/
def execLdacq (w : Bool) (sc : Scope) (d a : SReg) (s : State) : Result :=
  s.scalarRun (fun s =>
    let addr := s.S a
    let n := widthW w
    (s.issueScalar [.r] true n n addr).bind (fun s _ =>
      let ia := s.scalarIa .r addr
      let value : Res (List Byte) :=
        if inAperture addr then s.scalarLoad n addr
        else (s.holdScalar ia).bind (fun s _ => (s.homeVerdict false n ia addr).bind (fun s _ =>
          match s.ownedLoad n ia with
          | .absent _ => .wait s 15
          | .hold s => s.waitHome ia
          | .ok s (bs, bad) => if bad then .trap s (trapOf Code.eccFatal addr 0)
            else .ok s (if s.team.det then overlay (s.warp.ownBytes false) ia bs else bs)))
      value.bind (fun s bs => (s.begin sc).give d (extW w bs))))

/-- STREL: END at the scope, then an owned store, which under DET waits for the clearing (09:R189). -/
def execStrel (w : Bool) (_sc : Scope) (a b : SReg) (s : State) : Result :=
  s.scalarRun (fun s => s.takeReport.bind (fun s _ =>
    let addr := s.S a
    let n := widthW w
    (s.issueScalar [.w] true n n addr).bind (fun s _ => s.ended.bind (fun s _ =>
      let bs := toBytes n (s.S b)
      if inAperture addr || s.team.det then s.scalarStore addr bs
      else
        let ia := s.scalarIa .w addr
        (s.holdScalar ia).bind (fun s _ => (s.homeVerdict true n ia addr).bind (fun s _ =>
          match s.ownedStore ia bs with
          | .absent _ => .wait s 15
          | .hold s => s.waitHome ia
          | .ok s _ => .ok s ()))))))

/-! ### Scalar atomics (10:R208) -/

def Order.releases : Order → Bool
  | .rlx => false | .acq => false | .rel => true | .ar => true
def Order.acquires : Order → Bool
  | .rlx => false | .acq => true | .rel => false | .ar => true

/-- The END of a releasing atomic: it takes a pending report first (13:R259). -/
def State.releaseReport (s : State) (o : Order) : Res Unit := if Order.releases o then s.takeReport else .ok s ()
def State.releaseEnd (s : State) (o : Order) : Res Unit := if Order.releases o then s.ended else .ok s ()

/-- A scalar atomic: the operation on the location at S(SA), the old value to sd; none is compare-and-swap against S(SD). -/
def State.amo (s : State) (op : Option AtomOp) (w : Bool) (sc : Scope) (o : Order) (d a b : SReg) : Result :=
  s.scalarRun (fun s => (s.releaseReport o).bind (fun s _ =>
    let addr := s.S a
    let n := widthW w
    (s.issueScalar [.r, .w] true n n addr).bind (fun s _ => (s.releaseEnd o).bind (fun s _ =>
      let done (s : State) (old : List Byte) : Res Unit :=
        (if Order.acquires o then s.begin sc else s).give d (extW w old)
      if inAperture addr then
        (if s.fenceBusy then .wait s 15 else s.atClearingS).bind (fun s _ =>
          match s.scratchAtomic op (!w) addr (s.S b) (s.S d) with
          | (s, _, true) => .trap s (trapOf Code.eccFatal addr 0)
          | (s, old, false) => done s old)
      else
        let ia := s.scalarIa .w addr
        (s.holdScalar ia).bind (fun s _ => (s.homeVerdict true n ia addr).bind (fun s _ => s.atClearingS.bind (fun s _ =>
          match s.placeAtomic sc op (!w) ia (s.S b) (s.S d) with
          | .absent _ => .wait s 15
          | .hold s => s.waitHome ia
          | .ok s (old, bad) => if bad then .trap s (trapOf Code.eccFatal addr 0) else done s old)))))))

def execAadd (w : Bool) (sc : Scope) (o : Order) (d a b : SReg) (s : State) : Result := s.amo (some .add) w sc o d a b
def execAand (w : Bool) (sc : Scope) (o : Order) (d a b : SReg) (s : State) : Result := s.amo (some .and) w sc o d a b
def execAor (w : Bool) (sc : Scope) (o : Order) (d a b : SReg) (s : State) : Result := s.amo (some .or) w sc o d a b
def execAxor (w : Bool) (sc : Scope) (o : Order) (d a b : SReg) (s : State) : Result := s.amo (some .xor) w sc o d a b
def execAmin (w : Bool) (sc : Scope) (o : Order) (d a b : SReg) (s : State) : Result := s.amo (some .min) w sc o d a b
def execAmax (w : Bool) (sc : Scope) (o : Order) (d a b : SReg) (s : State) : Result := s.amo (some .max) w sc o d a b
def execAminu (w : Bool) (sc : Scope) (o : Order) (d a b : SReg) (s : State) : Result := s.amo (some .minu) w sc o d a b
def execAmaxu (w : Bool) (sc : Scope) (o : Order) (d a b : SReg) (s : State) : Result := s.amo (some .maxu) w sc o d a b
def execAswp (w : Bool) (sc : Scope) (o : Order) (d a b : SReg) (s : State) : Result := s.amo (some .swp) w sc o d a b
def execAcas (w : Bool) (sc : Scope) (o : Order) (d a b : SReg) (s : State) : Result := s.amo none w sc o d a b

/-! ### PHASE (10:R209) -/

/-- END waits whatever its scope (09:R177). -/
def execPhaseEnd (_sc : Scope) (s : State) : Result :=
  s.scalarRun (fun s => s.takeReport.bind (fun s _ => s.ended))

/-- BEGIN waits for earlier lane blocks and then drops lines (09:R178; 05:R113). -/
def execPhaseBegin (sc : Scope) (s : State) : Result :=
  s.scalarRun (fun s => (s.lanesRetired 12).bind (fun s _ => .ok (s.fence.begin sc) ()))

/-- FULL is an END followed by a BEGIN of the same scope. -/
def execPhaseFull (sc : Scope) (s : State) : Result :=
  s.scalarRun (fun s => s.takeReport.bind (fun s _ => s.ended.bind (fun s _ => .ok (s.begin sc) ())))

end Sys2Proof.Machine
end

