-- ==== Sys2Proof/Machine/LaneAtomics.lean ====
section
/-!
DEFINITION. Lane atomics (10:R200, R201), and the requests that perform an atomic at its home for another agent.
-/

namespace Sys2Proof.Machine

open Sys2Proof

/-- A lane's part of an atomic. -/
structure LaneAtom where
  lane : Nat
  addr : W64
  operand : W64
  expected : W64
  deriving DecidableEq, Repr

/-- How far the operations of the lanes have come: the lanes whose data cannot be read, which are not performed, and the homes whose
requests wait, with the reason of the first of them. -/
structure AtomRun where
  bad : List LaneAtom := []
  homes : List HomeOf := []
  reason : Option Nat := none

/-- A lane's request waits at its home; requests to other homes are not held (18:R310). -/
def AtomRun.hold (r : AtomRun) (h : HomeOf) (reason : Nat) : AtomRun :=
  { r with homes := h :: r.homes, reason := some (r.reason.getD reason) }

/-- A lane has been performed: its old value. -/
def State.lanePerformed (s : State) (lane : Nat) (old : List Byte) : State :=
  s.onWarp (fun w => { w with done := w.done ++ [(lane, ofBytes 64 old)] })

/-- The operation of one lane. -/
def State.atomLane (s : State) (sc : Scope) (op : Option AtomOp) (dbl : Bool) (x : LaneAtom) (r : AtomRun) : State × AtomRun :=
  if inAperture x.addr then
    match s.scratchAtomic op dbl x.addr x.operand x.expected with
    | (s, _, true) => (s, { r with bad := x :: r.bad })
    | (s, old, false) => (s.lanePerformed x.lane old, r)
  else
    let ia := s.laneIa .w (x.lane, x.addr)
    let h := s.home ia
    if r.homes.contains h then (s, r)
    else if s.homeBusy ia then (s, r.hold h (s.homeReason ia))
    else match s.placeAtomic sc op dbl ia x.operand x.expected with
      | .absent _ => (s.onWarp (fun w => { w with check := .idle }), r.hold h 15)
      | .hold s => (s, r.hold h (s.homeReason ia))
      | .ok s (_, true) => (s, { r with bad := x :: r.bad })
      | .ok s (old, false) => (s.lanePerformed x.lane old, r)

/-- The operations of the lanes, request after request and in each in lane order (10:R195; 18:R309). Those that have been
performed stay done while others wait. -/
def State.atomLanes (sc : Scope) (op : Option AtomOp) (dbl : Bool) : List LaneAtom → State → AtomRun → State × AtomRun
  | [], s, r => (s, r)
  | x :: rest, s, r =>
    if s.warp.done.any (fun d => d.1 == x.lane) then State.atomLanes sc op dbl rest s r
    else
      let (s, r) := s.atomLane sc op dbl x r
      State.atomLanes sc op dbl rest s r

/-- The lanes in the order in which their requests leave: one request for each line (18:R309). -/
def State.requestOrder (s : State) (xs : List LaneAtom) : List LaneAtom :=
  (groupOn (fun x => if inAperture x.addr then 2 ^ 61 + x.lane else tagged s.ctx.num (s.laneIa .w (x.lane, x.addr))) xs).flatten

/-- Uncorrectable data: ECC_FATAL for the lanes that were not performed (10:R193). An atomic that returns nothing has no data
to return, and raises none: those lanes end without effect. -/
def State.performAtoms (s : State) (returns : Bool) (sc : Scope) (op : Option AtomOp) (dbl : Bool) (xs : List LaneAtom) : Res Unit :=
  let (s, r) := State.atomLanes sc op dbl (s.requestOrder xs) s {}
  match r.reason with
  | some n => .wait s n
  | none =>
    match (r.bad.filter (fun _ => returns)).mergeSort (fun x y => decide (x.lane ≤ y.lane)) with
    | [] => .ok s ()
    | x :: rest => .trap s ⟨Code.eccFatal, maskOf (x.lane :: rest.map LaneAtom.lane), x.addr, 0, 0⟩

/-- A release waits for the older stores of the warp (10:R201). -/
def State.laneRelease (s : State) (o : Order) : Res Unit :=
  if Order.releases o && !s.laneEndDone then .wait s 12 else .ok s ()

/-- Under DET an atomic whose warp waits for it takes its place in the clearing; one that returns nothing and acquires
nothing is queued for it (09:R189; 10:R214). -/
def State.queueAtoms (s : State) (op : AtomOp) (dbl : Bool) (xs : List LaneAtom) : State :=
  xs.foldl (fun s x =>
    if inAperture x.addr then (s.scratchAtomic (some op) dbl x.addr x.operand x.expected).1
    else s.onWarp (fun w => w.keep true (.atom op dbl (s.laneIa .w (x.lane, x.addr)) x.operand))) s

/-- What all lane atomics do up to their operations: checks at issue, the release, the ranges of tasks in flight, the
check of the memory side. -/
def State.atomFront (s : State) (o : Order) (dbl : Bool) (lanes : List LaneAddr) : Res Unit :=
  let n := widthOf dbl
  (s.issueAccess [.r, .w] true n n lanes).bind (fun s _ => (s.laneRelease o).bind (fun s _ =>
    if s.scratchBusy true n lanes then .wait s 10
    else if s.apertureFenced lanes then .wait s 15
    else s.laneCheck n lanes))

/-- The parts of the lanes. -/
def laneAtoms (lanes : List LaneAddr) (b e : Nat → List W32) : List LaneAtom :=
  lanes.map (fun x => ⟨x.1, x.2, pair64 ((b x.1).getD 0 0) ((b x.1).getD 1 0), pair64 ((e x.1).getD 0 0) ((e x.1).getD 1 0)⟩)

/-- Whether a lane's address lies outside the scratchpad. -/
def anyOutside (lanes : List LaneAddr) : Bool := lanes.any (fun x => !inAperture x.2)

/-- An atomic that returns its old value. -/
def State.atomReturn (s : State) (u : LaneUse) (op : Option AtomOp) (sc : Scope) (o : Order) (dbl : Bool) (scale : AScale)
    (d : VReg) (disp : W32) : State :=
  s.laneAccess u (fun a s =>
    let m := a.m
    let (_, e) := s.readGroup (m != 0) (.reg d false) (dblRegs dbl)
    let lanes := a.addrs scale.mul disp
    (s.atomFront o dbl lanes).bind (fun s _ =>
      (if m != 0 then s.atClearingL else .ok s ()).bind (fun s _ =>
        (s.performAtoms true sc op dbl (laneAtoms lanes a.data e)).bind (fun s _ =>
          let old (l : Nat) : W64 := ((s.warp.done.find? (fun z => z.1 == l)).map Prod.snd).getD 0
          let s := (s.takePops a.after).writeGroup d.toNat (dblRegs dbl) m (fun l => [lo32 (old l), hi32 (old l)])
          .ok (if Order.acquires o && m != 0 then s.begin sc else s) ()))))

def execAtom (g : Guard) (op : AtomOp) (scope : Scope) (o : Order) (dbl : Bool) (sc : AScale) (d : VReg) (base : SReg)
    (off : Value) (disp : W32) (c : Value) (s : State) : Result :=
  .next (s.atomReturn (Instr.use (.atom g op scope o dbl sc d base off disp c)) (some op) scope o dbl sc d disp)

/-- The expected value stands in the destination, read before any lane writes. -/
def execLaneAcas (g : Guard) (scope : Scope) (o : Order) (dbl : Bool) (sc : AScale) (d : VReg) (base : SReg)
    (off : Value) (disp : W32) (c : Value) (s : State) : Result :=
  .next (s.atomReturn (Instr.use (.laneAcas g scope o dbl sc d base off disp c)) none scope o dbl sc d disp)

/-- ATOMN returns nothing and acquires nothing (09:R179). -/
def execAtomn (g : Guard) (op : AtomOp) (scope : Scope) (o : Order) (dbl : Bool) (sc : AScale) (base : SReg)
    (off : Value) (disp : W32) (c : Value) (s : State) : Result :=
  .next (s.laneAccess (Instr.use (.atomn g op scope o dbl sc base off disp c)) (fun a s =>
    let lanes := a.addrs sc.mul disp
    let atoms := laneAtoms lanes a.data (fun _ => [])
    (s.atomFront o dbl lanes).bind (fun s _ =>
      if s.team.det && !Order.acquires o then .ok ((s.queueAtoms op dbl atoms).takePops a.after) ()
      else
        (if anyOutside lanes then s.atClearingL else .ok s ()).bind (fun s _ =>
          (s.performAtoms false scope (some op) dbl atoms).bind (fun s _ => .ok (s.takePops a.after) ())))))

/-! ### An atomic that reaches a home from another agent -/

/-- The old value goes back to the agent. A missing page, or one that admits no atomic, answers an error, which the agent
turns into its own outcome. -/
def execAtomicRequest (r : AtomReq) (s : State) : Result :=
  match s.ctxOf r.ctx with
  | none => .next (s.send [.error])
  | some c =>
    if (writeVerdict s.dev c r.ia (widthOf r.dbl)).isSome then .next (s.send [.error])
    else match (s.quiesce r.ctx r.ia).homeAtomic c (.other r.die r.quad) r.op r.dbl r.ia r.operand r.expected with
      | .absent _ => .next (s.send [.error])
      | .hold s => .next (s.send [.error])
      | .ok s (_, true) => .next (s.send [.error])
      | .ok s (old, false) => .next (s.send [.value (ofBytes 64 old)])

end Sys2Proof.Machine
end

