-- ==== Sys2Proof/Machine/HomeAccess.lean ====
section
/-!
DEFINITION. Accesses that reach the homes from no L1: those of engines, of Welhal, of the host and of a debugger (09:R175;
13:R257; 24:R391). Each is one step: copies that stand in its way are recalled at once.
-/

namespace Sys2Proof.Machine

open Sys2Proof

/-- What an access by virtual address meets: it is performed, no range register admits it, its page is missing, or its
page admits no such write. -/
inductive Reach (α : Type) where
  | ok (s : State) (x : α)
  | fault (detail : Nat)
  | missing (kind ia : Nat)
  | refused (code : BitVec 8) (detail : Nat)

def Reach.bind {α β : Type} (r : Reach α) (f : State → α → Reach β) : Reach β :=
  match r with
  | .ok s x => f s x
  | .fault d => .fault d
  | .missing k ia => .missing k ia
  | .refused c d => .refused c d

/-- Admission at the home in one step. -/
def State.admitNow (s : State) (c : Context) (die quad : Nat) (write : Bool) (ia : Nat) : Adm Page :=
  match s.letIn c (.other die quad) write true true ia with
  | .ok s p => .ok s p
  | .absent k => .absent k
  | .hold _ => (if write then s.quiesce c.num ia else s.quiesceRead c.num ia).letIn c (.other die quad) write true true ia

/-- Pages whose drop some package has not acknowledged yet. -/
def State.dropsOpen (s : State) (keys : List Nat) : Bool := s.dev.drops.any (fun x => keys.contains x.1)

/-- A region of which every page has been withdrawn is not homed any more: its next touch homes it anew (17:R294). -/
def State.unhome (s : State) (page : Nat) : State :=
  let there (c : Context) : Bool := match walkEntry s.dev c (page * 65536) with
    | .page _ => true
    | .absent => s.dev.away c (page * 65536)
    | .malformed => true
  if (s.ctx :: s.ctxs).any there || (s.dev.regionTab.get page).getLsbD 30 then s
  else { s with dev := { s.dev with regionTab := s.dev.regionTab.set page 0 } }

/-- Bytes cut where lines end. -/
def cutLines : Nat → Nat → List Byte → List (Nat × List Byte)
  | 0, _, _ => []
  | fuel + 1, a, bs =>
    let n := 128 - a % 128
    if bs.isEmpty then [] else (a, bs.take n) :: cutLines fuel (a + n) (bs.drop n)

/-- A range of addresses cut where lines end: address and length. -/
def cutRange : Nat → Nat → Nat → List (Nat × Nat)
  | 0, _, _ => []
  | fuel + 1, a, n =>
    let k := min n (128 - a % 128)
    if n = 0 then [] else (a, k) :: cutRange fuel (a + k) (n - k)

/-- Read bytes of one line. The second part says that the line cannot be read. -/
def State.reachRead (s : State) (c : Context) (die quad a n : Nat) : Reach (List Byte × Bool) :=
  match check c (BitVec.ofNat 64 a) .r with
  | .fault d => .fault d
  | .growth _ => .fault 0
  | .ok ia =>
    match s.admitNow c die quad false ia with
    | .absent k => .missing k ia
    | .hold _ => .missing 1 ia
    | .ok s p => .ok s (s.homeRead p ia n)

/-- Write bytes of one line. -/
def State.reachWrite (s : State) (c : Context) (die quad a : Nat) (bs : List Byte) : Reach Unit :=
  match check c (BitVec.ofNat 64 a) .w with
  | .fault d => .fault d
  | .growth _ => .fault 0
  | .ok ia =>
    match missingKind s.dev c ia with
    | some k => .missing k ia
    | none =>
      match writeVerdict s.dev c ia bs.length with
      | some (code, d) => .refused code d
      | none =>
        match s.admitNow c die quad true ia with
        | .absent k => .missing k ia
        | .hold _ => .missing 1 ia
        | .ok s p => .ok (s.homeWrite c.num none p ia bs) ()

/-- Read a run of bytes, line after line. -/
def State.reachReads (c : Context) (die quad : Nat) : List (Nat × Nat) → State → List Byte → Bool → Reach (List Byte × Bool)
  | [], s, bs, bad => .ok s (bs, bad)
  | (a, n) :: rest, s, bs, bad =>
    match s.reachRead c die quad a n with
    | .ok s (x, b) => State.reachReads c die quad rest s (bs ++ x) (bad || b)
    | .fault d => .fault d
    | .missing k ia => .missing k ia
    | .refused k d => .refused k d

/-- Write a run of bytes, line after line. -/
def State.reachWrites (c : Context) (die quad : Nat) : List (Nat × List Byte) → State → Reach Unit
  | [], s => .ok s ()
  | (a, bs) :: rest, s =>
    match s.reachWrite c die quad a bs with
    | .ok s _ => State.reachWrites c die quad rest s
    | .fault d => .fault d
    | .missing k ia => .missing k ia
    | .refused k d => .refused k d

def State.getBytes (s : State) (c : Context) (die quad a n : Nat) : Reach (List Byte × Bool) :=
  State.reachReads c die quad (cutRange (n / 128 + 2) a n) s [] false

def State.putBytes (s : State) (c : Context) (die quad a : Nat) (bs : List Byte) : Reach Unit :=
  State.reachWrites c die quad (cutLines (bs.length / 128 + 2) a bs) s

/-- Whether every line of a run could be written, and if not the reason. -/
def State.canPut (s : State) (c : Context) (die quad a n : Nat) : Reach Unit :=
  match s.putBytes c die quad a (List.replicate n 0) with
  | .ok _ _ => .ok s ()
  | .fault d => .fault d
  | .missing k ia => .missing k ia
  | .refused k d => .refused k d

/-- The doubleword at byte 8 k of bytes read. -/
def wordAt (bs : List Byte) (k : Nat) : W64 := ofBytes 64 ((bs.drop (8 * k)).take 8)

/-- The bytes of doublewords. -/
def bytesOf (ws : List W64) : List Byte := ws.flatMap (toBytes 8)

end Sys2Proof.Machine
end

