-- ==== Sys2Proof/Machine/LaneMemory.lean ====
section
/-!
DEFINITION. Lane loads, stores, pushes, discards and prefetches (10:R190 to R199, R202, R203).
-/

namespace Sys2Proof.Machine

open Sys2Proof

/-! ### Loads (10:R196, R197) -/

/-- A loaded value, extended under .SX from its own width. -/
def loadValue (sz : MemSize) (sx : Bool) (bs : List Byte) : BitVec 128 :=
  match sz with
  | .b => if sx then ((ofBytes 8 bs).signExtend 32).zeroExtend 128 else ofBytes 128 bs
  | .h => if sx then ((ofBytes 16 bs).signExtend 32).zeroExtend 128 else ofBytes 128 bs
  | .w => ofBytes 128 bs
  | .d => ofBytes 128 bs
  | .q => ofBytes 128 bs

/-- Word k of a value. -/
def valueWord (x : BitVec 128) (k : Nat) : W32 := (x >>> (32 * k)).truncate 32

/-- The value of a lane among those loaded. -/
def laneValue (sz : MemSize) (sx : Bool) (got : List (Nat × List Byte)) (l : Nat) : BitVec 128 :=
  loadValue sz sx (((got.find? (fun x => x.1 == l)).map Prod.snd).getD [])

/-- A policy other than .L1 reads at the home (09:R175). -/
def Policy.home : Policy → Bool
  | .l1 => false | .h => true | .s => true

def execLd (g : Guard) (sz : MemSize) (sc : Scale) (pol : Policy) (sx : Bool) (d : VReg) (base : SReg) (off : Value) (disp : W32)
    (s : State) : Result :=
  .next (s.laneAccess (Instr.use (.ld g sz sc pol sx d base off disp)) (fun a s =>
    let lanes := a.addrs sc.mul disp
    (s.issueAccess [.r] true sz.bytes sz.bytes lanes).bind (fun s _ =>
      (s.laneLoad sz.bytes (Policy.home pol) false lanes).bind (fun s got =>
        .ok ((s.takePops a.after).writeGroup d.toNat sz.regs a.m (fun l =>
          (List.range sz.regs).map (valueWord (laneValue sz sx got.1 l)))) ()))))

/-- The registers of a detached load, empty until its fill: those of lanes that were active wait for their data. -/
def Warp.detach (w : Warp) (d count : Nat) (m : Mask) (addrs : List LaneAddr) : Warp :=
  if m = 0 then w
  else
    let regs := (List.range count).map (fun k => d + k)
    let bits : BitVec 192 := regs.foldl (fun b n => b ||| (1 <<< n)) 0
    { w with
      empty := w.empty ||| bits
      poison := w.poison &&& ~~~bits
      nextId := w.nextId + 1
      fills := w.fills.filter (fun f => !regs.contains f.reg) ++
        (List.range count).map (fun k => ⟨w.nextId, d + k, k, m, 0, 0, addrs⟩) }

/-- LDX: the lanes' translations are confirmed before it retires; its data come with the fill. -/
def execLdx (g : Guard) (sz : MemSize) (sc : Scale) (pol : Policy) (sx : Bool) (d : VReg) (base : SReg) (off : Value) (disp : W32)
    (s : State) : Result :=
  .next (s.laneAccess (Instr.use (.ldx g sz sc pol sx d base off disp)) (fun a s =>
    let lanes := a.addrs sc.mul disp
    (s.issueAccess [.r] true sz.bytes sz.bytes lanes).bind (fun s _ =>
      (s.laneConfirm sz.bytes (Policy.home pol) lanes).bind (fun s _ =>
        (s.laneLoad sz.bytes (Policy.home pol) true lanes).bind (fun s got =>
          let id := s.warp.nextId
          let data := a.m.lanes.map (fun l => (l, laneValue sz sx got.1 l))
          let s := (s.takePops a.after).onWarp (fun w => w.detach d.toNat sz.regs a.m lanes)
          .ok (if a.m = 0 then s else s.post [.ldxFill s.warp.key id data got.2]) ())))))

/-- The data of lanes for one register of a detached load. -/
def Warp.fillReg (w : Warp) (f : Fill) (data : List (Nat × BitVec 128)) (poison : Mask) : Warp :=
  let here := data.filter (fun x => f.lanes.has x.1)
  let arrived := f.arrived ||| maskOf (here.map Prod.fst)
  let bad := f.poison ||| (poison &&& f.lanes)
  let bit : BitVec 192 := 1 <<< f.reg
  let full := arrived == f.lanes
  { w with
    v := Store.setAll w.v (here.map (fun x => (32 * f.reg + x.1, valueWord x.2 f.word)))
    empty := if full then w.empty &&& ~~~bit else w.empty
    poison := if full && bad != 0 then w.poison ||| bit else w.poison
    fills := if full && bad == 0 then w.fills.filter (fun y => y.reg != f.reg)
      else w.fills.map (fun y => if y.reg = f.reg then { y with arrived := arrived, poison := bad } else y) }

/-- A fill arrives: registers that a younger instruction has written meanwhile are no longer listed, and do not change
(01:R16, R18). -/
def execLdxFill (w : WarpKey) (id : Nat) (data : List (Nat × BitVec 128)) (poison : Mask) (s : State) : Result :=
  match s.warpOf w with
  | none => .next s
  | some x =>
    let regs := x.fills.filter (fun f => f.id == id)
    let y := (regs.foldl (fun y f => y.fillReg f data poison) x).released
    .next (s.setWarp { y with laneStalled := false, scalStalled := false })

/-! ### Stores and pushes (10:R198, R199) -/

/-- The data of the lanes of a store: the low bytes of the words of each lane. -/
def storeData (n : Nat) (lanes : List LaneAddr) (y : Nat → List W32) : List (Nat × W64 × List Byte) :=
  lanes.map (fun x => (x.1, x.2, ((y x.1).flatMap (fun w => toBytes 4 w)).take n))

/-- A lane store, or with a destination set a push. -/
def State.laneWrite (s : State) (u : LaneUse) (sz : MemSize) (sc : Scale) (push : Option SReg) (disp : W32) : State :=
  s.laneAccess u (fun a s =>
    let lanes := a.addrs sc.mul disp
    (s.issueAccess [.w] push.isNone sz.bytes sz.bytes lanes).bind (fun s _ =>
      (s.laneStore sz.bytes (push.map s.src64) (storeData sz.bytes lanes a.data)).bind (fun s _ => .ok (s.takePops a.after) ())))

def execSt (g : Guard) (sz : MemSize) (sc : Scale) (pol : Policy) (base : SReg) (off : Value) (disp : W32) (c : Value)
    (s : State) : Result :=
  .next (s.laneWrite (Instr.use (.st g sz sc pol base off disp c)) sz sc none disp)

def execPush (g : Guard) (sz : MemSize) (sc : Scale) (ds base : SReg) (off : Value) (disp : W32) (c : Value)
    (s : State) : Result :=
  .next (s.laneWrite (Instr.use (.push g sz sc ds base off disp c)) sz sc (some ds) disp)

/-! ### Discard and prefetch (10:R202, R203) -/

/-- DISC of one line: held dirty on a page private to the core it is dropped with its dirty bytes; an owned line is given up
with the data that its home holds (17:R297). -/
def State.discLine (s : State) (core line : Nat) : State :=
  let (cn, ia) := untag line
  let priv := match (s.ctxOf cn).map (fun c => walk s.dev c ia) with
    | some (.page p) => p.cls == 0 && p.share == 1 && p.owner == core
    | _ => false
  match (s.coreOf core).find line with
  | none => s
  | some l =>
    if l.st = .pd then s.setCore ((s.coreOf core).drop line)
    else if l.st = .ox && priv then
      match (s.ctxOf cn).bind (fun c => s.fetchLine c ia) with
      | none => s
      | some (x, _) =>
        if x = l.data then s
        else (s.setCore ((s.coreOf core).drop line)).post [.evx (s.sliceFor core line) line (.core core) x]
    else s

/-- DISC drops the lines that the core holds dirty on a private page, unless the launch is deterministic (10:R214). -/
def execDisc (g : Guard) (sc : Scale) (base : SReg) (off : Value) (disp : W32) (s : State) : Result :=
  .next (s.laneAccess (Instr.use (.disc g sc base off disp)) (fun a s =>
    let lanes := a.addrs sc.mul disp
    match addrTrap s [.w] true true 1 1 lanes with
    | some trap => .trap s trap
    | none =>
      match growing s.ctx [.w] lanes with
      | y :: rest => .wait (s.parkGrowth true [.w] false (y :: rest)) 9
      | [] =>
        let lines := ((lanes.filter (fun y => !inAperture y.2)).map (fun y => tagged s.ctx.num (iaOf s.ctx .w y.2))).eraseDups
        if s.warp.wbuf.any (fun e => lines.contains e.line) then .wait s 15
        else if s.team.det then .ok (s.takePops a.after) ()
        else .ok ((lines.foldl (fun s l => s.discLine s.team.core l) s).takePops a.after) ()))

/-- The intermediate address of a virtual address that some range register covers, whatever its permissions. -/
def coveredIa (c : Context) (a : W64) : Option Nat :=
  if 2 ^ 56 ≤ a.toNat then none
  else (c.ranges.find? (fun g => g.valid && decide (g.vbase ≤ a.toNat) && decide (a.toNat < g.vlimit))).map
    (fun g => (a.toNat + g.offset) % 2 ^ 52)

/-- PREF asks for the lines of its lanes; a lane that no range register covers is not prefetched. -/
def execPref (g : Guard) (sc : Scale) (home : Bool) (base : SReg) (off : Value) (disp : W32) (s : State) : Result :=
  .next (s.laneAccess (Instr.use (.pref g sc home base off disp)) (fun a s =>
    let lanes := (a.addrs sc.mul disp).filter (fun y => !inAperture y.2)
    let lines := ((lanes.filterMap (fun y => coveredIa s.ctx y.2)).map (fun ia => ia / 128)).eraseDups
    let asks := lines.map (fun n =>
      Instr.loadRequest ⟨s.warp.key, n, if home then .prefHome else .prefL1, s.warp.begins⟩)
    .ok ((s.takePops a.after).post asks) ()))

end Sys2Proof.Machine
end

