-- ==== Sys2Proof/Machine/Appends.lean ====
section
/-!
DEFINITION. Append extents (10:R204 to R206, R210, R211): APPEND, TAILQ, SEAL, EXTFREE, and their requests at the tail home.
-/

namespace Sys2Proof.Machine

open Sys2Proof

/-! ### Writing a span -/

/-- Write bytes into an extent's pages from its tail home; the answer says whether a line that is only partly written could
not be read. -/
def State.writeSpan (s : State) (c : Context) (h : HomeOf) (a : Nat) (bs : List Byte) : State × Bool :=
  (cutLines (bs.length / 128 + 2) a bs).foldl (fun (r : State × Bool) x =>
    let ia := iaOf c .w (BitVec.ofNat 64 x.1)
    match walk r.1.dev c ia with
    | .page p =>
      let bad := decide (x.2.length < 128) && r.1.dev.bad.contains (p.phys ia / 128)
      (({ r.1 with dev := r.1.dev.touch (ia / 65536) h.die h.quad }).homeWrite c.num none p ia x.2, r.2 || bad)
    | .absent => r
    | .malformed => r) (s, false)

def Extent.size (x : Extent) : Nat := 65536 * x.pages

/-- What an APPEND of elements finds at the tail home (10:R205). -/
inductive Appended where
  | fail
  /-- a page of the span is missing (10:R193) -/
  | missing (kind ia : Nat)
  | at (start : Nat) (bad : Bool)
  deriving DecidableEq, Repr

/-- The first page of a span that is missing, and the ticket kind. -/
def spanMissing (d : Device) (c : Context) (a n : Nat) : Option (Nat × Nat) :=
  (cutRange (n / 128 + 2) a n).findSome? (fun x =>
    let ia := iaOf c .w (BitVec.ofNat 64 x.1)
    (missingKind d c ia).map (fun k => (k, ia)))

/-- One append at the tail home: the span is reserved, its padding and elements are written, and the committed tail
reaches its end. Nothing is reserved while a page of the span is missing. -/
def State.appendSpan (s : State) (cn : Nat) (h : HomeOf) (x : Extent) (n : Nat) (bs : List Byte) : State × Appended :=
  match s.ctxOf cn with
  | none => (s, .fail)
  | some c =>
    let start := (x.reserved + n - 1) / n * n
    if x.size < start + bs.length then (s, .fail)
    else
      let pad := List.replicate (start - x.reserved) (0 : Byte)
      match spanMissing s.dev c (x.base + x.reserved) (pad ++ bs).length with
      | some (k, ia) => (s, .missing k ia)
      | none =>
        let (s, bad) := s.writeSpan c h (x.base + x.reserved) (pad ++ bs)
        let whole := x.committed == x.reserved
        let x := { x with reserved := start + bs.length, committed := if whole then start + bs.length else x.committed }
        ((match s.ctxOf cn with | some c => s.setCtx (c.setExtent x) | none => s), .at start bad)

/-- The extent that an append or a tail query names, after the checks of the memory side: the page of the address is
missing, or is of no append class, or belongs to no extent. -/
inductive ExtentFind where
  | missing (kind ia : Nat)
  | wrongClass
  | found (x : Extent)

def State.extentFor (s : State) (c : Context) (ia : Nat) (a : W64) : ExtentFind :=
  match walk s.dev c ia with
  | .absent => .missing (absentKind s.dev c ia) ia
  | .malformed => .missing 3 ia
  | .page p =>
    if p.cls = 1 || p.cls = 2 then
      match extentAt c a with
      | some x => .found x
      | none => .wrongClass
    else .wrongClass

/-- A trap of all active lanes at one address. -/
def extentTrap (code : BitVec 8) (m : Mask) (a : W64) : MemTrap := ⟨code, m, a, 0, 0⟩

/-- The checks at issue of APPEND and TAILQ. A word that has passed them keeps the address that they gave (20:R317); one that has
parked passes them again (R328). -/
def State.issueExtent (s : State) (p : Perm) (m : Mask) (size : Nat) (a : W64) : Res Unit :=
  let lanes := m.lanes.map (fun l => (l, a))
  if s.warp.headEntry.any (fun e => e.fault == 0 && !e.ias.isEmpty) then .ok s ()
  else match addrTrap s [p] false true 1 size lanes with
    | some t => .trap s t
    | none =>
      match growing s.ctx [p] lanes with
      | y :: rest => .wait (s.parkGrowth true [p] false (y :: rest)) 9
      | [] => .ok (s.onHead (fun e => { e with fault := 0, ias := s.iasOf p lanes })) ()

/-- Every lane of an APPEND or a TAILQ parks under one ticket. -/
def State.parkExtent (s : State) (m : Mask) (kind ia : Nat) (a : W64) (write : Bool) : State :=
  (s.park true m kind ia a write false).onHead (fun e => { e with fault := m })

/-- The front of APPEND and TAILQ with an active lane: the checks at issue, then the extent. -/
def State.extentFront (s : State) (m : Mask) (write : Bool) (size : Nat) (a : W64) : Res Extent :=
  let p : Perm := if write then .w else .r
  (s.issueExtent p m size a).bind (fun s _ =>
    match s.extentFor s.ctx (s.laneIa p ((m.lanes.head?).getD 0, a)) a with
    | .missing k ia => .wait (s.parkExtent m k ia a write) 9
    | .wrongClass => .trap s (extentTrap Code.appendClass m a)
    | .found x =>
      let ia := iaOf s.ctx p (BitVec.ofNat 64 x.base)
      if s.homeBusy ia || s.homeHolds (s.home ia) true then .wait s (s.homeReason ia) else .ok s x)

/-- The address that names an extent: Src64(A) + SignExtend(I, 32). -/
def LaneArgs.extentAddr (a : LaneArgs) (disp : W32) : W64 := a.base + sext64 disp

/-! ### APPEND and TAILQ (10:R205, R206) -/

def execAppend (g : Guard) (sz : MemSize) (q : Pred) (d : VReg) (base : SReg) (disp : W32) (c : Value) (s : State) : Result :=
  .next (s.laneAccess (Instr.use (.append g sz q d base disp c)) (fun args s =>
    let m := args.m
    let a := args.extentAddr disp
    if m = 0 then .ok s ()
    else (s.extentFront m true sz.bytes a).bind (fun s x =>
      if x.closed then .trap s (extentTrap Code.writeAfterSeal m a)
      else (s.atClearingL).bind (fun s _ =>
        let bs := (storeData sz.bytes (m.lanes.map (fun l => (l, a))) args.data).flatMap (fun z => z.2.2)
        match s.appendSpan s.ctx.num (s.home (iaOf s.ctx .w (BitVec.ofNat 64 x.base))) x sz.bytes bs with
        | (s, .fail) => .ok ((s.takePops args.after).writeP q m (fun _ => false)) ()
        | (s, .missing k ia) => .wait (s.parkExtent m k ia a true) 9
        | (s, .at _ true) => .trap s (extentTrap Code.eccFatal m a)
        | (s, .at start false) =>
          let rank (l : Nat) : Nat := (m.lanes.filter (fun k => decide (k < l))).length
          .ok (((s.takePops args.after).writeV d.toNat m (fun l => BitVec.ofNat 32 (start + sz.bytes * rank l))).writeP q m
            (fun _ => true)) ()))))

/-- The committed tail, with bit 31 set once the extent is sealed. -/
def Extent.tail (x : Extent) : W32 := BitVec.ofNat 32 (x.committed % 2 ^ 31 + (if x.sealed then 2 ^ 31 else 0))

/-- TAILQ reads the extent's entry at the tail home: an uncorrectable error there is ECC_FATAL (R193). -/
def execTailq (g : Guard) (d : VReg) (base : SReg) (disp : W32) (s : State) : Result :=
  .next (s.laneAccess (Instr.use (.tailq g d base disp)) (fun args s =>
    let m := args.m
    let a := args.extentAddr disp
    if m = 0 then .ok s ()
    else (s.extentFront m false 4 a).bind (fun s x =>
      if x.bad then .trap s (extentTrap Code.eccFatal m a)
      else .ok (s.writeV d.toNat m (fun _ => x.tail)) ())))

/-- An append that reaches the tail home from elsewhere: it answers the start, or all ones where the extent is full. -/
def execAppendRequest (ctx : Nat) (addr : W64) (sz : MemSize) (elems : List (BitVec 128)) (s : State) : Result :=
  match s.ctxOf ctx with
  | none => .next (s.send [.error])
  | some c =>
    match s.extentFor c (iaOf c .w addr) addr with
    | .missing _ _ => .next (s.send [.error])
    | .wrongClass => .next (s.send [.error])
    | .found x =>
      if x.closed then .next (s.send [.error])
      else match s.appendSpan ctx (homeOf s.dev (iaOf c .w (BitVec.ofNat 64 x.base))) x sz.bytes (elems.flatMap (fun e => toBytes sz.bytes e)) with
        | (s, .fail) => .next (s.send [.value (BitVec.allOnes 64)])
        | (s, .missing _ _) => .next (s.send [.error])
        | (s, .at _ true) => .next (s.send [.error])
        | (s, .at start false) => .next (s.send [.value (BitVec.ofNat 64 start)])

def execTailqRequest (ctx : Nat) (addr : W64) (s : State) : Result :=
  match s.ctxOf ctx with
  | none => .next (s.send [.error])
  | some c =>
    match s.extentFor c (iaOf c .r addr) addr with
    | .missing _ _ => .next (s.send [.error])
    | .wrongClass => .next (s.send [.error])
    | .found x => .next (s.send [if x.bad then .trap Code.eccFatal 0 else .value (zext64 x.tail)])

/-! ### SEAL (10:R210) -/

/-- Mark an extent sealed: its pages take class sealed, and have no page record any more (24:R387). -/
def State.sealPages (s : State) (x : Extent) : State :=
  let s := { s with ctx := s.ctx.setExtent { x with closed := true, sealed := true } }
  (List.range x.pages).foldl (fun s k =>
    match walkEntry s.dev s.ctx (iaOf s.ctx .r (BitVec.ofNat 64 (x.base + 65536 * k))) with
    | .page p =>
      let page := iaOf s.ctx .r (BitVec.ofNat 64 (x.base + 65536 * k)) / 65536
      { s with dev := { s.dev.putPage p (setClass 2) with pageRecs := s.dev.pageRecs.set (s.dev.recordKey s.ctx page) 0 } }
    | .absent => s
    | .malformed => s) s

/-- A SEAL at the tail home: it closes the extent, and seals it once the committed tail equals the reserved one. The
status is none while it waits. -/
def State.sealAt (s : State) (a : W64) (waiting : Bool) : State × Option Nat :=
  match (if inAperture a then none else extentAt s.ctx a) with
  | none => (s, some 2)
  | some x =>
    if x.sealed || (x.closed && !waiting) then (s, some 1)
    else if x.committed = x.reserved then (s.sealPages x, some 0)
    else ({ s with ctx := s.ctx.setExtent { x with closed := true } }, none)

/-- The front of SEAL: the aperture needs no permission. -/
def State.sealFront (s : State) (a : W64) : Res Unit := if inAperture a then .ok s () else s.issueScalar [.w] false 1 1 a

def execSeal (d a : SReg) (s : State) : Result :=
  s.scalarRun (fun s =>
    let addr := s.S a
    (s.needs 8).bind (fun s _ => (s.lanesRetired 0).bind (fun s _ => s.takeReport.bind (fun s _ => (s.sealFront addr).bind (fun s _ =>
     s.atClearingS.bind (fun s _ =>
      match s.sealAt addr s.warp.sealing with
      | (s, some n) => (s.onWarp (fun w => { w with sealing := false })).give d (BitVec.ofNat 64 n)
      | (s, none) => .wait (s.onWarp (fun w => { w with sealing := true })) 15))))))

/-- The request of a warp's SEAL at the tail home: the extent is closed, and sealed as soon as it can be. -/
def execSealRequest (w : WarpKey) (addr : W64) (s : State) : Result :=
  match s.warpOf w with
  | none => .next s
  | some _ => .next (s.asWarp w (fun s => (s.sealAt addr true).1))

/-! ### EXTFREE (10:R211) -/

/-- The intermediate pages of an extent. -/
def State.extentPages (s : State) (x : Extent) : List Nat :=
  (List.range x.pages).map (fun k => iaOf s.ctx .r (BitVec.ofNat 64 (x.base + 65536 * k)) / 65536)

/-- The pages of an extent are not present from then on. -/
def State.freePages (s : State) (x : Extent) : State :=
  (s.extentPages x).foldl (fun s page =>
    let s := s.recallRange s.ctx.num (page * 65536) 65536 true
    match walkEntry s.dev s.ctx (page * 65536) with
    | .page p =>
      let key := s.dev.recordKey s.ctx page
      ({ s with dev := { s.dev.putPage p (fun _ => 0) with pageRecs := s.dev.pageRecs.set key 0 } }).unhome page
    | .absent => s
    | .malformed => s) s

/-- The withdrawal of an extent begins: its pages are held at their homes, so that no replica comes into being any more, and the
packages that may have replicas drop them (20:R323; R211). -/
def State.beginFree (s : State) (x : Extent) (keys : List Nat) : State :=
  let s := { s with ctx := s.ctx.setExtent { x with freeing := true }, dev := { s.dev with pagesHeld := s.dev.pagesHeld ++ keys } }
  s.dropPages keys s.ctx.pkgs

/-- It ends: the pages and the entry go; Welhal then answers the tickets that wait for them (`State.serveHolds`). -/
def State.endFree (s : State) (x : Extent) (keys : List Nat) : State :=
  let s := ({ s with dev := { s.dev with pagesHeld := s.dev.pagesHeld.filter (fun k => !keys.contains k) } } : State).freePages x
  ({ s with ctx := { s.ctx with extents := s.ctx.extents.filter (fun y => y.base != x.base) } })

/-- Replicas that other packages hold of an extent's pages go first, and every drop is acknowledged (R211); with none to wait
for, the extent's pages and its entry go. -/
def State.freeExtent (s : State) (x : Extent) : Res Unit :=
  let keys := (s.extentPages x).map (pageKey s.ctx.num)
  let s := if x.freeing then s else s.beginFree x keys
  if s.dropsOpen keys then .wait (s.onWarp (fun w => { w with onPages := true })) 15
  else .ok (s.endFree x keys) ()

/-- Withdrawals of the front context's extents whose EXTFREE has been stopped or killed end like the others. -/
def State.endFrees (s : State) : State :=
  if s.allWarps.any (fun w => w.onPages) then s
  else (s.ctx.extents.filter (fun x => x.freeing)).foldl (fun s x =>
    let keys := (s.extentPages x).map (pageKey s.ctx.num)
    if s.dropsOpen keys then s else s.endFree x keys) s

def execExtfree (d a : SReg) (s : State) : Result :=
  s.scalarRun (fun s =>
    let addr := s.S a
    (s.needs 8).bind (fun s _ => (s.sealFront addr).bind (fun s _ => s.atClearingS.bind (fun s _ =>
      match (if inAperture addr then none else extentAt s.ctx addr) with
      | none => s.give d 2
      | some x =>
        if !x.sealed then s.give d 3
        else (s.freeExtent x).bind (fun s _ => s.give d 0)))))

end Sys2Proof.Machine
end

