-- ==== Sys2Proof/Machine/Barriers.lean ====
section
/-!
DEFINITION. Barriers (14:R262 to R266): BAR, the arrival of a warp at an episode, and the release.
-/

namespace Sys2Proof.Machine

open Sys2Proof

/-- The scope that matches a level. -/
def levelScope (level : Nat) : Scope :=
  match level with | 0 => .team | 1 => .quad | 2 => .die | _ => .pkg

/-- BAR_SCOPE: a level above TEAM needs CORES or DET (14:R263). -/
def State.barScope (s : State) (level : Nat) : Res Unit :=
  if level ≠ 0 ∧ !s.team.cores ∧ !s.team.det then .trap s (trapOf Code.barScope 0 0) else .ok s ()

/-- The stall reason of the wait: under DET a barrier above TEAM is released at a clearing. -/
def State.barReason (s : State) (level : Nat) : Nat := if s.team.det && level != 0 then 14 else 13

/-- BAR: the warp arrives once, waits for the release of that episode, and then begins a phase. -/
def execBar (level : BitVec 2) (id : BitVec 13) (s : State) : Result :=
  let n := level.toNat
  let mine (b : BarWait) : Bool := b.level == n && b.id == id.toNat
  match s.warp.bar.find? mine with
  | some b =>
    if b.released then
      .next (((s.onWarp (fun w => { w with bar := w.bar.filter (fun x => !mine x) })).begin (levelScope n)).retire)
    else .next (s.waitScalar (s.barReason n))
  | none =>
    s.scalarRun (fun s => s.takeReport.bind (fun s _ => (s.barScope n).bind (fun s _ => s.ended.bind (fun s _ =>
      .wait ((s.onWarp (fun w => { w with bar := w.bar ++ [⟨n, id.toNat, false⟩] })).post [.barArrival s.warp.key n id.toNat])
        (s.barReason n)))))

/-- The unit in which a team's barrier stands: the launch as a whole for one that the clearing releases. -/
def Team.barUnit (t : Team) (level : Nat) : Nat := if t.det && level != 0 then 0 else Machine.barUnit level t.core t.key

/-- An arrival counts towards the episode in progress. -/
def State.arrive (s : State) (t : Team) (w : WarpKey) (level id : Nat) : State :=
  let unit := t.barUnit level
  let same (b : Bar) : Bool := b.launch == w.launch && b.level == level && b.id == id && b.unit == unit
  let bars := if s.dev.bars.any same then s.dev.bars else s.dev.bars ++ [⟨w.launch, level, id, unit, []⟩]
  ({ s with dev := { s.dev with bars := bars.map (fun b =>
      if same b then { b with arrived := b.arrived ++ [(w.team, w.warp)] } else b) } }).releaseBars

/-- BAR_ARRIVAL: an arrival that has been sent stands; one of a warp that was killed meanwhile counts for nothing. -/
def execBarArrival (w : WarpKey) (level id : Nat) (s : State) : Result :=
  match s.warpOf w, s.teamOf w.teamKey with
  | some x, some t => if x.bar.any (fun b => b.level == level && b.id == id && !b.released) then .next (s.arrive t w level id) else .next s
  | _, _ => .next s

/-- Release the warps of an episode. -/
def State.releaseBar (s : State) (b : Bar) : State :=
  let s := { s with dev := { s.dev with bars := s.dev.bars.filter (fun x => x != b) } }
  s.mapWarps (fun w => w.key.launch == b.launch && b.arrived.contains (w.key.team, w.key.warp) &&
      w.bar.any (fun x => x.level == b.level && x.id == b.id))
    (fun w => { w with
      bar := w.bar.map (fun x => if x.level = b.level ∧ x.id = b.id then { x with released := true } else x)
      scalStalled := false })

/-- BAR_RELEASE: no warp is released before every participant of the episode has arrived. -/
def execBarRelease (launch level id unit : Nat) (s : State) : Result :=
  match s.dev.bars.find? (fun b => b.launch == launch && b.level == level && b.id == id && b.unit == unit) with
  | none => .next s
  | some b => if s.barMissing b then .next s else .next (s.releaseBar b)

end Sys2Proof.Machine
end

