-- ==== Sys2Proof/Machine/Groups.lean ====
section
/-!
DEFINITION. Groups of collectives (22:R365), the chunks of an operation (22:R367, R368), and the slots of a die's collective engine
(22:R370).
-/

namespace Sys2Proof.Machine

open Sys2Proof

/-! ### Groups (22:R365) -/

/-- The group of a handle. -/
def Context.groupOf (c : Context) (handle : Nat) : Option Group := c.groups.find? (fun g => g.handle == handle)
def Context.setGroup (c : Context) (g : Group) : Context :=
  { c with groups := c.groups.map (fun x => if x.handle = g.handle then g else x) }

namespace Group
/-- M. -/
def m (g : Group) : Nat := g.members.length
/-- The member that a team of a package is. -/
def indexOf (g : Group) (p : BitVec 12) (team : Nat) : Option Nat := g.members.findIdx? (fun x => x.1 == p && x.2 == team)
/-- The members on a package. -/
def localTo (g : Group) (p : BitVec 12) : List Nat :=
  (List.range g.m).filter (fun j => (g.members.getD j (0, 0)).1 == p)
def countAt (g : Group) (j : Nat) : Nat := g.counts.getD j 0
end Group

/-- The launch that holds a group; a launch that has completed holds nothing. -/
def State.groupHolder (s : State) (g : Group) : Option Nat :=
  match g.holder with
  | none => none
  | some n => match s.launchOf n with
    | some l => if l.status = 0 then some n else none
    | none => none

/-! ### The chunks of an operation (22:R367, R368) -/

/-- Elements of a chunk. -/
def chunkElems : Nat := 16384

namespace TaskRec
/-- Chunks of a run of count elements. -/
def runChunks (r : TaskRec) : Nat := (r.collCount + chunkElems - 1) / chunkElems
/-- Whether an operation has one run for each member, its chunks numbered member by member. -/
def sliced (r : TaskRec) : Bool := r.collOp == 1 || r.collOp == 2
/-- All chunks. -/
def chunks (r : TaskRec) (m : Nat) : Nat := if r.sliced then m * r.runChunks else r.runChunks
/-- The member whose run a chunk lies in, and its first element there. -/
def chunkRun (r : TaskRec) (chunk : Nat) : Nat := if r.sliced then chunk / r.runChunks else 0
def chunkFirst (r : TaskRec) (chunk : Nat) : Nat := (if r.sliced then chunk % r.runChunks else chunk) * chunkElems
def chunkLen (r : TaskRec) (chunk : Nat) : Nat := min chunkElems (r.collCount - r.chunkFirst chunk)
/-- The element index in the buffer that is folded (22:R369). -/
def chunkBase (r : TaskRec) (chunk : Nat) : Nat := r.chunkRun chunk * r.collCount + r.chunkFirst chunk
/-- Whether a member's send buffer is read for a chunk, and whether its recv buffer receives it. -/
def sources (r : TaskRec) (chunk j : Nat) : Bool :=
  if r.collOp = 2 then r.chunkRun chunk == j else if r.collOp = 3 then r.collRoot == j else true
def receives (r : TaskRec) (chunk j : Nat) : Bool := if r.collOp = 1 then r.chunkRun chunk == j else true
/-- The member that owns a chunk (22:R368): in turn for all-reduce, the member whose slice it lies in for reduce-scatter; one that
is only copied is owned by the member that holds it (DEDUCED, log 45). -/
def ownerOf (r : TaskRec) (m chunk : Nat) : Nat :=
  if r.collOp = 0 then chunk % m else if r.collOp = 3 then r.collRoot else r.chunkRun chunk
/-- Where a source's piece of a chunk begins, and where a receiver's copy of it begins. -/
def sendAt (r : TaskRec) (chunk : Nat) : Nat :=
  r.collSend + r.esize * (if r.collOp = 1 then r.chunkBase chunk else r.chunkFirst chunk)
def recvAt (r : TaskRec) (chunk : Nat) : Nat :=
  r.collRecv + r.esize * (if r.collOp = 2 then r.chunkBase chunk else r.chunkFirst chunk)
/-- The fields that all members share (22:R366). -/
def collKey (r : TaskRec) : Nat × Nat × Nat × Bool × W64 := (r.collOp, r.collRed, r.collType, r.collSr, r.t3)
/-- The bytes of the send and the recv buffer for M members. -/
def sendLen (r : TaskRec) (m : Nat) : Nat := r.esize * r.collCount * (if r.collOp = 1 then m else 1)
def recvLen (r : TaskRec) (m : Nat) : Nat := r.esize * r.collCount * (if r.collOp = 2 then m else 1)
/-- BUFFER (22:R374). -/
def badBuffers (r : TaskRec) (m : Nat) : Bool :=
  r.sliced && overlaps [(r.collSend, r.collSend + r.sendLen m)] [(r.collRecv, r.collRecv + r.recvLen m)]
end TaskRec

/-! ### The engine of a die (22:R370) -/

/-- The collective of a sequence number. -/
def State.collOf (s : State) (ctx group seq : Nat) : Option Coll :=
  s.dev.colls.find? (fun c => c.ctx == ctx && c.group == group && c.seq == seq)

/-- Whether a record still stands in its team's ring. -/
def State.standing (s : State) (k : TeamKey) (seq : BitVec 16) : Bool :=
  match s.teamOf k with
  | none => false
  | some t => t.ring.any (fun r => r.seq == seq)

/-- A member that owns chunks which its engine has not yet written for every member of this package. -/
def State.owes (s : State) (g : Group) (cl : Coll) (j : Nat) (r : TaskRec) : Bool :=
  (List.range (r.chunks g.m)).any (fun k => r.ownerOf g.m k == j &&
    (g.localTo s.dev.pkgNum).any (fun i => r.receives k i && !cl.written.contains (k, i)))

/-- Whether the engine of a die serves a collective: a member of the die is in it, or has passed while others await chunks that it
owns (22:R370). -/
def State.servedOn (s : State) (die : Nat) (cl : Coll) : Bool :=
  cl.failed.isNone && cl.joined.any (fun j =>
    (match s.teamOf j.2.1 with | some t => dieOf t.core == die | none => false) &&
    (s.standing j.2.1 j.2.2.seq ||
      (match (s.ctxOf cl.ctx).bind (fun c => c.groupOf cl.group) with
       | some g => s.owes g cl j.1 j.2.2
       | none => false)))

/-- A slot at the engine of a die for a collective: one of 16, or the one it holds already (22:R370). -/
def State.slotFor (s : State) (die ctx group seq : Nat) : Bool :=
  (match s.collOf ctx group seq with | some cl => s.servedOn die cl | none => false) ||
    decide ((s.dev.colls.filter (s.servedOn die)).length < 16)

/-- A COLL that can issue: a slot of its die's engine is free for its collective, or it belongs to none and fails. -/
def State.collFree (s : State) (t : Team) (r : TaskRec) : Bool :=
  match (s.ctxOf t.ctx).bind (fun c => c.groupOf r.collGroup) with
  | none => true
  | some g =>
    match g.indexOf s.dev.pkgNum t.key.team with
    | none => true
    | some j => (s.groupHolder g).any (fun n => n != t.key.launch) || s.slotFor (dieOf t.core) t.ctx g.handle (g.countAt j)

end Sys2Proof.Machine
end

