-- ==== Sys2Proof/Machine/TaskIssue.lean ====
section
/-!
DEFINITION. TASK and TWAIT (13:R238, R241): a record joins the team's ring, and its step is under way from then on.
-/

namespace Sys2Proof.Machine

open Sys2Proof

/-- The step of a record's kind (13:R243). -/
def taskStep (kind : Nat) (t : TeamKey) (seq : BitVec 16) : Option Instr :=
  match kind with
  | 1 => some (.wload t seq)
  | 2 => some (.mma t seq)
  | 3 => some (.accz t seq)
  | 4 => some (.drain t seq)
  | 5 => some (.copyin t seq)
  | 6 => some (.copyout t seq)
  | 7 => some (.gather t seq)
  | 8 => some (.fill t seq)
  | 9 => some (.coll t seq)
  | _ => none

/-- The format of the latest WLOAD enqueued into a handle. -/
def Team.loadFmt (t : Team) (ws : Nat) : Option (BitVec 4) := (t.wsFmt.find? (fun e => e.1 == ws)).map Prod.snd

/-- The record that TASK enqueues. -/
def State.recordAt (s : State) (a : SReg) : TaskRec where
  seq := s.team.taskSeq
  warp := s.warp.key.warp
  dseed := s.warp.dseed
  after := s.warp.nextId
  t0 := s.S a
  t1 := s.S (a + 1)
  t2 := s.S (a + 2)
  t3 := s.S (a + 3)
  issued := false
  shape := []
  out := none
  reads := none
  parks := []
  fatal := none
  wait := none

/-- A record joins the ring; under DET its retirement, with its global writes, takes its place among the warp's communications:
it comes at the end of the quantum (13:R261). -/
def State.enqueueTask (s : State) (r : TaskRec) : State :=
  let fmts := if r.kind = 1 then (r.wsLoad, BitVec.ofNat 4 r.fmt) :: s.team.wsFmt.filter (fun e => e.1 != r.wsLoad)
    else s.team.wsFmt
  let s := { s with team := { s.team with ring := s.team.ring ++ [r], taskSeq := s.team.taskSeq + 1, wsFmt := fmts } }
  let s := if s.team.det then s.onWarp (fun w => w.keep false (.task r.seq)) else s
  match taskStep r.kind s.team.key r.seq with
  | some e => s.post [e]
  | none => s

/-- TASK. -/
def execTask (a : SReg) (s : State) : Result :=
  if a = 0 ∨ 28 < a.toNat then .next (s.illegalScalar 6)
  else s.scalarRun (fun s => (s.lanesRetired 0).bind (fun s _ => s.takeReport.bind (fun s _ =>
    let r := s.recordAt a
    let wf := s.team.loadFmt r.wsMma
    match r.reasonAgainst s.ctx.feat s.scrsize wf with
    | some n => .trap s (trapOf Code.taskFault 0 (taskDetail r.seq r.kind n))
    | none =>
      match r.beyond s.scrsize ((wf.map BitVec.toNat).getD 0) with
      | some off => .trap s (trapOf Code.scratchBound (BitVec.ofNat 64 (Config.apertureBase + off)) 0)
      | none => if Config.ringMax ≤ s.team.ring.length then .wait s 10 else .ok (s.enqueueTask r) ())))

/-- TWAIT: at most k tasks of the team in flight. -/
def execTwait (k : BitVec 16) (s : State) : Result :=
  s.scalarRun (fun s => s.takeReport.bind (fun s _ =>
    if s.team.ring.length ≤ k.toNat then .ok s () else .wait s 10))

end Sys2Proof.Machine
end

