-- ==== Sys2Proof/Machine/Shapes.lean ====
section
/-!
DEFINITION. Tensor shape records (03:R64; 13:R251): their fields, the checks of each kind of task, and the rows of a box.
-/

namespace Sys2Proof.Machine

open Sys2Proof

/-- The eight doublewords of a shape record. -/
structure Shape where
  w0 : W64
  w1 : W64
  w2 : W64
  w3 : W64
  w4 : W64
  w5 : W64
  w6 : W64
  w7 : W64
  deriving DecidableEq, Repr

/-- The doublewords of a record as read. -/
def shapeWords (bs : List Byte) : List W64 := (List.range 8).map (wordAt bs)
def Shape.ofWords (ws : List W64) : Shape :=
  ⟨ws.getD 0 0, ws.getD 1 0, ws.getD 2 0, ws.getD 3 0, ws.getD 4 0, ws.getD 5 0, ws.getD 6 0, ws.getD 7 0⟩
def shapeOf (bs : List Byte) : Shape := Shape.ofWords (shapeWords bs)

namespace Shape
def base (s : Shape) : Nat := bitsOf64 s.w0 55 0
def clip (s : Shape) : Bool := s.w1.getLsbD 18
def atomic (s : Shape) : Bool := s.w1.getLsbD 17
def escrow (s : Shape) : Bool := s.w1.getLsbD 16
def rank (s : Shape) : Nat := bitsOf64 s.w1 9 8 + 1
def fmt (s : Shape) : Nat := bitsOf64 s.w1 3 0
def dim (s : Shape) (j : Nat) : Nat :=
  match j with
  | 0 => bitsOf64 s.w2 31 0 | 1 => bitsOf64 s.w2 63 32 | 2 => bitsOf64 s.w3 31 0 | _ => bitsOf64 s.w3 63 32
def stride (s : Shape) (j : Nat) : Nat :=
  match j with
  | 0 => 0 | 1 => s.w4.toNat | 2 => s.w5.toNat | _ => s.w6.toNat
def box (s : Shape) (j : Nat) : Nat := bitsOf64 s.w7 (16 * j + 15) (16 * j)
/-- A reserved field that is not zero. -/
def reserved (s : Shape) : Bool :=
  bitsOf64 s.w0 63 56 != 0 || bitsOf64 s.w1 63 19 != 0 || bitsOf64 s.w1 15 10 != 0 || bitsOf64 s.w1 7 4 != 0

/-- The size of n elements in bytes (13:R251); an E2M1 element takes half a byte. -/
def bytes (s : Shape) (n : Nat) : Nat :=
  if s.fmt = 7 then n / 2
  else if s.fmt = 13 then 8 * n
  else if s.fmt ≤ 2 then 4 * n
  else if s.fmt = 3 || s.fmt = 4 || s.fmt = 10 || s.fmt = 11 then 2 * n
  else n

/-- The bytes of a BPI tensor: 8 planes (07:R142). -/
def planesBytes (s : Shape) : Nat := 32 * ((s.dim 0 + 31) / 32)

/-- The bits of byte k of a BPI tensor that belong to an element: the positions beyond dim0 read as zero and are written as zero
(07:R142). -/
def planeMask (s : Shape) (k : Nat) : Byte :=
  let left := s.dim 0 - 8 * (k % (4 * ((s.dim 0 + 31) / 32)))
  BitVec.ofNat 8 (2 ^ min left 8 - 1)
def maskPlanes (s : Shape) (first : Nat) (bs : List Byte) : List Byte :=
  (List.range bs.length).zipWith (fun k b => b &&& s.planeMask (first + k)) bs

/-- Box rows. -/
def rows (s : Shape) : Nat := s.box 1 * s.box 2 * s.box 3

/-- The coordinates b1, b2, b3 of a box row. -/
def rowAt (s : Shape) (r : Nat) : Nat × Nat × Nat := (r % s.box 1, r / s.box 1 % s.box 2, r / s.box 1 / s.box 2)

/-- The last byte of the buffer that base, dims and strides span, plus one (10:R212); a BPI tensor takes its planes. -/
def limit (s : Shape) : Nat :=
  if s.fmt = 12 then s.base + s.planesBytes
  else s.base + s.bytes (s.dim 0) +
    ((s.dim 1 - 1) * s.stride 1 + (s.dim 2 - 1) * s.stride 2 + (s.dim 3 - 1) * s.stride 3)
end Shape

namespace TaskRec
/-- The origins (13:R251). -/
def origin (t : TaskRec) (j : Nat) : Nat :=
  match j with
  | 0 => bitsOf64 t.t2 31 0 | 1 => bitsOf64 t.t2 63 32 | 2 => bitsOf64 t.t3 31 0 | _ => bitsOf64 t.t3 63 32
def sfmt (t : TaskRec) : Nat := bitsOf64 t.t0 15 12
end TaskRec

/-- The floating-point format of a code. -/
def floatFmt (code : Nat) : Option FFmt :=
  match code with
  | 2 => some .f32 | 3 => some .f16 | 4 => some .bf16 | 5 => some .e4m3 | 6 => some .e5m2 | 7 => some .e2m1
  | _ => none

/-- Reason 6 for a record as such: reserved fields, the flags, the formats and the origins of the kind. A dimension or a box that
the rank leaves unused and that is not 1, or an unused stride that is not 0, is no reason: the list of 13:R251 and R260 names
none, and the values are used as they are written (DESIGN CHOICE, log 43). -/
def shapeBad (t : TaskRec) (s : Shape) (feat : W64) : Bool :=
  s.reserved || (s.escrow && !feat.getLsbD 9) ||
  (List.range 4).any (fun j => decide (s.rank ≤ j) && t.kind != 7 && t.origin j != 0) ||
  match t.kind with
  | 4 => !(decide (2 ≤ s.fmt) && decide (s.fmt ≤ 6)) || (s.atomic && (s.fmt != 2 || s.escrow)) ||
      decide (48 < s.box 0) || s.rows != t.rows
  | 5 => decide (13 < s.fmt) || s.atomic || s.escrow ||
      (s.fmt == 7 && (t.origin 0 % 2 != 0 || s.box 0 % 2 != 0 || s.dim 0 % 2 != 0)) ||
      (s.fmt == 12 && (s.rank != 1 || t.origin 0 != 0 || s.box 0 != s.dim 0))
  | 6 => decide (13 < s.fmt) || s.atomic ||
      (s.fmt == 7 && (t.origin 0 % 2 != 0 || s.box 0 % 2 != 0 || s.dim 0 % 2 != 0)) ||
      (s.fmt == 12 && (s.rank != 1 || t.origin 0 != 0 || s.box 0 != s.dim 0)) ||
      !(t.sfmt == s.fmt || (t.sfmt == 2 && decide (3 ≤ s.fmt) && decide (s.fmt ≤ 7)))
  | 7 => s.fmt == 7 || s.fmt == 12 || decide (13 < s.fmt) || s.atomic || s.escrow || s.rank != 2 || s.box 1 != 1
  | 8 => s.fmt == 7 || s.fmt == 12 || decide (13 < s.fmt) || s.atomic || s.escrow
  | _ => true

/-- The length of a box row in the scratchpad: FP32 values where COPYOUT converts. -/
def rowLength (t : TaskRec) (s : Shape) : Nat :=
  if s.fmt = 12 then s.planesBytes
  else if t.kind = 6 && t.sfmt != s.fmt then 4 * s.box 0
  else s.bytes (s.box 0)

/-- Reason 6 for a layout: a row longer than the pitch, or a last byte beyond the scratchpad range. -/
def layoutBad (t : TaskRec) (s : Shape) : Bool :=
  let rows := if t.kind = 7 then t.cnt else s.rows
  let len := rowLength t s
  (s.fmt != 12 && decide (t.pitch * 16 < len)) || (rows != 0 && decide (t.len < (rows - 1) * (t.pitch * 16) + len))

/-- Reason 7: a box of at least one element that reaches outside the tensor without CLIP. -/
def boxOutside (t : TaskRec) (s : Shape) : Bool :=
  !s.clip && (List.range 4).all (fun j => s.box j != 0) &&
    (List.range 4).any (fun j => decide (s.dim j < t.origin j + s.box j))

/-- A box row as it lies in the tensor: its number, its first element's address, how many of its elements lie inside, and
the linear coordinate of its first element (07:R151). -/
structure BoxRow where
  row : Nat
  addr : Nat
  count : Nat
  coord : Nat
  deriving DecidableEq, Repr

/-- Box row r. -/
def boxRow (t : TaskRec) (s : Shape) (r : Nat) : BoxRow :=
  let (b1, b2, b3) := s.rowAt r
  let i1 := t.origin 1 + b1
  let i2 := t.origin 2 + b2
  let i3 := t.origin 3 + b3
  let inside := decide (i1 < s.dim 1) && decide (i2 < s.dim 2) && decide (i3 < s.dim 3)
  let o0 := t.origin 0
  ⟨r, (s.base + s.bytes o0 + i1 * s.stride 1 + i2 * s.stride 2 + i3 * s.stride 3) % 2 ^ 64,
    if inside then min (s.box 0) (s.dim 0 - o0) else 0,
    o0 + s.dim 0 * (i1 + s.dim 1 * (i2 + s.dim 2 * i3))⟩

/-- All box rows, rising. -/
def boxRows (t : TaskRec) (s : Shape) : List BoxRow := (List.range s.rows).map (boxRow t s)

end Sys2Proof.Machine
end

