-- ==== Sys2Proof/Machine/Tasks.lean ====
section
/-!
DEFINITION. The task scheduler (13:R239, R240, R257 to R261): when a record of a ring issues, how a task reads and writes
global memory, how it parks, fails and retires. A task that issues reads its shape record once; what it then has to read and
to write in global memory is planned, its reads go into the scratchpad as they are performed, and its writes are performed
from then on.
-/

namespace Sys2Proof.Machine

open Sys2Proof

/-! ### Outcomes of a part of a task -/

inductive TStep (α : Type) where
  | ok (s : State) (x : α)
  | fail (s : State) (reason addr : Nat)
  /-- a page that cannot be made present, with the ticket that says so -/
  | fatal (s : State) (addr : Nat) (ticket : W64)
  | park (s : State) (kind ia va : Nat) (write : Bool)
  /-- waits without a ticket -/
  | later (s : State)

def TStep.bind {α β : Type} (r : TStep α) (f : State → α → TStep β) : TStep β :=
  match r with
  | .ok s x => f s x
  | .fail s n a => .fail s n a
  | .fatal s a t => .fatal s a t
  | .park s k ia va w => .park s k ia va w
  | .later s => .later s

/-! ### The ring -/

/-- Change a record of a team's ring. -/
def State.onTask (s : State) (k : TeamKey) (seq : BitVec 16) (f : TaskRec → TaskRec) : State :=
  match s.teamOf k with
  | none => s
  | some t => s.setTeam { t with ring := t.ring.map (fun r => if r.seq = seq then f r else r) }

/-- The record of a team's ring as it stands now. -/
def State.recordOf (s : State) (k : TeamKey) (seq : BitVec 16) : Option TaskRec :=
  (s.teamOf k).bind (fun t => t.ring.find? (fun r => r.seq == seq))

/-- A task retires: its record leaves the ring. -/
def State.retireTask (s : State) (k : TeamKey) (seq : BitVec 16) : State :=
  match s.teamOf k with
  | none => s
  | some t =>
    let t := { t with ring := t.ring.filter (fun r => r.seq != seq) }
    s.setTeam (if t.status = .killed then t.released else t)

/-- A report, unless an earlier one is still pending. -/
def Warp.giveReport (w : Warp) (r : Report) : Warp :=
  { w with report := some (w.report.getD r), scalStalled := false }

/-- The tickets of a task are withdrawn. -/
def State.dropTickets (s : State) (cn : Nat) (k : TeamKey) (seq : BitVec 16) : State :=
  match s.ctxOf cn with
  | none => s
  | some c => s.setCtx { c with tickets := c.tickets.filter (fun x => x.task != some (k, seq)) }

/-- A task fails: the records of the team that have not issued are discarded, the failed task's warp and every other warp
whose record was discarded get a report (13:R259). -/
def State.failTask (s : State) (k : TeamKey) (r : TaskRec) (reason addr : Nat) (ticket : W64) : State :=
  match s.teamOf k with
  | none => s
  | some t =>
    let gone := t.ring.filter (fun x => !x.issued && x.seq != r.seq)
    let s := (s.dropTickets t.ctx k r.seq).retireTask k r.seq
    let s := match s.teamOf k with
      | none => s
      | some t => s.setTeam { t with ring := t.ring.filter (fun x => x.issued) }
    if t.status = .killed then s
    else s.mapWarps (fun w => w.key.teamKey == k) (fun w =>
      if w.key.warp = r.warp then
        w.giveReport ⟨r.seq, BitVec.ofNat 8 r.kind, reason, BitVec.ofNat 64 addr, ticket⟩
      else match gone.find? (fun x => x.warp == w.key.warp) with
        | some x => w.giveReport ⟨x.seq, BitVec.ofNat 8 x.kind, 15, 0, 0⟩
        | none => w)

/-- Two records conflict: a range of one that is written meets a range of the other (13:R257). -/
def conflicts (a b : TaskRec) : Bool :=
  let meet (x y : List (Nat × Nat) × List (Nat × Nat)) : Bool :=
    overlaps x.2 (y.1 ++ y.2) || overlaps y.2 (x.1 ++ x.2)
  meet (a.scratchRanges a.fmt) (b.scratchRanges b.fmt) || meet a.accRanges b.accRanges || meet a.wsRanges b.wsRanges

/-- The records that stand before one in its ring. -/
def ringBefore (seq : BitVec 16) : List TaskRec → List TaskRec
  | [] => []
  | r :: rest => if r.seq = seq then [] else r :: ringBefore seq rest

/-- The teams that stand on a core. -/
def State.teamsOn (s : State) (core : Nat) : List Team := s.allTeams.filter (fun t => t.core == core && t.status != .saved)

/-- Tasks of a core that have issued and not retired, those of a team that has left it meanwhile with them (20:R333), with their
teams. -/
def State.issuedOn (s : State) (core : Nat) : List (Team × TaskRec) :=
  (s.allTeams.filter (fun t => t.core == core)).flatMap (fun (t : Team) => (t.ring.filter (fun r => r.issued)).map (fun r => (t, r)))

/-! ### The engines of a core (22:R356, R357, R361) -/

/-- The bytes of a set of weights in the scratchpad. -/
def weightBytes (fmt ncols k : Nat) : Nat :=
  if fmt = 3 || fmt = 4 then 256 * ncols
  else if fmt = 5 || fmt = 6 then 128 * ncols
  else if fmt = 7 then 64 * ncols
  else 16 * ncols * k

/-- The granules of 256 bytes that a set takes in an array's buffer. -/
def granules (fmt ncols k : Nat) : Nat :=
  (weightBytes fmt ncols k + 255) / 256 + (if fmt = 7 || fmt = 12 then 1 else 0)

def WSet.granules (w : WSet) : Nat := Machine.granules w.fmt.toNat w.ncols w.k

/-- The granules taken in an array's buffer of a core, without a set that is being replaced. -/
def State.granulesUsed (s : State) (core array : Nat) (k : TeamKey) (ws : Nat) : Nat :=
  (s.teamsOn core).foldl (fun n t =>
    t.wsets.foldl (fun n e => if e.2.array = array && !(t.key == k && e.1 == ws) then n + e.2.granules else n) n) 0

/-- The set that a record loads or reads stands in an array's buffer. -/
def Team.usesArray (t : Team) (array : Nat) (r : TaskRec) : Bool :=
  let ws := if r.kind = 1 then r.wsLoad else r.wsMma
  (r.kind == 1 || r.kind == 2) && t.wsets.any (fun e => e.1 == ws && e.2.array == array)

/-- Unretired tasks of an array, but for one that is being bound. -/
def State.arrayTasks (s : State) (core array : Nat) (k : TeamKey) (seq : BitVec 16) : Nat :=
  ((s.issuedOn core).filter (fun x => !(x.1.key == k && x.2.seq == seq) && x.1.usesArray array x.2)).length

/-- The array to which a WLOAD binds its set: one whose buffer has room, the one with fewer unretired tasks, array 0 when they
are equal (22:R357). -/
def State.arrayFor (s : State) (t : Team) (r : TaskRec) : Option Nat :=
  let need := granules r.fmt r.ncols r.planes
  let room (a : Nat) : Bool := decide (s.granulesUsed t.core a t.key r.wsLoad + need ≤ 384)
  if room 0 && (!room 1 || decide (s.arrayTasks t.core 0 t.key r.seq ≤ s.arrayTasks t.core 1 t.key r.seq)) then some 0
  else if room 1 then some 1
  else none

/-- WLOADs of a core that wait for room, by their places (13:R247). -/
def State.roomWaits (s : State) (core : Nat) : List Nat :=
  ((s.teamsOn core).filter (fun t => t.resident)).flatMap (fun (t : Team) => t.ring.filterMap (fun r => r.wait))

/-- A WLOAD has room, and none that has waited longer is before it. -/
def State.hasRoom (s : State) (t : Team) (r : TaskRec) : Bool :=
  (s.arrayFor t r).isSome && (s.roomWaits t.core).all (fun n => match r.wait with
    | some m => decide (m ≤ n)
    | none => false)

/-- Copy channels that a task holds. Under DET a task whose part on the channel is done waits for the clearing without one. -/
def State.channelsBusy (s : State) (core : Nat) : Nat :=
  ((s.issuedOn core).filter (fun x =>
    decide (3 ≤ x.2.kind) && decide (x.2.kind ≤ 8) && !(x.1.det && x.2.out.isSome))).length

/-- An engine of the record's kind is free (13:R239): a copy channel runs one task (22:R361). An array takes the tasks issued
to it in order, and a WLOAD needs room in a buffer; a die's collective engine serves 16 collectives (22:R370). -/
def State.engineFree (s : State) (t : Team) (r : TaskRec) : Bool :=
  if r.kind = 1 then s.hasRoom t r
  else if 3 ≤ r.kind ∧ r.kind ≤ 8 then decide (s.channelsBusy t.core < 2)
  else r.kind != 9 || s.collFree t r

/-! ### When a record issues -/

/-- A record is the next of its ring, none in flight conflicts, the scoreboard has room, and the stores of its warp that are
older than its TASK are at their homes (13:R239, R257; 09:R186). -/
def State.taskNext (s : State) (t : Team) (r : TaskRec) : Bool :=
  let before := ringBefore r.seq t.ring
  t.status == .running && before.all (fun x => x.issued) && !before.any (fun x => conflicts x r) &&
  decide ((s.issuedOn t.core).length < 32) &&
  (match s.warpOf ⟨t.key.launch, t.key.team, r.warp⟩ with
   | none => true
   | some w => !w.wbuf.any (fun e => decide (e.id < r.after) && e.stage != .performed))

def State.taskReady (s : State) (t : Team) (r : TaskRec) : Bool := s.taskNext t r && s.engineFree t r

/-- How many positions a team stands behind the one that was served last. -/
def Core.turnOf (c : Core) (t : Team) : Nat := (t.pos + 7 - c.served % 4) % 4

/-- Another team of the core with an issuable record for an engine of the core comes first in the rotation (13:R239). -/
def State.rival (s : State) (t : Team) : Bool :=
  let c := s.coreOf t.core
  (s.teamsOn t.core).any (fun x => x.key != t.key && decide (c.turnOf x < c.turnOf t) &&
    (match x.ring.find? (fun r => !r.issued) with
     | some r => s.taskReady x r
     | none => false))

/-- A record may issue. -/
def State.taskMay (s : State) (t : Team) (r : TaskRec) : Bool := s.taskReady t r && !s.rival t

/-- A record issues: its team has been served. -/
def State.issueTask (s : State) (t : Team) (r : TaskRec) : State :=
  (s.onTask t.key r.seq (fun x => { x with issued := true, wait := none })).setCore { s.coreOf t.core with served := t.pos }

/-- A WLOAD that only lacks room takes its place among the waits. -/
def State.awaitRoom (s : State) (t : Team) (r : TaskRec) : State :=
  if r.kind = 1 && r.wait.isNone && s.taskNext t r && !s.hasRoom t r then
    s.onTask t.key r.seq (fun x => { x with wait := some ((s.roomWaits t.core).foldl (fun n m => max n (m + 1)) 0) })
  else s

/-! ### Parking (20:R325 to R328; 22:R364) -/

/-- The die and quadrant of a team's core. -/
def Team.place (t : Team) : Nat × Nat := (dieOf t.core, quadOf t.core)

/-- The ticket of an engine's access near a die and a quadrant: the access has reached the home, which it homes if nothing has
(17:R294). -/
def State.engineTicket (s : State) (c : Context) (place : Nat × Nat) (kind ia : Nat) : State × W64 :=
  let seq := nextSeq c.ticketSeq
  let h := homeNear s.dev place.1 place.2 ia
  (({ s with dev := s.dev.touch (ia / 65536) place.1 place.2 }).setCtx { c with ticketSeq := seq },
    ticketWord c.num kind h.die h.quad h.slice true seq)

/-- The notice of an engine's ticket. -/
def State.noticeEngine (s : State) (c : Context) (kind : Nat) (ticket : W64) (ia : Nat) (write : Bool) : State :=
  if kind = 2 then (if s.dev.away c ia then s.askBack c (ia / 65536) else s)
  else s.send [.notice ticket (BitVec.ofNat 64 (ia / 65536 * 65536)) 0 (if write then 5 else 4)]

/-- A ticket of kind 3 is answered fatal at once, and Welhal logs a malformed entry (20:R320, R328). -/
def State.fatalTicket (s : State) (cn : Nat) (place : Nat × Nat) (ia : Nat) : State × W64 :=
  match s.ctxOf cn with
  | none => (s, 0)
  | some c =>
    let (s, ticket) := s.engineTicket c place 3 ia
    (if badEntry s.dev c ia then s.send [.malformed cn (ia / 65536)] else s, ticket)

/-- The ticket of an access of Welhal, of the host or of a message (20:R325; 24:R391). -/
def State.welhalTicket (s : State) (cn kind ia : Nat) (write : Bool) : State × W64 :=
  if kind = 3 then s.fatalTicket cn s.dev.hostPlace ia
  else match s.ctxOf cn with
    | none => (s, 0)
    | some c =>
      let (s, ticket) := s.engineTicket c s.dev.hostPlace kind ia
      match s.ctxOf cn with
      | none => (s, ticket)
      | some c =>
        ((s.setCtx { c with tickets := c.tickets ++ [⟨ticket, none, false, none, ia / 65536⟩] }).noticeEngine c kind ticket ia write, ticket)

/-- Lines of a page park under a ticket of their own (22:R364). -/
def State.parkTask (s : State) (t : Team) (seq : BitVec 16) (place : Nat × Nat) (kind ia va : Nat) (write : Bool) : State :=
  match s.ctxOf t.ctx with
  | none => s
  | some c =>
    let (s, ticket) := s.engineTicket c place kind ia
    match s.ctxOf t.ctx with
    | none => s
    | some c =>
      ((s.setCtx { c with tickets := c.tickets ++ [⟨ticket, none, false, some (t.key, seq), ia / 65536⟩] }).onTask t.key seq
        (fun x => { x with parks := x.parks ++ [⟨ticket, ia / 65536, va⟩] })).noticeEngine c kind ticket ia write

/-- A line of a page that a task misses: it parks, or the page is fatal. -/
def State.missTask (s : State) (t : Team) (seq : BitVec 16) (place : Nat × Nat) (kind ia va : Nat) (write : Bool) : TStep Unit :=
  if kind = 3 then
    let (s, ticket) := s.fatalTicket t.ctx place ia
    .fatal s va ticket
  else .ok (s.parkTask t seq place kind ia va write) ()

/-- Lines of the page of a virtual address are parked. -/
def State.pageParked (s : State) (c : Context) (t : Team) (seq : BitVec 16) (p : Perm) (va : Nat) : Bool :=
  match s.recordOf t.key seq with
  | none => false
  | some r => r.parks.any (fun x => x.page == iaOf c p (BitVec.ofNat 64 va) / 65536)

/-! ### Reads -/

/-- Under DET a task reads what its warp wrote before its TASK in the quantum (09:R186, R189). -/
def State.taskOwn (s : State) (t : Team) (r : TaskRec) : List (Nat × Byte) :=
  if t.det then
    match s.warpOf ⟨t.key.launch, t.key.team, r.warp⟩ with
    | none => []
    | some w =>
      if w.comms.any (fun x => x.2 == .task r.seq) then
        (w.comms.takeWhile (fun x => x.2 != .task r.seq)).flatMap (fun x => x.2.bytes)
      else []
  else []

/-- Bytes of one line that a task reads, and whether they cannot be read. -/
def State.taskRead (s : State) (c : Context) (t : Team) (r : TaskRec) (a n : Nat) : Reach (List Byte × Bool) :=
  if inAperture (BitVec.ofNat 64 a) then .fault 1
  else (s.reachRead c t.place.1 t.place.2 a n).bind (fun s x =>
    .ok s (overlay (s.taskOwn t r) (iaOf c .r (BitVec.ofNat 64 a)) x.1, x.2))

/-- The shape record, which a task reads once: what makes it unusable is reason 6. -/
def State.taskShape (s : State) (c : Context) (t : Team) (r : TaskRec) : TStep Shape :=
  if !r.shape.isEmpty then .ok s (Shape.ofWords r.shape)
  else if r.shapeAt % 64 ≠ 0 then .fail s 6 0
  else match s.taskRead c t r r.shapeAt 64 with
    | .ok s (bs, bad) =>
      if bad || shapeBad r (shapeOf bs) c.feat then .fail s 6 0
      else .ok (s.onTask t.key r.seq (fun x => { x with shape := shapeWords bs })) (shapeOf bs)
    | .fault _ => .fail s 6 0
    | .missing k ia => .park s k ia r.shapeAt false
    | .refused _ _ => .fail s 6 0

/-- Bytes as they go into the scratchpad: positions of a BPI tensor beyond dim0 read as zero (07:R142). -/
def TaskRec.asRead (r : TaskRec) (va : Nat) (bs : List Byte) : List Byte :=
  let sh := Shape.ofWords r.shape
  if sh.fmt = 12 then sh.maskPlanes (va - sh.base) bs else bs

/-- Bytes go into a team's scratchpad. -/
def State.scratchPut (s : State) (k : TeamKey) (off : Nat) (bs : List Byte) : State :=
  match s.teamOf k with
  | none => s
  | some t => s.setTeam (t.putScratch off bs)

/-- The reads of a task: each line goes into the scratchpad as it is performed; those of a page that is missing wait for it,
the others go on (22:R364). The answer is what is left. -/
def State.taskReads (c : Context) (t : Team) (r : TaskRec) : List TaskRead → State → List TaskRead → TStep (List TaskRead)
  | [], s, left => .ok s left.reverse
  | x :: rest, s, left =>
    if s.pageParked c t r.seq .r x.va then State.taskReads c t r rest s (x :: left)
    else match s.taskRead c t r x.va x.len with
      | .ok s (bs, bad) =>
        if bad then .fail s 11 x.va
        else State.taskReads c t r rest (s.scratchPut t.key x.dest (r.asRead x.va bs)) left
      | .fault _ => .fail s 16 x.va
      | .refused _ _ => .fail s 16 x.va
      | .missing k ia => (s.missTask t r.seq t.place k ia x.va false).bind (fun s _ => State.taskReads c t r rest s (x :: left))

/-- The reads of a run of bytes, cut where lines end. -/
def runReads (a n dest : Nat) : List TaskRead := (cutRange (n / 128 + 2) a n).map (fun x => ⟨x.1, x.2, dest + (x.1 - a)⟩)

/-! ### Writes (22:R362, R363) -/

/-- Where a write of a task goes. -/
inductive TaskPlace where
  | at (ia : Nat)
  | fail (reason : Nat)
  | missing (kind ia : Nat)

/-- Check, the page, and what its class and an open escrow say. -/
def State.target (s : State) (c : Context) (escrow : Bool) (va : Nat) : TaskPlace :=
  let a : W64 := BitVec.ofNat 64 va
  if inAperture a then .fail 16
  else match check c a .w with
    | .fault _ => .fail 16
    | .growth _ => .fail 16
    | .ok ia =>
      match missingKind s.dev c ia with
      | some k => .missing k ia
      | none =>
        if escrow then .at ia
        else match writeVerdict s.dev c (ia / 128 * 128) 0 with
          | some (code, _) => .fail (if code = Code.escrowFault then 13 else 12)
          | none => .at ia

/-- What performing one request comes to. -/
inductive Wrote where
  | ok (s : State)
  | fail (reason addr : Nat)
  | missing (kind ia va : Nat)

/-- The bytes of one line that writes in their order leave, by their places in it. -/
def lineOf (ws : List TaskWrite) : List (Nat × Byte) :=
  let all := (ws.flatMap (fun w => (List.range w.bytes.length).zipWith (fun k b => (w.va % 128 + k, b)) w.bytes)).reverse
  (List.range 128).filterMap (fun k => all.find? (fun x => x.1 == k))

/-- Bytes in runs of neighbours. -/
def runsOf : List (Nat × Byte) → List (Nat × List Byte)
  | [] => []
  | (a, b) :: rest =>
    match runsOf rest with
    | (a', bs) :: more => if a + 1 = a' then (a, b :: bs) :: more else (a, [b]) :: (a', bs) :: more
    | [] => [(a, [b])]

/-- The first byte of a line with which bytes cover part of an aggregate element only, by its place in the line. -/
def splitsElement (c : Context) (line : Nat) (bs : List (Nat × Byte)) : Option Nat :=
  if c.regions.isEmpty then none
  else (bs.find? (fun x => (regionAt c (line + x.1)).isSome &&
    !(List.range 4).all (fun k => bs.any (fun y => y.1 == x.1 / 4 * 4 + k)))).map Prod.fst

/-- The element of a request that holds a byte of its line. -/
def elementAt (ws : List TaskWrite) (k : Nat) : Nat :=
  match ws.find? (fun w => decide (w.va % 128 ≤ k) && decide (k < w.va % 128 + w.bytes.length)) with
  | some w => w.va
  | none => 0

/-- A request into the escrow copy of its page; a killed team's escrow is gone. -/
def State.escrowLine (s : State) (c : Context) (owner : WarpKey) (line va : Nat) (bs : List (Nat × Byte)) : Wrote :=
  match escrowAt c line with
  | none => .ok s
  | some e =>
    if e.owner = owner then
      .ok { s with dev := (runsOf bs).foldl (fun d x => d.writePhys (frameAt false e.frame + (line % 65536 + x.1)) x.2) s.dev }
    else .fail 9 va

/-- One request: the elements of one line. A whole line is written as one (17:R307). -/
def State.writeLine (s : State) (c : Context) (place : Nat × Nat) (owner : WarpKey) (escrow : Bool) (va : Nat)
    (ws : List TaskWrite) : Wrote :=
  let bs := lineOf ws
  match s.target c escrow va with
  | .fail n => .fail n va
  | .missing k ia => .missing k ia va
  | .at ia =>
    let line := ia / 128 * 128
    if escrow then s.escrowLine c owner line va bs
    else match splitsElement c line bs with
      | some k => .fail 12 (elementAt ws k)
      | none =>
        match s.admitNow c place.1 place.2 true line with
        | .absent k => .missing k ia va
        | .hold _ => .missing 1 ia va
        | .ok s p => .ok ((runsOf bs).foldl (fun s x => s.homeWrite c.num none p (line + x.1) x.2) s)

/-- The parts of an element that a request adds to, with their homes: it has one unless the element crosses lines. -/
def State.addParts (c : Context) (place : Nat × Nat) : List (Nat × Nat) → State → List (Page × Nat × Nat) →
    Except Wrote (State × List (Page × Nat × Nat))
  | [], s, ps => .ok (s, ps.reverse)
  | (va, n) :: rest, s, ps =>
    match s.target c false va with
    | .fail k => .error (.fail k va)
    | .missing k ia => .error (.missing k ia va)
    | .at ia =>
      if coversPart c ia n then .error (.fail 12 va)
      else match s.admitNow c place.1 place.2 true ia with
        | .absent k => .error (.missing k ia va)
        | .hold _ => .error (.missing 1 ia va)
        | .ok s p => State.addParts c place rest s ((p, ia, n) :: ps)

/-- The addition of one element, as one operation (22:R363). -/
def State.addElem (s : State) (c : Context) (place : Nat × Nat) (va : Nat) (bs : List Byte) : Wrote :=
  match State.addParts c place (cutRange 2 va 4) s [] with
  | .error x => x
  | .ok (s, ps) =>
    let old := ps.map (fun x => s.homeRead x.1 x.2.1 x.2.2)
    if old.any Prod.snd then .fail 11 va
    else
      let new := (atomBytes (some .fadd) false (old.flatMap Prod.fst) (ofBytes 64 bs) 0).1
      .ok (ps.foldl (fun (x : State × List Byte) p =>
        (x.1.homeWrite c.num none p.1 p.2.1 (x.2.take p.2.2), x.2.drop p.2.2)) (s, new)).1

/-- The additions of one request, element after element. -/
def State.addLine (c : Context) (place : Nat × Nat) : List TaskWrite → State → Wrote
  | [], s => .ok s
  | w :: rest, s =>
    match s.addElem c place w.va w.bytes with
    | .ok s => State.addLine c place rest s
    | .fail n a => .fail n a
    | .missing k ia va => .missing k ia va

/-- Whether the pages of a request's elements are there: additions already performed are not repeated. -/
def State.addMissing (s : State) (c : Context) (ws : List TaskWrite) : Option (Nat × Nat × Nat) :=
  (ws.flatMap (fun w => (cutRange 2 w.va 4).map Prod.fst)).findSome? (fun va => match s.target c false va with
    | .missing k ia => some (k, ia, va)
    | .at _ => none
    | .fail _ => none)

/-- One request of a task: all of its elements in a line. -/
def State.writeRequest (s : State) (c : Context) (place : Nat × Nat) (owner : WarpKey) (ws : List TaskWrite) : Wrote :=
  match ws with
  | [] => .ok s
  | w :: _ =>
    if w.add then
      match s.addMissing c ws with
      | some (k, ia, va) => .missing k ia va
      | none => State.addLine c place ws s
    else s.writeLine c place owner w.escrow w.va ws

/-- The requests of a task: those of a page that is missing wait for it, the others go on (22:R364). The answer is what is
left. -/
def State.writeRequests (c : Context) (t : Team) (r : TaskRec) (place : Nat × Nat) :
    List (List TaskWrite) → State → List TaskWrite → TStep (List TaskWrite)
  | [], s, left => .ok s left
  | ws :: rest, s, left =>
    let va := match ws with | w :: _ => w.va | [] => 0
    if s.pageParked c t r.seq .w va then State.writeRequests c t r place rest s (left ++ ws)
    else match s.writeRequest c place ⟨t.key.launch, t.key.team, r.warp⟩ ws with
      | .ok s => State.writeRequests c t r place rest s left
      | .fail n a => .fail s n a
      | .missing k ia va => (s.missTask t r.seq place k ia va true).bind (fun s _ =>
          State.writeRequests c t r place rest s (left ++ ws))

/-- All writes of a task, in one request for each line. -/
def State.taskWrites (s : State) (c : Context) (t : Team) (r : TaskRec) (place : Nat × Nat) (out : List TaskWrite) :
    TStep (List TaskWrite) :=
  State.writeRequests c t r place (groupOn (fun w => w.va / 128) out) s []

/-! ### One step of a task -/

/-- What a task that has issued has to do in global memory. -/
structure Plan where
  reads : List TaskRead
  out : List TaskWrite
  deriving DecidableEq, Repr

/-- The message comes back. -/
def State.comeBack (s : State) : State := { s with again := .held }

/-- A task has nothing left to do: it retires, under DET no earlier than the clearing (13:R261). -/
def State.finishTask (s : State) (t : Team) (seq : BitVec 16) : State :=
  if t.det then (s.onTask t.key seq (fun x => { x with reads := none, out := some [] })).comeBack else s.retireTask t.key seq

/-- A part that cannot go on without one access: it has parked, or its page is fatal. -/
def State.parkPart (t : Team) (r : TaskRec) : TStep Unit → State
  | .ok s _ => s.comeBack
  | .fatal s a k => s.failTask t.key r 10 a k
  | .fail s n a => s.failTask t.key r n a 0
  | .park s _ _ _ _ => s.comeBack
  | .later s => s.comeBack

/-- Where a part of a task leaves it. -/
def State.afterPart {α : Type} (x : TStep α) (t : Team) (r : TaskRec) (go : State → α → State) : State :=
  match x with
  | .ok s y => go s y
  | .fail s n a => s.failTask t.key r n a 0
  | .fatal s a k => s.failTask t.key r 10 a k
  | .park s k ia va w => State.parkPart t r (s.missTask t r.seq t.place k ia va w)
  | .later s => s.comeBack

/-- Perform what an issued task has still to write; with nothing left it retires. -/
def State.flushTask (s : State) (t : Team) (r : TaskRec) (c : Context) (out : List TaskWrite) : State :=
  State.afterPart (s.taskWrites c t r t.place out) t r (fun s left =>
    if left.isEmpty then s.retireTask t.key r.seq
    else (s.onTask t.key r.seq (fun x => { x with out := some left })).comeBack)

/-- Perform what an issued task has still to read. -/
def State.readTask (s : State) (t : Team) (r : TaskRec) (c : Context) (reads : List TaskRead) : State :=
  State.afterPart (State.taskReads c t r reads s []) t r (fun s left =>
    if left.isEmpty then s.finishTask t r.seq
    else (s.onTask t.key r.seq (fun x => { x with reads := some left })).comeBack)

/-- A task's plan is known: its reads or its writes begin with its next step, so that other tasks may come before them (13:R258). -/
def State.startPlan (s : State) (t : Team) (r : TaskRec) (p : Plan) : State :=
  if !p.reads.isEmpty then (s.onTask t.key r.seq (fun x => { x with reads := some p.reads })).comeBack
  else if p.out.isEmpty then s.finishTask t r.seq
  else (s.onTask t.key r.seq (fun x => { x with out := some p.out })).comeBack

/-- A clearing of a launch is under way: no task of it reads global memory between two turns of the clearing (13:R261). -/
def State.clearingOf (s : State) (n : Nat) : Bool := (s.launchOf n).any (fun l => l.clearing.isSome)

/-- A message of the scheduler for a record: the record issues when it may, its operands are read, and its global accesses
are performed, its writes under DET at the clearing (13:R261). The message comes back until the task has retired. -/
def State.stepTask (s : State) (k : TeamKey) (seq : BitVec 16) (kind : Nat)
    (body : Context → Team → TaskRec → State → TStep Plan) : Result :=
  match s.teamOf k with
  | none => .next s
  | some t =>
    match t.ring.find? (fun r => r.seq == seq), s.ctxOf t.ctx with
    | some r, some c =>
      if r.kind ≠ kind then .next s
      else match r.fatal with
        | some (ticket, va) => .next (s.failTask k r 10 va ticket)
        | none =>
          if t.det && r.out.isNone && s.clearingOf k.launch then .next s.comeBack
          else if !r.issued && !s.taskMay t r then .next (s.awaitRoom t r).comeBack
          else
            let s := if r.issued then s else s.issueTask t r
            match r.out, r.reads with
            | some out, _ =>
              -- what a killed logical team had not committed is dropped (20:R330)
              if t.det then (if t.status = .killed then .next (s.retireTask k seq) else .next s.comeBack)
              else .next (s.flushTask t r c out)
            | none, some reads => .next (s.readTask t r c reads)
            | none, none =>
              if !r.parks.isEmpty then .next s.comeBack
              else .next (State.afterPart (body c t r s) t r (fun s p => s.startPlan t r p))
    | _, _ => .next s

end Sys2Proof.Machine
end

