-- ==== Sys2Proof/Machine/Tiles.lean ====
section
/-!
DEFINITION. The matrix arrays: WLOAD, MMA and ACCZ (13:R246 to R250; 22:R356 to R360) and the exact chunk (07:R152 to R154).
-/

namespace Sys2Proof.Machine

open Sys2Proof

/-! ### Weight sets (13:R247; 22:R357) -/

/-- Whether a read range of a task in the scratchpad holds an uncorrectable error. -/
def Team.anyScratchBad (t : Team) (rs : List (Nat × Nat)) : Bool := rs.any (fun x => t.scratchBad x.1 (x.2 - x.1))

/-- Read the weights and latch the format, k, mid and ncols. -/
def wloadBody (_c : Context) (t : Team) (r : TaskRec) (s : State) : TStep Plan :=
  match s.arrayFor t r, s.teamOf t.key with
  | some a, some t =>
    if t.anyScratchBad (r.scratchRanges 0).1 then .fail s 11 0
    else
      let set : WSet := {
        fmt := BitVec.ofNat 4 r.fmt, k := r.planes, mid := r.mid, ncols := r.ncols
        data := readBytes t.scratch r.off1 (weightBytes r.fmt r.ncols r.planes)
        scales := if r.fmt = 7 || r.fmt = 12 then readBytes t.scratch r.off2 (4 * r.ncols) else []
        array := a, bad := false }
      .ok (s.setTeam { t with wsets := (r.wsLoad, set) :: t.wsets.filter (fun e => e.1 != r.wsLoad) }) ⟨[], []⟩
  | _, _ => .later s

def execWload (t : TeamKey) (seq : BitVec 16) (s : State) : Result := s.stepTask t seq 1 wloadBody

/-! ### Operands (07:R139 to R143) -/

/-- A value under an E8M0 scale. -/
def scaled (x : Fp) (s : Nat) : Fp :=
  if s = 255 then .nan false
  else match x with
    | .fin n m e => .fin n m (e + s - 127)
    | .nan q => .nan q
    | .inf n => .inf n

/-- A byte of a list as a number. -/
def byteAt (bs : List Byte) (k : Nat) : Nat := (bs.getD k 0).toNat
def halfAt (bs : List Byte) (k : Nat) : Nat := byteAt bs (2 * k) + 256 * byteAt bs (2 * k + 1)
def nibbleAt (bs : List Byte) (k : Nat) : Nat := byteAt bs (k / 2) / (if k % 2 = 0 then 1 else 16) % 16

/-- The integer that the planes 7 down to 8 − k of an element give (07:R143). -/
def planesInt (bs : List Byte) (w k : Nat) (mid : Bool) (j : Nat) : Int :=
  let bit (p : Nat) : Nat := byteAt bs ((7 - p) * (4 * w) + j / 8) / 2 ^ (j % 8) % 2
  let q : Nat := (List.range k).foldl (fun x i => 2 * x + bit (7 - i)) 0
  let q : Int := if 2 ^ (k - 1) ≤ q then (q : Int) - 2 ^ k else q
  if mid && k < 8 then q * 2 ^ (8 - k) + 2 ^ (7 - k) else q * 2 ^ (8 - k)

/-- Element k of column n of a weight set; columns from ncols on hold zero. -/
def WSet.value (w : WSet) (k n : Nat) : Fp :=
  if w.ncols ≤ n then .fin false 0 0
  else
    let scale := byteAt w.scales (4 * n + k / 32)
    match w.fmt.toNat with
    | 3 => fpOf .f16 (halfAt w.data (128 * n + k))
    | 4 => fpOf .bf16 (halfAt w.data (128 * n + k))
    | 5 => fpOf .e4m3 (byteAt w.data (128 * n + k))
    | 6 => fpOf .e5m2 (byteAt w.data (128 * n + k))
    | 7 => scaled (fpOf .e2m1 (nibbleAt w.data (128 * n + k))) scale
    | _ => scaled (fpOfInt (planesInt w.data (4 * w.ncols) w.k w.mid (128 * n + k))) scale

/-- Element k of a row of activations; zero beyond klen, whatever the scale of its block is: 13:R249 makes those elements zero,
and 07:R153 does not say that a scale of 0xFF of a block without elements counts (DESIGN CHOICE, log 44). -/
def TaskRec.actAt (r : TaskRec) (scratch : Store 8) (i k : Nat) : Fp :=
  if r.klen ≤ k then .fin false 0 0
  else
    let row := r.off1 + i * r.stride
    let one (a : Nat) : Nat := (scratch.get a).toNat
    match r.fmt with
    | 3 => fpOf .f16 (one (row + 2 * k) + 256 * one (row + 2 * k + 1))
    | 4 => fpOf .bf16 (one (row + 2 * k) + 256 * one (row + 2 * k + 1))
    | 5 => fpOf .e4m3 (one (row + k))
    | 6 => fpOf .e5m2 (one (row + k))
    | 7 => scaled (fpOf .e2m1 (one (row + k / 2) / (if k % 2 = 0 then 1 else 16) % 16)) (one (r.off2 + 4 * i + k / 32))
    | _ => fpOfInt (scratch.get (row + k)).toInt

/-! ### The exact chunk (07:R152, R153) -/

/-- S: the exact sum of the products. -/
def chunkSum (a w : Nat → Fp) : Fp :=
  let ks := List.range 128
  if ks.any (fun k => (a k).isNan || (w k).isNan) then .nan false
  else
    let ps := ks.map (fun k => mulExact (a k) (w k))
    if ps.any Option.isNone then .nan false
    else (sumExact .rn (ps.filterMap id)).getD (.nan false)

/-- The new accumulator value from the old one. -/
def chunkInto (af : FFmt) (mode : Rnd) (d : Nat) (accum fused : Bool) (old : Nat) (x : Fp) : Nat :=
  if !accum then (roundTo af mode d false x).bits
  else if fused then (addTerms af mode d [fpOf af old, x]).bits
  else (fAdd af mode d old (roundTo af mode d false x).bits).bits

/-- The bytes of an accumulator value: 4 for FP32, else 2. -/
def accBytes (af : Nat) : Nat := if af = 0 then 4 else 2

/-- The first byte of column n of row i of an accumulator range. -/
def accPlace (acc af i n : Nat) : Nat := 96 * (acc + i * TaskRec.unitsOf af) + accBytes af * n

/-- The row number of 13:R244. -/
def accRow (acc af i : Nat) : Nat := if af = 0 then (acc + 2 * i) / 2 else acc + i

def accGet (m : Store 8) (acc af i n : Nat) : Nat := (ofBytes 32 (readBytes m (accPlace acc af i n) (accBytes af))).toNat

/-- The rounding mode of a record. -/
def TaskRec.mode (r : TaskRec) : Rnd := if r.sr then .sr else .rn

/-- The dither of a record's element. -/
def TaskRec.ditherAt (r : TaskRec) (t : Team) (e : Nat) : Nat := if r.sr then dither (t.hdr.numerics == 3) r.dseed e else 0

/-- One element of an MMA. -/
def mmaElem (t : Team) (r : TaskRec) (w : WSet) (i n : Nat) : Nat :=
  chunkInto (TaskRec.afFmt r.af) r.mode (r.ditherAt t (accRow r.acc r.af i * 48 + n)) r.accum t.hdr.fused
    (accGet t.acc r.acc r.af i n) (chunkSum (r.actAt t.scratch i) (fun k => w.value k n))

/-- Every element of an MMA as bytes of the accumulators. -/
def mmaWrites (t : Team) (r : TaskRec) (w : WSet) : List (Nat × Byte) :=
  (List.range r.rows).flatMap (fun i => (List.range 48).flatMap (fun n =>
    (List.range (accBytes r.af)).map (fun b =>
      (accPlace r.acc r.af i n + b, BitVec.ofNat 8 (mmaElem t r w i n / 2 ^ (8 * b))))))

/-- Accumulator units of a range that hold an uncorrectable error (22:R360). -/
def Team.accBad (t : Team) (rs : List (Nat × Nat)) : Bool := t.badAcc.any (fun u => rs.any (fun x => decide (x.1 ≤ u) && decide (u < x.2)))
/-- Units that have been written whole hold none any more. -/
def Team.accClean (t : Team) (rs : List (Nat × Nat)) : Team :=
  { t with badAcc := t.badAcc.filter (fun u => !rs.any (fun x => decide (x.1 ≤ u) && decide (u < x.2))) }

/-- What an MMA reads in the scratchpad: the bytes of its rows, and for E2M1 its scales. -/
def TaskRec.mmaReads (r : TaskRec) (w : WSet) : List (Nat × Nat) :=
  (List.range r.rows).map (fun i => (r.off1 + i * r.stride, r.off1 + i * r.stride + TaskRec.rowBytes r.fmt)) ++
    (if w.fmt = 7 then [(r.off2, r.off2 + 4 * r.rows)] else [])

def mmaBody (_c : Context) (t : Team) (r : TaskRec) (s : State) : TStep Plan :=
  match s.teamOf t.key with
  | none => .later s
  | some t =>
    match t.wsets.find? (fun e => e.1 == r.wsMma) with
    | none => .fail s 5 0
    | some (_, w) =>
      if w.bad || t.anyScratchBad (r.mmaReads w) || t.accBad r.accRanges.1 then .fail s 11 0
      else .ok (s.setTeam ({ t with acc := Store.setAll t.acc (mmaWrites t r w) }.accClean r.accRanges.2)) ⟨[], []⟩

def execMma (t : TeamKey) (seq : BitVec 16) (s : State) : Result := s.stepTask t seq 2 mmaBody

/-! ### ACCZ (13:R250) -/

def acczBody (_c : Context) (t : Team) (r : TaskRec) (s : State) : TStep Plan :=
  match s.teamOf t.key with
  | none => .later s
  | some t =>
    let n := bitsOf64 r.t0 44 32
    .ok (s.setTeam ({ t with acc := t.acc.filter (fun e => !(decide (96 * r.acc ≤ e.1) && decide (e.1 < 96 * (r.acc + n)))) }.accClean
      r.accRanges.2)) ⟨[], []⟩

def execAccz (t : TeamKey) (seq : BitVec 16) (s : State) : Result := s.stepTask t seq 3 acczBody

end Sys2Proof.Machine
end

