-- ==== Sys2Proof/Machine/Copies.lean ====
section
/-!
DEFINITION. The copy channels: DRAIN, COPYIN, COPYOUT, GATHER and FILL (13:R251 to R255; 22:R361 to R364), and the escrow that
an escrow task opens (10:R213).
-/

namespace Sys2Proof.Machine

open Sys2Proof

/-! ### Opening an escrow (10:R213) -/

/-- The pages of a buffer that this task would have to open: none of them held by another warp, none of a class that no
escrow admits. `n` counts the pages left to look at, the first of them page `p` of the virtual space. A failure names the first
byte of the buffer in its page (13:R260). -/
def State.escrowPages (c : Context) (owner : WarpKey) (base : Nat) : Nat → Nat → State → List Nat → TStep (List Nat)
  | 0, _, s, acc => .ok s acc.reverse
  | n + 1, p, s, acc =>
    let a := max base (p * 65536)
    match check c (BitVec.ofNat 64 a) .w with
    | .fault _ => .fail s 16 a
    | .growth _ => .fail s 16 a
    | .ok ia =>
      match walk s.dev c ia with
      | .absent => .park s (absentKind s.dev c ia) ia a true
      | .malformed => .park s 3 ia a true
      | .page e =>
        if e.cls = 1 || e.cls = 2 || e.cls = 4 then .fail s 9 a
        else match escrowAt c ia with
          | some x => if x.owner = owner then State.escrowPages c owner base n (p + 1) s acc else .fail s 9 a
          | none => State.escrowPages c owner base n (p + 1) s (ia / 65536 :: acc)

/-- Copy a live page into an escrow page. -/
def State.openPage (s : State) (cn : Nat) (owner : WarpKey) (page frame : Nat) : State :=
  let s := s.recallRange cn (page * 65536) 65536 false
  match s.ctxOf cn with
  | none => s
  | some c =>
    match walkEntry s.dev c (page * 65536) with
    | .page p =>
      ({ s with dev := s.dev.copyFrame (p.phys 0) (frameAt false frame) }).setCtx
        { c with escrows := c.escrows ++ [Escrow.mk owner page frame] }
    | .absent => s
    | .malformed => s

/-- The pages of a buffer, from its first byte to its last. -/
def Shape.pages (sh : Shape) : Nat := if sh.base < sh.limit then (sh.limit - 1) / 65536 - sh.base / 65536 + 1 else 0

/-- The first escrow task on a buffer opens its escrow, in pages of the HBM tier; it waits while the pool has too few. -/
def State.openEscrow (s : State) (c : Context) (owner : WarpKey) (sh : Shape) : TStep Unit :=
  if c.hbmFrames.length + c.escrows.length < sh.pages then .later s
  else (State.escrowPages c owner sh.base sh.pages (sh.base / 65536) s []).bind (fun s pages =>
    if c.hbmFrames.length < pages.length then .later s
    else
      let mine := c.hbmFrames.take pages.length
      let s := s.setCtx { c with frames := c.frames.filter (fun f => !mine.contains f) }
      .ok ((pages.zip mine).foldl (fun s x => s.openPage c.num owner x.1 x.2) s) ())

/-- Open the escrow of a task whose shape record asks for one; the escrows of a killed team stay closed (20:R329). -/
def State.escrowFor (s : State) (t : Team) (r : TaskRec) (sh : Shape) : TStep Unit :=
  match s.ctxOf t.ctx with
  | none => .later s
  | some c =>
    if sh.escrow && t.status != .killed then s.openEscrow c ⟨t.key.launch, t.key.team, r.warp⟩ sh else .ok s ()

/-! ### Writes of a row -/

/-- The writes of a run of bytes, one for each line. -/
def runWrites (escrow : Bool) (a : Nat) (bs : List Byte) : List TaskWrite :=
  (cutLines (bs.length / 128 + 2) a bs).map (fun x => ⟨x.1, x.2, false, escrow⟩)

/-- The bytes of one converted row: E2M1 results are packed two to a byte. -/
def packRow (f : FFmt) (xs : List Nat) : List Byte :=
  if f = .e2m1 then
    (List.range (xs.length / 2)).map (fun k => BitVec.ofNat 8 (xs.getD (2 * k) 0 % 16 + 16 * (xs.getD (2 * k + 1) 0 % 16)))
  else xs.flatMap (fun x => toBytes (fmtWidth f / 8) (BitVec.ofNat 32 x))

/-! ### DRAIN (13:R252) -/

/-- The rounded value of a column of a box row. -/
def drainValue (t : Team) (r : TaskRec) (f : FFmt) (row : BoxRow) (n : Nat) : Nat :=
  (roundTo f r.mode (r.ditherAt t (row.coord + n)) r.sat (fpOf (TaskRec.afFmt r.af) (accGet t.acc r.acc r.af row.row n))).bits

/-- The writes of a box row: elements for ATOMIC_ADD, runs of bytes otherwise. -/
def drainRow (t : Team) (r : TaskRec) (sh : Shape) (f : FFmt) (row : BoxRow) : List TaskWrite :=
  let xs := (List.range row.count).map (drainValue t r f row)
  if sh.atomic then
    (List.range row.count).map (fun n => ⟨(row.addr + 4 * n) % 2 ^ 64, toBytes 4 (BitVec.ofNat 32 (xs.getD n 0)), true, false⟩)
  else runWrites sh.escrow row.addr (packRow f xs)

def drainBody (c : Context) (t : Team) (r : TaskRec) (s : State) : TStep Plan :=
  (s.taskShape c t r).bind (fun s sh =>
    if boxOutside r sh then .fail s 7 0
    else match floatFmt sh.fmt with
      | none => .fail s 6 0
      | some f => (s.escrowFor t r sh).bind (fun s _ =>
        if t.accBad r.accRanges.1 then .fail s 11 0
        else .ok s ⟨[], (boxRows r sh).flatMap (drainRow t r sh f)⟩))

def execDrain (t : TeamKey) (seq : BitVec 16) (s : State) : Result := s.stepTask t seq 4 drainBody

/-! ### COPYIN (13:R253) -/

/-- The scratchpad offset of a row. -/
def TaskRec.rowAt (r : TaskRec) (row : Nat) : Nat := r.soff + row * (r.pitch * 16)

/-- What a row of a copy into the scratchpad reads, and the zeros of its elements that lie outside the tensor. -/
def rowReads (r : TaskRec) (sh : Shape) (row : BoxRow) : List TaskRead := runReads row.addr (sh.bytes row.count) (r.rowAt row.row)
def State.zeroTails (s : State) (k : TeamKey) (r : TaskRec) (sh : Shape) (rows : List BoxRow) : State :=
  rows.foldl (fun s row =>
    let n := sh.bytes row.count
    let len := sh.bytes (sh.box 0)
    if n < len then s.scratchPut k (r.rowAt row.row + n) (List.replicate (len - n) 0) else s) s

/-- The plan of a copy of rows into the scratchpad. -/
def State.copyRows (s : State) (k : TeamKey) (r : TaskRec) (sh : Shape) (rows : List BoxRow) : TStep Plan :=
  .ok (s.zeroTails k r sh rows) ⟨rows.flatMap (rowReads r sh), []⟩

def copyinBody (c : Context) (t : Team) (r : TaskRec) (s : State) : TStep Plan :=
  (s.taskShape c t r).bind (fun s sh =>
    if layoutBad r sh then .fail s 6 0
    else if boxOutside r sh then .fail s 7 0
    else if sh.fmt = 12 then .ok s ⟨runReads sh.base sh.planesBytes r.soff, []⟩
    else s.copyRows t.key r sh (boxRows r sh))

def execCopyin (t : TeamKey) (seq : BitVec 16) (s : State) : Result := s.stepTask t seq 5 copyinBody

/-! ### COPYOUT (13:R253) -/

/-- The bytes of one box row that go to the tensor. -/
def copyoutRow (t : Team) (r : TaskRec) (sh : Shape) (row : BoxRow) : List Byte :=
  let at' := r.rowAt row.row
  if r.sfmt = sh.fmt then readBytes t.scratch at' (sh.bytes row.count)
  else match floatFmt sh.fmt with
    | none => []
    | some f => packRow f ((List.range row.count).map (fun n =>
        (roundTo f r.mode (r.ditherAt t (row.coord + n)) r.sat (fpOf .f32 (readW t.scratch (at' + 4 * n)).toNat)).bits))

/-- The scratchpad bytes that one box row reads. -/
def copyoutReads (r : TaskRec) (sh : Shape) (row : BoxRow) : Nat × Nat :=
  (r.rowAt row.row, r.rowAt row.row + (if r.sfmt = sh.fmt then sh.bytes row.count else 4 * row.count))

/-- The writes of a COPYOUT, and the scratchpad ranges that they come from. -/
def copyoutPlan (t : Team) (r : TaskRec) (sh : Shape) : List TaskWrite × List (Nat × Nat) :=
  if sh.fmt = 12 then
    (runWrites sh.escrow sh.base (sh.maskPlanes 0 (readBytes t.scratch r.soff sh.planesBytes)), [(r.soff, r.soff + sh.planesBytes)])
  else ((boxRows r sh).flatMap (fun row => runWrites sh.escrow row.addr (copyoutRow t r sh row)),
    (boxRows r sh).map (copyoutReads r sh))

def copyoutBody (c : Context) (t : Team) (r : TaskRec) (s : State) : TStep Plan :=
  (s.taskShape c t r).bind (fun s sh =>
    if layoutBad r sh then .fail s 6 0
    else if boxOutside r sh then .fail s 7 0
    else (s.escrowFor t r sh).bind (fun s _ =>
      if t.anyScratchBad (copyoutPlan t r sh).2 then .fail s 11 0 else .ok s ⟨[], (copyoutPlan t r sh).1⟩))

def execCopyout (t : TeamKey) (seq : BitVec 16) (s : State) : Result := s.stepTask t seq 6 copyoutBody

/-! ### GATHER (13:R254) -/

/-- Scratchpad row j and its tensor row: the elements inside the tensor. -/
def gatherRow (r : TaskRec) (sh : Shape) (scratch : Store 8) (j : Nat) : BoxRow :=
  let i := (readW scratch (r.ioff + 4 * j)).toNat
  ⟨j, (sh.base + i * sh.stride 1) % 2 ^ 64, if i < sh.dim 1 then min (sh.box 0) (sh.dim 0) else 0, 0⟩

/-- The writes of a scatter, row after row. -/
def scatterWrites (t : Team) (r : TaskRec) (sh : Shape) (rows : List BoxRow) : List TaskWrite :=
  rows.flatMap (fun row => runWrites false row.addr (readBytes t.scratch (r.rowAt row.row) (sh.bytes row.count)))

def gatherBody (c : Context) (t : Team) (r : TaskRec) (s : State) : TStep Plan :=
  (s.taskShape c t r).bind (fun s sh =>
    let rows := (List.range r.cnt).map (gatherRow r sh t.scratch)
    if layoutBad r sh then .fail s 6 0
    else if !sh.clip && decide (sh.dim 0 < sh.box 0) then .fail s 7 0
    else if t.scratchBad r.ioff (4 * r.cnt) then .fail s 11 0
    else if !sh.clip && (List.range r.cnt).any (fun j => decide (sh.dim 1 ≤ (readW t.scratch (r.ioff + 4 * j)).toNat)) then
      .fail s 8 0
    else if r.dir then
      (if t.anyScratchBad (rows.map (fun row => (r.rowAt row.row, r.rowAt row.row + sh.bytes row.count))) then .fail s 11 0
       else .ok s ⟨[], scatterWrites t r sh rows⟩)
    else s.copyRows t.key r sh rows)

def execGather (t : TeamKey) (seq : BitVec 16) (s : State) : Result := s.stepTask t seq 7 gatherBody

/-! ### FILL (13:R255) -/

/-- The bytes of one element of a global FILL. -/
def fillElem (r : TaskRec) (sh : Shape) : List Byte := toBytes (sh.bytes 1) (zext64 r.pattern)

def fillBody (c : Context) (t : Team) (r : TaskRec) (s : State) : TStep Plan :=
  if r.dir then
    (s.taskShape c t r).bind (fun s sh =>
      if boxOutside r sh then .fail s 7 0
      else .ok s ⟨[], (boxRows r sh).flatMap (fun row =>
        runWrites false row.addr ((List.replicate row.count (fillElem r sh)).flatten))⟩)
  else .ok (s.scratchPut t.key r.fillOff ((List.replicate (r.fillLen / 4) (toBytes 4 r.pattern)).flatten)) ⟨[], []⟩

def execFill (t : TeamKey) (seq : BitVec 16) (s : State) : Result := s.stepTask t seq 8 fillBody

end Sys2Proof.Machine
end

