-- ==== Sys2Proof/Machine/Collectives.lean ====
section
/-!
DEFINITION. Collectives (13:R256; 22:R365 to R374): groups, the chunks of each operation, the fold in member order, and
how a collective fails. The members on this package take part through their COLL records. A chunk is owned by one member, whose
die's engine folds it and writes it; the engines of other packages send and are sent pieces, finished chunks and failures
(DEDUCED, log 45).
-/

namespace Sys2Proof.Machine

open Sys2Proof

/-! ### Groups (22:R365) -/

/-- A group record as read: no reserved bit is set, the member count is 2 to 4,096, and the members follow. -/
def groupOfBytes (handle : Nat) (record : W64) (bs : List Byte) : Option Group :=
  let count := bitsOf64 (wordAt bs 0) 12 0
  if bitsOf64 (wordAt bs 0) 63 13 != 0 || decide (count < 2) || decide (4096 < count) || bitsOf64 (wordAt bs 1) 63 32 != 0 ||
      bitsOf64 (wordAt bs 2) 31 8 != 0 || (List.range 5).any (fun k => wordAt bs (3 + k) != 0) then none
  else
    let entry (j : Nat) : W64 := wordAt bs (8 + j)
    if (List.range count).any (fun j => bitsOf64 (entry j) 51 32 != 0) then none
    else some ⟨handle, record, (List.range count).map (fun j => ((entry j >>> 52).truncate 12, bitsOf64 (entry j) 31 0)),
      bitsOf64 (wordAt bs 1) 31 0, hi32 (wordAt bs 2), (wordAt bs 2).truncate 8, false, 0, none,
      List.replicate count 0⟩

/-- Read a group record: the head, then the members. -/
def State.readGroupRecord (s : State) (c : Context) (handle : Nat) (record : W64) : Reach (Option Group) :=
  let place := s.dev.hostPlace
  (s.getBytes c place.1 place.2 record.toNat 64).bind (fun s head =>
    if head.2 then .ok s none
    else (s.getBytes c place.1 place.2 (record.toNat + 64) (8 * bitsOf64 (wordAt head.1 0) 12 0)).bind (fun s rest =>
      .ok s (if rest.2 then none else groupOfBytes handle record (head.1 ++ rest.1))))

/-- A package takes part in a context (24:R387). -/
def Context.joinPackage (c : Context) (q : BitVec 12) : Context :=
  if c.pkgs.contains q then c else { c with pkgs := c.pkgs ++ [q] }

/-- GROUP_REGISTER: the handle goes back, or 0 where the record cannot be used. The packages of the members take part in the
context. -/
def execGroupRegister (ctx handle : Nat) (record : W64) (s : State) : Result :=
  match s.ctxOf ctx with
  | none => .next (s.send [.handle 0])
  | some c =>
    if handle = 0 ∨ 65535 < handle ∨ (c.groupOf handle).isSome then .next (s.send [.handle 0])
    else match s.readGroupRecord c handle record with
      | .ok s (some g) =>
        let others := (g.members.map Prod.fst).filter (fun q => q != s.dev.pkgNum)
        .next ((s.setCtx (others.foldl Context.joinPackage { c with groups := c.groups ++ [g] })).send [.handle handle])
      | .missing k ia =>
        if k = 3 then .next ((s.fatalTicket ctx s.dev.hostPlace ia).1.send [.handle 0])
        else
          let (s, ticket) := s.welhalTicket ctx k ia false
          .next { s with again := .parked ticket }
      | .ok s none => .next (s.send [.handle 0])
      | .fault _ => .next (s.send [.handle 0])
      | .refused _ _ => .next (s.send [.handle 0])

/-! ### The fold (22:R369) -/

/-- An element as it stands in the accumulator: FP32 bits for the floating-point types. -/
def collValue (type : Nat) (x : W32) : W32 := if type = 4 then x <<< 16 else x

/-- acc combined with the value of one more member. -/
def foldElem (type red : Nat) (mode : Rnd) (d : Nat) (acc x : W32) : W32 :=
  if type = 0 then
    (if red = 0 then acc + x else if red = 1 then (if x.slt acc then x else acc) else (if acc.slt x then x else acc))
  else if red = 0 then BitVec.ofNat 32 (fAdd .f32 mode d acc.toNat x.toNat).bits
  else BitVec.ofNat 32 (fMinMax .f32 (red == 2) acc.toNat x.toNat).bits

/-- The result of an element. -/
def collResult (type : Nat) (mode : Rnd) (d : Nat) (acc : W32) : W32 :=
  if type = 4 then BitVec.ofNat 32 (roundTo .bf16 mode d false (fpOf .f32 acc.toNat)).bits else acc

/-- The elements of a piece from its bytes, and the bytes of elements. -/
def elemsOf (esize n : Nat) (bs : List Byte) : List W32 :=
  (List.range n).map (fun k => ofBytes 32 ((bs.drop (esize * k)).take esize))
def bytesOfElems (esize : Nat) (xs : List W32) : List Byte := xs.flatMap (fun x => toBytes esize x)

/-! ### A collective under way -/

/-- Change a collective. -/
def State.setColl (s : State) (cl : Coll) : State :=
  { s with dev := { s.dev with colls := s.dev.colls.map (fun x =>
      if x.ctx = cl.ctx ∧ x.group = cl.group ∧ x.seq = cl.seq then cl else x) } }

/-- The collective that a record has joined, with its member number. -/
def State.collFor (s : State) (k : TeamKey) (seq : BitVec 16) : Option (Coll × Nat) :=
  s.dev.colls.findSome? (fun c => (c.joined.find? (fun j => j.2.1 == k && j.2.2.seq == seq)).map (fun j => (c, j.1)))

/-- Collectives that every member of this package has passed through are gone. -/
def State.sweepColls (s : State) : State :=
  { s with dev := { s.dev with colls := s.dev.colls.filter (fun cl =>
      cl.joined.any (fun j => s.standing j.2.1 j.2.2.seq) ||
      (match (s.ctxOf cl.ctx).bind (fun c => c.groupOf cl.group) with
       | none => false
       | some g => (g.localTo s.dev.pkgNum).any (fun j => decide (g.countAt j ≤ cl.seq)))) } }

/-! ### Owners (22:R368) -/

/-- The package of a member. -/
def Group.pkgOf (g : Group) (j : Nat) : BitVec 12 := (g.members.getD j (0, 0)).1

/-- What a message between engines says of its sender's record and group record (22:R366, R374). -/
def Group.headOf (g : Group) (r : TaskRec) : CollHead := ⟨r.collKey, g.members, g.waitms⟩

/-- Whether a member of this package owns a chunk. -/
def State.ownsChunk (s : State) (g : Group) (r : TaskRec) (chunk : Nat) : Bool := g.pkgOf (r.ownerOf g.m chunk) == s.dev.pkgNum

/-- The die and the quadrant from which the owner's engine reads and writes: those of the owner's team; the engine of another
package comes through an I/O die. A team stands in for an owner that has not joined. -/
def State.ownerPlace (s : State) (g : Group) (cl : Coll) (r : TaskRec) (chunk : Nat) (t : Team) (write : Bool) : Nat × Nat :=
  if s.ownsChunk g r chunk then
    match cl.joined.find? (fun j => j.1 == r.ownerOf g.m chunk) with
    | some (_, k, _) => (match s.teamOf k with | some x => x.place | none => t.place)
    | none => t.place
  else if write then s.dev.hostPlace else t.place

/-- The first member of each of the packages that some members stand on, this one apart. -/
def State.otherPackages (s : State) (g : Group) (js : List Nat) : List Nat :=
  js.foldl (fun acc j => if g.pkgOf j == s.dev.pkgNum || acc.any (fun i => g.pkgOf i == g.pkgOf j) then acc else acc ++ [j]) []

/-! ### Failure (22:R374) -/

/-- Write the status word of a group record. A page that is missing is waited for; a record that cannot be written stays as it
is. -/
def State.tryStatus (s : State) (cn handle : Nat) : State :=
  match s.ctxOf cn with
  | none => s
  | some c =>
    match c.groupOf handle with
    | none => s
    | some g =>
      let put (s : State) (f : Group → Group) : State := match s.ctxOf cn with
        | none => s
        | some c => s.setCtx (c.setGroup (f g))
      if !g.unwritten || g.ticket != 0 then s
      else match s.putBytes c s.dev.hostPlace.1 s.dev.hostPlace.2 (g.record.toNat + 0x10)
          (toBytes 8 (BitVec.ofNat 64 (g.fseq.toNat * 2 ^ 32 + g.fstatus.toNat) : W64)) with
        | .ok s _ => put s (fun g => { g with unwritten := false })
        | .fault _ => put s (fun g => { g with unwritten := false })
        | .refused _ _ => put s (fun g => { g with unwritten := false })
        | .missing k ia =>
          let (s, ticket) := s.welhalTicket cn k ia true
          put s (fun g => if k = 3 then { g with unwritten := false } else { g with ticket := ticket })

/-- The group record takes fseq and fstatus. -/
def State.writeStatus (s : State) (cn handle seq status : Nat) : State :=
  match s.ctxOf cn with
  | none => s
  | some c =>
    match c.groupOf handle with
    | none => s
    | some g => (s.setCtx (c.setGroup { g with
        fseq := BitVec.ofNat 32 seq, fstatus := BitVec.ofNat 8 status, unwritten := true })).tryStatus cn handle

/-- The ticket of a status word has been answered. -/
def Context.answerGroup (c : Context) (ticket : W64) (fatal : Bool) : Context :=
  { c with groups := c.groups.map (fun g =>
      if g.ticket = ticket ∧ ticket ≠ 0 then { g with ticket := 0, unwritten := !fatal } else g) }

/-- Status words that wait are tried again. -/
def State.serveGroups (s : State) : State :=
  ((s.ctx :: s.ctxs).flatMap (fun c => (c.groups.filter (fun g => g.unwritten && g.ticket == 0)).map (fun g => (c.num, g.handle)))).foldl
    (fun s x => s.tryStatus x.1 x.2) s

/-- The address of the first recv element of a member that has not been written; 0 if all have. -/
def Coll.firstLeft (cl : Coll) (m j : Nat) (r : TaskRec) : Nat :=
  match (List.range (r.chunks m)).find? (fun c => r.receives c j && !cl.written.contains (c, j)) with
  | some c => r.recvAt c
  | none => 0

/-- A collective fails on this package: the COLL of each member that has joined fails with reason 14, and those that join later
fail when they do. Writes already performed stand. -/
def State.failHere (s : State) (cl : Coll) (status : Nat) : State :=
  match cl.failed with
  | some _ => s
  | none =>
    let m := match (s.ctxOf cl.ctx).bind (fun c => c.groupOf cl.group) with | some g => g.m | none => 0
    let s := s.setColl { cl with failed := some status, pieces := [], accs := [], results := [] }
    let s := s.writeStatus cl.ctx cl.group cl.seq status
    cl.joined.foldl (fun s j =>
      if s.standing j.2.1 j.2.2.seq then s.failTask j.2.1 j.2.2 14 (cl.firstLeft m j.1 j.2.2) 0 else s) s

/-- A collective fails: the other packages of its members are told. -/
def State.failColl (s : State) (cl : Coll) (status : Nat) : State :=
  match cl.failed, (s.ctxOf cl.ctx).bind (fun c => c.groupOf cl.group) with
  | none, some g =>
    (s.failHere cl status).send ((s.otherPackages g (List.range g.m)).map (fun j =>
      Out.piece cl.group cl.seq j 0 (.failed status)))
  | _, _ => s.failHere cl status

/-- A collective that nobody has joined. -/
def Coll.fresh (ctx group seq : Nat) : Coll := ⟨ctx, group, seq, [], [], [], [], [], [], 0, none⟩

/-- The collective of a sequence number, which begins now if it has not; none if every member of this package has passed it. -/
def State.beginColl (s : State) (ctx group seq : Nat) : State × Option Coll :=
  match s.collOf ctx group seq with
  | some cl => (s, some cl)
  | none =>
    let passed := match (s.ctxOf ctx).bind (fun c => c.groupOf group) with
      | none => true
      | some g => (g.localTo s.dev.pkgNum).all (fun j => decide (seq < g.countAt j))
    if passed then (s, none)
    else ({ s with dev := { s.dev with colls := s.dev.colls ++ [Coll.fresh ctx group seq] } }, some (Coll.fresh ctx group seq))

/-- A collective that a debugger abandons or the driver cancels: members that have not come to it fail as they join. -/
def State.endColl (s : State) (ctx group seq status : Nat) : State :=
  match s.beginColl ctx group seq with
  | (s, some cl) => s.failColl cl status
  | (s, none) => s

/-- Whether the collective has a member in state KILLED: a team killed with its COLL not yet retired (22:R372). -/
def State.collKilled (s : State) (cl : Coll) : Bool :=
  cl.joined.any (fun j => s.standing j.2.1 j.2.2.seq &&
    (match s.teamOf j.2.1 with | some t => t.status == .killed | none => true))

/-- Whether a package with a member of a group is dead. -/
def State.collDead (s : State) (g : Group) : Bool := g.members.any (fun x => s.dev.deadPkgs.contains x.1)

/-- A member has gone past a sequence. -/
def State.raiseCount (s : State) (cn handle j : Nat) : State :=
  match s.ctxOf cn with
  | none => s
  | some c =>
    match c.groupOf handle with
    | none => s
    | some g => s.setCtx (c.setGroup { g with counts := listPut g.counts j (g.countAt j + 1) })

/-- COLLs that a kill has discarded before they issued: each carried its member's next sequence, whose collective fails with
MEMBER_KILLED (22:R366, R372), or DEAD if the team's die is dead. A team of a launch that does not hold the group is no member. -/
def State.loseColl (s : State) (t : Team) (r : TaskRec) : State :=
  match s.ctxOf t.ctx with
  | none => s
  | some c =>
    match c.groupOf r.collGroup with
    | none => s
    | some g =>
      match (if (s.groupHolder g).any (fun n => n != t.key.launch) then none else g.indexOf s.dev.pkgNum t.key.team) with
      | none => s
      | some j => (s.endColl c.num g.handle (g.countAt j) (if s.dev.deadDies.contains (dieOf t.core) then 4 else 3)).raiseCount
          c.num g.handle j

def State.loseColls (s : State) (k : TeamKey) : State :=
  match s.teamOf k with
  | none => s
  | some t => t.lost.foldl (fun s r => s.loseColl t r) (s.setTeam { t with lost := [] })

/-! ### Joining (22:R366, R370) -/

/-- A COLL that belongs to no collective fails with NOT_MEMBER. -/
def State.notMember (s : State) (cn : Nat) (t : Team) (r : TaskRec) (seq : Nat) : State :=
  (s.writeStatus cn r.collGroup seq 2).failTask t.key r 14 r.collRecv 0

/-- The first launch whose team issues a COLL on a group holds it, whether or not the team is a member (22:R365). -/
def State.holdGroup (s : State) (cn handle launch : Nat) : State :=
  match s.ctxOf cn with
  | none => s
  | some c =>
    match c.groupOf handle with
    | none => s
    | some g => if (s.groupHolder g).isSome then s else s.setCtx (c.setGroup { g with holder := some launch })

/-- The messages for the pieces that a member sends. -/
def pieceSteps (ctx seq m j : Nat) (r : TaskRec) : List Instr :=
  ((List.range (r.chunks m)).filter (fun c => r.sources c j)).map (fun c => Instr.collPiece ctx r.collGroup seq j c none)

/-- A member's record joins its collective. -/
def State.joinColl (s : State) (cn : Nat) (g : Group) (j : Nat) (t : Team) (r : TaskRec) : State :=
  let seq := g.countAt j
  match s.beginColl cn g.handle seq with
  | (s, none) => s.failTask t.key r 14 0 0
  | (s, some cl) =>
    let s := s.raiseCount cn g.handle j
    match cl.failed with
    | some _ => s.failTask t.key r 14 (cl.firstLeft g.m j r) 0
    | none =>
      let odd := cl.joined.any (fun x => x.2.2.collKey != r.collKey)
      let cl := { cl with joined := cl.joined ++ [(j, t.key, { r with issued := true })] }
      let s := s.setColl cl
      if odd then s.failColl cl 1
      else if r.badBuffers g.m then s.failColl cl 8
      else if s.collDead g then s.failColl cl 4
      else s.post (pieceSteps cn seq g.m j r)

/-- A COLL that has not issued. -/
def State.issueColl (s : State) (c : Context) (t : Team) (r : TaskRec) : State :=
  if !s.taskMay t r then s.comeBack
  else
    match c.groupOf r.collGroup with
    | none => (s.issueTask t r).notMember c.num t r 0
    | some g =>
      let other := match s.groupHolder g with | some n => n != t.key.launch | none => false
      match g.indexOf s.dev.pkgNum t.key.team with
      | none => ((s.issueTask t r).holdGroup c.num g.handle t.key.launch).notMember c.num t r 0
      | some j =>
        if other then
          (s.issueTask t r).notMember c.num t r (g.countAt j)
        else (((s.issueTask t r).holdGroup c.num g.handle t.key.launch).joinColl c.num g j t r).comeBack

/-! ### Writing results (22:R368, R371) -/

/-- The finished elements of a chunk: folded or copied here, or sent by their owner. -/
def Coll.done (cl : Coll) (r : TaskRec) (m chunk : Nat) : Option (List W32) :=
  match cl.accs.find? (fun a => a.1 == chunk && a.2.1 == (if r.collOp = 2 ∨ r.collOp = 3 then 1 else m)) with
  | some a => some a.2.2
  | none => (cl.results.find? (fun a => a.1 == chunk)).map Prod.snd

/-- The chunks that a member receives and has not been given. -/
def Coll.due (cl : Coll) (r : TaskRec) (m j : Nat) : List Nat :=
  (List.range (r.chunks m)).filter (fun c => r.receives c j && !cl.written.contains (c, j))

/-- The pieces of a member that have been read. -/
def Coll.readAll (cl : Coll) (r : TaskRec) (m j : Nat) : Bool :=
  (List.range (r.chunks m)).all (fun c => !r.sources c j || cl.read.contains (c, j))

/-- A page of a run of bytes is parked. -/
def State.runParked (s : State) (c : Context) (t : Team) (seq : BitVec 16) (p : Perm) (a n : Nat) : Bool :=
  s.pageParked c t seq p a || s.pageParked c t seq p (a + n - 1)

/-- Write the chunks of a member that are finished, each as a whole and from its owner's engine; one of which a page is missing
waits for it, the others go on. The answer is a status against the collective, 0 for none. -/
def State.writeChunks (c : Context) (g : Group) (t : Team) (r : TaskRec) (j : Nat) : List Nat → State → Coll → State × Coll × Nat
  | [], s, cl => (s, cl, 0)
  | k :: rest, s, cl =>
    match cl.done r g.m k with
    | none => State.writeChunks c g t r j rest s cl
    | some xs =>
      let bs := bytesOfElems r.esize xs
      if s.runParked c t r.seq .w (r.recvAt k) bs.length then State.writeChunks c g t r j rest s cl
      else
        let place := s.ownerPlace g cl r k t true
        match s.putBytes c place.1 place.2 (r.recvAt k) bs with
        | .ok s _ => State.writeChunks c g t r j rest s { cl with written := cl.written ++ [(k, j)] }
        | .missing kind ia =>
          (match s.missTask t r.seq place kind ia (r.recvAt k) true with
           | .ok s _ => State.writeChunks c g t r j rest s cl
           | .fail s _ _ => (s, cl, 7)
           | .fatal s _ _ => (s, cl, 7)
           | .park s _ _ _ _ => (s, cl, 7)
           | .later s => (s, cl, 7))
        | .fault _ => (s, cl, 7)
        | .refused _ _ => (s, cl, 7)

/-- A member's finished chunks are written; it retires once its reads and writes are done. -/
def State.giveColl (s : State) (c : Context) (g : Group) (t : Team) (r : TaskRec) (cl : Coll) (j : Nat) : State :=
  match State.writeChunks c g t r j (cl.due r g.m j) s cl with
  | (s, cl, 0) =>
    let s := s.setColl cl
    if (cl.due r g.m j).isEmpty ∧ cl.readAll r g.m j then (s.retireTask t.key r.seq).sweepColls else s.comeBack
  | (s, cl, n + 1) => ((s.setColl cl).failColl cl (n + 1)).comeBack

/-- A step of a COLL that has joined: it writes what is finished. Under DET its results wait for the clearing, all together
(13:R261). -/
def State.stepColl (s : State) (c : Context) (t : Team) (r : TaskRec) (cl : Coll) (j : Nat) : State :=
  match c.groupOf cl.group with
  | none => (s.failColl cl 2).comeBack
  | some g =>
    if s.collKilled cl then (s.failColl cl 3).comeBack
    else if s.collDead g then (s.failColl cl 4).comeBack
    else if t.det then
      if r.out.isNone ∧ cl.readAll r g.m j ∧ (cl.due r g.m j).all (fun k => (cl.done r g.m k).isSome) then
        (s.onTask t.key r.seq (fun x => { x with out := some [] })).comeBack
      else s.comeBack
    else s.giveColl c g t r cl j

/-- COLL. -/
def execColl (t : TeamKey) (seq : BitVec 16) (s : State) : Result :=
  match s.teamOf t with
  | none => .next s.sweepColls
  | some tm =>
    match tm.ring.find? (fun r => r.seq == seq), s.ctxOf tm.ctx with
    | some r, some c =>
      if r.kind ≠ 9 then .next s
      else if !r.issued then .next (s.issueColl c tm r)
      else match s.collFor t seq with
        | none => .next (s.failTask t r 14 r.collRecv 0)
        | some (cl, j) => if r.fatal.isSome then .next (s.failColl cl 7) else .next (s.stepColl c tm r cl j)
    | _, _ => .next s.sweepColls

/-- The results of a COLL are written at the clearing; what has to wait for a page is written at a later one. -/
def State.clearColl (s : State) (c : Context) (t : Team) (r : TaskRec) : State :=
  match s.collFor t.key r.seq with
  | none => s
  | some (cl, j) =>
    match c.groupOf cl.group with
    | none => s.failColl cl 2
    | some g => { s.giveColl c g t r cl j with again := s.again }

/-! ### Pieces (22:R368 to R370) -/

/-- Whether the rounding of a collective dithers with 8 bits: by the launch of the first member of this package that has joined,
and at N3 if its team is gone. The spec does not say which launch's level holds where members run under several (DESIGN
CHOICE, log 46). -/
def State.collN3 (s : State) (cl : Coll) : Bool :=
  match cl.joined.head? with
  | some (_, k, _) => (match s.teamOf k with | some t => t.hdr.numerics == 3 | none => true)
  | none => true

/-- Fold into a chunk the pieces that come next in member order. -/
def Coll.fold (cl : Coll) (r : TaskRec) (n3 : Bool) (m chunk : Nat) : Nat → Coll
  | 0 => cl
  | fuel + 1 =>
    let acc := cl.accs.find? (fun a => a.1 == chunk)
    let next := match acc with | some a => a.2.1 | none => 0
    match cl.pieces.find? (fun p => p.1 == chunk && p.2.1 == next) with
    | none => cl
    | some p =>
      let mode : Rnd := if r.collSr then .sr else .rn
      let d (k : Nat) : Nat := if r.collSr then dither n3 cl.seed (r.chunkBase chunk + k) else 0
      let folded := match acc with
        | none => p.2.2.map (collValue r.collType)
        | some a => (List.range a.2.2.length).map (fun k =>
            foldElem r.collType r.collRed mode (d k) (a.2.2.getD k 0) (collValue r.collType (p.2.2.getD k 0)))
      let value := if next + 1 = m then (List.range folded.length).map (fun k => collResult r.collType mode (d k) (folded.getD k 0))
        else folded
      Coll.fold { cl with
        pieces := cl.pieces.filter (fun x => !(x.1 == chunk && x.2.1 == next))
        accs := (chunk, next + 1, value) :: cl.accs.filter (fun a => a.1 != chunk) } r n3 m chunk fuel

/-- The piece of a member for a chunk is here. -/
def Coll.has (cl : Coll) (r : TaskRec) (member chunk : Nat) : Bool :=
  cl.pieces.any (fun p => p.1 == chunk && p.2.1 == member) ||
    cl.accs.any (fun a => a.1 == chunk && (r.collOp == 2 || r.collOp == 3 || decide (member < a.2.1)))

/-- A piece arrives at the engine that owns its chunk. -/
def Coll.arrive (cl : Coll) (r : TaskRec) (n3 : Bool) (m member chunk : Nat) (seed : W64) (xs : List W32) : Coll :=
  if cl.has r member chunk then cl
  else if r.collOp = 2 ∨ r.collOp = 3 then { cl with accs := (chunk, 1, xs) :: cl.accs }
  else
    Coll.fold { cl with pieces := cl.pieces ++ [(chunk, member, xs)], seed := if member = 0 then seed else cl.seed }
      r n3 m chunk (m + 1)

/-- The bytes of staging memory that the owners of a die hold of a collective: pieces of later members (22:R370). -/
def State.staged (s : State) (g : Group) (cl : Coll) (r : TaskRec) (die : Nat) (t : Team) : Nat :=
  ((cl.pieces.filter (fun p => (s.ownerPlace g cl r p.1 t false).1 == die)).map (fun p => r.esize * p.2.2.length)).sum

/-- Room for a piece in the owner's share of 1 MiB; the piece that is next in the fold needs none. -/
def State.stagingRoom (s : State) (g : Group) (cl : Coll) (r : TaskRec) (t : Team) (member chunk : Nat) : Bool :=
  let next := match cl.accs.find? (fun a => a.1 == chunk) with | some a => a.2.1 | none => 0
  r.collOp == 2 || r.collOp == 3 || member == next ||
    decide (s.staged g cl r (s.ownerPlace g cl r chunk t false).1 t + r.esize * r.chunkLen chunk ≤ 1048576)

/-- A piece joins the fold; a chunk that it finishes goes to the packages of its other receivers. -/
def State.putPiece (s : State) (g : Group) (cl : Coll) (r : TaskRec) (member chunk : Nat) (seed : W64) (xs : List W32) : State :=
  let new := cl.arrive r (s.collN3 cl) g.m member chunk seed xs
  let s := s.setColl new
  match cl.done r g.m chunk, new.done r g.m chunk with
  | none, some ys => s.send ((s.otherPackages g ((List.range g.m).filter (r.receives chunk))).map (fun j =>
      Out.piece cl.group cl.seq j chunk (.result (g.headOf r) ys)))
  | _, _ => s

/-- What another package has sent: it waits until a member of this package has joined. -/
def State.remotePiece (s : State) (cl : Coll) (g : Group) (member chunk : Nat) (x : CollMsg) : State :=
  match x, cl.joined.head? with
  | .failed status, _ => s.failHere cl status
  | _, none => s.comeBack
  | .result head xs, some (_, _, r) =>
    if head != g.headOf r then s.failColl cl 1
    else if cl.results.any (fun a => a.1 == chunk) then s else s.setColl { cl with results := cl.results ++ [(chunk, xs)] }
  | .piece head seed xs, some (_, k, r) =>
    if head != g.headOf r then s.failColl cl 1
    else if !s.ownsChunk g r chunk then s
    else match s.teamOf k with
      | none => s
      | some t => if s.stagingRoom g cl r t member chunk then s.putPiece g cl r member chunk seed xs else s.comeBack

/-- A piece of a member of this package is read from its send buffer, at its homes, and goes to the owner of its chunk; under DET not
between two turns of a clearing (13:R261). -/
def State.localPiece (s : State) (c : Context) (cl : Coll) (g : Group) (member chunk : Nat) (k : TeamKey) (r : TaskRec) : State :=
  match s.teamOf k, s.recordOf k r.seq with
  | some t, some now =>
    let mine := s.ownsChunk g r chunk
    let n := r.esize * r.chunkLen chunk
    if now.fatal.isSome then s.failColl cl 7
    else if s.collKilled cl then s.failColl cl 3
    else if (t.det && s.clearingOf t.key.launch) || s.runParked c t r.seq .r (r.sendAt chunk) n || (mine && !s.stagingRoom g cl r t member chunk) then s.comeBack
    else
      let place := s.ownerPlace g cl r chunk t false
      match s.getBytes c place.1 place.2 (r.sendAt chunk) n with
      | .ok s (_, true) => s.failColl cl 7
      | .ok s (bs, false) =>
        let own := s.taskOwn t r
        let bs := (cutLines (n / 128 + 2) (r.sendAt chunk) bs).flatMap (fun x => overlay own (iaOf c .r (BitVec.ofNat 64 x.1)) x.2)
        let xs := elemsOf r.esize (r.chunkLen chunk) bs
        let cl := { cl with read := cl.read ++ [(chunk, member)] }
        let s := s.setColl cl
        if mine then s.putPiece g cl r member chunk r.dseed xs
        else s.send [.piece cl.group cl.seq (r.ownerOf g.m chunk) chunk (.piece (g.headOf r) r.dseed xs)]
      | .missing kind ia =>
        (match s.missTask t r.seq place kind ia (r.sendAt chunk) false with
         | .ok s _ => s.comeBack
         | .fail s _ _ => s.failColl cl 7
         | .fatal s _ _ => s.failColl cl 7
         | .park s _ _ _ _ => s.failColl cl 7
         | .later s => s.failColl cl 7)
      | .fault _ => s.failColl cl 7
      | .refused _ _ => s.failColl cl 7
  | _, _ => s

/-- COLL_PIECE: of a member of this package, or with what the engine of another package has sent. -/
def execCollPiece (ctx group seq member chunk : Nat) (data : Option CollMsg) (s : State) : Result :=
  match (s.ctxOf ctx).bind (fun c => (c.groupOf group).map (fun g => (c, g))) with
  | none => .next s
  | some (c, g) =>
    match data with
    | some x =>
      (match s.beginColl ctx group seq with
       | (s, none) => .next s
       | (s, some cl) => if cl.failed.isSome then .next s else .next (s.remotePiece cl g member chunk x))
    | none =>
      match s.collOf ctx group seq with
      | none => .next s
      | some cl =>
        if cl.failed.isSome then .next s
        else match cl.joined.find? (fun j => j.1 == member) with
          | none => .next s
          | some (_, k, r) => .next (s.localPiece c cl g member chunk k r)

/-! ### Waits (22:R372) -/

/-- HELD: a warp of the member's team is stopped by a debugger. -/
def State.memberHeld (s : State) (launch team : Nat) : Bool :=
  s.allWarps.any (fun w => w.key.launch == launch && w.key.team == team && w.status == .stopped)

/-- A piece of another package that waits for a collective's first member of this package. -/
def pieceFor (cl : Coll) : Instr → Bool
  | .collPiece ctx group seq _ _ (some (.piece _ _ _)) => ctx == cl.ctx && group == cl.group && seq == cl.seq
  | _ => false

/-- An engine of this package owns a chunk and waits for the piece of a member; while no member of this package has joined, it is
known only by the pieces that have come, and waits for the members of this package. -/
def State.awaits (s : State) (g : Group) (cl : Coll) (member : Nat) : Bool :=
  cl.failed.isNone &&
  (match cl.joined.head? with
   | none => g.pkgOf member == s.dev.pkgNum && (s.events ++ s.held).any (pieceFor cl)
   | some (_, _, r) => (List.range (r.chunks g.m)).any (fun k => s.ownsChunk g r k && r.sources k member && !cl.has r member k))

/-- The wait on a member has passed waitms: the driver gets a notice, unless the member is held. Whether a member of another package
is held is known there only (log 45). -/
def execWaitNotice (ctx group seq member : Nat) (s : State) : Result :=
  match (s.ctxOf ctx).bind (fun c => c.groupOf group) with
  | none => .next s
  | some g =>
    let held := match g.holder, g.members[member]? with
      | some l, some (p, t) => p == s.dev.pkgNum && s.memberHeld l t
      | _, _ => false
    let waits := match s.collOf ctx group seq with
      | some cl => s.awaits g cl member
      | none => false
    if g.waitms != 0 && waits && !held then .next (s.send [.waitNotice group seq member]) else .next s

/-- The driver cancels a collective. -/
def execCollectiveCancel (ctx group seq : Nat) (s : State) : Result :=
  match (s.ctxOf ctx).bind (fun c => c.groupOf group) with
  | none => .next s
  | some _ => .next (s.endColl ctx group seq 6)

end Sys2Proof.Machine
end

