-- ==== Sys2Proof/Machine/StoreBuffer.lean ====
section
/-!
DEFINITION. How a warp's buffered stores and pushes reach their homes (17:R288; 09:R175, R184, R185; 10:R198, R199), fills and
prefetches on their way (10:R203), write-backs (19:R312), the page recall (17:R291) and the first touch (17:R294).
-/

namespace Sys2Proof.Machine

open Sys2Proof

/-! ### The write buffer -/

def Warp.entry (w : Warp) (id : Nat) : Option WEntry := w.wbuf.find? (fun e => e.id == id)
def Warp.setStage (w : Warp) (id : Nat) (st : WStage) : Warp :=
  { w with wbuf := w.wbuf.map (fun e => if e.id = id then { e with stage := st } else e) }
/-- An entry is free again; what waited for room goes on. -/
def Warp.freeEntry (w : Warp) (id : Nat) : Warp :=
  { w with wbuf := w.wbuf.filter (fun e => e.id != id), laneStalled := false, scalStalled := false }

/-- An older entry of the stream for the same home has not been performed (09:R184), or one that a VSYNC or a PHASE orders before
everything that follows it (05:R113); those of its own batch are performed with it. -/
def State.olderEntry (s : State) (w : Warp) (core : Nat) (e : WEntry) : Bool :=
  w.wbuf.any (fun y => decide (y.id < e.id) && y.stage != .performed && !(e.elems && y.elems && y.exec == e.exec) &&
    (y.fenced || y.scalar == e.scalar && s.homeFor core (untag y.line).2 == s.homeFor core (untag e.line).2))

/-- The bytes of one line that an entry leaves, by address: the last lane's stand (10:R195). -/
def WEntry.cells (e : WEntry) : List (Nat × Byte) :=
  (List.range 128).filterMap (fun k => e.bytes.reverse.find? (fun x => x.1 % 128 == k))

/-- A store to a line that the core holds privately is performed there: a whole line clears the poison that it had, and an error
in the entry poisons it (17:R288, R305, R307). -/
def State.drainPrivate (s : State) (core : Nat) (e : WEntry) : State :=
  let s := { s with dev := s.dev.bump e.line }
  s.setCore ((s.coreOf core).change e.line (fun l => { l with
    st := .pd, ver := s.dev.vers.get e.line, poison := e.poison || (l.poison && e.cells.length != 128)
    data := patchLine l.data (e.bytes.map (fun (b : Nat × Byte) => (b.1 % 128, b.2))) }))

/-- An entry leaves for its home; the core's own copy takes its bytes (17:R288). -/
def State.sendEntry (s : State) (w : WarpKey) (core : Nat) (e : WEntry) : State :=
  let s := s.updateCopy core e.line (e.bytes.map (fun (b : Nat × Byte) => (b.1 % 128, b.2)))
  (s.mapWarps (fun x => x.key == w) (fun x => x.setStage e.id .sent)).post
    [if e.push.isSome then .pushRequest w e.id else .storeRequest w e.id]

/-- WRITE_BUFFER_DRAIN: a store to a line that the core holds on a private page is performed in the L1, after the older ones for
its home; any other entry leaves for its home, where it stands in the slice's queue or, while that is full, on the ring
(17:R292; 18:R310). -/
def execWriteBufferDrain (w : WarpKey) (id : Nat) (s : State) : Result :=
  match s.warpOf w with
  | none => .next s
  | some x =>
    match x.entry id with
    | none => .next s
    | some e =>
      let core := s.coreOfWarp w
      if e.stage ≠ .buffered then .next s
      else if e.push.isNone && (s.coreOf core).holdsPrivate e.line then
        if s.olderEntry x core e then .next { s with again := .held }
        else .next ((s.verify core e.line).drainPrivate core e |>.mapWarps (fun y => y.key == w) (fun y => y.freeEntry id))
      else .next (s.sendEntry w core e)

/-- Admission of a write to each of some lines; the state as it stands where one must wait. -/
def State.letInAll (s : State) (c : Context) (core : Nat) (excl : Bool) : List Nat → State × Bool
  | [] => (s, true)
  | line :: rest =>
    match s.letIn c (.core core) true excl true (untag line).2 with
    | .absent _ => (s, false)
    | .hold s => (s, false)
    | .ok s _ => s.letInAll c core excl rest

/-- The merged line goes to every core of a push's destination set, with its poison (10:R199; 17:R307). -/
def pushTargets (ds : W64) : List Nat :=
  let die := bitsOf64 ds 36 32
  if 24 ≤ die then [] else (Mask.lanes (lo32 ds)).map (fun k => 32 * die + k)

def State.sendPush (s : State) (c : Context) (ia : Nat) (ds : W64) : State :=
  match s.fetchLine c ia with
  | none => s
  | some (x, bad) =>
    let line := tagged c.num ia
    s.post ((pushTargets ds).map (fun k => Instr.pushInstall k line ⟨x, s.dev.vers.get line, bad⟩))

/-- Bytes at an address go to the home. -/
def State.writeHere (s : State) (c : Context) (core ia : Nat) (bs : List Byte) : State :=
  match walk s.dev c ia with
  | .absent => s
  | .malformed => s
  | .page p => s.homeWrite c.num (some core) p ia bs

/-- One lane's write at the home; the line of a pushed element goes out at once (10:R198, R199). An error in its entry poisons
what it has written. -/
def State.performWrite (s : State) (c : Context) (core : Nat) (push : Option W64) (poison : Bool) (x : LaneStore) : State :=
  let s := s.writeHere c core x.ia x.bytes
  let s := if poison then s.poisonLine (tagged c.num x.ia) else s
  match push with
  | some ds => s.sendPush c x.ia ds
  | none => s

/-- Perform entries at the home: the writes of pushes and those of aggregate elements one after another in lane order (10:R198;
12:R237), a plain line as one request (18:R309). -/
def State.performEntries (s : State) (c : Context) (core : Nat) (es : List WEntry) : State :=
  match es with
  | [e] =>
    if e.push.isSome || e.elems then e.writes.foldl (fun s x => s.performWrite c core e.push e.poison x) s
    else
      let s := (runsOf e.cells).foldl (fun s x => s.writeHere c core x.1 x.2) s
      if e.poison then s.poisonLine e.line else s
  | es =>
    let all := (es.flatMap (fun e => e.writes.map (fun x => (e, x)))).mergeSort (fun x y => decide (x.2.lane ≤ y.2.lane))
    all.foldl (fun s x => s.performWrite c core x.1.push x.1.poison x.2) s

/-- An entry that has been performed: its acknowledgement is on its way. -/
def State.performed (s : State) (w : WarpKey) (id : Nat) : State :=
  (s.mapWarps (fun x => x.key == w) (fun x => x.setStage id .performed)).post [.storeAcknowledgement w id]

/-! ### A fault that a store meets after its instruction has retired (09:R177; 20:R326 to R328) -/

/-- The trap of the lanes of some writes; the scalar stream names none (05:R102). -/
def WEntry.trapOf (e : WEntry) (ws : List LaneStore) (code : BitVec 8) (detail : Nat) (ticket : W64) : PendTrap :=
  let va := match ws.mergeSort (fun x y => decide (x.lane ≤ y.lane)) with | x :: _ => x.va | [] => 0
  ⟨!e.scalar, false, ⟨code, if e.scalar then 0 else maskOf (ws.map (fun x => x.lane)), va, BitVec.ofNat 64 detail, ticket⟩⟩

/-- A late fault of some writes of an entry: the entry is free, and the warp takes the trap at its next turn; a second one waits
for the first. -/
def State.lateFault (s : State) (w : WarpKey) (e : WEntry) (ws : List LaneStore) (code : BitVec 8) (detail : Nat) (ticket : W64) : State :=
  match s.warpOf w with
  | none => s
  | some x =>
    if x.pendTrap.isSome then { s with again := .held }
    else s.mapWarps (fun y => y.key == w) (fun y => { y.freeEntry e.id with pendTrap := some (e.trapOf ws code detail ticket) })

/-- The ticket under which a store of the same execution is parked already: each execution has one (20:R326). -/
def State.joinTicket (s : State) (w : Warp) (e : WEntry) : Option W64 :=
  (s.parked.find? (fun p =>
    let mine (k : WarpKey) (id : Nat) : Bool := k == w.key && !e.scalar && w.wbuf.any (fun y => y.id == id && y.exec == e.exec && !y.scalar)
    match p.2 with
    | .storeRequest k id => mine k id
    | .pushRequest k id => mine k id
    | _ => false)).map Prod.fst

/-- The ticket of a store whose page is missing at its home. -/
def State.storeTicket (s : State) (cn core kind ia : Nat) (va : W64) : State × W64 :=
  match s.ctxOf cn with
  | none => (s, 0)
  | some c =>
    let seq := nextSeq c.ticketSeq
    let h := s.homeFor core ia
    let ticket := ticketWord cn kind h.die h.quad h.slice false seq
    let tickets := if kind = 3 then c.tickets else c.tickets ++ [⟨ticket, none, false, none, ia / 65536⟩]
    let s := ({ s with dev := s.dev.touch (ia / 65536) (dieOf core) (quadOf core) }).setCtx { c with ticketSeq := seq, tickets := tickets }
    (if kind = 3 then (if badEntry s.dev c ia then s.send [.malformed cn (ia / 65536)] else s)
     else if kind = 2 then (if s.dev.away c ia then s.askBack c (ia / 65536) else s)
     else s.send [.notice ticket (BitVec.ofNat 64 (ia / 65536 * 65536)) va 1], ticket)

/-- The first write of an entry. -/
def WEntry.first (e : WEntry) : Nat × W64 := match e.writes with | x :: _ => (x.ia, x.va) | [] => (0, 0)

/-- What the page of an entry has come to hold against it since its check, and the writes that meet it (10:R193; 11:R224). -/
def State.entryVerdict (s : State) (c : Context) (e : WEntry) : Option ((BitVec 8 × Nat) × List LaneStore) :=
  (e.writes.findSome? (fun x => writeVerdict s.dev c x.ia x.bytes.length)).map (fun v =>
    (v, e.writes.filter (fun x => writeVerdict s.dev c x.ia x.bytes.length == some v)))

/-- The entries that must be performed with one: those with aggregate elements that its execution sends to its tree home
(12:R237). -/
def State.batchOf (s : State) (w : Warp) (core : Nat) (e : WEntry) : List WEntry :=
  if !e.elems then [e]
  else w.wbuf.filter (fun y => y.elems && y.exec == e.exec && y.stage != .performed &&
    s.homeFor core (untag y.line).2 == s.homeFor core (untag e.line).2)

/-- Entries of a batch that have not all arrived, or some of whose pages are missing. -/
def State.batchWaits (s : State) (c : Context) (es : List WEntry) : Bool :=
  es.any (fun y => y.stage != .sent || (missingKind s.dev c y.first.1).isSome)

/-- An access of the warp is parked at the home of an entry, before which that access came (20:R326): the lane stream's for a
scalar store, the scalar stream's for a lane store. -/
def State.heldByPark (s : State) (w : Warp) (core : Nat) (e : WEntry) : Bool :=
  let h := s.homeFor core (untag e.line).2
  (!e.scalar && parkedAt h w.parkS) || (e.scalar && (parkedAt h w.parkL || w.rob.any (fun y => parkedAt h y.park)))

/-- A request at the home: it waits behind older stores and a parked access of the warp for the home, parks where the page is
missing, and waits while copies are recalled. -/
def State.entryAtHome (s : State) (w : WarpKey) (id : Nat) : State :=
  match s.warpOf w with
  | none => s
  | some x =>
    match x.entry id with
    | none => s
    | some e =>
      let (cn, _) := untag e.line
      let core := s.coreOfWarp w
      match s.ctxOf cn with
      | none => s
      | some c =>
        let es := s.batchOf x core e
        if e.stage ≠ .sent then s
        else if s.olderEntry x core e || s.heldByPark x core e then { s with again := .held }
        else match missingKind s.dev c e.first.1 with
          | some k =>
            match (if k = 3 then none else s.joinTicket x e) with
            | some ticket => { s with again := .parked ticket }
            | none =>
              let (s, ticket) := s.storeTicket cn core k e.first.1 e.first.2
              if k = 3 then s.lateFault w e e.writes Code.pageFatal 0 ticket else { s with again := .parked ticket }
          | none =>
            match s.entryVerdict c e with
            | some ((code, detail), ws) => s.lateFault w e ws code detail 0
            | none =>
              if s.batchWaits c es then { s with again := .held }
              else match s.letInAll c core e.push.isSome (es.map (fun y => y.line)) with
                | (s, false) => { s with again := .held }
                | (s, true) => es.foldl (fun s y => s.performed w y.id) (s.performEntries c core es)

/-- STORE_REQUEST. -/
def execStoreRequest (w : WarpKey) (id : Nat) (s : State) : Result := .next (s.entryAtHome w id)

/-- The driver has answered fatal for the ticket of a store that is parked (20:R328). -/
def State.fatalStore (s : State) (m : Instr) (w : WarpKey) (id : Nat) (ticket : W64) : State :=
  match s.warpOf w with
  | none => s
  | some x =>
    -- while a late fault of the warp stands, the store goes to its home again
    if x.pendTrap.isSome then s.post [m]
    else match x.entry id with
      | none => s
      | some e => s.lateFault w e e.writes Code.pageFatal 0 ticket

/-! ### Pushes (10:R199) -/

/-- PUSH_REQUEST: as a store, and the merged lines go out. -/
def execPushRequest (w : WarpKey) (id : Nat) (s : State) : Result := .next (s.entryAtHome w id)

/-- Whether a line is as its home holds it now. -/
def State.fresh (s : State) (line : Nat) (data : LineData) : Bool :=
  let (cn, ia) := untag line
  match (s.ctxOf cn).bind (fun c => s.fetchLine c ia) with
  | some (x, _) => x == data
  | none => false

/-- The L1 refuses a push: it also drops any copy of the line (02:R46). -/
def State.refusePush (s : State) (core line : Nat) : State :=
  match (s.coreOf core).find line with
  | none => s
  | some l => s.evictLine core l

/-- The NAPs of a core's warps end (14:R278). -/
def State.wakeCore (s : State) (core : Nat) : State :=
  let keys := (s.coreWarps core).map (fun w => w.key)
  s.mapWarps (fun w => keys.contains w.key && w.nap) (fun w => { w with nap := false, scalStalled := false })

/-- Install a pushed line, or refuse it: beyond ALLOWANCE, unless it replaces an unread pushed copy, and where it is older than
the floor of the line (02:R46; 09:R185). A tracked or private copy of the line, which is newer than the push, stays
(DEDUCED, log 17). -/
def State.installPush (s : State) (core line : Nat) (data : PushedLine) : State :=
  let c := s.coreOf core
  let held : Option LState := (c.find line).map (fun l => l.st)
  if held ≠ some .pu ∧ c.allowance ≤ c.pushedLines then s.refusePush core line
  else if data.ver < c.floors.get line then s.refusePush core line
  else if held = some .ts ∨ held = some .ox ∨ held = some .pc ∨ held = some .pd then s
  else (s.install core ⟨line, .pu, data.bytes, data.poison, data.ver, false⟩).wakeCore core

/-- PUSH_INSTALL. -/
def execPushInstall (core line : Nat) (data : PushedLine) (s : State) : Result :=
  .next (s.installPush core line data)

/-- A copy of a push that is still on its way. -/
def State.pushUnderWay (s : State) (lines : List Nat) : Bool :=
  let mine (e : Instr) : Bool := match e with
    | .pushInstall _ l _ => lines.contains l
    | _ => false
  s.events.any mine || s.held.any mine

/-- STORE_ACKNOWLEDGEMENT: a push counts as done once each of its copies has been installed or refused (09:R177). -/
def execStoreAcknowledgement (w : WarpKey) (id : Nat) (s : State) : Result :=
  match s.warpOf w with
  | none => .next s
  | some x =>
    match x.entry id with
    | none => .next s
    | some e =>
      if e.push.isSome ∧ s.pushUnderWay [e.line] then .next { s with again := .held }
      else .next (s.setWarp (x.freeEntry id))

/-! ### Fills and prefetches -/

/-- LOAD_REQUEST at the home: the line goes back; a fault, and a line of an open extent, answer nothing. Welhal logs a malformed
entry (20:R320). -/
def execLoadRequest (r : LoadReq) (s : State) : Result :=
  match s.teamOf r.who.teamKey with
  | none => .next s
  | some t =>
    match s.ctxOf t.ctx with
    | none => .next s
    | some c =>
      let ia := r.line * 128
      match s.letIn c (.core t.core) false false false ia with
      | .absent _ => .next (if badEntry s.dev c ia then s.send [.malformed c.num (ia / 65536)] else s)
      | .hold s => .next { s with again := .held }
      | .ok s p =>
        match s.fetchLine c ia with
        | none => .next s
        | some (x, bad) =>
          let reply (pref : Option (WarpKey × Nat)) : Instr :=
            .dataReply t.core (tagged c.num ia) x (p.share == 1) bad pref
          match r.use with
          | .prefHome => .next s
          | .prefL1 => .next (if p.cls = 1 then s else s.post [reply (some (r.who, r.begins))])
          | .demand _ => .next (if p.cls = 1 then s else s.post [reply none])

/-- The page of a line is private to a core. -/
def State.privateTo (s : State) (core line : Nat) : Bool :=
  match (s.ctxOf (untag line).1).bind (fun c => match walkEntry s.dev c (untag line).2 with
    | .page p => some p
    | .absent => none
    | .malformed => none) with
  | some p => p.share == 1 && p.owner == core
  | none => false

/-- DATA_REPLY: the line enters the L1, unless it holds the line already, a later BEGIN of the warp that prefetched it has
passed, or the line has changed at its home meanwhile. A page that has been shared since the reply left gives no private
line (17:R291). -/
def execDataReply (core line : Nat) (data : LineData) (priv poison : Bool) (pref : Option (WarpKey × Nat)) (s : State) : Result :=
  let late := match pref with
    | none => false
    | some (k, n) => (match s.warpOf k with | some w => w.begins != n | none => true)
  if late || ((s.coreOf core).find line).isSome || !s.fresh line data then .next s
  else .next (s.install core ⟨line, if priv && s.privateTo core line then .pc else .sc, data, poison, s.dev.vers.get line, false⟩)

/-- WRITE_BACK: a dirty line of a private page goes to its home and stays clean. -/
def execWriteBack (core line : Nat) (s : State) : Result := .next (s.writeBackLine core line)

/-- PAGE_RECALL: the page becomes shared. -/
def execPageRecall (ctx page : Nat) (s : State) : Result := .next (s.sharePage ctx page)

/-- REGION_TABLE_REQUEST: the first request homes the region. -/
def execRegionTableRequest (region die quad : Nat) (s : State) : Result := .next { s with dev := s.dev.touch region die quad }

end Sys2Proof.Machine
end

