-- ==== Sys2Proof/Machine/Regions.lean ====
section
/-!
DEFINITION. Declaring and dropping aggregate regions (11:R215 to R220, R234), the range loads LDA, FIND and PICK (R228 to
R233), and the messages that carry a drop and a range load to the tree home.
-/

namespace Sys2Proof.Machine

open Sys2Proof

/-! ### Pinning (11:R218) -/

/-- A region-table entry that pins a homing region to a slice (17:R293). -/
def pinnedEntry (h : HomeOf) : W32 :=
  BitVec.ofNat 32 (2 ^ 31 + 2 ^ 30 + h.slice % 16 * 2 ^ 26 + h.die % 32 * 2 ^ 21 + h.quad % 4 * 2 ^ 19)

def isPinned (e : W32) : Bool := e.getLsbD 31 && e.getLsbD 30

/-- The pieces of an array of n elements, cut at multiples of 64 KiB, where range registers begin and end. -/
def arrayParts (c : Context) (base n : Nat) : List (Nat × Nat × Nat) :=
  (List.range ((base + 4 * n - 1) / 65536 - base / 65536 + 1)).map (fun k =>
    let lo := max base ((base / 65536 + k) * 65536)
    let hi := min (base + 4 * n) ((base / 65536 + k + 1) * 65536)
    (lo - base, hi - lo, iaOf c .r (BitVec.ofNat 64 lo)))

/-- Every standing region of every context. -/
def State.allRegions (s : State) : List Region := (s.ctx :: s.ctxs).flatMap (fun c => c.regions)

/-- Whether a standing region has an element in a homing region. -/
def Region.touches (g : Region) (region : Nat) : Bool := g.overlaps (region * 65536) 65536

/-- Pin the homing regions of an array to the tree home. A region already pinned there stays. -/
def State.pinRegions (s : State) (regions : List Nat) (h : HomeOf) : State :=
  { s with dev := { s.dev with regionTab := regions.foldl (fun t g => t.set g (pinnedEntry h)) s.dev.regionTab } }

/-- Change the class of a page. -/
def State.setPageClass (s : State) (c : Context) (page k : Nat) : State :=
  match walkEntry s.dev c (page * 65536) with
  | .page p => { s with dev := s.dev.putPage p (setClass k) }
  | .absent => s
  | .malformed => s

/-- A page that holds elements takes class pinned-aggregate and is shared. -/
def State.pinPage (s : State) (c : Context) (page : Nat) : State :=
  match walkEntry s.dev c (page * 65536) with
  | .page p => { s with dev := s.dev.putPage p (fun e => setClass 4 (setShare 2 0 e)) }
  | .absent => s
  | .malformed => s

/-! ### AGDECL (11:R216, R217) -/

/-- A descriptor as read. -/
structure AggDesc where
  w0 : W64
  w1 : W64
  w2 : W64
  w3 : W64
  deriving DecidableEq, Repr

namespace AggDesc
def base (d : AggDesc) : Nat := bitsOf64 d.w0 55 0
def zero (d : AggDesc) : Bool := d.w1.getLsbD 16
def kind (d : AggDesc) : Nat := bitsOf64 d.w1 10 8
def log2n (d : AggDesc) : Nat := bitsOf64 d.w1 4 0
def n (d : AggDesc) : Nat := 2 ^ d.log2n
/-- Status 1. -/
def bad (d : AggDesc) : Bool :=
  bitsOf64 d.w0 63 56 != 0 || bitsOf64 d.w1 63 17 != 0 || bitsOf64 d.w1 15 11 != 0 || bitsOf64 d.w1 7 5 != 0 ||
  d.w2 != 0 || d.w3 != 0 || d.log2n == 0 || decide (24 < d.log2n) || decide (5 < d.kind) || d.base % 4 != 0
end AggDesc

/-- The tree home of an array that would begin at an intermediate address: the slice that homes element 0, homed by the
declaring core if nothing has homed it. -/
def State.treeHome (s : State) (ia core : Nat) : HomeOf :=
  homeOf (s.dev.touch (ia / 65536) (dieOf core) (quadOf core)) ia

/-- The region that a descriptor would declare, with no node built. -/
def State.describe (s : State) (d : AggDesc) (handle : Nat) : Region :=
  ⟨handle, d.base, arrayParts s.ctx d.base d.n, d.log2n, d.kind, []⟩

/-- Status 3. -/
def State.aggConflict (s : State) (d : AggDesc) (core : Nat) : Bool :=
  let me := s.describe d 0
  let pages := me.homings
  let h := s.treeHome me.ia core
  pages.any (fun g => match walk s.dev s.ctx (g * 65536) with
    | .page p => p.cls == 1 || p.cls == 2 || p.cls == 3 || (escrowAt s.ctx (g * 65536)).isSome
    | .absent => false
    | .malformed => false) ||
  s.allRegions.any (fun g => me.parts.any (fun p => g.overlaps p.2.2 p.2.1)) ||
  pages.any (fun g => let e := s.dev.regionTab.get g; isPinned e && e != pinnedEntry h)

/-- The lowest free handle of a context. -/
def freeHandle (c : Context) : Option Nat :=
  ((List.range Config.handlesMax).map (· + 1)).find? (fun h => !c.regions.any (fun g => g.handle == h))

/-- Statuses 1 to 5 of R217: the smallest. -/
def State.aggStatus (s : State) (d : AggDesc) (core : Nat) : Nat :=
  let touchesAperture := decide (Config.apertureBase < d.base + 4 * d.n) &&
    decide (d.base < Config.apertureBase + Config.apertureSize)
  if d.bad then 1
  else if touchesAperture || !covered s.ctx .r d.base (4 * d.n) || !covered s.ctx .w d.base (4 * d.n) then 2
  else if s.aggConflict d core then 3
  else if (freeHandle s.ctx).isNone then 4
  else if s.ctx.pool < d.n - 1 then 5
  else 0

/-- A 2 MiB page of which one part moves away, or is pinned, alone becomes 32 pages of 64 KiB, each with a record like the one that they
had. -/
def State.splitPage (s : State) (c : Context) (page : Nat) : State :=
  match walkEntry s.dev c (page * 65536) with
  | .page p =>
    if p.large then
      let r := s.dev.pageRecord c page
      let d := s.dev.putPage p (fun e => putBits e 61 61 0)
      { s with dev := { d with pageRecs := (List.range 32).foldl (fun m k =>
          m.set (pageKey c.num (page / 32 * 32 + k)) r) d.pageRecs } }
    else s
  | .absent => s
  | .malformed => s

/-- The copy of a page moves to another frame of the HBM tier: its lines are recalled, its bytes copied, its entry
written (20:R323, R324). -/
def State.movePage (s : State) (cn page : Nat) (cxl : Bool) (ppn : Nat) : State :=
  let s := s.recallRange cn (page * 65536) 65536 true
  match s.ctxOf cn with
  | none => s
  | some c =>
    let s := s.splitPage c page
    match walkEntry s.dev c (page * 65536) with
    | .absent => s
    | .malformed => s
    | .page p =>
      let entry := putBits (putBits p.raw 57 57 (if cxl then 1 else 0)) 44 13 ppn
      let d := s.dev.copyFrame (p.phys 0) (frameAt cxl ppn)
      { s with dev := { d with mem := writeD d.mem p.place entry } }

/-- The bytes of a line that an array covers, by their place in the line. -/
def Region.bytesIn (g : Region) (ia : Nat) : List Nat :=
  (List.range 128).filter (fun k => g.parts.any (fun p => decide (p.2.2 ≤ ia + k) && decide (ia + k < p.2.2 + p.2.1)))

/-- Write zero over an array as stores of a warp of the core: the core's own copies take the zeros, and pushes on their way to it
do not come before them (17:R287; 09:R181); packages that read-share the pages drop them (24:R385). -/
def State.zeroArray (s : State) (c : Context) (core : Nat) (g : Region) : State :=
  let mine (line : Nat) : Bool := (untag line).1 == c.num && g.overlaps (untag line).2 128
  let s := s.bumpHeld mine
  let coming (e : Instr) : Option Nat := match e with | .pushInstall k l _ => if k = core then some l else none | _ => none
  let lines := (((s.coreOf core).l1.map (fun (l : L1Line) => l.line) ++ (s.events ++ s.held).filterMap coming).filter mine).eraseDups
  let s := lines.foldl (fun s line =>
    (s.updateCopy core line ((g.bytesIn (untag line).2).map (fun k => (k, 0)))).raiseFloor core line (s.dev.vers.get line)) s
  g.parts.foldl (fun s part =>
    match walkEntry s.dev c part.2.2 with
    | .absent => s
    | .malformed => s
    | .page p =>
      let a := p.phys part.2.2
      let len := part.2.1
      ({ s with dev := ({ s.dev with
          mem := s.dev.mem.filter (fun e => !(decide (a ≤ e.1) && decide (e.1 < a + len)))
          bad := s.dev.bad.filter (fun l => !(decide (a ≤ 128 * l) && decide (128 * l + 128 ≤ a + len))) }).markDirty p }).endShare
        c.num (part.2.2 / 65536)) s

/-- The lines of a homing region are recalled, whatever context they belong to: the region table serves all contexts (17:R293). -/
def State.recallHoming (s : State) (region : Nat) (all : Bool) : State :=
  s.recallLines (fun line => decide ((untag line).2 / 65536 = region)) all

/-- Steps 5 to 7: pin, zero, build, and enter the handle. A 2 MiB page of which only parts hold elements is split first, so that
exactly the parts that are pinned take the class (R218; 12:R236). -/
def State.declareRegion (s : State) (d : AggDesc) (core handle : Nat) : State :=
  let g := s.describe d handle
  let h := s.treeHome g.ia core
  let s := g.homings.foldl (fun s r => (s.recallHoming r false).splitPage s.ctx r) s
  let s := s.pinRegions g.homings h
  let s := g.homings.foldl (fun s r => s.pinPage s.ctx r) s
  let s := if d.zero then s.zeroArray s.ctx core g else s
  let g := Region.build s.dev s.ctx (d.n - 1) g
  { s with ctx := { s.ctx with regions := s.ctx.regions ++ [g], pool := s.ctx.pool - (d.n - 1) } }

/-- The status goes to AGSTATUS, the handle to sd. -/
def State.aggDone (s : State) (d : SReg) (handle status : Nat) : Res Unit :=
  (s.onWarp (fun w => { w with agstatus := BitVec.ofNat 64 status })).give d (BitVec.ofNat 64 handle)

/-- Step 4: the first page of the array that is not present, with what stands there. -/
def State.aggMissing (s : State) (d : AggDesc) : Option ((Nat × Nat × Nat) × Walked) :=
  ((s.describe d 0).parts.map (fun p => (p, walk s.dev s.ctx p.2.2))).find? (fun x => match x.2 with
    | .page _ => false
    | .absent => true
    | .malformed => true)

/-- The pages of the array that lie on the CXL tier. -/
def State.aggMoves (s : State) (d : AggDesc) : List Nat :=
  (s.describe d 0).homings.filter (fun g => match walk s.dev s.ctx (g * 65536) with
    | .page p => p.cxl
    | .absent => false
    | .malformed => false)

/-- A move of a page between the tiers is under way. -/
def State.moving (s : State) (cn page : Nat) : Bool :=
  let mine (e : Instr) : Bool := match e with | .tierMove c p _ _ => c == cn && p == page | _ => false
  s.events.any mine || s.held.any mine || s.parked.any (fun x => mine x.2)

/-- The fault service moves a page up to a frame of its pool, by withdrawal (20:R323, R324); its frame on the CXL tier stays with
the driver. -/
def State.migrateUp (s : State) (page : Nat) : State :=
  if s.moving s.ctx.num page then s
  else match s.ctx.hbmFrames with
    | [] => s
    | f :: _ => ({ s with ctx := { s.ctx with frames := s.ctx.frames.filter (fun x => x != f) } }).post
        [.tierMove s.ctx.num page false (BitVec.ofNat 32 f)]

/-- Step 3, the loads of the descriptor. -/
def State.readDesc (s : State) (a : W64) : Res AggDesc :=
  (s.scalarLoad 8 a).bind (fun s b0 => (s.scalarLoad 8 (a + 8)).bind (fun s b1 =>
    (s.scalarLoad 8 (a + 16)).bind (fun s b2 => (s.scalarLoad 8 (a + 24)).bind (fun s b3 =>
      .ok s ⟨ofBytes 64 b0, ofBytes 64 b1, ofBytes 64 b2, ofBytes 64 b3⟩))))

/-- Steps 3 to 7. A malformed entry takes a ticket of kind 3, which is answered fatal at once (20:R320, R328); pages on the CXL
tier move up before the array is pinned. -/
def State.agdeclBody (s : State) (d : SReg) (a : W64) (fatal : Bool) : Res Unit :=
  (s.readDesc a).bind (fun s desc =>
    let core := s.team.core
    let status := s.aggStatus desc core
    let park (kind : Nat) (p : Nat × Nat × Nat) : Res Unit := .wait (s.park false 0 kind p.2.2 (BitVec.ofNat 64 (desc.base + p.1)) true false) 15
    if status ≠ 0 then s.aggDone d 0 status
    else if fatal then s.aggDone d 0 6
    else match s.aggMissing desc, freeHandle s.ctx with
      | some (p, .malformed), _ => park 3 p
      | some (p, .absent), _ => park (absentKind s.dev s.ctx p.2.2) p
      | some (_, .page _), _ => .wait s 15
      | none, some h =>
        match s.aggMoves desc with
        | [] => (s.declareRegion desc core h).aggDone d h 0
        | moves => .wait ((moves.foldl State.migrateUp s).onWarp (fun w => { w with onPages := true })) 15
      | none, none => s.aggDone d 0 4)

/-- AGDECL: a fatal answer for a page of the array ends it with status 6; a fatal answer for the descriptor's page is
PAGE_FATAL. -/
def execAgdecl (d a : SReg) (s : State) : Result :=
  let addr := s.S a
  let descMissing := !inAperture addr && (missingKind s.dev s.ctx (iaOf s.ctx .r addr)).isSome
  let parked := if descMissing then s.parkedScalar else match s.warp.parkS with
    | some p => if p.fatal then none else s.parkedScalar
    | none => none
  let fatal := match s.warp.parkS with | some p => p.fatal | none => false
  match parked with
  | some s => .next s
  | none => finish ((s.needs 7).bind (fun s _ => (s.issueScalar [.r] true 32 8 addr).bind (fun s _ => (s.lanesRetired 0).bind (fun s _ =>
      s.ended.bind (fun s _ => s.atClearingS.bind (fun s _ => s.agdeclBody d addr fatal))))))

/-! ### AGDROP (11:R220) -/

/-- The range load for which the warp waits at a tree home: the handle. -/
def Warp.rangeAsked (w : Warp) : Option Nat :=
  match w.check, w.ask with
  | .asked, some ⟨[(_, h, _)], 0, false, _⟩ => some h.toNat
  | _, _ => none

/-- Range loads that reach the tree home after the drop point fault (R220, R233). -/
def State.lateLoads (s : State) (cn handle : Nat) : State :=
  s.mapWarps (fun w => w.rangeAsked == some handle && (match s.teamOf w.key.teamKey with | some t => t.ctx == cn | none => false))
    (fun w => { w with
      check := .failed ⟨Code.aggFault, (w.headEntry.map RobEntry.active).getD 0, 0, 3, 0⟩, laneStalled := false })

/-- The drop of a region at its tree home: its nodes return to the pool, and homing regions and pages that no other region
holds return to the slice hash and to class ordinary. -/
def State.dropRegion (s : State) (cn handle : Nat) : State :=
  match s.ctxOf cn with
  | none => s
  | some c =>
    match c.regions.find? (fun g => g.handle == handle) with
    | none => s
    | some g =>
      let c := { c with regions := c.regions.filter (fun x => x.handle != handle), pool := c.pool + (g.n - 1) }
      let s := (s.setCtx c).lateLoads cn handle
      let free := g.homings.filter (fun r => !s.allRegions.any (fun x => x.touches r))
      let pages := g.homings.filter (fun r => !c.regions.any (fun x => x.touches r))
      let s := free.foldl (fun s r => s.recallHoming r false) s
      let s := { s with dev := { s.dev with regionTab := free.foldl (fun t r =>
        let e := (t.get r).toNat
        t.set r (regionEntry (e / 2 ^ 21 % 32) (e / 2 ^ 19 % 4))) s.dev.regionTab } }
      pages.foldl (fun s r => s.setPageClass c r 0) s

/-- AGDROP: a handle that is not declared raises AGG_FAULT with detail 6. -/
def execAgdrop (a : SReg) (s : State) : Result :=
  s.scalarRun (fun s => (s.needs 7).bind (fun s _ => (s.lanesRetired 0).bind (fun s _ => s.atClearingS.bind (fun s _ =>
    let h := (s.S a).toNat
    if s.ctx.regions.any (fun g => g.handle == h) then .ok (s.dropRegion s.ctx.num h) ()
    else .trap s (trapOf Code.aggFault 0 6)))))

/-- The drop that reaches the tree home from another part of the package: a handle that does not stand is nothing to
drop. -/
def execDropRequest (ctx handle : Nat) (s : State) : Result := .next (s.dropRegion ctx handle)

/-! ### Range loads (11:R228 to R233) -/

/-- The region that a handle names in the context. -/
def regionOf (c : Context) (handle : Nat) : Option Region := c.regions.find? (fun g => g.handle == handle)

/-- Whether the line of an element cannot be read (11:R227). -/
def leafBad (d : Device) (c : Context) (g : Region) (i : Nat) : Bool :=
  match walk d c (g.elemIa i) with
  | .page p => d.bad.contains (p.phys (g.elemIa i) / 128)
  | .absent => false
  | .malformed => false

/-- The elements that an LDA over [lo, hi) reads at the leaves, and those that a search ending at element i reads. -/
def ldaBad (d : Device) (c : Context) (g : Region) (lo hi : Nat) : Bool :=
  decide (lo < hi) && ((lo % 2 == 1 && leafBad d c g lo) || (hi % 2 == 1 && leafBad d c g (hi - 1)))
def searchBad (d : Device) (c : Context) (g : Region) (i : Nat) : Bool := decide (i < g.n) && leafBad d c g (i / 2 * 2)

/-- A trap of lanes with AGG_FAULT. -/
def aggTrap (m : Mask) (detail : Nat) : MemTrap := ⟨Code.aggFault, m, 0, BitVec.ofNat 64 detail, 0⟩

/-- The use of a range load: the destination of an LDA on an ISUM32 region is a pair (11:R229). -/
def State.rangeUse (s : State) (u : LaneUse) (isLda : Bool) (h : SReg) (d : VReg) : LaneUse :=
  match regionOf s.ctx (s.src64 h).toNat with
  | some g => if isLda && g.kind == 0 then { u with dst := some (.reg d, 2) } else u
  | none => u

/-- The end of a range load: a wait while an own store to the tree home is on its way or a parked access of the warp stands there
(09:R184; 20:R326), ECC_FATAL where an element needed cannot be read, else the answers. -/
def State.rangeAnswer (s : State) (t : State) (m : Mask) (g : Region) (bad : Nat → Bool) (write : State → State) : Res Unit :=
  if s.homeBusy g.ia || s.homeHolds (s.home g.ia) true then
    .wait ((s.onHead id).onWarp (fun w => { w with
      check := .asked, ask := some ⟨[(0, BitVec.ofNat 64 g.handle, g.ia)], 0, false, true⟩ })) (s.homeReason g.ia)
  else
    let lanes := m.lanes.filter bad
    if lanes.isEmpty then .ok (write t) ()
    else .trap s ⟨Code.eccFatal, maskOf lanes, 0, 0, 0⟩

/-- The frame of a range load: nothing with no active lane, the late fault of a region that was dropped while the load waited
(R233), AGG_FAULT with detail 2 for a handle that is not declared (R229), and then what is done on the region. -/
def State.rangeLoad (s : State) (a : LaneArgs) (body : Region → Res Unit) : Res Unit :=
  if a.m = 0 then .ok s ()
  else match s.warp.check with
    | .failed t => .trap s t
    | _ => match regionOf s.ctx a.base.toNat with
      | none => .trap s (aggTrap a.m 2)
      | some r => body r

/-- LDA (11:R230). -/
def execLda (g : Guard) (q : Pred) (d : VReg) (h : SReg) (lo hi : Value) (s : State) : Result :=
  let u := s.rangeUse (Instr.use (.lda g q d h lo hi)) true h d
  .next (s.laneAccess u (fun a s => s.rangeLoad a (fun r =>
    let m := a.m
    let x := a.offs
    let y : LaneVec := fun l => (a.data l).getD 0 0
    if r.kind = 0 ∧ d.toNat % 2 = 1 then .trap s (aggTrap m 5)
    else
      let bad := m.lanes.filter (fun l => decide ((y l).toNat < (x l).toNat) || decide (r.n < (y l).toNat))
      if !bad.isEmpty then .trap s (aggTrap (maskOf bad) 4)
      else
        let ans (l : Nat) : W64 := ldaAnswer s.dev s.ctx r (x l).toNat (y l).toNat
        s.rangeAnswer a.after m r (fun l => ldaBad s.dev s.ctx r (x l).toNat (y l).toNat) (fun t =>
          let t := if r.kind = 0 then t.writeGroup d.toNat 2 m (fun l => [lo32 (ans l), hi32 (ans l)])
            else t.writeV d.toNat m (fun l => lo32 (ans l))
          t.writeP q m (fun l => decide ((x l).toNat < (y l).toNat))))))

/-- FIND (11:R231). -/
def execFind (g : Guard) (q : Pred) (d : VReg) (h : SReg) (x : Value) (s : State) : Result :=
  .next (s.laneAccess (Instr.use (.find g q d h x)) (fun a s => s.rangeLoad a (fun r =>
    let ans (l : Nat) : Nat := findAnswer s.dev s.ctx r (a.offs l)
    s.rangeAnswer a.after a.m r (fun l => searchBad s.dev s.ctx r (ans l)) (fun t =>
      (t.writeV d.toNat a.m (fun l => BitVec.ofNat 32 (ans l))).writeP q a.m (fun l => decide (ans l < r.n))))))

/-- PICK (11:R232). -/
def execPick (g : Guard) (q : Pred) (d : VReg) (h : SReg) (r : Value) (s : State) : Result :=
  .next (s.laneAccess (Instr.use (.pick g q d h r)) (fun a s => s.rangeLoad a (fun g =>
    if 2 ≤ g.kind then .trap s (aggTrap a.m 5)
    else
      let ans (l : Nat) : Nat := pickAnswer s.dev s.ctx g (a.offs l)
      s.rangeAnswer a.after a.m g (fun l => searchBad s.dev s.ctx g (ans l)) (fun t =>
        (t.writeV d.toNat a.m (fun l => BitVec.ofNat 32 (ans l))).writeP q a.m (fun l => decide (ans l < g.n))))))

/-- A range load that reaches the tree home from elsewhere in the package: the answer goes back, or the late trap that the
requester takes: AGG_FAULT with detail 3 for a region that was dropped (R233), ECC_FATAL for an element that cannot be read
(R227). -/
def execRangeLoadRequest (ctx : Nat) (q : RangeQuery) (s : State) : Result :=
  match s.ctxOf ctx with
  | none => .next (s.send [.error])
  | some c =>
    let handle := match q with | .lda h _ _ => h | .find h _ => h | .pick h _ => h
    match regionOf c handle with
    | none => .next (s.send [.trap Code.aggFault 3])
    | some g =>
      let bad := match q with
        | .lda _ lo hi => ldaBad s.dev c g lo hi
        | .find _ x => searchBad s.dev c g (findAnswer s.dev c g x)
        | .pick _ r => searchBad s.dev c g (pickAnswer s.dev c g r)
      let answer : Out := match q with
        | .lda _ lo hi => .value (ldaAnswer s.dev c g lo hi)
        | .find _ x => .value (BitVec.ofNat 64 (findAnswer s.dev c g x))
        | .pick _ r => .value (BitVec.ofNat 64 (pickAnswer s.dev c g r))
      .next (s.send [if bad then .trap Code.eccFatal 0 else answer])

end Sys2Proof.Machine
end

