-- ==== Sys2Proof/Machine/Settle.lean ====
section
/-!
DEFINITION. SETTLE (10:R212): the swap of a buffer's pages with their escrow copies.
-/

namespace Sys2Proof.Machine

open Sys2Proof

/-- Whether an intermediate page is reached from a virtual address in [lo, hi), taken by whole pages. -/
def pageInSpan (c : Context) (lo hi page : Nat) : Bool :=
  c.ranges.any (fun g => g.valid && (List.range 16).any (fun k =>
    let va := (page * 65536 + 2 ^ 52 - g.offset) % 2 ^ 52 + k * 2 ^ 52
    decide (lo / 65536 ≤ va / 65536) && decide (va < hi) &&
    (match check c (BitVec.ofNat 64 va) .r with
     | .ok ia => ia / 65536 == page
     | .fault _ => false
     | .growth _ => false)))

/-- The open escrow pages of a buffer. -/
def bufferEscrow (c : Context) (sh : Shape) : List Escrow := c.escrows.filter (fun e => pageInSpan c sh.base sh.limit e.page)

/-- Swap one page: its lines are recalled from where they are tracked or private, its entry names the escrow copy, and the
old page returns to the pool. The swap is a write of every line of the page (09:R181, R188). -/
def State.swapPage (s : State) (e : Escrow) : State :=
  let s := s.recallRange s.ctx.num (e.page * 65536) 65536 false
  let s := s.bumpHeld (lineIn s.ctx.num (e.page * 65536) 65536)
  let s := s.splitPage s.ctx e.page
  match walkEntry s.dev s.ctx (e.page * 65536) with
  | .absent => s
  | .malformed => s
  | .page p =>
    let entry := setDirty (putBits (putBits p.raw 57 57 0) 44 13 e.frame)
    { s with
      dev := { s.dev with mem := writeD s.dev.mem p.place entry }
      ctx := { s.ctx with
        escrows := s.ctx.escrows.filter (fun x => x.page != e.page)
        frames := s.ctx.frames ++ [if p.cxl then 2 ^ 32 + p.ppn else p.ppn] } }

/-- Escrow writes of tasks of this warp to a buffer that have not been performed: a DRAIN or a COPYOUT of the warp stands in the ring
whose shape record has the ESCROW flag and spans a page of the buffer, or has not been read yet. -/
def State.escrowBusy (s : State) (sh : Shape) : Bool :=
  s.team.ring.any (fun r => r.warp == s.warp.key.warp && (r.kind == 4 || r.kind == 6) &&
    (r.shape.isEmpty ||
      (let x := Shape.ofWords r.shape
       x.escrow && decide (x.base / 65536 < sh.base / 65536 + sh.pages) && decide (sh.base / 65536 < x.base / 65536 + x.pages))))

/-- The loads of the shape record. -/
def State.loadWords (a : W64) : Nat → State → List Byte → Res (List Byte)
  | 0, s, bs => .ok s bs
  | n + 1, s, bs => (s.scalarLoad 8 (a + BitVec.ofNat 64 bs.length)).bind (fun s x => State.loadWords a n s (bs ++ x))

def execSettle (a : SReg) (s : State) : Result :=
  s.scalarRun (fun s =>
    let addr := s.S a
    (s.needs 9).bind (fun s _ => (s.lanesRetired 0).bind (fun s _ => s.takeReport.bind (fun s _ =>
      (s.issueScalar [.r] false 64 8 addr).bind (fun s _ => s.atClearingS.bind (fun s _ =>
        (State.loadWords addr 8 s []).bind (fun s bs =>
          let sh := shapeOf bs
          if !sh.escrow then .trap s (trapOf Code.escrowFault 0 1)
          else
            -- the escrow of a task that has been enqueued and has still to open it counts with it
            if s.escrowBusy sh then .wait s 15
            else .ok ((bufferEscrow s.ctx sh).foldl State.swapPage s) ())))))))

end Sys2Proof.Machine
end

