-- ==== Sys2Proof/Machine/Launches.lean ====
section
/-!
DEFINITION. Launches (03:R60, R61; 14:R275; 21:R337 to R344, R351 to R353): queues and packets, the check of a header, binding,
waiting for a parent, and the completion record. Welhal's accesses are host accesses at the homes.
-/

namespace Sys2Proof.Machine

open Sys2Proof

/-! ### Tickets of Welhal, of the host and of messages (20:R325; 24:R391) -/

/-- The message being carried out waits for the answer to a ticket. -/
def State.parkMessage (s : State) (cn kind ia : Nat) (write : Bool) : State :=
  let (s, ticket) := s.welhalTicket cn kind ia write
  { s with again := .parked ticket }

/-- An access of the host, of the debugger or of another package meets a page that is not there: it waits for the answer, and one
that is fatal at once ends it with an error (20:R328; 24:R391). -/
def State.hostMissing (s : State) (cn kind ia : Nat) (write : Bool) : State :=
  if kind = 3 then (s.fatalTicket cn s.dev.hostPlace ia).1.send [.error] else s.parkMessage cn kind ia write

/-- Welhal reads and writes device memory as host accesses do, through an I/O die (24:R391). -/
def State.welhalGet (s : State) (c : Context) (a n : Nat) : Reach (List Byte × Bool) :=
  s.getBytes c s.dev.hostPlace.1 s.dev.hostPlace.2 a n
def State.welhalPut (s : State) (c : Context) (a : Nat) (bs : List Byte) : Reach Unit :=
  s.putBytes c s.dev.hostPlace.1 s.dev.hostPlace.2 a bs

/-! ### Packets (21:R337) -/

/-- The eight doublewords of a packet. -/
structure Packet where
  header : W64
  teams : W64
  lpb : W64
  done : W64
  lseed : W64
  flags : W64
  parent : W64
  deriving DecidableEq, Repr

def packetOf (bs : List Byte) : Packet :=
  ⟨wordAt bs 0, wordAt bs 1, wordAt bs 2, wordAt bs 3, wordAt bs 4, wordAt bs 5, wordAt bs 6⟩

namespace Packet
def afterParent (p : Packet) : Bool := p.flags.getLsbD 2
/-- PACKET (R341). -/
def bad (p : Packet) : Bool :=
  let high (x : W64) : Bool := bitsOf64 x 63 56 != 0
  high p.header || hi32 p.teams != 0 || high p.lpb || high p.done || bitsOf64 p.flags 63 24 != 0 ||
  bitsOf64 p.flags 15 12 != 0 || bitsOf64 p.flags 7 4 != 0 || high p.parent || lo32 p.teams == 0 ||
  p.header.toNat % 128 != 0 || p.lpb.toNat % 8 != 0 || p.done.toNat % 128 != 0 || p.parent.toNat % 128 != 0 ||
  (!p.afterParent && p.parent != 0)
end Packet

/-- A launch as Welhal knows it from its packet. -/
def Packet.launch (p : Packet) (num ctx : Nat) (binds : List Bind) : Launch where
  num := num
  ctx := ctx
  header := p.header
  hdr := Header.zero
  teams := (lo32 p.teams).toNat
  lpb := p.lpb
  done := p.done
  lseed := p.lseed
  retry := bitsOf64 p.flags 23 16
  prio := bitsOf64 p.flags 11 8
  latency := p.flags.getLsbD 3
  afterParent := p.afterParent
  det := p.flags.getLsbD 1
  cores := p.flags.getLsbD 0
  parent := p.parent
  bound := false
  kills := 0
  exited := 0
  retries := 0
  kteam := 0
  killRec := []
  status := if p.bad then 7 else 0
  recorded := false
  cancelled := false
  ticket := 0
  binds := binds
  remap := []
  clearing := none

/-! ### Queues (21:R338) -/

/-- A control block as read: the ring's base and k, the reserve and the read index. -/
structure Queue where
  base : W64
  k : Nat
  reserve : W64
  read : W64
  deriving DecidableEq, Repr

def queueOf (bs : List Byte) : Queue := ⟨wordAt bs 0, bitsOf64 (wordAt bs 1) 4 0, wordAt bs 2, wordAt bs 3⟩

namespace Queue
def legal (q : Queue) : Bool := decide (1 ≤ q.k) && decide (q.k ≤ 16)
/-- The address of slot j mod 2^k. -/
def slot (q : Queue) (j : W64) : Nat := q.base.toNat + 64 * (j.toNat % 2 ^ q.k)
def full (q : Queue) : Bool := decide (2 ^ q.k ≤ (q.reserve - q.read).toNat)
end Queue

/-- The control block of a queue handle. -/
def Context.queueAt (c : Context) (handle : W64) : Option W64 :=
  (c.queues.find? (fun q => q.1 == handle.toNat)).map Prod.snd

/-- The packet that stands at the read index of a queue, if its marker says that it is there. -/
def State.peekPacket (s : State) (c : Context) (control : W64) : Reach (Option (Queue × List Byte)) :=
  (s.welhalGet c control.toNat 64).bind (fun s b =>
    let q := queueOf b.1
    if b.2 || !q.legal then .ok s none
    else (s.welhalGet c (q.slot q.read) 64).bind (fun s x =>
      if x.2 || wordAt x.1 7 != q.read + 1 then .ok s none else .ok s (some (q, x.1))))

/-- Welhal takes a packet: it copies it, clears the marker and moves the read index. -/
def State.popPacket (s : State) (c : Context) (control : W64) (q : Queue) : Reach Unit :=
  (s.welhalPut c (q.slot q.read + 56) (toBytes 8 (0 : W64))).bind (fun s _ =>
    s.welhalPut c (control.toNat + 0x18) (toBytes 8 (q.read + 1)))

/-- The queues of every context, as (context, handle, control block). -/
def State.allQueues (s : State) : List (Context × Nat × W64) :=
  (s.ctx :: s.ctxs).flatMap (fun c => c.queues.map (fun q => (c, q.1, q.2)))

/-- The place of a queue in Welhal's rounds, after the one that it has visited last: the queues of a context in rising handle
order, the contexts in rotation (21:R339). -/
def Device.round (d : Device) (ctx handle : Nat) : Nat :=
  let (vc, vq) := d.visited
  if ctx = vc ∧ vq < handle then handle
  else (if vc < ctx then ctx - vc else ctx + 65536 - vc) * 512 + handle

/-- A packet stands at the read index of a queue. -/
def State.queueReady (s : State) (c : Context) (control : W64) : Bool :=
  match s.peekPacket c control with
  | .ok _ (some _) => true
  | .ok _ none => false
  | .missing _ _ => false
  | .fault _ => false
  | .refused _ _ => false

/-- The first in Welhal's rounds. -/
def firstQueue (d : Device) : List (Context × Nat × W64) → Option (Context × Nat × W64)
  | [] => none
  | q :: rest => match firstQueue d rest with
    | none => some q
    | some r => some (if d.round q.1.num q.2.1 ≤ d.round r.1.num r.2.1 then q else r)

/-- The queue from which Welhal takes its next packet: at most one from each on a visit (21:R339). -/
def State.nextQueue (s : State) : Option (Context × Nat × W64) :=
  firstQueue s.dev (s.allQueues.filter (fun q => s.queueReady q.1 q.2.2))

/-- Take the packet at a queue's read index, if there is one; the launch gets its number, and its split. -/
def State.takeFrom (s : State) (c : Context) (handle : Nat) (control : W64) (binds : List Bind) : Reach Unit :=
  (s.peekPacket c control).bind (fun s x =>
    match x with
    | none => .ok s ()
    | some (q, bs) => (s.popPacket c control q).bind (fun s _ =>
        .ok { s with dev := { s.dev with
          launches := s.dev.launches ++ [(packetOf bs).launch s.dev.nextLaunch c.num binds], nextLaunch := s.dev.nextLaunch + 1
          visited := (c.num, handle) } } ()))

/-- TAKE_PACKET: a queue that is not registered, or whose next slot holds no packet, gives nothing; one that holds a packet gives
it when its turn comes. -/
def execTakePacket (ctx queue : Nat) (binds : List Bind) (s : State) : Result :=
  match s.ctxOf ctx with
  | none => .next s
  | some c =>
    match c.queueAt (BitVec.ofNat 64 queue) with
    | none => .next s
    | some control =>
      if s.queueReady c control && !(s.nextQueue.any (fun q => q.1.num == ctx && q.2.1 == queue)) then .next s.comeBack
      else match s.takeFrom c queue control binds with
        | .ok s _ => .next s
        | .missing k ia => if k = 3 then .next (s.fatalTicket ctx s.dev.hostPlace ia).1 else .next (s.parkMessage ctx k ia true)
        | .fault _ => .next s
        | .refused _ _ => .next s

/-- Welhal serves its queues by itself: the next packet in its rounds, over one range of teams. -/
def State.serveQueues (s : State) : State :=
  match s.nextQueue with
  | none => s
  | some (c, handle, control) => match s.takeFrom c handle control [] with
    | .ok s _ => s
    | .missing _ _ => s
    | .fault _ => s
    | .refused _ _ => s

/-! ### LAUNCH (14:R275) -/

/-- The launching warp's copy of the packet: it starts after its parent (21:R342). -/
def State.childPacket (s : State) (bs : List Byte) : List Byte :=
  let parent : W64 := match s.launchOf s.team.key.launch with | some l => l.done | none => 0
  bs.take 40 ++ toBytes 8 (wordAt bs 5 ||| 4) ++ toBytes 8 parent

/-- Reserve, write the slot, and write its marker last. The answer is the status. -/
def State.appendPacket (s : State) (control : W64) (bs : List Byte) : Reach Nat :=
  let c := s.ctx
  let (die, quad) := s.team.place
  (s.getBytes c die quad control.toNat 64).bind (fun s b =>
    let q := queueOf b.1
    if q.full then .ok s 1
    else (s.putBytes c die quad (q.slot q.reserve) (bs ++ toBytes 8 (q.reserve + 1))).bind (fun s _ =>
      (s.putBytes c die quad (control.toNat + 0x10) (toBytes 8 (q.reserve + 1))).bind (fun s _ => .ok s 0)))

/-- Steps 2 and 3 of LAUNCH: the packet is read once, as loads of the warp; a LAUNCH that waits later keeps its copy. -/
def State.packetRead (s : State) (addr : W64) : Res (List Byte) :=
  match s.warp.packet with
  | some bs => .ok s bs
  | none => (s.issueScalar [.r] true 64 8 addr).bind (fun s _ => (State.loadWords addr 8 s []).bind (fun s bs =>
      .ok (s.onWarp (fun w => { w with packet := some bs })) bs))

/-- LAUNCH: the marker of the slot is a release at SYS scope (21:R338), so that the stores of the warp come before it. -/
def execLaunch (d a b : SReg) (s : State) : Result :=
  s.scalarRun (fun s =>
    (s.needs 11).bind (fun s _ => (s.lanesRetired 0).bind (fun s _ =>
      (s.packetRead (s.S a)).bind (fun s bs => s.ended.bind (fun s _ =>
        s.atClearingS.bind (fun s _ =>
          let done (s : State) : State := s.onWarp (fun w => { w with packet := none })
          match s.ctx.queueAt (s.S b) with
          | none => (done s).give d 2
          | some control =>
            match s.appendPacket control (s.childPacket bs) with
            | .ok s n => (done s).give d (BitVec.ofNat 64 n)
            | .missing k ia => .wait (s.park false 0 k ia control true false) 15
            | .fault n => .trap s (trapOf Code.rangeFault control (BitVec.ofNat 64 n))
            | .refused code n => .trap s (trapOf code control (BitVec.ofNat 64 n))))))))

/-! ### A launch's own tickets and its completion record (21:R340) -/

/-- Welhal's access for a launch is answered fatal: a record is not written, a header is not readable. -/
def State.launchFatal (s : State) (l : Launch) : State :=
  if l.status ≠ 0 then (s.setLaunch { l with recorded := true, ticket := 0 }).send [.unrecorded l.num l.done l.status]
  else if l.afterParent then s.setLaunch { l with ticket := 0 }
  else s.setLaunch { l with status := 2, ticket := 0 }

/-- Welhal's access for a launch parks. -/
def State.parkLaunch (s : State) (l : Launch) (kind ia : Nat) (write : Bool) : State :=
  let (s, ticket) := s.welhalTicket l.ctx kind ia write
  if kind = 3 then s.launchFatal l else s.setLaunch { l with ticket := ticket }

/-- Words 1 to 15 of the record. -/
def Launch.recordTail (l : Launch) : List W64 :=
  [ BitVec.ofNat 64 (l.kills % 2 ^ 32 * 2 ^ 32 + l.exited % 2 ^ 32), BitVec.ofNat 64 (l.retries % 256),
    BitVec.ofNat 64 (l.kteam % 2 ^ 32), 0, 0, 0, 0 ] ++ (List.range 8).map (fun k => l.killRec.get k)

/-- Write the record: every other word first, then word 0. -/
def State.writeRecord (s : State) (l : Launch) : State :=
  match s.ctxOf l.ctx with
  | none => s.launchFatal l
  | some c =>
    if l.done.toNat % 128 ≠ 0 then s.launchFatal l
    else
      let r := (s.welhalPut c (l.done.toNat + 8) (bytesOf l.recordTail)).bind (fun s _ =>
        s.welhalPut c l.done.toNat (toBytes 8 (BitVec.ofNat 64 l.status)))
      match r with
      | .ok s _ => s.setLaunch { l with recorded := true }
      | .missing k ia => s.parkLaunch l k ia true
      | .fault _ => s.launchFatal l
      | .refused _ _ => s.launchFatal l

/-- COMPLETION_RECORD. -/
def execCompletionRecord (launch : Nat) (s : State) : Result :=
  match s.launchOf launch with
  | none => .next s
  | some l => if l.status ≠ 0 ∧ !l.recorded ∧ l.ticket = 0 then .next (s.writeRecord l) else .next s

/-! ### Waiting for the parent (21:R342) -/

/-- Read word 0 at parent: the launch goes on, waits, or ends with PARENT. A word that cannot be read is no word that reads
non-zero. -/
def State.pollParent (s : State) (l : Launch) : State :=
  match s.ctxOf l.ctx with
  | none => s
  | some c =>
    match s.welhalGet c l.parent.toNat 8 with
    | .ok s (bs, bad) =>
      if bad || wordAt bs 0 == 0 then s
      else if wordAt bs 0 = 1 then s.setLaunch { l with afterParent := false }
      else s.setLaunch { l with status := 6 }
    | .missing k ia => s.parkLaunch l k ia false
    | .fault _ => s
    | .refused _ _ => s

/-- AFTER_PARENT. -/
def execAfterParent (launch : Nat) (s : State) : Result :=
  match s.launchOf launch with
  | none => .next s
  | some l => if l.afterParent ∧ !l.bound ∧ l.status = 0 ∧ l.ticket = 0 then .next (s.pollParent l) else .next s

/-! ### The header (03:R60, R61) -/

def headerOf (bs : List Byte) : Header where
  feat := wordAt bs 0
  fused := (wordAt bs 1).getLsbD 51
  idem := (wordAt bs 1).getLsbD 50
  rename := bitsOf64 (wordAt bs 1) 39 32
  blocks := bitsOf64 (wordAt bs 1) 27 24
  rob := bitsOf64 (wordAt bs 1) 17 16
  numerics := bitsOf64 (wordAt bs 1) 15 8
  isaver := bitsOf64 (wordAt bs 1) 7 0
  entry := (wordAt bs 2).truncate 56
  lanebase := (wordAt bs 3).truncate 56
  handler := (wordAt bs 4).truncate 56
  scratch := bitsOf64 (wordAt bs 5) 52 32
  lanes := bitsOf64 (wordAt bs 5) 10 0
  logical := bitsOf64 (wordAt bs 6) 63 32
  quantum := bitsOf64 (wordAt bs 6) 31 0
  splits := (wordAt bs 7).truncate 56

/-- A reserved field of a header is not zero. -/
def headerReserved (bs : List Byte) : Bool :=
  let w := wordAt bs
  bitsOf64 (w 1) 63 52 != 0 || bitsOf64 (w 1) 49 40 != 0 || bitsOf64 (w 1) 31 28 != 0 || bitsOf64 (w 1) 23 18 != 0 ||
  bitsOf64 (w 2) 63 56 != 0 || bitsOf64 (w 3) 63 56 != 0 || bitsOf64 (w 4) 63 56 != 0 || bitsOf64 (w 5) 63 53 != 0 ||
  bitsOf64 (w 5) 31 11 != 0 || bitsOf64 (w 7) 63 56 != 0 || (List.range 7).any (fun k => w (9 + k) != 0)

/-- A field of a header lies outside its limits. -/
def Header.outside (h : Header) (reloc : W64) : Bool :=
  let between (lo x hi : Nat) : Bool := decide (lo ≤ x) && decide (x ≤ hi)
  !between 1 h.rename 16 || !between 1 h.blocks 12 || h.rob == 3 || !between 1 h.numerics 3 || !between 1 h.isaver 3 ||
  h.entry.toNat % 4 != 0 || h.lanebase.toNat % 16 != 0 || h.handler.toNat % 4 != 0 || h.scratch % 4096 != 0 ||
  decide (1048576 < h.scratch) || !between 1 h.lanes 1024 || h.splits.toNat % 64 != 0 || (lo32 reloc).toNat % 8 != 0 ||
  (hi32 reloc == 0 && lo32 reloc != 0)

/-- What R61 and R352 refuse, in a header that could be read. -/
def Launch.headerBad (l : Launch) (c : Context) (bs : List Byte) : Bool :=
  let h := headerOf bs
  headerReserved bs || h.outside (wordAt bs 8) || decide (c.numerics < h.numerics) || (h.feat &&& ~~~c.feat) != 0 ||
  (l.det && h.logical != 0 && h.logical != l.teams)

/-- What breaks the limits of a split table (21:R353). -/
def splitsBad (bs : List Byte) (n : Nat) : Bool :=
  (List.range n).any (fun k => decide (65535 < (wordAt bs k).toNat) || wordAt bs k == 0)

/-- Read the split table: none when it breaks its limits. -/
def State.readSplits (s : State) (c : Context) (h : Header) : Reach Bool :=
  if h.splits = 0 then .ok s true
  else (s.welhalGet c h.splits.toNat 8).bind (fun s x =>
    let n := (wordAt x.1 0).toNat
    if x.2 || decide (4096 < n) then .ok s false
    else (s.welhalGet c (h.splits.toNat + 8) (8 * n)).bind (fun s y => .ok s (!(y.2 || splitsBad y.1 n))))

/-! ### Binding (21:R343, R344, R351; 16:R284) -/

/-- A core that may take teams: it is not offline, and its die is alive and not gated for good. -/
def State.healthy (s : State) (core : Nat) : Bool := !(s.coreOf core).offline && !s.dev.deadDies.contains (dieOf core)

/-- The cores of a die's mask that may take teams, rising. -/
def State.coresOf (s : State) (die : Nat) (mask : Mask) : List Nat :=
  ((Mask.lanes mask).map (fun k => 32 * die + k)).filter s.healthy

/-- The latency reserve set of a die (21:R348). -/
def Device.reserveOf (d : Device) (die : Nat) : Mask := ((d.reserve.find? (fun r => r.1 == die)).map Prod.snd).getD 0x01010101

/-- A choice of ranges that Welhal can bind: dies rise, and the ranges follow one another from team 0. -/
def bindsOk (teams : Nat) : Nat → Option Nat → List Bind → Bool
  | n, _, [] => n == teams
  | n, die, b :: rest =>
    decide (b.die < Config.dies) && (match die with | none => true | some d => decide (d < b.die)) && b.first == n &&
      bindsOk teams (n + b.count) (some b.die) rest

/-- Welhal's split of a launch: the one it chose, else one range on die 0. The slots of a CORES launch of the bulk class
leave the latency reserve out. -/
def Launch.split (l : Launch) (d : Device) : List Bind :=
  let bs := if bindsOk l.teams 0 none l.binds then l.binds else [⟨0, BitVec.allOnes 32, 0, l.teams⟩]
  if l.cores && !l.latency then bs.map (fun b => { b with mask := b.mask &&& ~~~d.reserveOf b.die }) else bs

/-- Teams of a header that an empty core holds. -/
def coreHolds (h : Header) : Nat → List Team → List (Nat × Nat) → Nat
  | 0, ts, _ => ts.length
  | fuel + 1, ts, ws =>
    if fits h ts ws then
      let pos := freePos ts
      coreHolds h fuel (ts ++ [{ Team.absent with hdr := h, pos := pos }])
        (ws ++ (List.range h.warps).map (fun w => ((w + pos) % 4, h.blocks + h.rename)))
    else ts.length

/-- The healthy cores of the ranges of a DET launch, rising, over which its remap table is built (21:R351). -/
def State.detCores (s : State) (bs : List Bind) : List Nat :=
  (bs.filter (fun b => b.count != 0)).flatMap (fun b => s.coresOf b.die b.mask)

/-- NORES (R284, R345). -/
def State.nores (s : State) (l : Launch) (h : Header) (bs : List Bind) : Bool :=
  let cap := coreHolds h 4 [] []
  let cores := s.detCores bs
  if l.det then cores.isEmpty || cap == 0 || (l.cores && decide (cores.length * cap < l.teams))
  else bs.any (fun b => b.count != 0 && ((s.coresOf b.die b.mask).isEmpty || cap == 0 ||
    (l.cores && decide ((s.coresOf b.die b.mask).length * cap < b.count))))

/-- The lowest free slot of a die's bind table. -/
def Device.freeSlot (d : Device) (die : Nat) : Option Nat :=
  (List.range 64).find? (fun k => !d.bindTab.any (fun b => b.die == die && b.slot == k && b.valid))

/-- One slot for each range that has teams; none where a table is full. -/
def Device.bindSlots (d : Device) (l : Launch) : List Bind → Option (List BindSlot)
  | [] => some []
  | b :: rest =>
    if b.count = 0 then d.bindSlots l rest
    else match d.freeSlot b.die, d.bindSlots l rest with
      | some k, some more =>
        some (⟨b.die, k, b.first, b.count, b.mask, l.prio, l.latency, l.cores, true, l.det, l.num, b.first, 0⟩ :: more)
      | _, _ => none

/-- Enter a bound launch; the remap table of a DET launch is built (21:R351). -/
def State.enterLaunch (s : State) (l : Launch) (h : Header) (bs : List Bind) : State :=
  match s.dev.bindSlots l bs with
  | none => s
  | some slots =>
    let keep := s.dev.bindTab.filter (fun x => !slots.any (fun y => y.die == x.die && y.slot == x.slot))
    ({ s with dev := { s.dev with bindTab := keep ++ slots } }).setLaunch { l with
      hdr := h, bound := true, binds := bs, remap := if l.det then s.detCores bs else [] }

/-- Bind: the header, then NODET, then NORES, then the slots; the place of NODET in that order is a DESIGN CHOICE (log 48), since
04:R88 gives the status and 21:R341 and R344 no order with it. A header whose bytes hold an uncorrectable error ends the launch
with HEADER: 03:R61 and 21:R341 name the range and the page alone (DESIGN CHOICE, log 48). -/
def State.bindLaunch (s : State) (l : Launch) : State :=
  match s.ctxOf l.ctx with
  | none => s.setLaunch { l with status := 8 }
  | some c =>
    let r : Reach (Option Header) := (s.welhalGet c l.header.toNat 128).bind (fun s x =>
      if x.2 || l.headerBad c x.1 then .ok s none
      else (s.readSplits c (headerOf x.1)).bind (fun s good => .ok s (if good then some (headerOf x.1) else none)))
    match r with
    | .ok s none => s.setLaunch { l with status := 2 }
    | .ok s (some h) =>
      let bs := l.split s.dev
      if l.det && !c.feat.getLsbD 12 then s.setLaunch { l with status := 4 }
      else if s.nores l h bs then s.setLaunch { l with status := 3 }
      else s.enterLaunch l h bs
    | .missing k ia => s.parkLaunch l k ia false
    | .fault _ => s.setLaunch { l with status := 2 }
    | .refused _ _ => s.setLaunch { l with status := 2 }

/-- The next step of a launch that no team of it waits for. -/
def State.stepLaunch (s : State) (l : Launch) : State :=
  if l.recorded || l.ticket != 0 then s
  else if l.status ≠ 0 then s.writeRecord l
  else if l.bound then s
  else if l.afterParent then s.pollParent l
  else s.bindLaunch l

end Sys2Proof.Machine
end

