-- ==== Sys2Proof/Machine/Sampling.lean ====
section
/-!
DEFINITION. Sampling (25:R402 to R405): the control blocks, the LFSR, the records of a sample and of a team, and the buffer.
-/

namespace Sys2Proof.Machine

open Sys2Proof

/-! ### Control blocks (25:R402) -/

/-- A sample control block as read. -/
structure SampleBlock where
  at' : Nat
  base : W64
  size : Nat
  interval : Nat
  jmask : Nat
  stop : Bool
  enable : Bool
  seed : BitVec 16
  offset : Nat
  wraps : W64
  dropped : W64
  deriving DecidableEq, Repr

def sampleBlockOf (a : Nat) (bs : List Byte) : SampleBlock where
  at' := a
  base := wordAt bs 0
  size := bitsOf64 (wordAt bs 1) 31 0
  interval := bitsOf64 (wordAt bs 2) 31 0
  jmask := bitsOf64 (wordAt bs 2) 47 32
  stop := (wordAt bs 2).getLsbD 48
  enable := (wordAt bs 2).getLsbD 49
  seed := (wordAt bs 3).truncate 16
  offset := bitsOf64 (wordAt bs 4) 31 0
  wraps := wordAt bs 5
  dropped := wordAt bs 6

/-- Sampling is on, with a buffer that the block describes within its limits. A block outside them samples nothing, and its reserved
bits are not looked at (DESIGN CHOICE, log 20: R402 names no response to either). -/
def SampleBlock.on (b : SampleBlock) : Bool :=
  b.enable && b.base.toNat % 64 == 0 && b.size % 64 == 0 && decide (256 ≤ b.size) && decide (256 ≤ b.interval)

/-- The block of a core in a context, if sampling is on there. -/
def State.sampleBlock (s : State) (c : Context) (core : Nat) : Option SampleBlock :=
  if c.samples = 0 then none
  else
    let a := c.samples.toNat + 64 * core
    match s.getBytes c (dieOf core) (quadOf core) a 64 with
    | .ok _ (bs, false) => if (sampleBlockOf a bs).on then some (sampleBlockOf a bs) else none
    | .ok _ (_, true) => none
    | .fault _ => none
    | .missing _ _ => none
    | .refused _ _ => none

/-! ### The LFSR (25:R403) -/

def lfsrStep (x : BitVec 16) : BitVec 16 :=
  let b := (x.getLsbD 0 ^^ x.getLsbD 2) ^^ (x.getLsbD 3 ^^ x.getLsbD 5)
  (x >>> 1) ||| (if b then 0x8000 else 0)

/-- The sampler begins its next interval. -/
def Sampler.next (p : Sampler) (b : SampleBlock) : Sampler :=
  let x := lfsrStep p.lfsr
  { p with lfsr := x, wait := b.interval + (x.toNat &&& b.jmask) }

/-- The sampler as it starts with a block: the LFSR at the seed, and the first interval begun. -/
def Sampler.begin (p : Sampler) (b : SampleBlock) : Sampler :=
  Sampler.next { p with block := some b.at', lfsr := if b.seed = 0 then 1 else b.seed } b

/-- The sampler as it stands for a block; one that has not run with it starts. -/
def Sampler.with (p : Sampler) (b : SampleBlock) : Sampler := if p.block = some b.at' then p else p.begin b

/-! ### Records (25:R404, R405) -/

/-- A record's header. -/
def recordHeader (type len reason core seq : Nat) : W64 :=
  BitVec.ofNat 64 (type * 2 ^ 56 + len % 65536 * 2 ^ 40 + reason % 16 * 2 ^ 36 + core % 1024 * 2 ^ 26 + seq % 2 ^ 26)

/-- Write a record into the buffer: after a pad if it does not fit, which in ring mode wraps and in stop mode ends the
writing. The pad names the core and the count of records as the record does. The device's words of the block follow. -/
def State.putRecord (s : State) (c : Context) (core name seq : Nat) (b : SampleBlock) (ws : List W64) : Reach Bool :=
  let (die, quad) := (dieOf core, quadOf core)
  let len := 8 * ws.length
  let put (s : State) (off : Nat) (ws : List W64) : Reach Unit := s.putBytes c die quad (b.base.toNat + off) (bytesOf ws)
  let close (s : State) (off : Nat) (wraps dropped : W64) : Reach Unit :=
    (s.putBytes c die quad (b.at' + 0x20) (toBytes 4 (BitVec.ofNat 32 off))).bind (fun s _ =>
      s.putBytes c die quad (b.at' + 0x28) (toBytes 8 wraps ++ toBytes 8 dropped))
  if b.offset + len ≤ b.size then
    (put s b.offset ws).bind (fun s _ => (close s (b.offset + len) b.wraps b.dropped).bind (fun s _ => .ok s true))
  else
    let pad : List W64 := if b.offset < b.size then [recordHeader 0 ((b.size - b.offset) / 8) 0 name seq] else []
    (put s b.offset pad).bind (fun s _ =>
      if b.stop then (close s b.size b.wraps (b.dropped + 1)).bind (fun s _ => .ok s false)
      else (put s 0 ws).bind (fun s _ => (close s len (b.wraps + 1) b.dropped).bind (fun s _ => .ok s true)))

/-! ### A sample -/

/-- The place of a warp in the order of a core: team position, then index. -/
def State.samplePlace (s : State) (w : Warp) : Nat :=
  match s.teamOf w.key.teamKey with | some t => 32 * t.pos + w.key.warp + 1 | none => 0

/-- The warp that issues on a pipe in the cycle of a tick: one of those that are ready, a free one (log 20). -/
def State.issuerAt (s : State) (core pipe : Nat) (n : W64) : Option Warp :=
  let ready := (s.coreWarps core).filter (fun w => w.pipe == pipe && (s.stallReason w).isNone)
  ready[(Config.issuedAt n).toNat % ready.length]?

/-- The next warp of a pipe after the last one chosen, in the order of places, that does not issue. -/
def State.chooseWarp (s : State) (core pipe last : Nat) (but : Option Warp) : Option Warp :=
  let ws := (s.coreWarps core).filter (fun w => w.pipe == pipe && but.all (fun x => x.key != w.key))
  let at' (p : Nat) : Option Warp := ws.find? (fun w => s.samplePlace w == p)
  let places := (List.range 128).map (· + 1)
  match (places.filter (fun p => decide (last < p))).findSome? at' with
  | some w => some w
  | none => places.findSome? at'

/-- The reason of a warp that does not issue in a cycle; one that is ready finds the pipe taken (25:R401). -/
def State.heldBy (s : State) (w : Warp) : Nat := (s.stallReason w).getD 5

/-- The instruction that a stall names or that issues: its stream and its address. Of the lane stream it is the oldest word that has
not issued, or the parked one at LPC. -/
def Warp.sampled (w : Warp) : Bool × W64 :=
  match w.unissued with
  | some n => match (List.range n).foldl (fun q _ => skipWord q) w.queue with
    | b :: _ => (true, b.start.zeroExtend 64)
    | [] => (true, w.LPC.zeroExtend 64)
  | none => if w.parkL.isSome then (true, w.LPC.zeroExtend 64) else (false, w.spc)

/-- Words 2 and 3 of a sample. -/
def State.sampleWord (s : State) (w : Option Warp) : W64 :=
  match w with
  | none => 0
  | some w =>
    let pos := match s.teamOf w.key.teamKey with | some t => t.pos | none => 0
    let (lane, a) := w.sampled
    BitVec.ofNat 64 (2 ^ 63 + (if lane then 2 ^ 62 else 0) + pos % 4 * 2 ^ 60 + w.key.warp % 32 * 2 ^ 55 + bitsOf64 a 55 2)

/-- The core as a record names it: the logical core under DET. -/
def Team.coreName (t : Team) : Nat := if t.det then t.key.team % Config.cores else t.core

/-- The core as a sample names it: by a warp that it describes, else by a team that is resident there. -/
def State.sampleName (s : State) (core : Nat) (w : Option Warp) : Nat :=
  match w.bind (fun w => s.teamOf w.key.teamKey) with
  | some t => t.coreName
  | none => match s.coreTeams core with
    | t :: _ => t.coreName
    | [] => core

/-- A context that samples a core: one with a team there. -/
def State.samplingOn (s : State) (core : Nat) : Option (Context × SampleBlock) :=
  (s.ctx :: s.ctxs).findSome? (fun c =>
    if (s.allTeams.any (fun t => t.core == core && t.resident && t.ctx == c.num)) then
      (s.sampleBlock c core).map (fun b => (c, b))
    else none)

/-- SAMPLE_TICK: an interval has passed. A sampler whose block is off starts anew once it is on again. -/
def execSampleTick (core : Nat) (s : State) : Result :=
  match s.samplingOn core with
  | none =>
    let k := s.coreOf core
    .next (if (s.coreTeams core).isEmpty then s else s.setCore { k with sampler := { k.sampler with block := none } })
  | some (c, b) =>
    let k := s.coreOf core
    let p := k.sampler.with b
    let i := s.issuerAt core p.pipe k.cycle
    let w := s.chooseWarp core p.pipe p.last i
    let name := s.sampleName core (w.orElse (fun _ => i))
    let reason := match w with | some w => s.heldBy w | none => 0
    let ws := [recordHeader 1 4 reason name p.seq, Config.cycleAt k.cycle, s.sampleWord i, s.sampleWord w]
    let last := match w with | some w => s.samplePlace w | none => p.last
    let next (n : Nat) : Sampler := ({ p with pipe := (p.pipe + 1) % 4, last := last, seq := n }).next b
    match s.putRecord c core name p.seq b ws with
    | .ok s true => .next (s.setCore { s.coreOf core with sampler := next (p.seq + 1), cycle := k.cycle + 1 })
    | .ok s false => .next (s.setCore { s.coreOf core with sampler := next p.seq, cycle := k.cycle + 1 })
    | .fault _ => .next (s.setCore { k with sampler := next p.seq })
    | .missing _ _ => .next (s.setCore { k with sampler := next p.seq })
    | .refused _ _ => .next (s.setCore { k with sampler := next p.seq })

/-! ### The record of a team -/

/-- Words 2 to 17 of a team record. -/
def stallSums (ws : List Warp) : List W64 :=
  (List.range 16).map (fun k => (ws.map (fun (w : Warp) => w.stalls.get k)).foldl (· + ·) 0)

/-- A team's record goes to the buffer of its core at its exit. -/
def State.teamRecord (s : State) (t : Team) (ws : List Warp) : State :=
  match s.ctxOf t.ctx with
  | none => s
  | some c =>
    match s.sampleBlock c t.core with
    | none => s
    | some b =>
      let k := s.coreOf t.core
      let p := k.sampler.with b
      let words := [recordHeader 2 18 0 t.coreName p.seq,
        BitVec.ofNat 64 (t.key.launch % 65536 * 2 ^ 32 + t.key.team)] ++ stallSums ws
      match s.putRecord c t.core t.coreName p.seq b words with
      | .ok s true => s.setCore { s.coreOf t.core with sampler := { p with seq := p.seq + 1 } }
      | .ok s false => s
      | .fault _ => s
      | .missing _ _ => s
      | .refused _ _ => s

end Sys2Proof.Machine
end

