-- ==== Sys2Proof/Machine/Placement.lean ====
section
/-!
DEFINITION. Where teams run (21:R345 to R351, R355; 20:R329 to R336; 16:R285): pre-emption and resumption, dispatch, the end of teams
and of launches, relaunch, and cores that go offline and return.
-/

namespace Sys2Proof.Machine

open Sys2Proof

/-! ### Saving and resuming (20:R332 to R336) -/

/-- The ticket of a lane word: that of the oldest stands in the warp while that runs. -/
def Warp.parkOf (w : Warp) (e : RobEntry) : Option Parked := if e.ahead = 0 then w.parkL.orElse (fun _ => e.park) else e.park

/-- The entries of the parked list: the lane words that are parked, with their logged operands (20:R332, R334). -/
def Warp.parkedWords (w : Warp) : List RobEntry :=
  w.rob.filterMap (fun e =>
    if (w.parkOf e).isSome then some { e with completed := 0, values := [], poison := 0, park := w.parkOf e } else none)

/-- A warp whose bank is swapped out: its stop record names where it goes on; a warp that a debugger holds stays held. Answers to its
tickets still reach it (R328). -/
def Warp.saved (w : Warp) : Warp :=
  if w.status = .running then
    let ticket := match w.parkS with | some p => p.ticket | none => 0
    { w.precise with
      stopRec := w.record false false ⟨0, 0, 0, 0, ticket⟩, status := .saved, rob := w.parkedWords
      parkS := w.parkS, parkL := w.parkL.filter Parked.grow }
  else if w.status = .stopped then { w with rob := w.parkedWords, parkL := w.parkL.filter Parked.grow }
  else w

/-- What a stream takes up of an access that was parked when its warp was saved: the answer that the access cannot be made, or that
its range does not grow. -/
def lastAnswer (p : Option Parked) : Option Parked := p.filter (fun p => p.fatal || p.refused)

/-- A warp that goes on: a parked word issues again with its logged operands, for all the lanes that were active (R336); one whose
ticket was answered fatal meanwhile traps (R328). -/
def Warp.resumed (w : Warp) : Warp :=
  if w.status = .saved ∨ w.status = .stopped then
    let head := w.headEntry.bind RobEntry.park
    { w with
      status := if w.status = .saved then .running else .stopped
      parkS := lastAnswer w.parkS, parkL := (lastAnswer w.parkL).orElse (fun _ => lastAnswer head)
      rob := w.rob.map (fun e => { e with fault := e.active, ias := [], park := lastAnswer e.park }) }
  else w

/-- The warps of a team. -/
def State.teamWarps (s : State) (k : TeamKey) : List Warp := s.allWarps.filter (fun w => w.key.teamKey == k)

/-- The bytes of a team's image (R334, R335). -/
def State.imageBytes (s : State) (t : Team) : Nat :=
  64 + 32 * (t.ring.filter (fun r => !r.issued)).length + 16 * 12352 + 96 * (t.hdr.scratch / 256) + t.hdr.scratch +
    ((s.teamWarps t.key).map (fun w => 0x5E80 + 2048 * w.blocks)).sum

/-- The save areas of teams can be assigned from the pools of their contexts; without that Welhal does not pre-empt (20:R334;
DESIGN CHOICE, log 51). -/
def State.areasFit (s : State) (ts : List Team) : Bool :=
  (s.ctx :: s.ctxs).all (fun c =>
    let leaving := ts.filter (fun t => t.ctx == c.num)
    leaving.isEmpty || decide (((s.allTeams.filter (fun t => t.ctx == c.num)).map (fun (t : Team) => t.area)).sum +
      (leaving.map s.imageBytes).sum ≤ c.save))

/-- Save a team: its warps stop precisely, it gets a save area, and it leaves its core. -/
def State.saveTeam (s : State) (k : TeamKey) : State :=
  match s.teamOf k with
  | none => s
  | some t =>
    if t.status != .running then s else
    let area := s.imageBytes t
    let keys := (s.teamWarps k).map (fun w => w.key)
    let s := keys.foldl State.dropChecks s
    let s := s.mapWarps (fun w => w.key.teamKey == k) Warp.saved
    (s.setTeam { t with status := .saved, area := area }).refreshAllowance t.core

/-- The tickets of a team's parked accesses are retired. -/
def State.retireTickets (s : State) (cn : Nat) (k : TeamKey) : State :=
  match s.ctxOf cn with
  | none => s
  | some c => s.setCtx { c with tickets := c.tickets.filter (fun r =>
      !(match r.warp with | some w => w.teamKey == k | none => false)) }

/-- The arrays to which a team's weight sets go on a core where the granules given are taken: each to the array that it had, if that
has room (22:R357). -/
def bindSets : List (Nat × WSet) → Nat → Nat → Option (List (Nat × WSet))
  | [], _, _ => some []
  | (h, w) :: rest, a, b =>
    let n := w.granules
    let first := if w.array = 0 then decide (a + n ≤ 384) else !decide (b + n ≤ 384)
    if first then (if a + n ≤ 384 then (bindSets rest (a + n) b).map (fun xs => (h, { w with array := 0 }) :: xs) else none)
    else if b + n ≤ 384 then (bindSets rest a (b + n)).map (fun xs => (h, { w with array := 1 }) :: xs)
    else none

/-- The sets of a saved team as a core can take them. -/
def State.setsOn (s : State) (t : Team) (core : Nat) : Option (List (Nat × WSet)) :=
  bindSets t.wsets (s.granulesUsed core 0 t.key 16) (s.granulesUsed core 1 t.key 16)

/-- Resume a saved team on a core: its warps go on where they stopped, and read what they left unread anew. -/
def State.resumeTeam (s : State) (k : TeamKey) (core : Nat) (pos : Nat) : State :=
  match s.teamOf k with
  | none => s
  | some t =>
    let s := s.retireTickets t.ctx k
    let sets := (s.setsOn t core).getD t.wsets
    let s := s.setTeam { t with status := .running, core := core, pos := pos, wsets := sets, area := 0 }
    let s := s.mapWarps (fun w => w.key.teamKey == k) (fun w => { w.resumed with pipe := (w.key.warp + pos) % 4 })
    s.beginAt core .sys

/-- A task of a deterministic launch that only a clearing brings further (13:R261): the spill does not wait for it, since no clearing
begins before the other teams of the core have had their turn (21:R350, R355; log 57). -/
def TaskRec.forClearing (r : TaskRec) (t : Team) : Bool := t.det && r.parks.isEmpty && (r.out.isSome || r.kind == 9)

/-- A saved team's image is complete: its fills have arrived and no task of it is in flight (R333). -/
def State.spilled (s : State) (t : Team) : Bool :=
  !t.ring.any (fun r => r.issued && !r.forClearing t) && (s.teamWarps t.key).all (fun w => w.fills.all (fun f => !f.due))

/-! ### Room (21:R345) -/

/-- The warps of a team that take room, as (index, blocks with budget). -/
def State.teamLoad (s : State) (t : Team) : List (Nat × Nat) :=
  ((s.teamWarps t.key).filter (fun w => w.status != .exited && w.status != .killed)).map (fun w =>
    (w.key.warp, w.blocks + t.hdr.rename))

/-- Scratchpad of a core on which tasks of killed teams still run (13:R261). -/
def State.scratchHeld (s : State) (core : Nat) : Nat :=
  ((s.allTeams.filter (fun t => t.core == core && t.status == .killed && !t.ring.isEmpty)).map (fun (t : Team) => t.hdr.scratch)).sum

/-- Whether a load fits a core once the teams that `gone` picks have left. -/
def State.fitsCore (s : State) (scratch : Nat) (load : List (Nat × Nat)) (core : Nat) (gone : Team → Bool) : Bool :=
  fitsOn (scratch + s.scratchHeld core) load ((s.coreTeams core).filter (fun t => !gone t)) (s.coreLoad core gone)

/-- Whether a saved team can go on on a core: it fits, and so do its weight sets. -/
def State.fitsSaved (s : State) (t : Team) (core : Nat) (gone : Team → Bool) : Bool :=
  s.fitsCore t.hdr.scratch (s.teamLoad t) core gone && (s.setsOn t core).isSome

/-- A core takes teams: it is healthy and in no switch. -/
def State.takes (s : State) (core : Nat) : Bool := s.healthy core && (s.coreOf core).switch != .begun

/-- The lowest core of a mask on which something fits. -/
def State.findCore (s : State) (b : BindSlot) (fits : Nat → Bool) : Option Nat :=
  (s.coresOf b.die b.mask).find? (fun c => s.takes c && fits c)

/-! ### Pre-emption (20:R332; 16:R285) -/

/-- The cores that are pre-empted with some: every team of a CORES launch leaves when one does, and a core is pre-empted with all the
teams that `p` picks there. Each round takes in one launch more. -/
def State.spread (s : State) (p : Team → Bool) : Nat → List Nat → List Nat
  | 0, cores => cores
  | fuel + 1, cores =>
    let first := s.allTeams.filter (fun t => t.resident && t.cores && p t && cores.contains t.core)
    let more := (s.allTeams.filter (fun t => t.resident && first.any (fun x => x.key.launch == t.key.launch))).map (fun (t : Team) => t.core)
    s.spread p fuel (cores ++ more.filter (fun c => !cores.contains c))

/-- The teams that leave when those that `p` picks leave some cores. -/
def State.vacating (s : State) (p : Team → Bool) (cores : List Nat) : List Team :=
  let all := s.spread p s.dev.launches.length cores
  s.allTeams.filter (fun t => t.resident && p t && all.contains t.core)

/-- Whether they may leave, as far as their cores, their launches and the room for their images go: no switch is under way there, no
clearing of theirs, and no lane access of theirs has left in part (R332). -/
def State.mayBegin (s : State) (ts : List Team) : Bool :=
  s.areasFit ts &&
  ts.all (fun t => (s.coreOf t.core).switch == .none && (s.teamWarps t.key).all (fun w => w.done.isEmpty) &&
    (match s.launchOf t.key.launch with | some l => l.clearing.isNone | none => true))

/-- Whether they may leave now: no scalar access of theirs has reached its home either. -/
def State.mayVacate (s : State) (ts : List Team) : Bool :=
  s.mayBegin ts && ts.all (fun t => (s.teamWarps t.key).all (fun w => !w.atHome))

/-- The homes let go of the parked lane accesses that the switch will discard: a scalar access of the warp that they hold there is
executed before the switch (R326, R332; log 56). -/
def State.letGo (s : State) (ts : List Team) : State :=
  let free (p : Option Parked) : Option Parked := p.map (fun p => { p with homes := [] })
  s.mapWarps (fun w => w.atHome && ts.any (fun t => t.key == w.key.teamKey)) (fun w =>
    { w with parkL := free w.parkL, rob := w.rob.map (fun e => { e with park := free e.park }) })

/-- They leave in one step, and the switches of their cores begin. -/
def State.vacate (s : State) (ts : List Team) : State :=
  let s := ts.foldl (fun s t => s.saveTeam t.key) s
  ts.foldl (fun s t => s.setCore { s.coreOf t.core with switch := .begun }) s

/-- PREEMPT: every resident team of the core leaves. -/
def execPreempt (core : Nat) (s : State) : Result :=
  let ts := s.vacating (fun _ => true) [core]
  if ts.isEmpty then .next s
  else if s.mayVacate ts then .next (s.vacate ts)
  else .next (if s.mayBegin ts then s.letGo ts else s).comeBack

/-- The banks swap. -/
def State.bankSwap (s : State) (core : Nat) : State :=
  let c := s.coreOf core
  if c.switch = .begun then s.setCore { c with switch := .spilling } else s

def execBankSwap (core : Nat) (s : State) : Result := .next (s.bankSwap core)

/-- The spill of the outgoing image ends once it is complete. -/
def State.endSpill (s : State) (core : Nat) : State :=
  let c := s.coreOf core
  if c.switch = .spilling ∧ (s.allTeams.filter (fun t => t.core == core && t.status == .saved)).all s.spilled then
    s.setCore { c with switch := .none }
  else s

def execSpill (core : Nat) (s : State) : Result := .next (s.endSpill core)

/-! ### Dispatch (21:R347, R348) -/

/-- The valid slots of a die in the order in which dispatch serves them. -/
def State.slotOrder (s : State) (die : Nat) : List BindSlot :=
  let here := s.dev.bindTab.filter (fun b => b.die == die && b.valid)
  [true, false].flatMap (fun lat => (List.range 16).flatMap (fun p =>
    (List.range 64).filterMap (fun k => here.find? (fun b => b.slot == k && b.latency == lat && b.prio == 15 - p))))

def BindSlot.has (b : BindSlot) (t : Nat) : Bool := decide (b.first ≤ t) && decide (t < b.first + b.count)

def State.setSlot (s : State) (b : BindSlot) : State :=
  { s with dev := { s.dev with bindTab := s.dev.bindTab.map (fun x => if x.die = b.die ∧ x.slot = b.slot then b else x) } }

/-- The lowest team index of a list. -/
def lowestTeam : List Team → Option Team
  | [] => none
  | t :: rest => match lowestTeam rest with
    | none => some t
    | some u => some (if t.key.team < u.key.team then t else u)

/-- The next team that a slot places: the lowest of its saved teams, else the next one that has not been placed. -/
inductive NextTeam where
  | saved (t : Team)
  | fresh (n : Nat)
  | none
  deriving DecidableEq, Repr

def State.nextTeam (s : State) (b : BindSlot) : NextTeam :=
  match lowestTeam (s.allTeams.filter (fun t => t.key.launch == b.launch && t.status == .saved && b.has t.key.team)) with
  | some t => .saved t
  | none => if b.next < b.first + b.count then .fresh b.next else .none

/-- Place a fresh team of a slot on a core. -/
def State.startOn (s : State) (l : Launch) (b : BindSlot) (n core : Nat) : State :=
  (s.startTeam (Team.start l n core (freePos (s.coreTeams core)))).setSlot { b with next := n + 1 }

/-- Place the next team of a slot, if it fits. -/
def State.placeNext (s : State) (l : Launch) (b : BindSlot) : Option State :=
  match s.nextTeam b with
  | .none => none
  | .saved t =>
    if !s.spilled t then none
    else match s.findCore b (fun c => s.fitsSaved t c (fun _ => false)) with
      | none => none
      | some c => some (s.resumeTeam t.key c (freePos (s.coreTeams c)))
  | .fresh n =>
    match s.findCore b (fun c => s.fitsCore l.hdr.scratch l.hdr.load c (fun _ => false)) with
    | none => none
    | some c => some (s.startOn l b n c)

/-- The slot as the table holds it now. -/
def State.slotNow (s : State) (b : BindSlot) : BindSlot :=
  (s.dev.bindTab.find? (fun x => x.die == b.die && x.slot == b.slot)).getD b

/-- Place teams of a slot until one cannot be placed; a die holds at most 128. -/
def State.placeAll (l : Launch) (b : BindSlot) : Nat → State → State
  | 0, s => s
  | fuel + 1, s => match s.placeNext l (s.slotNow b) with
    | none => s
    | some s => State.placeAll l b fuel s

/-- Bulk teams of a core that a latency team may displace. -/
def State.isBulk (s : State) (t : Team) : Bool := match s.launchOf t.key.launch with | some l => !l.latency | none => false

/-- Whether the next team of a slot would fit a core without the bulk teams there. -/
def State.nextFits (s : State) (l : Launch) (b : BindSlot) (core : Nat) : Bool :=
  match s.nextTeam b with
  | .none => false
  | .saved t => s.spilled t && s.fitsSaved t core s.isBulk
  | .fresh _ => s.fitsCore l.hdr.scratch l.hdr.load core s.isBulk

/-- The bulk teams of a core, with those that leave with them. -/
def State.bulkOn (s : State) (core : Nat) : List Team := s.vacating s.isBulk [core]

/-- A core of a slot's mask is in a switch: what it brings is placed before another core is vacated. -/
def State.switching (s : State) (b : BindSlot) : Bool := (s.coresOf b.die b.mask).any (fun c => (s.coreOf c).switch == .begun)

/-- A reserved core of a latency slot's mask that its next team fits only without the bulk teams there (21:R348). -/
def State.displace (s : State) (l : Launch) (b : BindSlot) : Option Nat :=
  if s.switching b then none
  else (s.coresOf b.die (b.mask &&& s.dev.reserveOf b.die)).find? (fun c =>
    s.takes c && !(s.bulkOn c).isEmpty && s.mayBegin (s.bulkOn c) && s.nextFits l b c)

/-- Bulk teams leave for a latency team, once the scalar accesses that have reached their homes are executed. -/
def State.vacateFor (s : State) (ts : List Team) : State :=
  if s.mayVacate ts then s.vacate ts else if s.mayBegin ts then s.letGo ts else s

/-- A slot of a launch without CORES or DET. -/
def State.serveSlot (s : State) (l : Launch) (b : BindSlot) : State :=
  let s := State.placeAll l b 129 s
  if !l.latency then s
  else match s.displace l (s.slotNow b) with
    | none => s
    | some c => s.vacateFor (s.bulkOn c)

/-! ### CORES launches (16:R285) -/

/-- The slots of a launch. -/
def State.slotsOf (s : State) (launch : Nat) : List BindSlot :=
  s.dev.bindTab.filter (fun b => b.launch == launch && b.valid)

/-- The teams of a CORES launch that have not started: all of them are placed, or none. -/
def State.startCores (s : State) (l : Launch) : Option State :=
  let slots := s.slotsOf l.num
  let s := slots.foldl (fun s b => State.placeAll l b 129 s) s
  if (s.slotsOf l.num).all (fun b => b.next == b.first + b.count) then some s else none

/-- The saved teams of a CORES launch go back together, each to the core where it started. -/
def State.resumeCores (l : Launch) : List Team → State → Option State
  | [], s => some s
  | t :: rest, s =>
    if s.takes t.core && s.spilled t && s.fitsSaved t t.core (fun _ => false) then
      State.resumeCores l rest (s.resumeTeam t.key t.core (freePos (s.coreTeams t.core)))
    else none

/-- The reserved cores of a launch's masks on which bulk teams run. -/
def State.bulkCores (s : State) (l : Launch) : List Nat :=
  (s.slotsOf l.num).flatMap (fun b => (s.coresOf b.die (b.mask &&& s.dev.reserveOf b.die)).filter (fun c => !(s.bulkOn c).isEmpty))

/-- The bulk teams of cores, each once. -/
def State.bulkOf (s : State) (cores : List Nat) : List Team := s.vacating s.isBulk cores

/-- Whether a launch could place its teams once the bulk teams of cores have left. -/
def State.placesWithout (s : State) (place : State → Option State) (cores : List Nat) : Bool :=
  (place ((s.bulkOf cores).foldl (fun s t => s.saveTeam t.key) s)).isSome

/-- A latency launch all of whose teams are placed in one step displaces the bulk teams of reserved cores, of no more than it
needs (21:R348). -/
def State.displaceAll (s : State) (l : Launch) (place : State → Option State) : State :=
  let cores := s.bulkCores l
  if !l.latency || (s.slotsOf l.num).any s.switching || !s.placesWithout place cores then s
  else
    let least := cores.reverse.foldl (fun keep c =>
      if s.placesWithout place (keep.filter (fun x => x != c)) then keep.filter (fun x => x != c) else keep) cores
    s.vacateFor (s.bulkOf least)

/-- Teams in rising order of their index. -/
def sortTeams : List Team → List Team
  | [] => []
  | t :: rest =>
    let ts := sortTeams rest
    ts.filter (fun u => decide (u.key.team < t.key.team)) ++ t :: ts.filter (fun u => !decide (u.key.team < t.key.team))

/-- The saved teams of a launch, in rising order of their index (21:R347). -/
def State.savedOf (s : State) (l : Launch) : List Team :=
  sortTeams (s.allTeams.filter (fun t => t.key.launch == l.num && t.status == .saved))

/-- A CORES launch: its saved teams first, then its first placement. -/
def State.serveCores (s : State) (l : Launch) : State :=
  let place (s : State) : Option State :=
    if !(s.savedOf l).isEmpty then State.resumeCores l (s.savedOf l) s else s.startCores l
  if !(s.savedOf l).isEmpty || (s.slotsOf l.num).any (fun b => decide (b.next < b.first + b.count)) then
    (place s).getD (s.displaceAll l place)
  else s

/-! ### DET launches (21:R351, R355) -/

/-- A team of a launch that starts without a core of its own: it is saved until its turn comes. -/
def State.startSaved (s : State) (t : Team) : State :=
  (s.startTeam { t with status := .saved }).mapWarps (fun w => w.key.teamKey == t.key) (fun w => { w with status := .saved })

/-- The core of a logical team in the remap table. -/
def Launch.coreOf (l : Launch) (t : Nat) : Nat := l.remap.getD (t % l.remap.length) 0

/-- Place team t of a DET launch on its core of the remap table. -/
def State.startDet (s : State) (l : Launch) (t : Nat) : State :=
  let core := l.coreOf t
  if s.takes core && s.fitsCore l.hdr.scratch l.hdr.load core (fun _ => false) then
    s.startTeam (Team.start l t core (freePos (s.coreTeams core)))
  else s.startSaved (Team.start l t core 0)

/-- A warp has come to the end of its quantum: every block that it has enqueued has retired, or it was swapped out while it
counted as at its quantum end (21:R354). -/
def Warp.quantumOver (w : Warp) : Bool := w.status == .exited || (w.quantumEnd && w.queue.isEmpty) || w.atEnd

/-- A team has come to the end of its quantum on its core. -/
def State.quantumDone (s : State) (t : Team) : Bool := (s.teamWarps t.key).all Warp.quantumOver

/-- A saved team may resume on its core now. -/
def State.mayResume (s : State) (t : Team) (gone : Team → Bool) : Bool :=
  (s.coreOf t.core).switch != .begun && !s.dev.deadDies.contains (dieOf t.core) && s.spilled t && s.fitsSaved t t.core gone

/-- Saved teams of a DET launch that have not come to the end of their quantum resume on their cores, on each core in rising
order: one that cannot yet holds back those behind it (21:R351, R355). -/
def State.resumeDet : List Team → List Nat → State → State
  | [], _, s => s
  | t :: rest, full, s =>
    if s.quantumDone t then State.resumeDet rest full s
    else if !full.contains t.core && s.mayResume t (fun _ => false) then
      State.resumeDet rest full (s.resumeTeam t.key t.core (freePos (s.coreTeams t.core)))
    else State.resumeDet rest (t.core :: full) s

/-- With CORES they resume together (16:R285; 21:R351). -/
def State.resumeAll : List Team → State → Option State
  | [], s => some s
  | t :: rest, s =>
    if s.mayResume t (fun _ => false) then State.resumeAll rest (s.resumeTeam t.key t.core (freePos (s.coreTeams t.core)))
    else none

/-- Every logical team starts; with CORES each of them gets its core, or none starts. -/
def State.startAll (s : State) (l : Launch) : Option State :=
  let s' := (List.range l.teams).foldl (fun s t => s.startDet l t) s
  if l.cores && !(s'.savedOf l).isEmpty then none
  else some ((s'.slotsOf l.num).foldl (fun s b => s.setSlot { b with next := b.first + b.count }) s')

/-- The reserved core of the first team of a latency DET launch that waits for its core and fits it only without the bulk teams
there. -/
def State.detDisplace (s : State) (l : Launch) : State :=
  match (s.savedOf l).find? (fun t => !s.quantumDone t &&
      (s.bulkCores l).contains t.core && s.mayBegin (s.bulkOn t.core) && s.mayResume t s.isBulk) with
  | none => s
  | some t => s.vacateFor (s.bulkOn t.core)

/-- A DET launch: every logical team starts at the first dispatch. -/
def State.serveDet (s : State) (l : Launch) : State :=
  if l.clearing.isSome || l.remap.isEmpty then s
  else if (s.slotsOf l.num).all (fun b => b.next == b.first) then
    (s.startAll l).getD (s.displaceAll l (fun s => s.startAll l))
  else if l.cores then
    let place (s : State) : Option State := State.resumeAll (s.savedOf l) s
    (place s).getD (s.displaceAll l place)
  else
    let s := State.resumeDet (s.savedOf l) [] s
    if l.latency then s.detDisplace l else s

/-! ### Dispatch on a die -/

/-- The slots that dispatch serves on a die before one of its slots. -/
def State.slotsBefore (s : State) (b : BindSlot) : List BindSlot := (s.slotOrder b.die).takeWhile (fun x => x.slot != b.slot)

/-- Slots that dispatch has come to, by die and number. -/
abbrev Seen := List (Nat × Nat)

/-- Serve a slot, once in a round. A launch that is placed as a whole takes room on every die of its masks: what comes before its
slots there is served first (21:R347). Each level of this takes in one slot more. -/
def State.serve : Nat → State × Seen → BindSlot → State × Seen
  | 0, x, _ => x
  | fuel + 1, (s, seen), b =>
    if seen.contains (b.die, b.slot) then (s, seen)
    else
      let seen := (b.die, b.slot) :: seen
      match s.launchOf b.launch with
      | none => (s, seen)
      | some l =>
        if l.cancelled then (s, seen)
        else if !l.det && !l.cores then (s.serveSlot l b, seen)
        else
          let others := (s.slotsOf l.num).filter (fun x => x.die != b.die)
          let (s, seen) := (others.flatMap s.slotsBefore).foldl (fun x y => State.serve fuel x (x.1.slotNow y)) (s, seen)
          (if l.det then s.serveDet l else s.serveCores l, seen)

def State.dispatchDie (s : State) (die : Nat) : State :=
  if s.dev.deadDies.contains die then s
  else ((s.slotOrder die).foldl (fun x b => State.serve (s.dev.bindTab.length + 1) x (x.1.slotNow b)) (s, [])).1

/-- DISPATCH. -/
def execDispatch (die : Nat) (s : State) : Result := .next (s.dispatchDie die)

/-! ### The end of teams and launches (13:R261; 20:R330; 21:R340, R341) -/

/-- What a team's warps have written is at its home, no fill is still to come into their blocks (01:R13), and what a kill has
made of its collectives is known. -/
def State.drained (s : State) (t : Team) : Bool :=
  t.ring.isEmpty && t.lost.isEmpty &&
    (s.teamWarps t.key).all (fun w => w.wbuf.isEmpty && w.comms.isEmpty && w.fills.all (fun f => !f.due))

/-- A team whose last warp has exited retires once its tasks have, and one that was swapped out meanwhile too. -/
def State.settleTeam (s : State) (t : Team) : State :=
  if (t.status = .running ∨ t.status = .saved) ∧ (s.teamWarps t.key).all (fun w => w.status == .exited) ∧ s.drained t then
    let s := s.teamRecord t (s.teamWarps t.key)
    let s := s.setTeam { t with
      status := .exited, area := 0, scratch := [], acc := [], badScratch := [], badAcc := [], wsets := [], wsFmt := [] }
    let s := match s.launchOf t.key.launch with
      | none => s
      | some l => s.setLaunch { l with exited := l.exited + 1 }
    (s.refreshAllowance t.core).releaseBars
  else s

/-- A killed team of the launch gets another attempt (R330). -/
def Launch.again (l : Launch) : Bool := l.hdr.idem && decide (l.retries < l.retry) && !l.cancelled

/-- A killed team that starts again: the same index and seed, from its start. -/
def State.relaunchTeam (s : State) (t : Team) : State :=
  match s.launchOf t.key.launch with
  | none => s
  | some l =>
    if t.status = .killed ∧ l.again ∧ s.drained t then
      let s := s.setLaunch { l with retries := l.retries + 1 }
      let s := { s with dev := { s.dev with bars := s.dev.bars.map (fun (b : Bar) =>
        if b.launch = t.key.launch then { b with arrived := b.arrived.filter (fun a => a.1 != t.key.team) } else b) } }
      let s := s.startSaved (Team.start l t.key.team (if l.det then l.coreOf t.key.team else t.core) 0)
      if l.det then s.mapWarps (fun w => w.key.teamKey == t.key) (fun w => { w with quantumEnd := true }) else s
    else s

/-- RELAUNCH. -/
def execRelaunch (t : TeamKey) (s : State) : Result :=
  match s.teamOf t with
  | none => .next s
  | some tm => .next (s.relaunchTeam tm)

/-- A team that has ended for good. -/
def State.final (s : State) (l : Launch) (t : Team) : Bool :=
  t.status == .exited || (t.status == .killed && !l.again && s.drained t)

/-- What a launch that has completed leaves: its slots are free, and its teams, warps and barriers are gone. -/
def State.clearLaunch (s : State) (n : Nat) : State :=
  let front := s.warp.key.launch == n && s.warp.status != .absent
  let s := if front then { s with warp := Warp.absent, team := Team.absent } else s
  { s with
    warps := s.warps.filter (fun w => w.key.launch != n)
    teams := s.teams.filter (fun t => t.key.launch != n)
    dev := { s.dev with
      bars := s.dev.bars.filter (fun b => b.launch != n)
      bindTab := s.dev.bindTab.map (fun b => if b.launch = n then { b with valid := false } else b) } }

/-- Count what has retired, clear the slots whose range has, and end a launch all of whose teams have ended. -/
def State.settleLaunch (s : State) (l : Launch) : State :=
  if !l.bound || l.status != 0 then s
  else
    let ts := s.allTeams.filter (fun t => t.key.launch == l.num)
    let ended := ts.filter (s.final l)
    let s := { s with dev := { s.dev with bindTab := s.dev.bindTab.map (fun b =>
      if b.launch = l.num ∧ b.valid then
        let n := (ended.filter (fun t => b.has t.key.team)).length
        { b with retired := n, valid := decide (n < b.count) }
      else b) } }
    if ended.length = l.teams ∨ (l.cancelled ∧ ended.length = ts.length) then
      let status := if l.cancelled then 8 else if ended.any (fun t => t.status == .killed) then 5 else 1
      (s.setLaunch { l with status := status, clearing := none }).clearLaunch l.num
    else s

/-! ### Orders of the driver and of Welhal -/

/-- TEAM_KILL: no warp of the team has trapped, so no record names a trap. -/
def execTeamKill (t : TeamKey) (s : State) : Result := .next (s.killTeam t [])

/-- LAUNCH_CANCEL: a launch that has not been bound ends at once; of one that has, every team is killed. -/
def execLaunchCancel (launch : Nat) (s : State) : Result :=
  match s.launchOf launch with
  | none => .next s
  | some l =>
    if l.status ≠ 0 then .next s
    else if !l.bound then
      let s := match s.ctxOf l.ctx with
        | none => s
        | some c => s.setCtx { c with tickets := c.tickets.filter (fun r => r.ticket != l.ticket) }
      .next (s.setLaunch { l with status := 8, cancelled := true, ticket := 0 })
    else
      let s := s.setLaunch { l with cancelled := true }
      .next ((s.allTeams.filter (fun t => t.key.launch == launch)).foldl (fun s t => s.killTeam t.key []) s)

/-- LATENCY_RESERVE_SET: at most 8 cores of a die. -/
def execLatencyReserveSet (die : Nat) (cores : Mask) (s : State) : Result :=
  if 24 ≤ die ∨ 8 < popCount cores then .next s
  else .next { s with dev := { s.dev with reserve := s.dev.reserve.filter (fun r => r.1 != die) ++ [(die, cores)] } }

/-- CORE_TAKEN_OFFLINE: its teams leave and resume on other cores; a DET team leaves at the next clearing, when the remap
table is built anew. -/
def execCoreTakenOffline (core : Nat) (s : State) : Result :=
  let ts := s.vacating (fun t => !t.det) [core]
  if s.mayVacate ts then
    let s := ts.foldl (fun s t => s.saveTeam t.key) s
    .next (s.setCore { s.coreOf core with offline := true })
  else .next (if s.mayBegin ts then s.letGo ts else s).comeBack

/-- CORE_RETURNS. -/
def execCoreReturns (core : Nat) (s : State) : Result := .next (s.setCore { s.coreOf core with offline := false })

end Sys2Proof.Machine
end

