-- ==== Sys2Proof/Machine/Turns.lean ====
section
/-!
DEFINITION. How a turn is taken: a stream's word runs, with the meanings that Dispatch names; trials of turns, which say
whether a warp could go on.
-/

namespace Sys2Proof.Machine

open Sys2Proof

/-- Go on after an instruction that has answered a next state. -/
def andThen (r : Result) (f : State → Result) : Result :=
  match r with
  | .next s => f s
  | .fault x => .fault x
  | .refused x => .refused x

/-- A stream's turn. -/
def runTurn (exec : Instr → State → Result) (lane : Bool) (n : Next) : Result :=
  match n with
  | .done s => .next (s.afterTurn lane)
  | .run i s => andThen (exec i s) (fun s => .next (s.afterTurn lane))
  | .pair x y s => andThen (exec x s) (fun s => andThen (exec y s) (fun s => .next (s.afterTurn lane)))
  | .half x t s => andThen (exec x s) (fun s =>
      .next (((s.onWarp (fun w => { w with xDone := true })).laneTrap true t).afterTurn lane))

/-- A trap that a store or a message of the warp in front has met since its instruction retired is taken before anything else, but
after a lane word whose data have begun to leave (01:R33; 09:R177; 14:R269). -/
def State.takeLate (s : State) (lane : Bool) : Option State :=
  (s.warp.pendTrap.filter (fun _ => s.warp.done.isEmpty)).map (fun p =>
    ((s.onWarp (fun w => { w with pendTrap := none })).takeTrap p.lane p.half p.t).afterTurn lane)

/-- The turn of a stream of the warp in front. -/
def takeTurn (exec : Instr → State → Result) (lane : Bool) (s : State) : Result :=
  match s.takeLate lane with
  | some s => .next s
  | none => runTurn exec lane (if lane then s.nextLane else s.nextScalar)

/-- A message or a command; one that could not be carried out yet is held, or parked under its ticket. -/
def runMessage (exec : Instr → State → Result) (e : Instr) (s : State) : Result :=
  if isMessage e then andThen (exec e s) (fun s => .next (s.keepMessage e))
  else .fault .notAMessage

/-- The state after a turn of the warp in front; one that stops the machine changes nothing. -/
def State.turnOf (exec : Instr → State → Result) (lane : Bool) (s : State) : State :=
  let s' := s.onWarp (fun w => { w with laneStalled := false, scalStalled := false })
  match takeTurn exec lane s' with
  | .next t => t
  | .fault _ => s
  | .refused _ => s

/-! ### Both streams trap (01:R34) -/

/-- A turn of the warp in front has ended in a trap. -/
def State.trapped (s t : State) : Bool :=
  (t.warp.inHandler && !s.warp.inHandler) || t.warp.halt || t.warp.status != .running

/-- The trap of a turn has a code that kills the team. -/
def State.trapKills (s t : State) : Bool :=
  match t.teamOf s.warp.key.teamKey with
  | none => false
  | some m =>
    let r := m.dying.getD m.killRec
    (m.dying.isSome || m.status == .killed) && killsTeam (trapOf ((r.get 0).truncate 8) 0 (r.get 5))

/-- The turn of the warp in front whose both streams may go: the lane stream's, unless both trap and only the scalar stream's trap
kills the team. -/
def takeBoth (exec : Instr → State → Result) (s : State) : Result :=
  let r := takeTurn exec true s
  match r with
  | .next t =>
    if s.trapped t && !s.trapKills t then
      match takeTurn exec false s with
      | .next u => if s.trapped u && s.trapKills u then .next u else r
      | .fault _ => r
      | .refused _ => r
    else r
  | .fault _ => r
  | .refused _ => r

/-! ### Trials -/

/-- Whether a state that a trial turn has left has waited, and nothing is under way that could end the wait. -/
def State.waited (s : State) (lane : Bool) : Bool :=
  s.events.isEmpty && (if lane then s.warp.laneStalled else s.warp.scalStalled)

/-- Neither stream of the warp in front can go on: the state after both have tried, with what waits for the clearing
marked. -/
def State.stuck (exec : Instr → State → Result) (s : State) : Option State :=
  let s := { s with held := [] }
  let s1 := if s.warp.queue.isEmpty then some s
    else (fun (t : State) => if t.waited true then some t else none) (s.turnOf exec true)
  match s1 with
  | none => none
  | some s1 =>
    if s1.warp.quantumEnd then some s1
    else
      let t := s1.turnOf exec false
      if t.waited false then some t else none

/-- The warp of a key is at its quantum end (21:R354). -/
def State.warpAtEnd (exec : Instr → State → Result) (s : State) (w : Warp) : Bool :=
  if w.status = .exited then true
  else if w.status ≠ .running ∨ w.parkS.isSome ∨ w.parkL.isSome ∨ w.stepping.isSome ∨ !w.done.isEmpty then false
  else (State.stuck exec (s.focus w.key)).isSome

end Sys2Proof.Machine
end

