-- ==== Sys2Proof/Machine/Clearing.lean ====
section
/-!
DEFINITION. Quanta and clearings of a deterministic launch (09:R189; 21:R351, R354, R355): when a clearing begins, the
communications that it performs in order of logical team, warp and program, and the quantum that follows.
-/

namespace Sys2Proof.Machine

open Sys2Proof

/-! ### Communications -/

/-- What performing a communication comes to: done, or it stays for a later clearing, or a page of it is missing. -/
inductive CommStep where
  | done (s : State)
  | later (s : State)
  | missing (kind ia : Nat)

/-- One line's admission for a clearing, for each of some addresses. -/
def State.admitAll (c : Context) (t : Team) : List Nat → State → CommStep
  | [], s => .done s
  | ia :: rest, s =>
    match s.admitNow c t.place.1 t.place.2 true ia with
    | .absent k => .missing k ia
    | .hold _ => .missing 1 ia
    | .ok s _ => State.admitAll c t rest s

/-- A push's line goes to the cores of its destination set at the clearing (10:R214). -/
def State.pushNow (s : State) (c : Context) (ia : Nat) (ds : W64) : State :=
  match s.fetchLine c ia with
  | none => s
  | some (x, bad) =>
    let line := tagged c.num ia
    (pushTargets ds).foldl (fun s k => s.installPush k line ⟨x, s.dev.vers.get line, bad⟩) s

/-- The writes of one lane, and its push. -/
def State.clearLane (s : State) (c : Context) (t : Team) (push : Option W64) (x : LaneStore) : State :=
  let s := s.writeHere c t.core x.ia x.bytes
  match push with | some ds => s.pushNow c x.ia ds | none => s

/-- One request of a store at the home: a plain line at once (18:R309), the lanes of a push and those that write aggregate elements
one after another (10:R198; 12:R237). -/
def State.clearStore (s : State) (c : Context) (t : Team) (ws : List LaneStore) (push : Option W64) : CommStep :=
  let lines := (ws.map (fun x => x.ia / 128 * 128)).eraseDups
  match State.admitAll c t lines s with
  | .later s => .later s
  | .missing k ia => .missing k ia
  | .done s =>
    if push.isSome || lines.length != 1 || ws.any (fun x => x.cells.any (fun b => (regionAt c b.1).isSome)) then
      .done (ws.foldl (fun s x => s.clearLane c t push x) s)
    else
      let all := (ws.flatMap LaneStore.cells).reverse
      let ia := lines.headD 0
      let cells := (List.range 128).filterMap (fun k => all.find? (fun x => x.1 == ia + k))
      .done ((runsOf cells).foldl (fun s x => s.writeHere c t.core x.1 x.2) s)

/-- An atomic that returns nothing. -/
def State.clearAtom (s : State) (c : Context) (t : Team) (op : AtomOp) (dbl : Bool) (ia : Nat) (x : W64) : CommStep :=
  match s.homeAtomic c (.core t.core) (some op) dbl ia x 0 with
  | .ok s _ => .done s
  | .absent k => .missing k ia
  | .hold _ =>
    match (s.quiesce c.num ia).homeAtomic c (.core t.core) (some op) dbl ia x 0 with
    | .ok s _ => .done s
    | .absent k => .missing k ia
    | .hold _ => .missing 1 ia

/-- A message that its peer has come to reject raises CHANNEL_FAULT in the sender, which takes it at its next turn (14:R269). -/
def State.rejectSend (s : State) (k : WarpKey) (detail : Nat) : State :=
  s.mapWarps (fun w => w.key == k && w.pendTrap.isNone && w.status != .exited) (fun w =>
    { w with pendTrap := some ⟨true, false, trapOf Code.channelFault 0 (BitVec.ofNat 64 detail)⟩ })

/-- A message goes to its peer's queue, whether or not the peer's team is resident; one that the queue cannot take waits for
a later clearing. -/
def State.clearSend (s : State) (k : WarpKey) (entry : Nat) (peer : Chan) (msg : Store 32) : CommStep :=
  match s.warpOf ⟨k.launch, peer.team, peer.pwarp⟩ with
  | none => .later s
  | some p =>
    let pc := p.chan peer.pch
    if p.status = .exited then .done (s.rejectSend k 3)
    else if p.status = .killed ∨ pc.st = .unbound then .later s
    else if pc.st = .recv ∧ pc.team = k.team ∧ pc.pwarp = k.warp ∧ pc.pch = entry then
      (if pc.queue.length < Config.recvMax then .done (s.deliverMsg k peer msg) else .later s)
    else .done (s.rejectSend k 2)

/-- The writes of a task that has come so far. -/
def State.clearTask (s : State) (c : Context) (t : Team) (seq : BitVec 16) : CommStep :=
  match s.recordOf t.key seq with
  | none => .done s
  | some r =>
    if r.fatal.isSome then .done s
    else if !r.parks.isEmpty then .missing 0 0
    else
      let go : Option State :=
        if r.kind = 9 then some (s.clearColl c t r)
        else r.out.map (fun out => { s.flushTask t r c out with again := s.again })
      match go with
      | none => .later s
      | some s => match s.recordOf t.key seq with
        | some _ => .later s
        | none => .done s

/-- One communication of the warp in front. -/
def State.clearComm (s : State) (m : Comm) : CommStep :=
  match m with
  | .store ws push => s.clearStore s.ctx s.team ws push
  | .send entry peer msg => s.clearSend s.warp.key entry peer msg
  | .atom op dbl ia x => s.clearAtom s.ctx s.team op dbl ia x
  | .task seq => s.clearTask s.ctx s.team seq

/-- The channel entry of a message. -/
def Comm.entry : Comm → Option Nat
  | .send e _ _ => some e
  | .store _ _ => none
  | .atom _ _ _ _ => none
  | .task _ => none

/-- A task that waits for a page. -/
def State.commParked (s : State) (m : Comm) : Bool :=
  match m with
  | .task seq => s.team.ring.any (fun r => r.seq == seq && !r.parks.isEmpty)
  | .store _ _ => false
  | .send _ _ _ => false
  | .atom _ _ _ _ => false

/-- What is left of a list of communications when those that can be have been performed, and whether a missing page has stopped
it. Messages of one entry keep their order. -/
def State.clearComms : List (Nat × Comm) → State → List (Nat × Comm) → State × List (Nat × Comm) × Bool
  | [], s, left => (s, left.reverse, false)
  | m :: rest, s, left =>
    if m.2.entry.isSome && left.any (fun x => x.2.entry == m.2.entry) then State.clearComms rest s (m :: left)
    else match s.clearComm m.2 with
      | .done s => State.clearComms rest s left
      | .later s =>
        if s.commParked m.2 then (s, left.reverse ++ (m :: rest), true) else State.clearComms rest s (m :: left)
      | .missing kind ia =>
        if kind = 0 then (s, left.reverse ++ (m :: rest), true)
        else (s.park false 0 kind ia 0 true false, left.reverse ++ (m :: rest), true)

/-! ### The turn of a warp -/

/-- The warp in front performs its communications up to a place in program order, or all of them. A store whose page cannot be
had raises PAGE_FATAL; one whose page is missing waits for it. -/
def State.clearWarpComms (s : State) (upTo : Option Nat) : State × Bool :=
  let now (x : Nat × Comm) : Bool := match upTo with | some n => decide (x.1 ≤ n) | none => true
  let todo := s.warp.comms.filter now
  let rest := s.warp.comms.filter (fun x => !now x)
  if todo.isEmpty then (s, false)
  else match s.warp.parkS with
    | some p => if p.fatal then (s.takeTrap false false ⟨Code.pageFatal, 0, p.va, 0, p.ticket⟩, false) else (s, true)
    | none =>
      let (s, left, blocked) := State.clearComms todo (s.onWarp (fun w => { w with comms := [] })) []
      (s.onWarp (fun w => { w with comms := left ++ rest }), blocked)

/-- A stream that waits for the clearing acts. It is through once it no longer waits for its turn; one that still waits with
nothing under way, and not for Welhal to move or withdraw pages (11:R234), keeps its place for the next clearing. -/
def State.clearStream (exec : Instr → State → Result) (lane : Bool) (s : State) : State × Bool :=
  let st := if lane then s.warp.clearL else s.warp.clearS
  if st = .none ∨ s.warp.status ≠ .running ∧ s.warp.status ≠ .saved then (s, false)
  else
    let k := s.warp.key
    let s := s.onWarp (fun w => if lane then { w with clearL := .granted } else { w with clearS := .granted })
    let s := s.turnOf exec lane
    if s.warp.key ≠ k then (s, false)
    else if (if lane then s.warp.clearL else s.warp.clearS) = .none then (s, false)
    else if s.events.isEmpty ∧ s.warp.parkS.isNone ∧ s.warp.parkL.isNone ∧ !s.warp.onPages then
      (s.onWarp (fun w => if lane then { w with clearL := .waiting } else { w with clearS := .waiting }), false)
    else (s, true)

/-- The communications that come before what a lane word waits for (09:R189). -/
def State.clearOlder (s : State) : State × Bool :=
  if s.warp.clearL = .none then (s, false) else s.clearWarpComms (some (s.warp.place true))

/-- Do the next part of a turn in a clearing, unless the clearing waits. -/
def thenClear (x : State × Bool) (f : State → State × Bool) : State × Bool := if x.2 then x else f x.1

/-- The turn of the warp in front in a clearing, in program order: the communications before the lane word that waits, that word,
the other communications, and its scalar stream. The second part says that the clearing waits for it. -/
def State.clearWarp (exec : Instr → State → Result) (s : State) : State × Bool :=
  thenClear (thenClear (thenClear s.clearOlder (fun s => s.clearStream exec true)) (fun s => s.clearWarpComms none))
    (fun s => s.clearStream exec false)

/-! ### The beginning and the end of a clearing -/

/-- The teams of a launch. -/
def State.launchTeams (s : State) (n : Nat) : List Team := s.allTeams.filter (fun t => t.key.launch == n)

/-- A logical team is at its quantum end. -/
def State.teamAtEnd (exec : Instr → State → Result) (s : State) (l : Launch) (t : Team) : Bool :=
  match t.status with
  | .running => !t.ring.any (fun r => !r.parks.isEmpty || r.fatal.isSome) && (s.teamWarps t.key).all (s.warpAtEnd exec)
  | .saved => s.quantumDone t
  | .killed => s.final l t
  | .exited => true
  | .absent => true

/-- A clearing of the launch may begin. -/
def State.mayClear (exec : Instr → State → Result) (s : State) (l : Launch) : Bool :=
  let ts := s.launchTeams l.num
  l.det && l.bound && l.status == 0 && l.clearing.isNone &&
  ts.any (fun t => t.status == .running || t.status == .saved) && ts.all (s.teamAtEnd exec l)

/-- Begin: what each warp waits for is marked, and from now on only the warp whose turn has come acts. -/
def State.beginClearing (exec : Instr → State → Result) (s : State) (l : Launch) : State :=
  let mine := s.allWarps.filter (fun w => w.key.launch == l.num)
  let back := s.warp.key
  let s := (mine.filter (fun w => w.status == .running)).foldl (fun s w =>
    match State.stuck exec (s.focus w.key) with
    | some t => { t with held := s.held }
    | none => s) s
  let s := s.focus back
  let s := s.mapWarps (fun w => w.key.launch == l.num) (fun w => { w with frozen := true })
  s.setLaunch { l with clearing := some (sortKeys (mine.map (fun w => w.key))) }

/-- After the communications, the launch's cores read the homes anew. -/
def State.renewCore (s : State) (core : Nat) : State :=
  let s := s.beginAt core .sys
  ((s.coreOf core).l1.filter (fun l => l.st == .pu)).foldl (fun s l =>
    let (cn, ia) := untag l.line
    match s.ctxOf cn with
    | none => s
    | some c => s.refreshCopy c core ia) s

/-- The remap table is built anew where a core has gone offline or returned: a team whose core has changed leaves and goes on
there (21:R351). -/
def State.remap (s : State) (l : Launch) : State :=
  let cores := s.detCores l.binds
  if cores.isEmpty ∨ cores = l.remap ∨ l.cores then s
  else
    let l := { l with remap := cores }
    (s.launchTeams l.num).foldl (fun s t =>
      if t.core = l.coreOf t.key.team then s
      else
        let s := s.saveTeam t.key
        match s.teamOf t.key with
        | none => s
        | some u => if u.status = .saved then s.setTeam { u with core := l.coreOf t.key.team } else s) (s.setLaunch l)

/-- The slicing order of each core begins anew: a team leaves for a saved one that comes before it (21:R355). -/
def State.reslice (s : State) (l : Launch) : State :=
  let early (t : Team) : Bool := (s.savedOf l).any (fun u => u.core == t.core && decide (u.key.team < t.key.team))
  let ts := (s.launchTeams l.num).filter (fun t => t.resident && early t && s.mayVacate [t])
  if l.cores then s else ts.foldl (fun s t => if s.mayVacate [t] then s.vacate [t] else s) s

/-- The next quantum of every team. -/
def Warp.nextQuantum (w : Warp) : Warp :=
  { w with quantum := 0, quantumEnd := false, atEnd := false, frozen := false, laneStalled := false, scalStalled := false,
           clearS := if w.clearS = .granted then .waiting else w.clearS,
           clearL := if w.clearL = .granted then .waiting else w.clearL }

/-- The barriers that the clearing releases (14:R266). -/
def State.releaseDet (s : State) (n : Nat) : State :=
  (s.dev.bars.filter (fun b => b.launch == n && !s.barMissing b)).foldl State.releaseBar s

def State.endClearing (s : State) (l : Launch) : State :=
  let s := s.releaseDet l.num
  let s := (s.launchTeams l.num).foldl (fun s t => if t.resident then s.renewCore t.core else s) s
  let s := s.mapWarps (fun w => w.key.launch == l.num) Warp.nextQuantum
  let l := { l with clearing := none }
  ((s.setLaunch l).remap l).reslice l

/-! ### A step of a clearing -/

/-- The warp that is next in the clearing has its turn. -/
def State.stepClearing (exec : Instr → State → Result) (s : State) (l : Launch) : State :=
  match l.clearing with
  | none => s
  | some [] => s.endClearing l
  | some (k :: rest) =>
    match s.warpOf k with
    | none => s.setLaunch { l with clearing := some rest }
    | some w =>
      if w.status = .killed then s.setLaunch { l with clearing := some rest }
      else if w.status = .stopped then s
      else
        let back := s.warp.key
        let (t, blocked) := (s.focus k).clearWarp exec
        let t := t.focus back
        if blocked then t
        else match t.launchOf l.num with
          | none => t
          | some l => t.setLaunch { l with clearing := some rest }

/-- CLEARING: the next part of a clearing that has begun. The turns of warps that wait for it are taken by step. -/
def State.clearHome (s : State) (l : Launch) : State :=
  match l.clearing with
  | none => s
  | some [] => s.endClearing l
  | some (k :: rest) =>
    match s.warpOf k with
    | none => s.setLaunch { l with clearing := some rest }
    | some w =>
      if w.status = .killed then s.setLaunch { l with clearing := some rest }
      else if w.status = .stopped then s
      else
        let back := s.warp.key
        let t := s.focus k
        -- the turns of streams that wait for the clearing are taken by step
        if t.warp.clearL != .none then (t.clearOlder.1).focus back
        else if t.warp.clearS != .none then ((t.clearWarpComms none).1).focus back
        else
          let (t, blocked) := t.clearWarpComms none
          let t := t.focus back
          if blocked then t
          else match t.launchOf l.num with
            | none => t
            | some l => t.setLaunch { l with clearing := some rest }

def execClearing (launch : Nat) (s : State) : Result :=
  match s.launchOf launch with
  | none => .next s
  | some l => .next (s.clearHome l)

end Sys2Proof.Machine
end

