-- ==== Sys2Proof/Machine/CrossLane.lean ====
section
/-!
DEFINITION. Cross-lane instructions (06:R130 to R135): shuffle, vote, the pairwise tree of LRED and LSCAN, first lane and
broadcast.
-/

namespace Sys2Proof.Machine

open Sys2Proof

/-! ### SHFL (06:R131) -/

/-- The source lane of lane l, if it is in range. -/
def shflLane (mode : ShflMode) (w l b : Nat) : Option Nat :=
  let base := l / w * w
  if w ≤ b then none
  else match mode with
    | .idx => some (base + b)
    | .up => if b ≤ l - base then some (l - b) else none
    | .dn => if l + b < base + w then some (l + b) else none
    | .xor => some (l ^^^ b)

def execShfl (g : Guard) (mode : ShflMode) (width : BitVec 3) (d : Dest) (a b : Value) (q : Pred) (s : State) : Result :=
  .next (s.laneRun (Instr.use (.shfl g mode width d a b q)) .single (fun s =>
    let m := s.active g
    let live := s.warp.live
    let (s, x) := s.readSrc (m != 0) a
    let (s, y) := s.readSrc (m != 0) b
    let from' (l : Nat) : Option Nat :=
      match shflLane mode (2 ^ width.toNat) l (y l).toNat with
      | some j => if live.has j then some j else none
      | none => none
    (s.writeDest d m (fun l => x ((from' l).getD l))).writeP q m (fun l => (from' l).isSome)))

/-! ### VOTE and LFIRST (06:R132, R135) -/

def voteOf (kind : VoteKind) (act bal : Mask) : W32 :=
  let flag (b : Bool) : W32 := if b then 1 else 0
  match kind with
  | .any => flag (bal != 0)
  | .all => flag (bal == act)
  | .bal => bal
  | .eq => flag (bal == 0 || bal == act)

/-- The active lanes in which a predicate holds. -/
def State.ballot (s : State) (m : Mask) (p : Pred) : Mask := m &&& Mask.of (predBit s.warp p.toNat)

def execVote (g : Guard) (kind : VoteKind) (d : Dest) (p : Pred) (s : State) : Result :=
  .next (s.laneRun (Instr.use (.vote g kind d p)) .single (fun s =>
    let m := s.active g
    let r := voteOf kind m (s.ballot m p)
    s.writeDest d m (fun _ => r)))

def execLfirst (g : Guard) (d : Dest) (p : Pred) (s : State) : Result :=
  .next (s.laneRun (Instr.use (.lfirst g d p)) .single (fun s =>
    let m := s.active g
    let r : W32 := BitVec.ofNat 32 (trailZeros (s.ballot m p))
    s.writeDest d m (fun _ => r)))

/-- BCAST: lane j's value, or the lowest active lane's. -/
def execBcast (g : Guard) (d : Dest) (a : Value) (j : Option (BitVec 5)) (s : State) : Result :=
  .next (s.laneRun (Instr.use (.bcast g d a j)) .single (fun s =>
    let m := s.active g
    let (s, x) := s.readSrc (m != 0) a
    let k := match j with | some j => j.toNat | none => trailZeros m
    s.writeDest d m (fun _ => x k)))

/-! ### LRED and LSCAN (06:R133, R134) -/

/-- Combine on two values, with its flags. -/
def redCombine : RedOp → W32 → W32 → W32 × FFlags
  | .add, x, y => (x + y, 0)
  | .min u, x, y => ((if u then (if y.ult x then y else x) else (if y.slt x then y else x)), 0)
  | .max u, x, y => ((if u then (if x.ult y then y else x) else (if x.slt y then y else x)), 0)
  | .and, x, y => (x &&& y, 0)
  | .or, x, y => (x ||| y, 0)
  | .xor, x, y => (x ^^^ y, 0)
  | .fadd r, x, y => let z := fAdd .f32 r 0 x.toNat y.toNat; (BitVec.ofNat 32 z.bits, z.flags)
  | .fmin, x, y => let z := fMinMax .f32 false x.toNat y.toNat; (BitVec.ofNat 32 z.bits, z.flags)
  | .fmax, x, y => let z := fMinMax .f32 true x.toNat y.toNat; (BitVec.ofNat 32 z.bits, z.flags)

def redIdentity : RedOp → W32
  | .add => 0
  | .min u => if u then 0xFFFFFFFF else 0x7FFFFFFF
  | .max u => if u then 0 else 0x80000000
  | .and => 0xFFFFFFFF
  | .or => 0
  | .xor => 0
  | .fadd _ => 0x80000000
  | .fmin => 0x7F800000
  | .fmax => 0xFF800000

/-- A node: none is a node of identities alone, with which a Combine is exact, sets no flag and returns the other operand
unchanged (06:R133). Only an inactive lane contributes an identity: an active lane whose own value has the same bits goes
through the Combine like any other value (DESIGN CHOICE, log 42). -/
abbrev RedNode := Option W32

def redJoin (op : RedOp) (x y : RedNode) : RedNode × FFlags :=
  match x, y with
  | none, y => (y, 0)
  | x, none => (x, 0)
  | some x, some y => let z := redCombine op x y; (some z.1, z.2)

/-- A result: a NaN of a floating-point operator is the canonical one, also where no Combine has touched it (07:R138). -/
def redResult (op : RedOp) (x : W32) : W32 :=
  let canon : W32 := match fpOf .f32 x.toNat with
    | .nan _ => BitVec.ofNat 32 (fmtNan .f32)
    | .inf _ => x
    | .fin _ _ _ => x
  match op with
  | .fadd _ => canon
  | .fmin => canon
  | .fmax => canon
  | .add => x
  | .min _ => x
  | .max _ => x
  | .and => x
  | .or => x
  | .xor => x

/-- Node(k, i). -/
def redNode (op : RedOp) (leaf : Nat → RedNode) : Nat → Nat → RedNode
  | 0, i => leaf i
  | k + 1, i => (redJoin op (redNode op leaf k (2 * i)) (redNode op leaf k (2 * i + 1))).1

/-- The flags of every node of the tree above the leaves. -/
def redFlags (op : RedOp) (leaf : Nat → RedNode) : FFlags :=
  (List.range 5).foldl (fun f k => (List.range (2 ^ (4 - k))).foldl (fun f i =>
    f ||| (redJoin op (redNode op leaf k (2 * i)) (redNode op leaf k (2 * i + 1))).2) f) 0

/-- Prefix(n), from bit k down: the accumulator, the position reached and the flags of the Combines formed. -/
def redPrefixFrom (op : RedOp) (leaf : Nat → RedNode) (n : Nat) : Nat → Option RedNode → Nat → FFlags → Option RedNode × FFlags
  | 0, acc, _, f => (acc, f)
  | k + 1, acc, pos, f =>
    if n / 2 ^ k % 2 = 1 then
      let t := redNode op leaf k (pos / 2 ^ k)
      match acc with
      | none => redPrefixFrom op leaf n k (some t) (pos + 2 ^ k) f
      | some a => let z := redJoin op a t; redPrefixFrom op leaf n k (some z.1) (pos + 2 ^ k) (f ||| z.2)
    else redPrefixFrom op leaf n k acc pos f

def redPrefix (op : RedOp) (leaf : Nat → RedNode) (n : Nat) : RedNode × FFlags :=
  let (acc, f) := redPrefixFrom op leaf n 6 none 0 0
  (acc.getD none, f)

def execLred (g : Guard) (op : RedOp) (d : Dest) (a : Value) (s : State) : Result :=
  .next (s.laneRun (Instr.use (.lred g op d a)) .single (fun s =>
    let m := s.active g
    let (s, x) := s.readSrc (m != 0) a
    let leaf (l : Nat) : RedNode := if m.has l then some (x l) else none
    let r := redResult op ((redNode op leaf 5 0).getD (redIdentity op))
    (s.writeDest d m (fun _ => r)).orFlags (redFlags op leaf)))

def execLscan (g : Guard) (op : RedOp) (excl : Bool) (d : Dest) (a : Value) (s : State) : Result :=
  .next (s.laneRun (Instr.use (.lscan g op excl d a)) .single (fun s =>
    let m := s.active g
    let (s, x) := s.readSrc (m != 0) a
    let leaf (l : Nat) : RedNode := if m.has l then some (x l) else none
    let at' (l : Nat) : RedNode × FFlags := redPrefix op leaf (if excl then l else l + 1)
    (s.writeDest d m (fun l => redResult op ((at' l).1.getD (redIdentity op)))).orFlags (redFlags op leaf ||| flagsOf m (fun l => (at' l).2))))

end Sys2Proof.Machine
end

