-- ==== Sys2Proof/Machine/Driver.lean ====
section
/-!
DEFINITION. What the driver asks of Welhal: contexts (04:R87; 20:R319, R328), range registers (20:R315, R317), pages (R323, R324),
append extents (10:R204), queues (21:R339), memory keys (24:R391), package numbers (R383); and the answers to tickets
(20:R318, R328).
-/

namespace Sys2Proof.Machine

open Sys2Proof

/-! ### Contexts -/

/-- Welhal serves commands while an accepted image runs (25:R408). -/
def State.served (s : State) : Bool := match s.dev.boot with | .running _ => true | .off => false | .recovery => false

/-- A context that the driver has created. -/
def Context.made (c : Context) : Bool := c.numerics != 0

def State.allCtxs (s : State) : List Context := s.ctx :: s.ctxs

/-- CONTEXT_CREATE: the driver holds the root capability with every right. A numerics limit of 0 or above 3 is refused (DESIGN
CHOICE, log 61: no rule says what comes of it). -/
def execContextCreate (num : Nat) (mask : W64) (numerics : BitVec 8) (pool : Pools) (frames : List Nat) (samples : W64)
    (s : State) : Result :=
  let there := match s.ctxOf num with | some c => c.made | none => false
  if !s.served || there || decide (65536 ≤ num) || !(decide (1 ≤ numerics.toNat) && decide (numerics.toNat ≤ 3)) then
    .next (s.send [.handle 0])
  else
    let c : Context := { Context.blank num with
      featMask := mask ||| 1, numerics := numerics.toNat, pool := pool.nodes, frames := frames, save := pool.save,
      samples := samples }
    let s := if (s.ctxOf num).isSome then s.setCtx c else { s with ctxs := s.ctxs ++ [c] }
    .next (({ s with dev := { s.dev with
      caps := s.dev.caps ++ [(⟨s.dev.nextCap, num, 0x3F, none⟩ : Cap)], nextCap := s.dev.nextCap + 1 } }).send
      [.handle s.dev.nextCap.toNat])

/-- PACKAGE_NUMBER_ASSIGN: before any context is created. -/
def execPackageNumberAssign (n : BitVec 12) (s : State) : Result :=
  if !s.served || s.allCtxs.any Context.made then .next s else .next { s with dev := { s.dev with pkgNum := n } }

/-! The statuses of Silrad (25:R397). FULL is no command's answer: every BREAK and WATCH names its slot, and takes the place of what
stood there (DESIGN CHOICE, log 59). -/

namespace Silrad
def ok : Nat := 0
def pending : Nat := 1
def notStopped : Nat := 2
def denied : Nat := 3
def revoked : Nat := 4
def badArg : Nat := 5
def full : Nat := 6
end Silrad

/-- A debug command is done. -/
def State.commandDone (s : State) (ctx : Nat) (x : Command) : State :=
  { s with dev := { s.dev with taken := s.dev.taken.filter (fun y => y != (ctx, x)) } }

/-! ### Tickets answered (20:R318, R328) -/

/-- The record of a ticket. -/
def State.ticketRec (s : State) (ticket : W64) : Option (Context × TicketRec) :=
  s.allCtxs.findSome? (fun c => (c.tickets.find? (fun r => r.ticket == ticket)).map (fun r => (c, r)))

/-- The answer reaches a parked access of a warp: it tries again, or is fatal, or its growth is refused. -/
def Parked.answer (p : Parked) (fatal : Bool) : Option Parked :=
  if !fatal then none else if p.grow then some { p with refused := true } else some { p with fatal := true }

def answerPark (ticket : W64) (fatal : Bool) (p : Option Parked) : Option Parked :=
  match p with
  | none => none
  | some p => if p.ticket = ticket then p.answer fatal else some p

/-- The answer reaches the streams of a warp, and the words that wait in its reorder buffer. -/
def Warp.answer (w : Warp) (ticket : W64) (fatal : Bool) : Warp :=
  { w with parkS := answerPark ticket fatal w.parkS, parkL := answerPark ticket fatal w.parkL,
           rob := w.rob.map (fun e => { e with park := answerPark ticket fatal e.park }),
           laneStalled := false, scalStalled := false }

/-- The answer reaches a task: the lines parked under the ticket are tried again, or the task fails. -/
def TaskRec.answer (x : TaskRec) (ticket : W64) (fatal : Bool) : TaskRec :=
  match x.parks.find? (fun p => p.ticket == ticket) with
  | none => x
  | some p =>
    if fatal then { x with fatal := some (ticket, p.va) }
    else { x with parks := x.parks.filter (fun q => q.ticket != ticket) }

/-- A host operation: one that fails completes with an error. -/
def hostOperation : Instr → Bool
  | .hostRmaWrite _ _ _ => true
  | .hostRmaRead _ _ _ => true
  | .hostAtomicCas _ _ _ _ => true
  | .hostFetchAdd _ _ _ => true
  | .loadRequestRemote _ _ _ => true
  | _ => false

/-- What a fatal answer makes of a message whose access waits: a store of a warp is a late fault, an extent is not created, and
an operation of another agent completes with an error. -/
def State.fatalMessage (ticket : W64) (s : State) (e : Instr) : State :=
  match e with
  | .storeRequest w id => s.fatalStore e w id ticket
  | .pushRequest w id => s.fatalStore e w id ticket
  | .extentCreate _ _ _ => s.send [.handle 0]
  | .groupRegister _ _ _ => s.send [.handle 0]
  | .memread cap ctx addr len => (s.commandDone ctx (.memread cap addr len)).send [.silrad Silrad.badArg 0]
  | .memwrite cap ctx addr data => (s.commandDone ctx (.memwrite cap addr data)).send [.silrad Silrad.badArg 0]
  | e => if hostOperation e then s.send [.error] else s

/-- The answer reaches an access of Welhal's or of a message. -/
def State.answerOther (s : State) (ticket : W64) (fatal : Bool) : State :=
  let s := match s.dev.launches.find? (fun l => l.ticket == ticket) with
    | none => s
    | some l => if fatal then s.launchFatal l else s.setLaunch { l with ticket := 0 }
  let s : State := { s with ctx := s.ctx.answerGroup ticket fatal, ctxs := s.ctxs.map (fun c => c.answerGroup ticket fatal) }
  let mine := (s.parked.filter (fun p => p.1 == ticket)).map Prod.snd
  let s : State := { s with parked := s.parked.filter (fun p => p.1 != ticket) }
  if fatal then mine.foldl (State.fatalMessage ticket) s
  -- what was sent earlier than what is under way still comes before it (24:R379, R392)
  else { s with events := mine ++ s.events }

/-- Answer a ticket; one that stands nowhere is no ticket. -/
def State.answerTicket (s : State) (ticket : W64) (fatal : Bool) : State :=
  match s.ticketRec ticket with
  | none => s
  | some (c, r) =>
    let s := s.setCtx { c with tickets := c.tickets.filter (fun x => x.ticket != ticket) }
    match r.warp, r.task with
    | some k, _ => s.mapWarps (fun w => w.key == k) (fun w => w.answer ticket fatal)
    | none, some (k, seq) => s.onTask k seq (fun x => x.answer ticket fatal)
    | none, none => s.answerOther ticket fatal

/-- FAULT_ANSWER. -/
def execFaultAnswer (ticket : W64) (fatal : Bool) (s : State) : Result := .next (s.answerTicket ticket fatal)

/-- Welhal resolves itself the tickets that wait for a page to come back (20:R328). -/
def State.resolveKind2 (s : State) (cn page : Nat) : State :=
  match s.ctxOf cn with
  | none => s
  | some c =>
    (c.tickets.filter (fun r => r.page == page && bitsOf64 r.ticket 47 44 == 2)).foldl
      (fun s r => s.answerTicket r.ticket false) s

/-! ### The end of a context -/

/-- Destroying answers every pending ticket as fatal, and its launches end. -/
def State.closeContext (s : State) (c : Context) : State :=
  let s := c.tickets.foldl (fun s r => s.answerTicket r.ticket true) s
  let mine := s.dev.launches.filter (fun l => l.ctx == c.num && l.status == 0)
  mine.foldl (fun s l => match execLaunchCancel l.num s with
    | .next s => s
    | .fault _ => s
    | .refused _ => s) s

/-- The regions of a context are dropped with it, and what only they pinned is not pinned any more (11:R220). -/
def State.dropRegions (s : State) (num : Nat) : State :=
  match s.ctxOf num with
  | none => s
  | some c => (c.regions.map (fun (g : Region) => g.handle)).foldl (fun s h => s.dropRegion num h) s

/-- What is left of a context: none of its lines, entries, regions, capabilities and collectives stand. -/
def State.dropContext (s : State) (num : Nat) : State :=
  let mine (line : Nat) : Bool := (untag line).1 == num
  let page (key : Nat) : Bool := key / 2 ^ 36 == num
  let s := (s.dropRegions num).recallLines mine true
  { s with
    ctx := if s.ctx.num = num then Context.blank num else s.ctx
    ctxs := s.ctxs.filter (fun c => c.num != num)
    dev := { s.dev with
      dirHeld := s.dev.dirHeld.filter (fun h => !mine h.2.1)
      pageRecs := s.dev.pageRecs.filter (fun e => !page e.1)
      pagesHeld := s.dev.pagesHeld.filter (fun k => !page k)
      drops := s.dev.drops.filter (fun x => !page x.1)
      caps := s.dev.caps.filter (fun c => c.ctx != num)
      taken := s.dev.taken.filter (fun x => x.1 != num)
      colls := s.dev.colls.filter (fun c => c.ctx != num)
      launches := s.dev.launches.filter (fun l => l.ctx != num) } }

/-- CONTEXT_DESTROY: the context goes once no launch of it is pending. -/
def execContextDestroy (num : Nat) (s : State) : Result :=
  match s.ctxOf num with
  | none => .next s
  | some c =>
    if !c.made then .next s
    else
      let s := s.closeContext c
      if s.dev.launches.any (fun l => l.ctx == num && !l.recorded) then .next s.comeBack else .next (s.dropContext num)

/-! ### Range registers and the root (20:R315, R317, R319) -/

/-- RANGE_REGISTER_WRITE: a write that R315 refuses leaves the register as it was. -/
def execRangeRegisterWrite (ctx k : Nat) (w0 w1 w2 w3 : W64) (s : State) : Result :=
  match s.ctxOf ctx with
  | none => .next s
  | some c =>
    let g : RangeReg := ⟨w0, w1, w2, w3⟩
    if 16 ≤ k ∨ !g.legal then .next s else .next (s.setCtx { c with ranges := listPut c.ranges k g })

/-- PAGE_TABLE_ROOT_WRITE: a physical address that is a multiple of 32 KiB. -/
def execPageTableRootWrite (ctx : Nat) (root : W64) (s : State) : Result :=
  match s.ctxOf ctx with
  | none => .next s
  | some c =>
    if root.toNat % 32768 ≠ 0 ∨ 2 ^ 48 ≤ root.toNat then .next s else .next (s.setCtx { c with root := root })

/-! ### Withdrawal and tier moves (20:R323, R324) -/

/-- Where the page entry of an intermediate address stands, if its tables do. -/
def entryPlace (d : Device) (c : Context) (ia : Nat) : Option Nat :=
  match walkTable d c.root.toNat (ia / 2 ^ 40 % 4096) with
  | .absent => none
  | .malformed => none
  | .page e1 => match walkTable d (nextTable e1.raw) (ia / 2 ^ 28 % 4096) with
    | .absent => none
    | .malformed => none
    | .page e2 => some (nextTable e2.raw + 8 * (ia / 65536 % 4096))

/-- What the driver writes of an entry; dirty, share and owner are the memory side's. -/
def driverEntry (e : W64) : W64 := putBits (putBits e 62 62 0) 56 45 0

/-- Write a new entry for a page, or for all 32 parts of a 2 MiB page. -/
def State.newEntry (s : State) (place : Nat) (large : Bool) (entry : W64) : State :=
  let e := driverEntry entry
  if large then
    let first := place - place % 256
    { s with dev := { s.dev with mem := (List.range 32).foldl (fun m j =>
        writeD m (first + 8 * j) (putBits e 44 13 (bitsOf64 e 44 13 + j))) s.dev.mem } }
  else { s with dev := { s.dev with mem := writeD s.dev.mem place e } }

/-- Step 1: pages are held at their homes, and the packages that may have their lines drop them. -/
def State.beginWithdraw (s : State) (keys : List Nat) (qs : List (BitVec 12)) : State :=
  ({ s with dev := { s.dev with pagesHeld := s.dev.pagesHeld ++ keys } }).dropPages keys qs

/-- Write the page record of a page (24:R384). -/
def State.putRecordOf (s : State) (c : Context) (page : Nat) (r : W64) : State :=
  { s with dev := { s.dev with pageRecs := s.dev.pageRecs.set (s.dev.recordKey c page) r } }

/-- Step 2, once every package has answered: the lines of the pages are recalled from everywhere, with dirty data to the old
place, and no package shares them. Shared-clean copies stay where a handover keeps them (24:R386). -/
def State.recallPages (s : State) (c : Context) (pages : List Nat) (clean : Bool) : State :=
  pages.foldl (fun s p => (s.recallRange c.num (p * 65536) 65536 clean).putRecordOf c p 0) s

/-- Step 4: the pages are held no longer, and the accesses that wait for them walk again. -/
def State.releasePages (s : State) (cn : Nat) (pages : List Nat) : State :=
  let keys := pages.map (pageKey cn)
  pages.foldl (fun s p => s.resolveKind2 cn p)
    { s with dev := { s.dev with pagesHeld := s.dev.pagesHeld.filter (fun k => !keys.contains k) } }

/-- The parts that a withdrawal of a page takes in, as page numbers. -/
def withdrawn (page : Nat) (large : Bool) : List Nat := if large then (List.range 32).map (fun j => page / 32 * 32 + j) else [page]

/-- The steps of a withdrawal of pages, which packages may have: `act` is what is done once they are recalled. It comes back
until the pages are held and every package has answered. A page that a remote package owns comes back first. -/
def State.withdrawal (s : State) (c : Context) (pages : List Nat) (qs : List (BitVec 12)) (clean : Bool) (act : State → State) :
    State :=
  let keys := pages.map (pageKey c.num)
  match pages.find? (fun p => s.dev.away c (p * 65536)) with
  | some p => s.parkMessage c.num 2 (p * 65536) true
  | none =>
    if !keys.all (fun k => s.dev.pagesHeld.contains k) then
      (s.beginWithdraw (keys.filter (fun k => !s.dev.pagesHeld.contains k)) qs).comeBack
    else if s.dropsOpen keys then s.comeBack
    else (act (s.recallPages c pages clean)).releasePages c.num pages

/-- WITHDRAW: the new entry is written; a page that is not present any more gives its home up with its region (17:R294). -/
def execWithdraw (ctx page : Nat) (entry : W64) (s : State) : Result :=
  match s.ctxOf ctx with
  | none => .next s
  | some c =>
    match entryPlace s.dev c (page * 65536) with
    | none => .next (s.releasePages ctx (withdrawn page true))
    | some place =>
      let old : Page := ⟨readD s.dev.mem place, place⟩
      let large := (old.raw.getLsbD 63 && old.large) || (entry.getLsbD 63 && entry.getLsbD 61)
      let pages := withdrawn page large
      .next (s.withdrawal c pages c.pkgs true (fun s => pages.foldl State.unhome (s.newEntry place large entry)))

/-- TIER_MOVE: a copy and a withdrawal. What needs tier 0 stays there, and a tier page must exist. -/
def execTierMove (ctx page : Nat) (cxl : Bool) (ppn : BitVec 32) (s : State) : Result :=
  match s.ctxOf ctx with
  | none => .next s
  | some c =>
    if s.dev.away c (page * 65536) then .next (s.parkMessage ctx 2 (page * 65536) true)
    else match walkEntry s.dev c (page * 65536) with
      | .absent => .next (s.releasePages ctx [page])
      | .malformed => .next (s.releasePages ctx [page])
      | .page p =>
        if cxl ∧ (p.cls = 1 ∨ p.cls = 2 ∨ p.cls = 4 ∨ s.dev.tierPages ≤ ppn.toNat) then .next (s.releasePages ctx [page])
        else .next ((s.splitPage c page).withdrawal c [page] c.pkgs true (fun s => s.movePage ctx page cxl ppn.toNat))

/-! ### Append extents (10:R204) -/

/-- The limits of an extent record, and what it may not overlap. -/
def extentLegal (c : Context) (r0 r1 : W64) : Bool :=
  let base := r0.toNat
  let pages := bitsOf64 r1 12 0
  let len := 65536 * pages
  bitsOf64 r0 63 56 == 0 && bitsOf64 r1 63 13 == 0 && base % 65536 == 0 && decide (1 ≤ pages) && decide (pages ≤ 4096) &&
  !c.extents.any (fun x => decide (x.base < base + len) && decide (base < x.base + 65536 * x.pages)) &&
  covered c .r base len && covered c .w base len &&
  !(decide (Config.apertureBase < base + len) && decide (base < Config.apertureBase + Config.apertureSize)) &&
  decide (c.extents.length < Config.extentsMax)

/-- Every byte of a frame of the HBM tier is zero. -/
def State.zeroFrame (s : State) (frame : Nat) : State :=
  let a := frameAt false frame
  { s with dev := { s.dev with
      mem := s.dev.mem.filter (fun e => !(decide (a ≤ e.1) && decide (e.1 < a + 65536)))
      bad := s.dev.bad.filter (fun l => !(decide (a ≤ 128 * l) && decide (128 * l < a + 65536))) } }

/-- The entry of a page of class append, shared, on a frame of zeros. -/
def State.enterAppend (s : State) (place frame : Nat) : State :=
  let entry : W64 := BitVec.ofNat 64 (2 ^ 63 + 2 ^ 58 + 2 * 2 ^ 55 + frame * 2 ^ 13)
  let s := s.zeroFrame frame
  { s with dev := { s.dev with mem := writeD s.dev.mem place entry } }

/-- The frame that an extent's page takes: the one on tier 0 on which the page is present, or one of the pool. -/
def appendFrame (d : Device) (c : Context) (ia : Nat) : Option Nat :=
  match walkEntry d c ia with
  | .page p => if p.cxl then c.hbmFrames.head? else some p.ppn
  | .absent => c.hbmFrames.head?
  | .malformed => none

/-- A page of a new extent: present on tier 0 with class append, every byte zero. -/
def State.appendPage (cn : Nat) (s : State) (ia : Nat) : State :=
  match s.ctxOf cn with
  | none => s
  | some c =>
    match entryPlace s.dev c ia, appendFrame s.dev c ia with
    | some place, some f => (s.setCtx { c with frames := c.frames.filter (fun x => x != f) }).enterAppend place f
    | _, _ => s

/-- What stands against the mapping of an extent's pages: the ticket kind of the first whose tables are not there or are malformed. -/
def appendMissing (d : Device) (c : Context) (ias : List Nat) : Option (Nat × Nat) :=
  ias.findSome? (fun ia => match walkEntry d c ia with
    | .malformed => some (3, ia)
    | .absent => if (entryPlace d c ia).isNone then some (1, ia) else none
    | .page _ => none)

/-- The pages of an extent that are present, and how many frames the others need: those that lie on the CXL tier move up (20:R324). -/
def presentPages (d : Device) (c : Context) (ias : List Nat) : List Nat :=
  (ias.filter (fun ia => match walkEntry d c ia with | .page _ => true | .absent => false | .malformed => false)).map (· / 65536)
def framesNeeded (d : Device) (c : Context) (ias : List Nat) : Nat :=
  (ias.filter (fun ia => match walkEntry d c ia with | .page p => p.cxl | .absent => true | .malformed => true)).length

/-- EXTENT_CREATE: Welhal answers 1, or 0 where it refuses the record. It waits for tables and for frames of the pool; the entries of
pages that are present change by withdrawal (20:R323). -/
def execExtentCreate (ctx : Nat) (r0 r1 : W64) (s : State) : Result :=
  match s.ctxOf ctx with
  | none => .next (s.send [.handle 0])
  | some c =>
    let pages := bitsOf64 r1 12 0
    if !extentLegal c r0 r1 then .next (s.send [.handle 0])
    else
      let ias := (List.range pages).map (fun k => iaOf c .w (BitVec.ofNat 64 (r0.toNat + 65536 * k)))
      match appendMissing s.dev c ias with
      | some (k, ia) =>
        if k = 3 then .next ((s.fatalTicket ctx s.dev.hostPlace ia).1.send [.handle 0]) else .next (s.parkMessage ctx k ia true)
      | none =>
        if c.hbmFrames.length < framesNeeded s.dev c ias then .next s.comeBack
        else
          let here := presentPages s.dev c ias
          let s := here.foldl (fun s p => s.splitPage c p) s
          .next (s.withdrawal c here c.pkgs true (fun s =>
            let s := ias.foldl (State.appendPage ctx) s
            match s.ctxOf ctx with
            | none => s
            | some c => (s.setCtx { c with
                extents := c.extents ++ [⟨r0.toNat, pages, 0, 0, false, false, false, false⟩] }).send [.handle 1]))

/-! ### Queues and memory keys -/

/-- QUEUE_REGISTER: the lowest free handle from 1 to 255. -/
def execQueueRegister (ctx : Nat) (control : W64) (s : State) : Result :=
  match s.ctxOf ctx with
  | none => .next (s.send [.handle 0])
  | some c =>
    match ((List.range 255).map (· + 1)).find? (fun h => !c.queues.any (fun q => q.1 == h)) with
    | none => .next (s.send [.handle 0])
    | some h => .next ((s.setCtx { c with queues := c.queues ++ [(h, control)] }).send [.handle h])

/-- MEMORY_KEY_REGISTER: a key names one context. -/
def execMemoryKeyRegister (ctx : Nat) (key : BitVec 32) (base len : W64) (r w : Bool) (s : State) : Result :=
  match s.ctxOf ctx with
  | none => .next (s.send [.handle 0])
  | some c =>
    if Config.keysMax ≤ c.keys.length ∨ s.allCtxs.any (fun x => x.keys.any (fun k => k.key == key)) then
      .next (s.send [.handle 0])
    else .next ((s.setCtx { c with keys := c.keys ++ [⟨key, base.toNat, len.toNat, r, w⟩] }).send [.handle 1])

end Sys2Proof.Machine
end

