-- ==== Sys2Proof/Machine/System.lean ====
section
/-!
DEFINITION. System operations of the scalar stream: the special registers (01:R30 to R32, R35; 14:R279, R280), RESUME (14:R282),
traps on request (R276), channel entries (R267, R268), YIELD and NAP (R278), EXIT (R277).
-/

namespace Sys2Proof.Machine

open Sys2Proof

/-! ### Special registers -/

/-- The state of an entry as CHST codes it (14:R270). -/
def ChState.code : ChState → Nat
  | .unbound => 0 | .send => 1 | .recv => 2

/-- CHSTATE: two bits an entry. -/
def Warp.chState (w : Warp) : W64 :=
  BitVec.ofNat 64 ((List.range 15).foldl (fun n e => n + (w.chan e).st.code * 4 ^ e) 0)

/-- Warps of a team (WARPCNT). -/
def State.warpCnt (s : State) : Nat := s.team.hdr.warps

/-- What MFS reads of a special register, CYCLE apart (01:R30; 14:R279; 21:R352). -/
def State.special (s : State) (n : Nat) : W64 :=
  let t := s.team
  let w := s.warp
  match n with
  | 0 => BitVec.ofNat 64 t.key.team
  | 1 => BitVec.ofNat 64 t.teamCnt
  | 2 => BitVec.ofNat 64 w.key.warp
  | 3 => BitVec.ofNat 64 s.warpCnt
  | 4 => BitVec.ofNat 64 (if t.det then t.key.team % Config.cores else t.core)
  | 5 => BitVec.ofNat 64 (if t.det then min t.teamCnt Config.cores else Config.cores)
  | 7 => w.retired
  | 8 => BitVec.ofNat 64 (if t.det then t.q else 0)
  | 9 => w.dseed
  | 10 => s.ctx.feat
  | 11 => Config.isaverBase + (BitVec.ofNat 64 s.ctx.numerics <<< 24)
  | 12 => w.lbr.zeroExtend 64
  | 13 => BitVec.ofNat 64 (s.coreOf t.core).allowance
  | 15 => t.lpb
  | 16 => w.fpstat.zeroExtend 64
  | 17 => BitVec.ofNat 64 t.hdr.scratch
  | 18 => w.agstatus
  | 19 => if w.inHandler then 1 else 0
  | 20 => t.lseed
  | 21 => t.tseed
  | 22 => w.chState
  | 23 => t.taskSeq.zeroExtend 64
  | _ => 0

/-- MFS. CYCLE reads what the core's cycle counter shows at this read: timing is not modelled, so each read takes the
next value of an open sequence. -/
def execMfs (d : SReg) (n : BitVec 6) (s : State) : Result :=
  if n = 6 then
    let c := s.coreOf s.team.core
    .next (((s.setCore { c with cycle := c.cycle + 1 }).writeS d (Config.cycleAt c.cycle)).retire)
  else .next ((s.writeS d (s.special n.toNat)).retire)

/-- The doubleword of the trap record that TRAPINFO selects (01:R35): none at 280 and above. -/
def Warp.trapWord (w : Warp) : W64 := if w.trapSel.toNat < 280 then w.trapRec.get w.trapSel.toNat else 0

/-- The selector after a read. -/
def nextSel (x : BitVec 9) : BitVec 9 := if x = 279 then 0 else x + 1

def execMfsTrapinfo (d : SReg) (s : State) : Result :=
  .next (((s.writeS d s.warp.trapWord).onWarp (fun w => { w with trapSel := nextSel w.trapSel })).retire)

/-- MTS to DSEED; a register that may not be written raises reason 14 (03:R76). -/
def execMts (a : SReg) (n : BitVec 6) (s : State) : Result :=
  if n = 9 then .next ((s.onWarp (fun w => { w with dseed := s.S a })).retire)
  else .next (s.illegalScalar 14)

def execMtsTrapinfo (a : SReg) (s : State) : Result :=
  .next ((s.onWarp (fun w => { w with trapSel := (s.S a).truncate 9 })).retire)

/-- MTS to LBR: its bits [3:0] are zero (01:R10). LBR has 56 bits: the spec does not say what a value with any of bits [63:56]
does, and here it loses them and raises nothing (DESIGN CHOICE, log 47). -/
def execMtsLbr (a : SReg) (s : State) : Result :=
  let x := s.S a
  if x.toNat % 16 ≠ 0 then .next (s.trapScalar Code.misaligned 0 0)
  else .next ((s.onWarp (fun w => { w with lbr := x.truncate 56 })).retire)

def execMtsFpstat (a : SReg) (s : State) : Result := .next ((s.setFlags (s.S a)).retire)

/-- MTS to ALLOWANCE: a larger value stores 512 (01:R32). -/
def execMtsAllowance (a : SReg) (s : State) : Result :=
  let c := s.coreOf s.team.core
  .next ((s.setCore { c with allowance := min (s.S a).toNat Config.allowanceMax }).retire)

/-- MTS to RESUME: in the handler it waits for the handler's lane blocks and then returns; outside it has no effect
(14:R280, R282). -/
def execMtsResume (a : SReg) (s : State) : Result :=
  if !s.warp.inHandler then .next s.retire
  else if !s.warp.queue.isEmpty then .next (s.waitScalar 0)
  else .next (s.returnFromHandler ((s.S a).getLsbD 0))

/-! ### Traps and stops on request (14:R276) -/

def execTrap (code : BitVec 6) (s : State) : Result := .next (s.trapScalar Code.trapInstr 0 (code.zeroExtend 64))

/-- A debugger holds a context's debug capability: one with the right STOP stands beside the driver's root (25:R395, R396). -/
def Device.debuggerOf (d : Device) (ctx : Nat) : Bool :=
  d.caps.any (fun c => c.ctx == ctx && c.rights.getLsbD 2 && c.parent.isSome)

def State.debugHeld (s : State) : Bool := s.dev.debuggerOf s.ctx.num

/-- What BRK and LBRK do: a stop, or BREAKPOINT. -/
def State.breakAt (s : State) (lane : Bool) (m : Mask) : State :=
  if s.debugHeld then s.stopWarp lane false m 0 0 else s.takeTrap lane false ⟨Code.breakpoint, m, 0, 0, 0⟩

def execBrk (s : State) : Result := .next (s.breakAt false 0)

/-! ### Channel entries (14:R267, R268) -/

/-- The status of a binding: a malformed descriptor, a peer that the launch does not have, an entry bound already. -/
def State.bindStatus (s : State) (x : W64) : Nat :=
  if bitsOf64 x 3 0 = 15 ∨ bitsOf64 x 19 16 = 15 ∨ bitsOf64 x 31 20 ≠ 0 ∨ bitsOf64 x 15 13 ≠ 0 ∨ bitsOf64 x 7 5 ≠ 0 then 3
  else if s.team.teamCnt ≤ bitsOf64 x 63 32 ∨ s.warpCnt ≤ bitsOf64 x 12 8 then 2
  else if (s.warp.chan (bitsOf64 x 3 0)).st ≠ .unbound then 1
  else 0

/-- The entry that a descriptor describes. -/
def boundChan (x : W64) : Chan :=
  ⟨if x.getLsbD 4 then .recv else .send, bitsOf64 x 63 32, bitsOf64 x 12 8, bitsOf64 x 19 16, []⟩

def execChbind (d a : SReg) (s : State) : Result :=
  s.scalarRun (fun s => (s.needs 5).bind (fun s _ => (s.lanesRetired 0).bind (fun s _ =>
    let x := s.S a
    let status := s.bindStatus x
    let s := if status = 0 then s.onWarp (fun w => w.setChan (bitsOf64 x 3 0) (boundChan x)) else s
    s.give d (BitVec.ofNat 64 status))))

def execChfree (a : SReg) (s : State) : Result :=
  s.scalarRun (fun s => (s.needs 5).bind (fun s _ => (s.lanesRetired 0).bind (fun s _ =>
    let x := (s.S a).toNat
    if 14 < x then .trap s (trapOf Code.channelFault 0 4)
    else .ok (s.onWarp (fun w => w.setChan x Chan.free)) ())))

/-! ### Pausing (14:R278) -/

def execYieldTurn (s : State) : Result := .next (s.retire.onWarp (fun w => { w with yielded := true }))

/-- A warp's NAP ends. -/
def Warp.wake (w : Warp) : Warp := { w with nap := false, scalStalled := false, laneStalled := false }

/-- NAP: the scalar stream is suspended until the warp comes round in the rotation, or something ends the wait earlier.
A bound of 0, and every NAP under DET, completes at once. -/
def execNap (a : SReg) (s : State) : Result :=
  let s' := s.retire
  if lo32 (s.S a) = 0 ∨ s.team.det then .next s'
  else .next (s'.onWarp (fun w => { w.countStall 15 with nap := true }))

/-- The cycles of a NAP have passed. -/
def execNapExpiry (w : WarpKey) (s : State) : Result := .next (s.mapWarps (fun x => x.key == w) Warp.wake)

/-! ### EXIT (14:R277) -/

/-- What is left of a warp that has exited: its stores have been performed, its channels and its register blocks are
free. -/
def Warp.exited (w : Warp) : Warp :=
  { w with status := .exited, inHandler := false, chans := List.replicate 15 Chan.free, blocks := 0, v := [], empty := 0,
           poison := 0, fills := [], bar := [], nap := false }

/-- A fill of a detached load has not arrived for every lane. -/
def Warp.filling (w : Warp) : Bool := w.fills.any (fun f => f.arrived != f.lanes)

/-- EXIT releases the blocks of its warp, and so waits for the fills into them (01:R13). -/
def execExit (s : State) : Result :=
  s.scalarRun (fun s => (s.lanesRetired 0).bind (fun s _ => s.takeReport.bind (fun s _ => s.ended.bind (fun s _ =>
    if s.warp.filling then .wait s 15 else .ok (s.onWarp Warp.exited).releaseBars ()))))

end Sys2Proof.Machine
end

