-- ==== Sys2Proof/Machine/Debug.lean ====
section
/-!
DEFINITION. Silrad (25:R395 to R400): capabilities, stops and steps, reading and writing a stopped warp, breakpoints and
watchpoints, ABANDON (22:R373); and management readback (25:R406).
-/

namespace Sys2Proof.Machine

open Sys2Proof

/-! ### Capabilities (25:R395, R396) -/

/-! The bit of each right. -/

namespace Right
def read : Nat := 0
def write : Nat := 1
def stop : Nat := 2
def break' : Nat := 3
def abandon : Nat := 4
def delegate : Nat := 5
end Right

/-- The capability of a handle. -/
def Device.capOf (d : Device) (h : BitVec 32) : Option Cap := d.caps.find? (fun c => c.handle == h)

/-- What stands against a command of a capability in a context: a revoked handle, another context, a missing right. -/
def State.capStatus (s : State) (h : BitVec 32) (ctx : Nat) (right : Nat) : Nat :=
  if s.dev.revoked.contains h then Silrad.revoked
  else match s.dev.capOf h with
    | none => Silrad.denied
    | some c => if c.ctx = ctx ∧ c.rights.getLsbD right then Silrad.ok else Silrad.denied

/-- A command's answer. -/
def State.answer (s : State) (status : Nat) (x : W64 := 0) : Result := .next (s.send [.silrad status x])

/-- A command that has been carried out is done; one that waits stays taken. -/
def State.keepCommand (ctx : Nat) (x : Command) (s : State) : State :=
  match s.again with
  | .no => s.commandDone ctx x
  | .held => { s.commandDone ctx x with dev := { s.dev with taken := (s.commandDone ctx x).dev.taken ++ [(ctx, x)] } }
  | .parked _ => { s.commandDone ctx x with dev := { s.dev with taken := (s.commandDone ctx x).dev.taken ++ [(ctx, x)] } }

/-- Run a command that its capability permits. Welhal takes the commands of a context one at a time: one that it has taken is
completed, whatever is revoked meanwhile, and the next one waits for that (25:R396). -/
def State.command (s : State) (x : Command) (h : BitVec 32) (ctx right : Nat) (f : State → Result) : Result :=
  if s.dev.taken.contains (ctx, x) then andThen (f s) (fun s => .next (s.keepCommand ctx x))
  else if s.dev.taken.any (fun y => y.1 == ctx) then .next s.comeBack
  else if s.capStatus h ctx right = Silrad.ok then andThen (f s) (fun s => .next (s.keepCommand ctx x))
  else s.answer (s.capStatus h ctx right)

/-- The same for a command that is done in one step. -/
def State.permitted (s : State) (h : BitVec 32) (ctx right : Nat) (f : State → Result) : Result :=
  if s.dev.taken.any (fun y => y.1 == ctx) then .next s.comeBack
  else if s.capStatus h ctx right = Silrad.ok then f s else s.answer (s.capStatus h ctx right)

/-- The answer to a command whose target does not stand; a revoked capability comes first. -/
def State.noTarget (s : State) (h : BitVec 32) : Result :=
  s.answer (if s.dev.revoked.contains h then Silrad.revoked else Silrad.badArg)

/-- DELEGATE: a child with some of the rights. -/
def execDelegate (cap : BitVec 32) (rights : BitVec 8) (s : State) : Result :=
  if s.dev.revoked.contains cap then s.answer Silrad.revoked
  else match s.dev.capOf cap with
    | none => s.answer Silrad.denied
    | some c =>
      if !c.rights.getLsbD Right.delegate then s.answer Silrad.denied
      else if (rights &&& ~~~c.rights) != 0 || (rights &&& 0xC0) != 0 then s.answer Silrad.badArg
      else
        let h := s.dev.nextCap
        ({ s with dev := { s.dev with caps := s.dev.caps ++ [(⟨h, c.ctx, rights, some cap⟩ : Cap)], nextCap := h + 1 } }).answer
          Silrad.ok (h.zeroExtend 64)

/-- The handles delegated from those of a list, and so on. -/
def descend (caps : List Cap) : Nat → List (BitVec 32) → List (BitVec 32)
  | 0, hs => hs
  | fuel + 1, hs =>
    let more := (caps.filter (fun c => (match c.parent with | some p => hs.contains p | none => false) &&
      !hs.contains c.handle)).map (fun c => c.handle)
    if more.isEmpty then hs else descend caps fuel (hs ++ more)

/-! ### Going on (25:R398) -/

/-- A stopped warp goes on: a trap that its stop has held back is delivered first. Its parked accesses have kept their tickets, and an
answer that has come meanwhile stands (25:R398; 20:R328). -/
def State.goOn (s : State) (k : WarpKey) : State :=
  match s.warpOf k with
  | none => s
  | some w =>
    if w.status ≠ .stopped then s
    else
      let resident := match s.teamOf k.teamKey with | some t => t.resident | none => false
      let s := s.mapWarps (fun x => x.key == k) (fun x => { x with
        status := if resident then .running else .saved, stepping := none, pendTrap := none })
      match w.pendTrap with
      | none => s
      | some p => s.asWarp k (fun s => s.deliver p.lane p.half p.t)

/-- The warps of a target, with the context they belong to. -/
def State.targets (s : State) (t : Target) : Option (Nat × List WarpKey) :=
  let live (w : Warp) : Bool := w.status == .running || w.status == .stopped || w.status == .saved
  let keys (p : Warp → Bool) : List WarpKey := (s.allWarps.filter (fun w => live w && p w)).map (fun w => w.key)
  match t with
  | .context c => (s.ctxOf c).map (fun _ => (c, keys (fun w => match s.teamOf w.key.teamKey with
      | some t => t.ctx == c
      | none => false)))
  | .team k => (s.teamOf k).map (fun t => (t.ctx, keys (fun w => w.key.teamKey == k)))
  | .warp k => (s.teamOf k.teamKey).bind (fun t => (s.warpOf k).map (fun _ => (t.ctx, keys (fun w => w.key == k))))

/-- Stop a warp as R33 lays down; a saved warp stays where its stop record is, and does not run when its team resumes. -/
def State.holdWarp (s : State) (k : WarpKey) : State :=
  match s.warpOf k with
  | none => s
  | some w =>
    if w.status = .running then s.asWarp k (fun s => s.stopWarp false false 0 0 0)
    else if w.status = .saved then s.mapWarps (fun x => x.key == k) (fun x => { x with status := .stopped })
    else s

/-- STOP: all warps of the target in one step, once no lane access of theirs has left in part. -/
def execStop (cap : BitVec 32) (t : Target) (s : State) : Result :=
  match s.targets t with
  | none => s.noTarget cap
  | some (ctx, keys) =>
    s.command (.stop cap t) cap ctx Right.stop (fun s =>
      if keys.any (fun k => match s.warpOf k with | some w => !w.done.isEmpty | none => false) then .next s.comeBack
      else (keys.foldl State.holdWarp s).answer Silrad.ok)

/-- RESUME. -/
def execResume (cap : BitVec 32) (t : Target) (s : State) : Result :=
  match s.targets t with
  | none => s.noTarget cap
  | some (ctx, keys) => s.permitted cap ctx Right.stop (fun s => (keys.foldl State.goOn s).answer Silrad.ok)

/-- A warp that a step has brought to its handler stops again. -/
def State.againStopped (s : State) (w : WarpKey) (lane : Bool) : State :=
  match s.warpOf w with
  | some y => if y.status = .running then s.asWarp w (fun s => s.stopWarp lane false 0 0 0) else s
  | none => s

/-- STEP: the named stream runs one instruction. A trap that the stop has held back is what the step delivers. -/
def execStep (cap : BitVec 32) (w : WarpKey) (lane : Bool) (s : State) : Result :=
  match s.targets (.warp w), s.warpOf w with
  | some (ctx, _), some x =>
    s.permitted cap ctx Right.stop (fun s =>
      if x.status ≠ .stopped then s.answer Silrad.notStopped
      else if x.pendTrap.isSome then
        let s := s.goOn w
        (s.againStopped w lane).answer Silrad.ok
      else if lane && x.queue.isEmpty then s.answer Silrad.badArg
      else ((s.goOn w).mapWarps (fun y => y.key == w) (fun y => { y with stepping := some lane })).answer Silrad.ok)
  | _, _ => s.noTarget cap

/-! ### Images (20:R334, R335) -/

/-- A channel entry in the layout of R267, with its state in bits [21:20]. -/
def Chan.word (c : Chan) (entry : Nat) : W64 :=
  if c.st = .unbound then 0
  else BitVec.ofNat 64 (c.team % 2 ^ 32 * 2 ^ 32 + c.st.code * 2 ^ 20 + c.pch % 16 * 2 ^ 16 + c.pwarp % 32 * 2 ^ 8 +
    (if c.st = .recv then 16 else 0) + entry)

/-- Two words of 32 bits as doublewords. -/
def pairUp : List W32 → List W64
  | [] => []
  | [x] => [zext64 x]
  | x :: y :: rest => pair64 x y :: pairUp rest

/-- The control block of a warp image. -/
def Warp.controlBlock (w : Warp) : List W64 :=
  let b (x : Bool) (n : Nat) : Nat := if x then n else 0
  let wait := w.bar.find? (fun x => !x.released)
  let barWord := match wait with | some x => 2 ^ 9 + x.level % 8 * 2 ^ 32 + x.id % 2 ^ 13 * 2 ^ 35 | none => 0
  let report : W64 := match w.report with
    | none => 0
    | some r => BitVec.ofNat 64 (2 ^ 32 + (taskDetail r.seq r.kind.toNat r.reason).toNat % 2 ^ 32)
  [ BitVec.ofNat 64 (w.blocks % 16 + w.srq.length % 16 * 16 + b w.inHandler 256 + barWord),
    w.dseed, w.fpstat.zeroExtend 64, w.lbr.zeroExtend 64, w.trapSel.zeroExtend 64, w.retired, w.agstatus, report ] ++
  (List.range 15).map (fun e => (w.chan e).word e) ++ List.replicate 9 0 ++ (List.range 16).map (fun k => w.stalls.get k)

/-- A slot of the parked list: 88 doublewords (20:R334). -/
def RobEntry.words (e : RobEntry) : List W64 :=
  let (ticket, lanes) : W64 × Mask := match e.park with | some p => (p.ticket, p.lanes) | none => (0, 0)
  [ e.word.zeroExtend 64, (lanes.zeroExtend 64 <<< 32) ||| e.active.zeroExtend 64, ticket, e.base ] ++
  pairUp ((List.range 32).map (fun l => e.offs.getD l 0)) ++
  (List.range 32).flatMap (fun l => [((e.data.getD l 0).truncate 64 : W64), ((e.data.getD l 0) >>> 64).truncate 64]) ++
  [0, 0, 0, 0]

/-- The parked list of a saved or stopped warp: 16 slots, those that no parked word takes zero. -/
def Warp.parkedList (w : Warp) : List W64 :=
  if w.status = .saved ∨ w.status = .stopped then
    let es := w.parkedWords.take 16
    es.flatMap RobEntry.words ++ List.replicate (88 * (16 - es.length)) 0
  else List.replicate 1408 0

/-- The image of a warp, doubleword by doubleword. -/
def Warp.image (w : Warp) : List W64 :=
  let words32 (n : Nat) (f : Nat → W32) : List W64 := pairUp ((List.range n).map f)
  let bits (x : BitVec 192) : List W64 := [x.truncate 64, (x >>> 64).truncate 64, (x >>> 128).truncate 64, 0]
  let predByte (l : Nat) : Byte :=
    BitVec.ofNat 8 ((List.range 8).foldl (fun n k => if predBit w k l then n + 2 ^ k else n) 0)
  let preds := (List.range 32).map predByte
  (List.range 280).map (fun k => w.stopRec.get k) ++ (List.range 280).map (fun k => w.trapRec.get k) ++
  (List.range 32).map (fun k => if k = 0 then 0 else w.s.get k) ++ w.controlBlock ++
  words32 8 (fun k => w.srq.getD k 0) ++ (List.range 4).map (fun k => wordAt preds k) ++
  bits (~~~w.empty) ++ bits w.poison ++
  (List.range 15).flatMap (fun e => words32 128 (fun k => ((w.chan e).queue.getD (k / 32) []).get (k % 32))) ++
  w.parkedList ++ words32 (512 * w.blocks) (fun k => w.v.get k)

/-- The bytes of a sparse store from 0, as doublewords. -/
def storeWords (m : Store 8) (n : Nat) : List W64 :=
  (List.range n).map (fun k => ofBytes 64 ((List.range 8).map (fun j => m.get (8 * k + j))))

/-- The image of a saved team: its control, its unissued records, its weight sets, its accumulator units and its scratchpad,
and the images of its warps (20:R335). -/
def State.teamImage (s : State) (t : Team) : List W64 :=
  let waiting := t.ring.filter (fun r => !r.issued)
  let episodes := ((s.dev.bars.filter (fun b => b.launch == t.key.launch)).map (fun b =>
    (b.level, b.id, b.arrived.filter (fun a => a.1 == t.key.team))))
  let set (h : Nat) := (t.wsets.find? (fun x => x.1 == h)).map (fun x => (x.2.fmt, x.2.k, x.2.mid, x.2.ncols, x.2.data, x.2.scales))
  (List.range 8).map (Config.teamControl t.taskSeq waiting.length episodes) ++
  waiting.flatMap (fun r => [r.t0, r.t1, r.t2, r.t3]) ++
  (List.range 16).flatMap (fun h => (List.range 1544).map (Config.weightSlot (set h))) ++
  storeWords t.acc (12 * (t.hdr.scratch / 256)) ++ storeWords t.scratch (t.hdr.scratch / 8) ++
  (List.range t.hdr.warps).flatMap (fun k => match s.warpOf ⟨t.key.launch, t.key.team, k⟩ with
    | some w => w.image
    | none => [])

/-! ### Reading and writing a warp (25:R397, R400) -/

/-- An item that need not stand. -/
def orBad (x : Option W64) : Nat × W64 := match x with | some y => (Silrad.ok, y) | none => (Silrad.badArg, 0)

/-- What READ returns of an item: its value, or the status for an empty register or an unknown item. Record words 0 to 279 are
those of the stop record, and 280 to 559 those of the last trap. -/
def Warp.item (w : Warp) (i : Item) : Nat × W64 :=
  match i with
  | .s n => (Silrad.ok, if n = 0 then 0 else w.s.get n.toNat)
  | .v n l =>
    if 16 * w.blocks ≤ n.toNat then (Silrad.badArg, 0)
    else if w.empty.getLsbD n.toNat then (Silrad.pending, 0)
    else (Silrad.ok, (w.v.get (32 * n.toNat + l.toNat)).zeroExtend 64)
  | .p k l => (Silrad.ok, if predBit w k.toNat l.toNat then 1 else 0)
  | .em => (Silrad.ok, w.em.zeroExtend 64)
  | .live => (Silrad.ok, w.live.zeroExtend 64)
  | .spc => (Silrad.ok, w.spc)
  | .lpc => (Silrad.ok, w.LPC.zeroExtend 64)
  | .lbr => (Silrad.ok, w.lbr.zeroExtend 64)
  | .blocks => (Silrad.ok, BitVec.ofNat 64 w.blocks)
  | .dseed => (Silrad.ok, w.dseed)
  | .fpstat => (Silrad.ok, w.fpstat.zeroExtend 64)
  | .retired => (Silrad.ok, w.retired)
  | .agstatus => (Silrad.ok, w.agstatus)
  | .recWord n =>
    if n < 280 then (Silrad.ok, w.stopRec.get n)
    else if n < 560 then (Silrad.ok, w.trapRec.get (n - 280))
    else (Silrad.badArg, 0)
  | .stall n => (Silrad.ok, w.stalls.get n.toNat)
  | .trapSel => (Silrad.ok, w.trapSel.zeroExtend 64)
  | .full n => if 16 * w.blocks ≤ n.toNat then (Silrad.badArg, 0) else (Silrad.ok, if w.empty.getLsbD n.toNat then 0 else 1)
  | .poisoned n => if 16 * w.blocks ≤ n.toNat then (Silrad.badArg, 0) else (Silrad.ok, if w.poison.getLsbD n.toNat then 1 else 0)
  | .srq k => orBad (w.srq[k.toNat]?.map (fun x => zext64 x))
  | .chan e => if e = 15 then (Silrad.badArg, 0) else (Silrad.ok, (w.chan e.toNat).word e.toNat)
  | .message e k l => orBad ((w.chan e.toNat).queue[k.toNat]?.map (fun m => zext64 (m.get l.toNat)))
  | .block j k => orBad (w.queue[j.toNat]?.bind (fun b => b.words[k]?))
  | .image => (Silrad.badArg, 0)
  | .teamImage => (Silrad.badArg, 0)

/-- The stall counters, which READ returns of a running warp too (25:R401). -/
def isCounter : Item → Bool
  | .stall _ => true
  | _ => false

/-- READ: the registers of a warp are read only while it is stopped or saved (25:R406); an image is answered word by word
(20:R334, R335). -/
def execRead (cap : BitVec 32) (w : WarpKey) (item : Item) (s : State) : Result :=
  match s.teamOf w.teamKey, s.warpOf w with
  | some t, some x => s.permitted cap t.ctx Right.read (fun s =>
      if !isCounter item && x.status == .running then s.answer Silrad.notStopped
      else match item with
        | .image => .next (s.send [.silrad Silrad.ok 0, .words x.image])
        | .teamImage =>
          if t.status = .saved then .next (s.send [.silrad Silrad.ok 0, .words (s.teamImage t)]) else s.answer Silrad.badArg
        | _ => s.answer (x.item item).1 (x.item item).2)
  | _, _ => s.noTarget cap

/-- The stop record after a write: its words say where RESUME goes on. -/
def Warp.renewStop (w : Warp) : Warp :=
  let h := w.stopRec.get 0
  let t : MemTrap := ⟨0, hi32 h, w.stopRec.get 4, w.stopRec.get 5, w.stopRec.get 6⟩
  { w with stopRec := w.record (h.getLsbD 8) (h.getLsbD 16) t }

/-- A write into a register of a lane: full, and clean of poison. -/
def Warp.putV (w : Warp) (n l : Nat) (x : W32) : Warp :=
  { w with
    v := w.v.set (32 * n + l) x
    empty := w.empty &&& ~~~(1#192 <<< n)
    poison := w.poison &&& ~~~(1#192 <<< n)
    fills := w.fills.filter (fun f => f.reg != n) }

/-- What WRITE makes of a stopped warp: a status, and the warp. -/
def Warp.putItem (w : Warp) (i : Item) (x : W64) (force : Bool) : Nat × Warp :=
  match i with
  | .s n => (Silrad.ok, if n = 0 then w else { w with s := w.s.set n.toNat x })
  | .v n l =>
    if 16 * w.blocks ≤ n.toNat ∨ hi32 x ≠ 0 then (Silrad.badArg, w)
    else if w.empty.getLsbD n.toNat && !force then (Silrad.pending, w)
    else (Silrad.ok, w.putV n.toNat l.toNat (lo32 x))
  | .p k l =>
    if 1 < x.toNat then (Silrad.badArg, w)
    else if k = 0 then (Silrad.ok, w)
    else
      let old := w.preds.get k.toNat
      let bit : W32 := 1 <<< l.toNat
      (Silrad.ok, { w with preds := w.preds.set k.toNat (if x = 1 then old ||| bit else old &&& ~~~bit) })
  | .em => if hi32 x ≠ 0 then (Silrad.badArg, w) else (Silrad.ok, { w with em := lo32 x &&& w.live })
  | .live => (Silrad.badArg, w)
  | .spc => if 2 ^ 56 ≤ x.toNat ∨ x.toNat % 4 ≠ 0 then (Silrad.badArg, w) else (Silrad.ok, { w with spc := x })
  | .lpc =>
    if 2 ^ 56 ≤ x.toNat ∨ x.toNat % 4 ≠ 0 then (Silrad.badArg, w)
    else match w.queue with
      | [] => (Silrad.ok, { w with lpc := x.truncate 56 })
      | b :: rest => (Silrad.ok, { w with queue := { b with start := x.truncate 56 } :: rest })
  | .lbr =>
    if 2 ^ 56 ≤ x.toNat ∨ x.toNat % 16 ≠ 0 then (Silrad.badArg, w) else (Silrad.ok, { w with lbr := x.truncate 56 })
  | .blocks => (Silrad.badArg, w)
  | .dseed => (Silrad.ok, { w with dseed := x })
  | .fpstat => if 31 < x.toNat then (Silrad.badArg, w) else (Silrad.ok, { w with fpstat := x.truncate 5 })
  | .retired => (Silrad.badArg, w)
  | .agstatus => (Silrad.badArg, w)
  | .recWord _ => (Silrad.badArg, w)
  | .stall _ => (Silrad.badArg, w)
  | .trapSel => if 511 < x.toNat then (Silrad.badArg, w) else (Silrad.ok, { w with trapSel := x.truncate 9 })
  | .srq k =>
    if w.srq.length ≤ k.toNat ∨ hi32 x ≠ 0 then (Silrad.badArg, w) else (Silrad.ok, { w with srq := w.srq.set k.toNat (lo32 x) })
  | .full _ => (Silrad.badArg, w)
  | .poisoned _ => (Silrad.badArg, w)
  | .chan _ => (Silrad.badArg, w)
  | .message _ _ _ => (Silrad.badArg, w)
  | .block _ _ => (Silrad.badArg, w)
  | .image => (Silrad.badArg, w)
  | .teamImage => (Silrad.badArg, w)

/-- WRITE: on a stopped warp only. -/
def execWrite (cap : BitVec 32) (w : WarpKey) (item : Item) (x : W64) (force : Bool) (s : State) : Result :=
  match s.teamOf w.teamKey, s.warpOf w with
  | some t, some y =>
    s.permitted cap t.ctx Right.write (fun s =>
      if y.status ≠ .stopped then s.answer Silrad.notStopped
      else
        let (status, y) := y.putItem item x force
        (if status = Silrad.ok then s.setWarp y.renewStop else s).answer status)
  | _, _ => s.noTarget cap

/-! ### Context memory (25:R400) -/

/-- A debugger's access waits for a page; where it can never be there, or its bytes are poisoned, the status is BADARG (DESIGN CHOICE,
log 59). -/
def State.debugMissing (s : State) (ctx kind ia : Nat) (write : Bool) : Result :=
  if kind = 3 then (s.fatalTicket ctx s.dev.hostPlace ia).1.answer Silrad.badArg else .next (s.parkMessage ctx kind ia write)

/-- MEMREAD: performed at the homes, as a host access is. -/
def execMemread (cap : BitVec 32) (ctx : Nat) (addr : W64) (len : Nat) (s : State) : Result :=
  s.command (.memread cap addr len) cap ctx Right.read (fun s =>
    match s.ctxOf ctx with
    | none => s.answer Silrad.badArg
    | some c =>
      match s.getBytes c s.dev.hostPlace.1 s.dev.hostPlace.2 addr.toNat len with
      | .ok s (bs, bad) => if bad then s.answer Silrad.badArg else .next (s.send [.silrad Silrad.ok 0, .data bs])
      | .missing k ia => s.debugMissing ctx k ia false
      | .fault _ => s.answer Silrad.badArg
      | .refused _ _ => s.answer Silrad.badArg)

/-- MEMWRITE. -/
def execMemwrite (cap : BitVec 32) (ctx : Nat) (addr : W64) (data : List Byte) (s : State) : Result :=
  s.command (.memwrite cap addr data) cap ctx Right.write (fun s =>
    match s.ctxOf ctx with
    | none => s.answer Silrad.badArg
    | some c =>
      match s.putBytes c s.dev.hostPlace.1 s.dev.hostPlace.2 addr.toNat data with
      | .ok s _ => s.answer Silrad.ok
      | .missing k ia => s.debugMissing ctx k ia true
      | .fault _ => s.answer Silrad.badArg
      | .refused _ _ => s.answer Silrad.badArg)

/-! ### Breakpoints and watchpoints (25:R399) -/

/-- Change a context. -/
def State.onCtx (s : State) (ctx : Nat) (f : Context → Context) : State :=
  match s.ctxOf ctx with
  | none => s
  | some c => s.setCtx (f c)

/-- BREAK: slots 0 to 7. -/
def execBreakpoint (cap : BitVec 32) (ctx : Nat) (slot : Nat) (set : Option (BitVec 56 × Bool)) (s : State) : Result :=
  s.permitted cap ctx Right.break' (fun s =>
    if 8 ≤ slot then s.answer Silrad.badArg
    else (s.onCtx ctx (fun c =>
      let rest := c.breaks.filter (fun b => b.1 != slot)
      { c with breaks := match set with | some (a, lane) => rest ++ [(slot, a, lane)] | none => rest })).answer Silrad.ok)

/-- The limits of a watchpoint. -/
def watchLegal (w : WatchSpec) : Bool :=
  decide (2 ≤ w.log2len) && decide (w.log2len ≤ 20) && w.base.toNat % 2 ^ w.log2len == 0 && decide (w.base.toNat < 2 ^ 56)

/-- WATCH: slots 0 to 3. -/
def execWatch (cap : BitVec 32) (ctx : Nat) (slot : Nat) (set : Option WatchSpec) (s : State) : Result :=
  s.permitted cap ctx Right.break' (fun s =>
    let good := match set with | some w => watchLegal w | none => true
    if 4 ≤ slot ∨ !good then s.answer Silrad.badArg
    else (s.onCtx ctx (fun c =>
      let rest := c.watches.filter (fun b => b.1 != slot)
      { c with watches := match set with | some w => rest ++ [(slot, w)] | none => rest })).answer Silrad.ok)

/-- TRAPSTOP. -/
def execTrapstop (cap : BitVec 32) (ctx : Nat) (on : Bool) (s : State) : Result :=
  s.permitted cap ctx Right.break' (fun s => (s.onCtx ctx (fun c => { c with trapStop := on })).answer Silrad.ok)

/-- With no debugger left that holds STOP, a context has no breakpoint, watchpoint or stop on traps, and every stopped
warp goes on. -/
def State.undebug (s : State) (ctx : Nat) : State :=
  if s.dev.debuggerOf ctx then s
  else
    let s := s.onCtx ctx (fun c => { c with breaks := [], watches := [], trapStop := false })
    match s.targets (.context ctx) with
    | none => s
    | some (_, keys) => keys.foldl State.goOn s

/-- REVOKE: a capability delegated from the holder's, with everything delegated from it. -/
def execRevoke (cap target : BitVec 32) (s : State) : Result :=
  if s.dev.revoked.contains cap then s.answer Silrad.revoked
  else match s.dev.capOf cap with
    | none => s.answer Silrad.denied
    | some c =>
      if !c.rights.getLsbD Right.delegate then s.answer Silrad.denied
      else if s.dev.revoked.contains target then s.answer Silrad.revoked
      else
        let below := (descend s.dev.caps s.dev.caps.length [cap]).filter (fun h => h != cap)
        if !below.contains target then s.answer Silrad.badArg
        else
          let gone := descend s.dev.caps s.dev.caps.length [target]
          let s := { s with dev := { s.dev with
            caps := s.dev.caps.filter (fun x => !gone.contains x.handle), revoked := s.dev.revoked ++ gone } }
          (s.undebug c.ctx).answer Silrad.ok

/-! ### ABANDON (22:R373) -/

/-- Whether a collective sequence has a held member on this package. -/
def State.anyHeld (s : State) (g : Group) : Bool :=
  match s.groupHolder g with
  | none => false
  | some l => g.members.any (fun m => m.1 == s.dev.pkgNum && s.memberHeld l m.2)

/-- ABANDON: the collective fails, for the members that have not come to it too. -/
def execAbandon (cap : BitVec 32) (ctx group seq : Nat) (s : State) : Result :=
  s.permitted cap ctx Right.abandon (fun s =>
    match (s.ctxOf ctx).bind (fun c => c.groupOf group) with
    | none => s.answer Silrad.badArg
    | some g => if s.anyHeld g then (s.endColl ctx group seq 5).answer Silrad.ok else s.answer Silrad.badArg)

/-! ### Management readback (25:R406) -/

/-- The entry of a logical team in the remap table: its die and core, and its place in the core's slicing order (21:R351). -/
def Launch.remapEntry (l : Launch) (team : Nat) : W64 :=
  let core := l.coreOf team
  let pos := ((List.range team).filter (fun k => l.coreOf k == core)).length
  BitVec.ofNat 64 (core / 32 * 2 ^ 27 + core % 32 * 2 ^ 22 + pos % 2 ^ 22)

/-- A slot of a bind table. -/
def BindSlot.words (b : BindSlot) : List W64 :=
  let f (x : Bool) (n : Nat) : Nat := if x then 2 ^ n else 0
  [ BitVec.ofNat 64 (b.first % 2 ^ 32 * 2 ^ 32 + b.count % 2 ^ 32),
    BitVec.ofNat 64 (b.mask.toNat * 2 ^ 32 + b.prio % 16 * 2 ^ 20 + f b.latency 19 + f b.cores 18 + f b.valid 17 +
      f b.det 16 + b.launch % 65536),
    BitVec.ofNat 64 (b.next % 2 ^ 32 * 2 ^ 32 + b.retired % 2 ^ 32), 0 ]

/-- An extent's entry. -/
def Extent.words (x : Extent) : List W64 :=
  [ BitVec.ofNat 64 (x.committed % 2 ^ 32 * 2 ^ 32 + x.reserved % 2 ^ 32),
    BitVec.ofNat 64 ((if x.sealed then 2 ^ 57 else 0) + (if x.closed then 2 ^ 56 else 0) + x.base % 2 ^ 56),
    BitVec.ofNat 64 (x.pages % 2 ^ 13) ]

/-- A group record: its head and its members. -/
def Group.words (g : Group) : List W64 :=
  [ BitVec.ofNat 64 (g.m % 2 ^ 13), BitVec.ofNat 64 (g.waitms % 2 ^ 32), pair64 (g.fstatus.zeroExtend 32) g.fseq, 0, 0, 0, 0, 0 ] ++
  g.members.map (fun m => BitVec.ofNat 64 (m.1.toNat * 2 ^ 52 + m.2 % 2 ^ 32))

/-- Where the level-1 or the level-2 entry of an intermediate address stands, if its tables do (20:R320). -/
def tablePlace (d : Device) (c : Context) (level ia : Nat) : Option Nat :=
  let first := c.root.toNat + 8 * (ia / 2 ^ 40 % 4096)
  if level = 1 then some first
  else if level = 2 then
    match walkTable d c.root.toNat (ia / 2 ^ 40 % 4096) with
    | .absent => none
    | .malformed => none
    | .page e => some (nextTable e.raw + 8 * (ia / 2 ^ 28 % 4096))
  else none

/-- A structure in its stated layout, if it stands. A warp's registers are read only while it is stopped or saved. -/
def State.readback (s : State) (what : Readback) : Option (List W64) :=
  match what with
  | .rangeRegister ctx k => (s.ctxOf ctx).bind (fun c => c.ranges[k]?.map (fun g => [g.w0, g.w1, g.w2, g.w3]))
  | .pageEntry ctx page =>
    (s.ctxOf ctx).bind (fun c => (entryPlace s.dev c (page * 65536)).map (fun a => [readD s.dev.mem a]))
  | .regionEntry region => some [(s.dev.regionTab.get region).zeroExtend 64]
  | .directoryEntry slice line => some [s.dirGet slice line]
  | .bindSlot die slot =>
    some (match s.dev.bindTab.find? (fun b => b.die == die && b.slot == slot) with
      | some b => b.words
      | none => [0, 0, 0, 0])
  | .groupRecord ctx handle => (s.ctxOf ctx).bind (fun c => (c.groupOf handle).map Group.words)
  | .extent ctx n => (s.ctxOf ctx).bind (fun c => c.extents[n]?.map Extent.words)
  | .warpImage k => (s.warpOf k).bind (fun w => if w.status = .stopped ∨ w.status = .saved then some w.image else none)
  | .pageRecord page => some [s.dev.pageRecs.get page]
  | .remapEntry n team => (s.launchOf n).bind (fun l => if l.det && l.bound && team < l.teams then some [l.remapEntry team] else none)
  | .teamImage k => (s.teamOf k).bind (fun t => if t.status = .saved then some (s.teamImage t) else none)
  | .taskRecord k n => (s.teamOf k).bind (fun t => t.ring[n]?.map (fun r => [r.t0, r.t1, r.t2, r.t3]))
  | .tableEntry ctx level ia => (s.ctxOf ctx).bind (fun c => (tablePlace s.dev c level ia).map (fun a => [readD s.dev.mem a]))
  | .ticket ctx n => (s.ctxOf ctx).bind (fun c => c.tickets[n]?.map (fun r => [r.ticket]))

/-- MANAGEMENT_READBACK. -/
def execManagementReadback (what : Readback) (s : State) : Result :=
  if !s.served then .next s
  else match s.readback what with
  | some ws => .next (s.send [.words ws])
  | none => .next (s.send [.error])

end Sys2Proof.Machine
end

