-- ==== Sys2Proof/Machine/Fabric.lean ====
section
/-!
DEFINITION. The fabric and the host (24): packages that take pages and return them (R384 to R387), dead agents (R388, R389), host
memory access (R391), the mesh and its links (R381, R382), CXL ports (R394); heat (25:R410), the boot of the management core (R408)
and attestation (R409).
-/

namespace Sys2Proof.Machine

open Sys2Proof

/-! ### Page records (24:R384 to R386) -/

/-- The number of an agent: dies from 0, packages after them. -/
def agentKey : FabricAgent → Nat
  | .die d => d
  | .package p => Config.dies + p.toNat

/-- A record that names a list of packages, with its state and the mark for more than four. -/
def pageRecordOf (state : Nat) (all : Bool) (ps : List (BitVec 12)) : W64 :=
  BitVec.ofNat 64 (state * 2 ^ 62 + (if all then 2 ^ 61 else 0) + ps.length % 8 * 2 ^ 58 +
    (List.range ps.length).foldl (fun n k => n + (ps.getD k 0).toNat * 2 ^ (12 * k)) 0)

/-- A package is added to the sharers; the fifth sets the mark. -/
def shareRecord (r : W64) (q : BitVec 12) : W64 :=
  if bitsOf64 r 63 62 = 1 then
    let ps := recordPackages r
    if r.getLsbD 61 || ps.contains q then r
    else if ps.length < 4 then pageRecordOf 1 false (ps ++ [q])
    else r ||| (1 <<< 61)
  else pageRecordOf 1 false [q]

/-- A package takes part in a context. -/
def State.joinPackage (s : State) (cn : Nat) (q : BitVec 12) : State :=
  match s.ctxOf cn with
  | none => s
  | some c => s.setCtx (c.joinPackage q)

/-- A page becomes read-shared by q: from HOME, after its owned lines and private dirty lines have been recalled. An access of
another package makes a page shared (17:R289). -/
def State.shareOut (s : State) (c : Context) (page : Nat) (p : Page) (q : BitVec 12) : State :=
  let r := s.dev.pageRecord c page
  let first := if p.large then page / 32 * 32 else page
  let s := if bitsOf64 r 63 62 = 0 then
      (s.sharePage c.num page).recallRange c.num (first * 65536) (if p.large then 32 * 65536 else 65536) false
    else s
  s.putRecordOf c page (shareRecord r q)

/-- A message of another package that is older than its source's incarnation, or whose source is dead (24:R388, R389). -/
def Device.oldStamp (d : Device) (x : Stamp) : Bool :=
  d.deadPkgs.contains x.package || decide (x.incarnation.toNat < (d.incarnation.get (agentKey (.package x.package))).toNat)

/-- LOAD_REQUEST from package q: the page becomes read-shared and the line goes back. Pages of a sealed extent have no
record. The request of a dead package is dropped and logged (R389). -/
def execLoadRequestRemote (ctx line : Nat) (src : Stamp) (s : State) : Result :=
  let q := src.package
  if s.dev.oldStamp src then .next (s.send [.dropped (agentKey (.package q)) 0 (tagged ctx (line * 128))])
  else match s.ctxOf ctx with
  | none => .next (s.send [.error])
  | some c =>
    let ia := line * 128
    let page := ia / 65536
    match walk s.dev c ia with
    | .absent => .next (s.parkMessage ctx (absentKind s.dev c ia) ia false)
    | .malformed => .next (s.hostMissing ctx 3 ia false)
    | .page p =>
      let s := s.joinPackage ctx q
      let s := if p.cls = 2 then s else (s.shareOut c page p q).quiesceRead ctx ia
      match s.fetchLine c ia with
      | none => .next (s.send [.error])
      | some (x, bad) => if bad then .next (s.send [.error]) else .next (s.send [.data (toBytes 128 x)])

/-- Pushed copies of a page that no stream has read are recalled, and those on their way. -/
def State.dropPushed (s : State) (cn page : Nat) : State :=
  let s := s.voidPushes (lineIn cn (page * 65536) 65536)
  s.allCores.foldl (fun s c =>
    let c := s.coreOf c.id
    s.setCore { c with l1 := c.l1.filter (fun l => !(l.st == .pu && lineIn cn (page * 65536) 65536 l.line)) }) s

/-- The lines of a page in its frame that are poisoned. -/
def Device.badLines (d : Device) (p : Page) (page : Nat) : List Nat :=
  (List.range 512).filter (fun k => d.bad.contains (p.phys (page * 65536) / 128 + k))

/-- The lines of a page that are poisoned, and no others, are those of a list. -/
def Device.putBad (d : Device) (p : Page) (page : Nat) (lines : List Nat) : Device :=
  let first := p.phys (page * 65536) / 128
  { d with bad := d.bad.filter (fun l => !(decide (first ≤ l) && decide (l < first + 512))) ++
      ((List.range 512).filter (fun k => lines.contains k)).map (fun k => first + k) }

/-- Steps 3 and 4 of a handover: the page is sent with the poison of its lines (17:R307), and its record names its owner. -/
def State.sendPage (s : State) (c : Context) (page : Nat) (q : BitVec 12) (p : Page) : State :=
  let s := ((s.sharePage c.num page).dropPushed c.num page).joinPackage c.num q
  let bytes := readBytes s.dev.mem (p.phys (page * 65536)) 65536
  (s.putRecordOf c page (pageRecordOf 2 false [q])).send [.page (pageKey c.num page) q ⟨bytes, s.dev.badLines p page⟩]

/-- PAGE_HANDOVER: the page leaves for package q, in the steps of a withdrawal (R386). Pages whose accesses are served at a fixed
home stay. -/
def execPageHandover (ctx page : Nat) (q : BitVec 12) (s : State) : Result :=
  match s.ctxOf ctx with
  | none => .next s
  | some c =>
    if s.dev.away c (page * 65536) then .next (s.parkMessage ctx 2 (page * 65536) true)
    else match walkEntry s.dev c (page * 65536) with
      | .absent => .next (s.releasePages ctx [page])
      | .malformed => .next (s.releasePages ctx [page])
      | .page p =>
        if q = s.dev.pkgNum ∨ s.dev.deadPkgs.contains q ∨ p.cls = 1 ∨ p.cls = 2 ∨ p.cls = 4 ∨
            (escrowAt c (page * 65536)).isSome then .next (s.releasePages ctx [page])
        else
          let s := s.splitPage c page
          .next (s.withdrawal c [page] (c.sharersOf (s.dev.pageRecord c page)) false (fun s => s.sendPage c page q p))

/-- The acknowledgement of a package that has dropped a page. -/
def State.dropAnswered (s : State) (key : Nat) (q : BitVec 12) : State :=
  { s with dev := { s.dev with drops := s.dev.drops.erase (key, q) } }

/-- A page comes back from the package that has owned it, with its bytes and their poison, and what waited for it goes on; what
the owner has stored is written of every line (09:R181). From another package it is no return of the page. -/
def State.takeBack (s : State) (c : Context) (page : Nat) (q : BitVec 12) (data : PageData) : State :=
  if !(s.dev.away c (page * 65536) && (s.dev.pageRecs.get (pageKey c.num page)).truncate 12 == q) then s
  else
    let s := (s.putRecordOf c page 0).bumpHeld (lineIn c.num (page * 65536) 65536)
    let s := match walk s.dev c (page * 65536) with
      | .page p =>
        let d := { s.dev with mem := writeBytes s.dev.mem (p.phys (page * 65536)) (data.bytes.take 65536) }
        { s with dev := (d.putBad p page data.bad).markDirty p }
      | .absent => s
      | .malformed => s
    s.resolveKind2 c.num page

/-- PAGE_RETURN: a page is back, or a package has dropped one. An old message is dropped and logged (R389). -/
def execPageReturn (ctx page : Nat) (answer : PageAnswer) (s : State) : Result :=
  let drop (x : Stamp) (cls : Nat) : Result :=
    .next (s.send [.dropped (agentKey (.package x.package)) cls (tagged ctx (page * 65536))])
  match s.ctxOf ctx, answer with
  | none, _ => .next s
  | some c, .back src data => if s.dev.oldStamp src then drop src 2 else .next (s.takeBack c page src.package data)
  | some _, .dropped src => if s.dev.oldStamp src then drop src 1 else .next (s.dropAnswered (pageKey ctx page) src.package)

/-! ### Dead agents (24:R388, R389) -/

def State.raiseIncarnation (s : State) (a : FabricAgent) : State :=
  let k := agentKey a
  { s with dev := { s.dev with incarnation := s.dev.incarnation.set k (s.dev.incarnation.get k + 1) } }

/-- A node on a die. -/
def nodeOn (d : Nat) : Node → Bool
  | .core n => dieOf n == d
  | .die k => k == d

/-- The die of a node. -/
def dieNumOf : Node → Nat
  | .core n => dieOf n
  | .die d => d

/-- Where a message comes from, where one die has sent it: its die, its class as R378 lists them from 0, its line. -/
def State.sourceOf (s : State) (e : Instr) : Option (Nat × Nat × Nat) :=
  let warpDie (w : WarpKey) : Nat := dieOf (s.coreOfWarp w)
  let sliceDie (slice : DirAt) (l : Nat) : Nat := (s.sliceOf slice l).die
  let entryLine (w : WarpKey) (id : Nat) : Nat := (((s.warpOf w).bind (fun x => x.entry id)).map (fun e => e.line)).getD 0
  match e with
  | .gets _ l c => some (dieNumOf c, 0, l)
  | .getx _ l c => some (dieNumOf c, 0, l)
  | .upg _ l c => some (dieNumOf c, 0, l)
  | .evs _ l c => some (dieNumOf c, 2, l)
  | .evx _ l c _ => some (dieNumOf c, 2, l)
  | .recallReply slice l _ => (s.ownerOf slice l (s.dirGet slice l)).bind (fun o =>
      if DirE.state (s.dirGet slice l) = DirE.s2o then none else some (dieNumOf o, 1, l))
  | .loadRequest r => some (warpDie r.who, 0, r.line)
  | .storeRequest w id => some (warpDie w, 0, entryLine w id)
  | .pushRequest w id => some (warpDie w, 0, entryLine w id)
  | .classCheckRequest w => some (warpDie w, 0, 0)
  | .translationConfirmation w => some (warpDie w, 0, 0)
  | .channelMessage w _ _ => some (warpDie w, 4, 0)
  | .grant slice l _ _ _ => some (sliceDie slice l, 1, l)
  | .dataReply _ l _ _ _ _ => some (s.lineDie l, 1, l)
  | .storeAcknowledgement w id => some (s.lineDie (entryLine w id), 1, entryLine w id)
  | .inv slice l _ => some (sliceDie slice l, 2, l)
  | .rclDowngrade slice l _ => some (sliceDie slice l, 2, l)
  | .rclInvalidate slice l _ => some (sliceDie slice l, 2, l)
  | .pushInstall _ l _ => some (s.lineDie l, 3, l)
  | .writeBack core l => some (dieOf core, 2, l)
  | .atomicRequest r => some (r.die, 0, tagged r.ctx r.ia)
  | _ => none

/-- The stamp of a message of this package: what is under way has been sent under its source's current incarnation, since a
declaration of death drops what was sent before it (24:R388, R389). -/
def State.stampOf (s : State) (e : Instr) : Option Stamp :=
  (s.sourceOf e).map (fun x => ⟨s.dev.pkgNum, x.1, s.dev.incarnation.get x.1⟩)

def State.sentFrom (s : State) (d : Nat) (e : Instr) : Bool := (s.sourceOf e).any (fun x => x.1 == d)

/-- The lines whose entries a death takes with it: those homed at the die, those that it owns, and those with a transition that it
may have a part in. What an entry awaits of it counts as received. -/
def State.linesOf (s : State) (d : Nat) : List Nat :=
  ((s.dev.dir.filter (fun e => s.lineDie e.1 == d || DirE.transient e.2 ||
    (DirE.state e.2 == DirE.own && (s.sharers .home e.1 e.2).any (nodeOn d)))).map Prod.fst) ++
  ((s.dev.proxyDir.filter (fun e => (e.1 % 32 == d && e.2 != 0 && DirE.state e.2 != DirE.shr) || DirE.transient e.2)).map
    (fun e => e.1 / 32))

/-- The die is no sharer of any line any more, and its proxies have no entries. -/
def Device.leaveDir (dev : Device) (d : Nat) : Device :=
  { dev with
    dir := Store.setAll [] (dev.dir.map (fun e => (e.1,
      if DirE.state e.2 = DirE.shr then (let x := removeSharer e.2 (.die d); if listsNobody x then 0 else x) else e.2)))
    proxyDir := dev.proxyDir.filter (fun e => e.1 % 32 != d) }

/-- The team's work on a dead die is gone, a word that is half gone with it. -/
def State.loseTeam (s : State) (t : Team) : State :=
  let s := (s.mapWarps (fun w => w.key.teamKey == t.key) (fun w => { w with done := [] })).killTeam t.key []
  let s := s.mapWarps (fun w => w.key.teamKey == t.key && w.status == .killed) (fun w => { w with wbuf := [] })
  match s.teamOf t.key with
  | none => s
  | some t => s.setTeam ({ t with ring := [] }).released

/-- A collective of which a member's agent has died fails. -/
def State.failDead (s : State) (p : Coll → Bool) : State :=
  (s.dev.colls.filter (fun c => c.failed.isNone && p c)).foldl (fun s c => s.failColl c 4) s

/-- The lines that a die owns: those its caches hold dirty or owned, and those whose owner the directory of the home names there,
whose data may be on their way back. -/
def State.ownedBy (s : State) (d : Nat) : List Nat :=
  ((s.allCores.filter (fun c => dieOf c.id == d)).flatMap (fun (c : Core) =>
    (c.l1.filter (fun l => l.st == .ox || l.st == .pd)).map (fun l => l.line))) ++
  ((s.dev.dir.filter (fun e => (DirE.state e.2 == DirE.own || DirE.state e.2 == DirE.o2o || DirE.state e.2 == DirE.o2s ||
    DirE.state e.2 == DirE.hwr) && (s.ownerOf .home e.1 e.2).any (nodeOn d))).map Prod.fst)

/-- A store whose acknowledgement is dropped has been performed: it is awaited no longer. -/
def State.ackLost (s : State) (e : Instr) : State :=
  match e with
  | .storeAcknowledgement w id => s.mapWarps (fun x => x.key == w) (fun x => x.freeEntry id)
  | _ => s

/-- The messages of a die that are under way are dropped, and telemetry says so (R389). -/
def State.dropSent (s : State) (d : Nat) : State :=
  let gone := (s.events ++ s.held ++ s.dev.dirHeld.map (fun h => h.2.2)).filter (s.sentFrom d)
  gone.foldl State.ackLost { s with
    events := s.events.filter (fun e => !s.sentFrom d e)
    held := s.held.filter (fun e => !s.sentFrom d e)
    dev := { s.dev with
      dirHeld := s.dev.dirHeld.filter (fun h => !s.sentFrom d h.2.2)
      outbox := s.dev.outbox ++ (gone.filterMap s.sourceOf).map (fun (x : Nat × Nat × Nat) => Out.dropped x.1 x.2.1 x.2.2) } }

/-- The scrub after the death of a die: what its cores owned is poisoned, it goes out of every directory entry, and what it had sent is
dropped. -/
def State.scrubDie (s : State) (d : Nat) : State :=
  let lines := s.linesOf d
  let owned := s.ownedBy d
  let s := s.dropSent d
  let s := (s.allCores.filter (fun c => dieOf c.id == d)).foldl (fun s c => s.setCore { s.coreOf c.id with l1 := [] }) s
  let s := owned.foldl State.poisonLine s
  let p (l : Nat) : Bool := lines.contains l
  let s := s.recallLines p false
  { s with dev := s.dev.leaveDir d }

/-- A die is dead. -/
def State.dieDead (s : State) (d : Nat) : State :=
  if s.dev.deadDies.contains d then s
  else
    let s := { s with dev := { s.dev with deadDies := s.dev.deadDies ++ [d] } }
    let s := (s.raiseIncarnation (.die d)).scrubDie d
    let ts := s.allTeams.filter (fun t => t.resident && dieOf t.core == d)
    let s := s.failDead (fun cl => cl.joined.any (fun j => ts.any (fun t => t.key == j.2.1)) ||
      (match (s.ctxOf cl.ctx).bind (fun c => c.groupOf cl.group) with
       | some g => ts.any (fun t => g.holder == some t.key.launch && (g.indexOf s.dev.pkgNum t.key.team).isSome)
       | none => false))
    ts.foldl State.loseTeam s

/-- The record of a page without a dead package, and whether the page was in its hands. -/
def scrubRecord (p : BitVec 12) (r : W64) : W64 × Bool :=
  if bitsOf64 r 63 62 = 2 then (if (r.truncate 12 : BitVec 12) = p then (0, true) else (r, false))
  else if bitsOf64 r 63 62 = 1 then
    let ps := (recordPackages r).filter (fun x => x != p)
    (if ps.isEmpty ∧ !r.getLsbD 61 then 0 else pageRecordOf 1 (r.getLsbD 61) ps, false)
  else (r, false)

/-- The scrub of one page record: a page that the dead package held comes home with poison. -/
def State.scrubPage (s : State) (p : BitVec 12) (key : Nat) : State :=
  let (r, held) := scrubRecord p (s.dev.pageRecs.get key)
  let (cn, page) := (key / 2 ^ 36, key % 2 ^ 36)
  let s := { s with dev := { s.dev with pageRecs := s.dev.pageRecs.set key r } }
  if held then
    ((List.range 512).foldl (fun s k => s.poisonLine (tagged cn (page * 65536 + 128 * k))) s).resolveKind2 cn page
  else s

/-- A package is dead. -/
def State.packageDead (s : State) (p : BitVec 12) : State :=
  if s.dev.deadPkgs.contains p then s
  else
    let s := { s with dev := { s.dev with deadPkgs := s.dev.deadPkgs ++ [p], drops := s.dev.drops.filter (fun x => x.2 != p) } }
    let s := s.raiseIncarnation (.package p)
    let s := (s.dev.pageRecs.map Prod.fst).foldl (fun s k => s.scrubPage p k) s
    s.failDead (fun c => match (s.ctxOf c.ctx).bind (fun x => x.groupOf c.group) with
      | some g => g.members.any (fun m => m.1 == p)
      | none => false)

/-- DECLARE_DEAD. -/
def execDeclareDead (agent : FabricAgent) (s : State) : Result :=
  if !s.served then .next s
  else match agent with
  | .die d => if d < Config.dies then .next (s.dieDead d) else .next s
  | .package p => if p = s.dev.pkgNum then .next s else .next (s.packageDead p)

/-- AGENT_RETURN: under the incarnation that its declaration began, with empty caches. -/
def execAgentReturn (agent : FabricAgent) (s : State) : Result :=
  if !s.served then .next s
  else match agent with
  | .die d =>
    let s := (s.allCores.filter (fun c => dieOf c.id == d)).foldl (fun s c => s.setCore (Core.empty c.id)) s
    .next { s with dev := { s.dev with deadDies := s.dev.deadDies.filter (fun x => x != d) } }
  | .package p => .next { s with dev := { s.dev with deadPkgs := s.dev.deadPkgs.filter (fun x => x != p) } }

/-! ### The mesh (24:R381) -/

def meshRow (d : Nat) : Nat := d / 6
def meshCol (d : Nat) : Nat := d % 6

/-- The dies that a mesh link joins: links are numbered by the die to the west or the north of them, 2 d to its east and 2 d + 1 to
its south (DESIGN CHOICE, log 58). -/
def linkEnds (k : Nat) : Option (Nat × Nat) :=
  let d := k / 2
  if 24 ≤ d then none
  else if k % 2 = 0 then (if meshCol d < 5 then some (d, d + 1) else none)
  else if meshRow d < 3 then some (d, d + 6) else none

/-- The numbers from one, left out, to another. -/
def between (x y : Nat) : List Nat :=
  if x ≤ y then (List.range (y - x)).map (fun k => x + 1 + k) else (List.range (x - y)).map (fun k => x - 1 - k)

/-- The dies that a message passes: along the row to the column of its destination, then along that column. -/
def meshRoute (a b : Nat) : List Nat :=
  (between (meshCol a) (meshCol b)).map (fun c => 6 * meshRow a + c) ++
    (between (meshRow a) (meshRow b)).map (fun r => 6 * r + meshCol b)

/-- An edge of a die. -/
inductive Edge where
  | west | east
  deriving DecidableEq, Repr

/-- The compute die to which an I/O die attaches, and the edge of it. -/
def ioAttach : List (Nat × Edge) := [(0, .west), (5, .east), (18, .west), (23, .east)]

/-- The mesh links that work. -/
def Device.goodLinks (d : Device) : List (Nat × Nat) :=
  ((List.range 48).filter (fun k => !d.badLinks.contains k)).filterMap linkEnds

/-- The dies that links reach from some dies, in at most n steps. -/
def reachDies (links : List (Nat × Nat)) : Nat → List Nat → List Nat
  | 0, ds => ds
  | n + 1, ds =>
    let more := (List.range Config.dies).filter (fun x => !ds.contains x &&
      links.any (fun l => (l.1 == x && ds.contains l.2) || (l.2 == x && ds.contains l.1)))
    if more.isEmpty then ds else reachDies links n (ds ++ more)

/-- The dies that no route joins to the largest part of the mesh (R382; which part is beyond a failed link is a DESIGN CHOICE, log 58). -/
def Device.cutOff (d : Device) : List Nat :=
  let alive := (List.range Config.dies).filter (fun x => !d.deadDies.contains x)
  let part (x : Nat) : List Nat := (reachDies d.goodLinks Config.dies [x]).filter (fun y => alive.contains y)
  let main := alive.foldl (fun (b : List Nat) x => if b.length < (part x).length then part x else b) []
  alive.filter (fun x => !main.contains x)

/-! ### Links, ports and heat -/

/-- An error that has been corrected is counted, by the structure that it has struck, and reported (17:R305; 25:R407). -/
def State.countCorrected (s : State) (structure' : Nat) : State :=
  ({ s with dev := { s.dev with corrected := s.dev.corrected.set structure' (s.dev.corrected.get structure' + 1) } } : State).send
    [.errorIn structure' true]

/-- The numbers under which corrections are counted: links and memory. -/
def linkErrors : Nat := 0
def memoryErrors : Nat := 1

/-- How often a link has failed to retrain since it last retrained. -/
def State.putLinkFails (s : State) (link : Nat) (n : Byte) : State :=
  { s with dev := { s.dev with linkFails := s.dev.linkFails.set link n } }

/-- LINK_CRC_ERROR: a retry or a retraining loses nothing; a link that fails to retrain three times has failed, and leaves the dies
that no other route reaches dead. -/
def execLinkCrcError (link : Nat) (outcome : LinkOutcome) (s : State) : Result :=
  match outcome with
  | .retried => .next (s.countCorrected linkErrors)
  | .retrained => .next ((s.putLinkFails link 0).countCorrected linkErrors)
  | .failed =>
    let n := s.dev.linkFails.get link + 1
    let s := (s.putLinkFails link n).send [.errorIn linkErrors false]
    if n.toNat < 3 then .next s
    else
      let s := { s with dev := { s.dev with badLinks := s.dev.badLinks.filter (fun l => l != link) ++ [link] } }
      .next (if (linkEnds link).isSome then s.dev.cutOff.foldl State.dieDead s else s)

/-- A pending ticket whose page lies on a failed port. -/
def State.onBadPort (s : State) (c : Context) (r : TicketRec) : Bool :=
  match entryPlace s.dev c (r.page * 65536) with
  | none => false
  | some place =>
    let p : Page := ⟨readD s.dev.mem place, place⟩
    p.raw.getLsbD 63 && p.cxl && s.dev.badPorts.contains (cxlPort p.ppn)

/-- CXL_PORT_FAIL: its pages cannot be made present, and their tickets are answered fatal. -/
def execCxlPortFail (port : Nat) (s : State) : Result :=
  if 8 ≤ port then .next s
  else
    let s := { s with dev := { s.dev with badPorts := s.dev.badPorts.filter (fun p => p != port) ++ [port] } }
    .next (s.allCtxs.foldl (fun s c =>
      (c.tickets.filter (s.onBadPort c)).foldl (fun s r => s.answerTicket r.ticket true) s) s)

/-- THERMAL_GATE: no warp of the die issues while it is gated. -/
def execThermalGate (die : Nat) (on : Bool) (s : State) : Result :=
  let rest := s.dev.gatedDies.filter (fun d => d != die)
  .next { s with dev := { s.dev with gatedDies := if on then rest ++ [die] else rest } }

/-- THERMAL_SHUTDOWN: the die is powered down and declared dead. -/
def execThermalShutdown (die : Nat) (s : State) : Result := if die < Config.dies then .next (s.dieDead die) else .next s

/-! ### The host (24:R391) -/

/-- The context of a memory key that covers a range with a permission. -/
def State.keyCtx (s : State) (key : BitVec 32) (a len : Nat) (r w : Bool) : Option Context :=
  s.allCtxs.find? (fun c => c.keys.any (fun k =>
    k.key == key && decide (k.base ≤ a) && decide (a + len ≤ k.base + k.len) && (!r || k.r) && (!w || k.w)))

/-- HOST_RMA_WRITE: an acknowledgement leaves once the write has been performed. -/
def execHostRmaWrite (key : HostOp) (addr : W64) (data : List Byte) (s : State) : Result :=
  match s.keyCtx key.key addr.toNat data.length false true with
  | none => .next (s.send [.error])
  | some c =>
    match s.putBytes c s.dev.hostPlace.1 s.dev.hostPlace.2 addr.toNat data with
    | .ok s _ => .next (s.send [.data []])
    | .missing k ia => .next (s.hostMissing c.num k ia true)
    | .fault _ => .next (s.send [.error])
    | .refused _ _ => .next (s.send [.error])

/-- HOST_RMA_READ. -/
def execHostRmaRead (key : HostOp) (addr : W64) (len : Nat) (s : State) : Result :=
  match s.keyCtx key.key addr.toNat len true false with
  | none => .next (s.send [.error])
  | some c =>
    match s.getBytes c s.dev.hostPlace.1 s.dev.hostPlace.2 addr.toNat len with
    | .ok s (bs, bad) => if bad then .next (s.send [.error]) else .next (s.send [.data bs])
    | .missing k ia => .next (s.hostMissing c.num k ia false)
    | .fault _ => .next (s.send [.error])
    | .refused _ _ => .next (s.send [.error])

/-- A host atomic on a doubleword, performed at the home. -/
def State.hostAtomic (s : State) (key : BitVec 32) (addr : W64) (op : Option AtomOp) (x expected : W64) : State :=
  match s.keyCtx key addr.toNat 8 true true with
  | none => s.send [.error]
  | some c =>
    if addr.toNat % 8 ≠ 0 then s.send [.error]
    else match checkAll c addr [.r, .w] with
      | .fault _ => s.send [.error]
      | .growth _ => s.send [.error]
      | .ok ia =>
        match missingKind s.dev c ia with
        | some k => s.hostMissing c.num k ia true
        | none =>
          if (writeVerdict s.dev c ia 8).isSome then s.send [.error]
          else match (s.quiesce c.num ia).homeAtomic c (.other s.dev.hostPlace.1 s.dev.hostPlace.2) op true ia x expected with
            | .ok s (old, bad) => if bad then s.send [.error] else s.send [.value (ofBytes 64 old)]
            | .absent _ => s.send [.error]
            | .hold _ => s.send [.error]

def execHostAtomicCas (key : HostOp) (addr expected new : W64) (s : State) : Result :=
  .next (s.hostAtomic key.key addr none new expected)

def execHostFetchAdd (key : HostOp) (addr x : W64) (s : State) : Result :=
  .next (s.hostAtomic key.key addr (some .add) x 0)

/-! ### The management core (25:R408, R409) -/

/-- The boot ROM accepts an image. -/
def Device.accepts (d : Device) (i : FirmwareImage) : Bool :=
  Config.signatureOk i && !d.revokedKeys.getLsbD i.key.toNat && decide (d.minSecVersion ≤ i.secVersion)

/-- An accepted image runs: Welhal finds the tier pages that the expanders hold (24:R393), at most 64 TiB. Any other image
leaves the package in recovery. -/
def State.load (s : State) (i : FirmwareImage) : State :=
  if s.dev.accepts i then
    { s with dev := { s.dev with boot := .running i, tierPages := min Config.tierCapacity (2 ^ 30) } }
  else { s with dev := { s.dev with boot := .recovery } }

/-- BOOT. -/
def execBoot (image : FirmwareImage) (s : State) : Result :=
  match s.dev.boot with
  | .off => .next (s.load image)
  | .recovery => .next s
  | .running _ => .next s

/-- RECOVERY_IMAGE. -/
def execRecoveryImage (image : FirmwareImage) (s : State) : Result :=
  match s.dev.boot with
  | .recovery => .next (s.load image)
  | .off => .next s
  | .running _ => .next s

/-- Whether a debug capability other than a root is held. -/
def Device.debugged (d : Device) : Bool := d.caps.any (fun c => c.parent.isSome)

/-- SPDM_REQUEST: the measurement block of an index. -/
def execSpdmRequest (index : Nat) (s : State) : Result :=
  match s.dev.boot with
  | .running i =>
    if index = 2 then .next (s.send [.measurement i.digest, .measurement i.secVersion])
    else if index = 4 then .next (s.send [.words [Config.isaverBase + (3 <<< 24), Config.featImplemented]])
    else if index = 5 then .next (s.send [.measurement (if s.dev.debugged then 1 else 0)])
    else if index = 1 then .next (s.send [.measurement Config.bootMeasurement])
    else if index = 3 then .next (s.send [.measurement (Config.fuseMeasurement s.dev.revokedKeys s.dev.minSecVersion)])
    else .next (s.send [.error])
  | .off => .next (s.send [.error])
  | .recovery => .next (s.send [.error])

end Sys2Proof.Machine
end

