-- ==== Sys2Proof/Machine/Integrity.lean ====
section
/-!
DEFINITION. Errors that strike structures with check bits (17:R305 to R307; 22:R360, R370): a single-bit error is corrected where the
structure can, and counted; one that cannot be corrected leaves poison, a parity that fails, or an entry that is lost.
-/

namespace Sys2Proof.Machine

open Sys2Proof

/-- The number under which corrections of a structure are counted; links and memory have theirs already. -/
def Upset.number : Upset → Nat
  | .link => linkErrors
  | .memory _ => memoryErrors
  | .l1 _ _ => 2
  | .writeBuffer _ _ => 3
  | .l2 _ => 4
  | .directory _ _ => 5
  | .homeCache _ => 6
  | .nodeCache _ _ _ => 7
  | .scratch _ _ => 8
  | .weights _ _ => 9
  | .accumulator _ _ => 10
  | .staging _ _ _ => 11
  | .extent _ _ => 12

/-- The parity of a clean line fails: the line is fetched again when it is next used. Parity corrects nothing, a single-bit error
included. -/
def State.failParity (s : State) (core line : Nat) : State :=
  s.setCore ((s.coreOf core).change line (fun l => { l with parity := true }))

/-- A line that the L1 alone holds is poisoned. -/
def State.poisonOwned (s : State) (core line : Nat) : State :=
  s.setCore ((s.coreOf core).change line (fun l => { l with poison := true }))

/-- A dirty or owned line is protected by a code that corrects, a clean one by parity. -/
def ownedState : LState → Bool
  | .ox => true | .pd => true
  | .sc => false | .pu => false | .ts => false | .pc => false

/-- The lines whose entries stand in the set of a line at its slice, whether as home or as proxy. -/
def State.inSet (s : State) (slice : DirAt) (line l : Nat) : Bool :=
  let at' := s.sliceOf slice line
  (untag l).2 / 128 % Config.dirSets == (untag line).2 / 128 % Config.dirSets &&
    (s.sliceOf .home l == at' || s.sliceOf (.proxy at'.die) l == at')

/-- An uncorrectable error. -/
def State.strikeHard (s : State) (u : Upset) : State :=
  match u with
  | .link => s
  | .memory line => if s.dev.bad.contains line then s else { s with dev := { s.dev with bad := s.dev.bad ++ [line] } }
  | .l1 core line =>
    match (s.coreOf core).find line with
    | none => s
    | some l => if ownedState l.st then s.poisonOwned core line else s.failParity core line
  | .writeBuffer w id => s.mapWarps (fun x => x.key == w) (fun x => { x with
      wbuf := x.wbuf.map (fun e => if e.id = id then { e with poison := true } else e) })
  | .l2 line => s.poisonLine line
  | .directory slice line => s.recallLines (s.inSet slice line) true
  -- an entry of a home cache is fetched again, and a node is computed again: neither changes a value
  | .homeCache _ => s
  | .nodeCache _ _ _ => s
  | .scratch k off => match s.teamOf k with
    | none => s
    | some t => if off < t.hdr.scratch then s.setTeam { t with badScratch := off / 8 :: t.badScratch } else s
  | .weights k h => match s.teamOf k with
    | none => s
    | some t => s.setTeam { t with wsets := t.wsets.map (fun x => if x.1 = h then (h, { x.2 with bad := true }) else x) }
  | .accumulator k unit => match s.teamOf k with
    | none => s
    | some t => s.setTeam { t with badAcc := unit :: t.badAcc }
  | .staging ctx group seq => match s.collOf ctx group seq with
    | none => s
    | some cl => s.failColl cl 7
  | .extent ctx base => match s.ctxOf ctx with
    | none => s
    | some c => s.setCtx { c with extents := c.extents.map (fun x => if x.base = base then { x with bad := true } else x) }

/-- Whether a single-bit error is no more than counted: parity finds it and cannot correct it. -/
def State.corrects (s : State) (u : Upset) : Bool :=
  match u with
  | .l1 core line => ((s.coreOf core).find line).all (fun l => ownedState l.st)
  | _ => true

/-- An error strikes, and is reported (25:R407). -/
def State.strike (s : State) (u : Upset) (single : Bool) : State :=
  if single && s.corrects u then s.countCorrected u.number else (s.strikeHard u).send [.errorIn u.number false]

/-- What patrol scrubbing looks at, as a structure with check bits. -/
def scrubUpset : Scrubbed → Upset
  | .memory line => .memory line
  | .scratch t off => .scratch t off
  | .l2 line => .l2 line

/-- PATROL_SCRUB: an uncorrectable error poisons the line; a single-bit error is corrected (25:R407). -/
def execPatrolScrub (what : Scrubbed) (bad : Bool) (s : State) : Result := .next (s.strike (scrubUpset what) (!bad))

end Sys2Proof.Machine
end

