-- ==== Sys2Proof/Machine/LaneFloat.lean ====
section
/-!
DEFINITION. Lane floating-point and conversion instructions (08:R155 to R174). The values are those of Formats; here stand
their operands, their dither and their flags.
-/

namespace Sys2Proof.Machine

open Sys2Proof

/-! ### FP32 arithmetic (08:R160 to R163) -/

/-- A V2 or V1 or V3 float instruction over FP32 values and the dither. -/
def State.flt2 (s : State) (i : Instr) (h : Half) (g : Guard) (r : Rnd) (d : Dest) (a b : Value) (f : Nat → Nat → Nat → Rounded) : Result :=
  .next (s.laneRun (Instr.use i) h (fun s => s.float2 g d a b (fun s l x y => f (s.laneDither r l 0) x y)))
def State.flt1 (s : State) (i : Instr) (g : Guard) (r : Rnd) (d : Dest) (a : Value) (f : Nat → Nat → Rounded) : Result :=
  .next (s.laneRun (Instr.use i) .single (fun s => s.float1 g d a (fun s l x => f (s.laneDither r l 0) x)))
def State.flt3 (s : State) (i : Instr) (g : Guard) (r : Rnd) (d : Dest) (a b c : Value) (f : Nat → Nat → Nat → Nat → Rounded) : Result :=
  .next (s.laneRun (Instr.use i) .single (fun s => s.float3 g d a b c (fun s l x y z => f (s.laneDither r l 0) x y z)))

def execFadd (g : Guard) (h : Half) (r : Rnd) (d : Dest) (a b : Value) (s : State) : Result :=
  s.flt2 (.fadd g h r d a b) h g r d a b (fun t x y => fAdd .f32 r t x y)
def execFsub (g : Guard) (r : Rnd) (d : Dest) (a b : Value) (s : State) : Result :=
  s.flt2 (.fsub g r d a b) .single g r d a b (fun t x y => fSub .f32 r t x y)
def execFmul (g : Guard) (h : Half) (r : Rnd) (d : Dest) (a b : Value) (s : State) : Result :=
  s.flt2 (.fmul g h r d a b) h g r d a b (fun t x y => fMul .f32 r t x y)
def execFfma (g : Guard) (r : Rnd) (d : Dest) (a b c : Value) (s : State) : Result :=
  s.flt3 (.ffma g r d a b c) g r d a b c (fun t x y z => fFma .f32 r t x y z)
def execFmin (g : Guard) (h : Half) (d : Dest) (a b : Value) (s : State) : Result :=
  s.flt2 (.fmin g h d a b) h g .rn d a b (fun _ x y => fMinMax .f32 false x y)
def execFmax (g : Guard) (h : Half) (d : Dest) (a b : Value) (s : State) : Result :=
  s.flt2 (.fmax g h d a b) h g .rn d a b (fun _ x y => fMinMax .f32 true x y)

/-- FABS and FNEG change bit 31, and a NaN becomes the canonical one; no flag (08:R162). -/
def signChange (x : W32) (y : W32) : Rounded :=
  if (fpOf .f32 x.toNat).isNan then ⟨fmtNan .f32, 0⟩ else ⟨y.toNat, 0⟩

def execFabs (g : Guard) (d : Dest) (a : Value) (s : State) : Result :=
  s.flt1 (.fabs g d a) g .rn d a (fun _ x => signChange (BitVec.ofNat 32 x) (BitVec.ofNat 32 x &&& 0x7FFFFFFF))
def execFneg (g : Guard) (d : Dest) (a : Value) (s : State) : Result :=
  s.flt1 (.fneg g d a) g .rn d a (fun _ x => signChange (BitVec.ofNat 32 x) (BitVec.ofNat 32 x ^^^ 0x80000000))
def execFclass (g : Guard) (d : Dest) (a : Value) (s : State) : Result :=
  s.flt1 (.fclass g d a) g .rn d a (fun _ x => ⟨2 ^ fClass x, 0⟩)
def execFscale (g : Guard) (r : Rnd) (d : Dest) (a b : Value) (s : State) : Result :=
  s.flt2 (.fscale g r d a b) .single g r d a b (fun t x y => fScale r t x (BitVec.ofNat 32 y).toInt)

/-! ### Correctly rounded functions (08:R164, R165) -/

def execFrcp (g : Guard) (r : Rnd) (d : Dest) (a : Value) (s : State) : Result :=
  s.flt1 (.frcp g r d a) g r d a (fun t x => fRcp r t x)
def execFrsq (g : Guard) (r : Rnd) (d : Dest) (a : Value) (s : State) : Result :=
  s.flt1 (.frsq g r d a) g r d a (fun t x => fRsq r t x)
def execFsqrt (g : Guard) (r : Rnd) (d : Dest) (a : Value) (s : State) : Result :=
  s.flt1 (.fsqrt g r d a) g r d a (fun t x => fSqrt r t x)
def execFdiv (g : Guard) (r : Rnd) (d : Dest) (a b : Value) (s : State) : Result :=
  s.flt2 (.fdiv g r d a b) .single g r d a b (fun t x y => fDiv r t x y)
def execFexp2 (g : Guard) (d : Dest) (a : Value) (s : State) : Result := s.flt1 (.fexp2 g d a) g .rn d a (fun _ x => fExp2 x)
def execFlog2 (g : Guard) (d : Dest) (a : Value) (s : State) : Result := s.flt1 (.flog2 g d a) g .rn d a (fun _ x => fLog2 x)
def execFsin (g : Guard) (d : Dest) (a : Value) (s : State) : Result := s.flt1 (.fsin g d a) g .rn d a (fun _ x => fSin x)
def execFcos (g : Guard) (d : Dest) (a : Value) (s : State) : Result := s.flt1 (.fcos g d a) g .rn d a (fun _ x => fCos x)
def execFtanh (g : Guard) (d : Dest) (a : Value) (s : State) : Result := s.flt1 (.ftanh g d a) g .rn d a (fun _ x => fTanh x)

/-! ### Packed halves and FP8 dot products (08:R166, R167) -/

/-- Element j of a packed word. -/
def halfOf (x j : Nat) : Nat := x / 2 ^ (16 * j) % 65536

/-- Two results of 16 bits in one word, each with its own flags. -/
def packHalves (x y : Rounded) : Rounded := ⟨x.bits % 65536 + y.bits % 65536 * 65536, x.flags ||| y.flags⟩

def halfFmt (bf : Bool) : FFmt := if bf then .bf16 else .f16

/-- A packed operation of two sources: element j of the result takes sub-element j of the dither. -/
def State.half2 (s : State) (i : Instr) (g : Guard) (r : Rnd) (d : Dest) (a b : Value) (f : Nat → Nat → Nat → Rounded) : Result :=
  .next (s.laneRun (Instr.use i) .single (fun s => s.float2 g d a b (fun s l x y =>
    packHalves (f (s.laneDither r l 0) (halfOf x 0) (halfOf y 0)) (f (s.laneDither r l 1) (halfOf x 1) (halfOf y 1)))))

def execHadd2 (g : Guard) (bf : Bool) (r : Rnd) (d : Dest) (a b : Value) (s : State) : Result :=
  s.half2 (.hadd2 g bf r d a b) g r d a b (fun t x y => fAdd (halfFmt bf) r t x y)
def execHmul2 (g : Guard) (bf : Bool) (r : Rnd) (d : Dest) (a b : Value) (s : State) : Result :=
  s.half2 (.hmul2 g bf r d a b) g r d a b (fun t x y => fMul (halfFmt bf) r t x y)
def execHfma2 (g : Guard) (bf : Bool) (r : Rnd) (d : Dest) (a b c : Value) (s : State) : Result :=
  .next (s.laneRun (Instr.use (.hfma2 g bf r d a b c)) .single (fun s => s.float3 g d a b c (fun s l x y z =>
    packHalves (fFma (halfFmt bf) r (s.laneDither r l 0) (halfOf x 0) (halfOf y 0) (halfOf z 0))
      (fFma (halfFmt bf) r (s.laneDither r l 1) (halfOf x 1) (halfOf y 1) (halfOf z 1)))))
def execHmin2 (g : Guard) (bf : Bool) (d : Dest) (a b : Value) (s : State) : Result :=
  s.half2 (.hmin2 g bf d a b) g .rn d a b (fun _ x y => fMinMax (halfFmt bf) false x y)
def execHmax2 (g : Guard) (bf : Bool) (d : Dest) (a b : Value) (s : State) : Result :=
  s.half2 (.hmax2 g bf d a b) g .rn d a b (fun _ x y => fMinMax (halfFmt bf) true x y)

def fp8Fmt (e5 : Bool) : FFmt := if e5 then .e5m2 else .e4m3

def execFdot8 (g : Guard) (e5 mixed : Bool) (r : Rnd) (d : Dest) (a b c : Value) (s : State) : Result :=
  s.flt3 (.fdot8 g e5 mixed r d a b c) g r d a b c (fun t x y z =>
    fDot8 (fp8Fmt e5) (fp8Fmt (Bool.xor e5 mixed)) r t x y z)

/-! ### Conversions (08:R168 to R173) -/

/-- CVTIF; an I64 source takes a register pair. -/
def execCvtif (g : Guard) (dst : FFmt) (src : IFmt) (r : Rnd) (sat : Bool) (d : Dest) (a : Value) (s : State) : Result :=
  .next (s.laneRun (Instr.use (.cvtif g dst src r sat d a)) .single (fun s =>
    let m := s.active g
    let (t, x) := s.readGroup (m != 0) a src.regs
    t.writeRounded d m (fun l =>
      roundTo dst r (s.laneDither r l 0) sat (fpOfInt (intOf src (pair64 ((x l).getD 0 0) ((x l).getD 1 0)))))))

/-- CVTFI; an I64 result takes a register pair. -/
def execCvtfi (g : Guard) (dst : IFmt) (src : FFmt) (r : Rnd) (d : Dest) (a : Value) (s : State) : Result :=
  .next (s.laneRun (Instr.use (.cvtfi g dst src r d a)) .single (fun s =>
    let m := s.active g
    let (t, x) := s.readSrc (m != 0) a
    let y (l : Nat) : Int × FFlags := cvtToInt dst src r (s.laneDither r l 0) ((x l).toNat % 2 ^ fmtWidth src)
    let z (l : Nat) : W64 := BitVec.ofInt 64 (y l).1
    let t := match d, dst with
      | .reg n, .i64 => t.writeGroup n.toNat 2 m (fun l => [lo32 (z l), hi32 (z l)])
      | _, _ => t.writeDest d m (fun l => lo32 (z l))
    t.orFlags (flagsOf m (fun l => (y l).2))))

def execCvtff (g : Guard) (dst src : FFmt) (r : Rnd) (sat : Bool) (d : Dest) (a : Value) (s : State) : Result :=
  s.flt1 (.cvtff g dst src r sat d a) g r d a (fun t x => cvtFloat dst src r t sat x)

/-- PACK: two 16-bit results, or two bytes beside the other two of c. -/
def execPack (g : Guard) (dst : FFmt) (r : Rnd) (sat : Bool) (d : Dest) (a b : Value) (rest : PackRest) (s : State) : Result :=
  .next (s.laneRun (Instr.use (.pack g dst r sat d a b rest)) .single (fun s =>
    match rest with
    | .none => s.float2 g d a b (fun s l x y =>
        packHalves (cvtFloat dst .f32 r (s.laneDither r l 0) sat x) (cvtFloat dst .f32 r (s.laneDither r l 1) sat y))
    | .fp8 c half => s.float3 g d a b c (fun s l x y z =>
        let j := if half then 2 else 0
        let p := cvtFloat dst .f32 r (s.laneDither r l j) sat x
        let q := cvtFloat dst .f32 r (s.laneDither r l (j + 1)) sat y
        let two := p.bits % 256 + q.bits % 256 * 256
        ⟨if half then z % 65536 + two * 65536 else z / 65536 * 65536 + two, p.flags ||| q.flags⟩)))

def execUnpk (g : Guard) (src : FFmt) (d : Dest) (a : Value) (j : BitVec 3) (s : State) : Result :=
  s.flt1 (.unpk g src d a j) g .rn d a (fun _ x => unpkOf src j.toNat x)

def execQbpi (g : Guard) (r : Rnd) (d : Dest) (a b : Value) (s : State) : Result :=
  .next (s.laneRun (Instr.use (.qbpi g r d a b)) .single (fun s => s.float2 g d a b (fun s l x y =>
    let (v, f) := qbpiOf r (s.laneDither r l 0) x (y % 256)
    ⟨(BitVec.ofInt 32 v).toNat, f⟩)))

end Sys2Proof.Machine
end

