-- ==== Sys2Proof/Machine/LaneInteger.lean ====
section
/-!
DEFINITION. Lane moves, integer arithmetic, compares, predicates, select and masks (06:R114 to R129, R136).
-/

namespace Sys2Proof.Machine

open Sys2Proof

/-! ### Moves and byte permutes (06:R118, R119) -/

/-- NOP does nothing, whatever its guard. -/
def execNop (g : Guard) (s : State) : Result := .next (s.laneRun (Instr.use (.nop g)) .single id)

def execMov (g : Guard) (h : Half) (d : Dest) (a : Value) (s : State) : Result :=
  .next (s.laneRun (Instr.use (.mov g h d a)) h (fun s => s.lane1 g d a (fun _ x => x)))

def execMovi (g : Guard) (d : Dest) (imm : W32) (s : State) : Result :=
  .next (s.laneRun (Instr.use (.movi g d imm)) .single (fun s => s.writeDest d (s.active g) (fun _ => imm)))

/-- WAITF: its wait and its EMPTY_READ are the checks of its register; it writes nothing. -/
def execWaitf (g : Guard) (n : VReg) (mode : Bool) (s : State) : Result :=
  .next (s.laneRun (Instr.use (.waitf g n mode)) .single id)

/-- The result byte k of the swizzle above a result byte `prev`. -/
def swizzleByte (x : W64) (sel : BitVec 20) (k : Nat) (prev : Byte) : Byte :=
  let n := (sel >>> (3 * k)).toNat % 8
  let y : Byte := if sel.getLsbD (12 + k) then 0 else (x >>> (8 * n)).truncate 8
  if 0 < k && sel.getLsbD (16 + k) then (if prev.getLsbD 7 then 0xFF else 0) else y

/-- The byte swizzle. -/
def swizzle (a b : W32) (sel : BitVec 20) : W32 :=
  let x := pair64 a b
  let y0 := swizzleByte x sel 0 0
  let y1 := swizzleByte x sel 1 y0
  let y2 := swizzleByte x sel 2 y1
  let y3 := swizzleByte x sel 3 y2
  y3 ++ y2 ++ y1 ++ y0

def execBswz (g : Guard) (d : Dest) (a b : Value) (sel : Selector) (s : State) : Result :=
  .next (s.laneRun (Instr.use (.bswz g d a b sel)) .single (fun s =>
    match sel with
    | .imm k => s.lane2 g d a b (fun _ x y => swizzle x y k)
    | .val c => s.lane3 g d a b c (fun _ x y z => swizzle x y (z.truncate 20))))

/-! ### Integer arithmetic (06:R120) -/

/-- An exact integer clamped to the signed or the unsigned words. -/
def sat32 (x : Int) : W32 := BitVec.ofInt 32 (max (-(2 ^ 31)) (min x (2 ^ 31 - 1)))
def satU32 (x : Int) : W32 := BitVec.ofInt 32 (max 0 (min x (2 ^ 32 - 1)))

def addSat (u : Bool) (a b : W32) : W32 := if u then satU32 (a.toNat + b.toNat) else sat32 (a.toInt + b.toInt)
def subSat (u : Bool) (a b : W32) : W32 := if u then satU32 ((a.toNat : Int) - b.toNat) else sat32 (a.toInt - b.toInt)
def highS (a b : W32) : W32 := hi32 (sext64 a * sext64 b)
def highU (a b : W32) : W32 := hi32 (zext64 a * zext64 b)
def shiftOf (b : W32) : Nat := b.toNat % 32

/-- The field extract (06:R122). -/
def bitField (u : Bool) (a b : W32) : W32 :=
  let pos := b.toNat % 256
  let len := b.toNat / 256 % 256
  if len = 0 ∨ 32 ≤ pos then 0
  else
    let n := min len (32 - pos)
    let f : W32 := BitVec.ofNat 32 (a.toNat / 2 ^ pos % 2 ^ n)
    if u then f else (f <<< (32 - n)).sshiftRight (32 - n)

/-- The field insert (06:R122). -/
def bitInsert (a b c : W32) : W32 :=
  let pos := b.toNat % 256
  let len := b.toNat / 256 % 256
  if len = 0 ∨ 32 ≤ pos then a
  else
    let m : W32 := BitVec.ofNat 32 ((2 ^ min len (32 - pos) - 1) * 2 ^ pos)
    (a &&& ~~~m) ||| ((c <<< pos) &&& m)

/-- A V2 instruction that stands alone or in a pair. -/
def State.int2 (s : State) (i : Instr) (h : Half) (g : Guard) (d : Dest) (a b : Value) (f : W32 → W32 → W32) : Result :=
  .next (s.laneRun (Instr.use i) h (fun s => s.lane2 g d a b (fun _ x y => f x y)))
/-- A V1 instruction. -/
def State.int1 (s : State) (i : Instr) (g : Guard) (d : Dest) (a : Value) (f : W32 → W32) : Result :=
  .next (s.laneRun (Instr.use i) .single (fun s => s.lane1 g d a (fun _ x => f x)))
/-- A V3 instruction. -/
def State.int3 (s : State) (i : Instr) (g : Guard) (d : Dest) (a b c : Value) (f : W32 → W32 → W32 → W32) : Result :=
  .next (s.laneRun (Instr.use i) .single (fun s => s.lane3 g d a b c (fun _ x y z => f x y z)))

def execIadd (g : Guard) (h : Half) (d : Dest) (a b : Value) (s : State) : Result :=
  s.int2 (.iadd g h d a b) h g d a b (fun x y => x + y)
def execIsub (g : Guard) (h : Half) (d : Dest) (a b : Value) (s : State) : Result :=
  s.int2 (.isub g h d a b) h g d a b (fun x y => x - y)
def execIadds (g : Guard) (u : Bool) (d : Dest) (a b : Value) (s : State) : Result :=
  s.int2 (.iadds g u d a b) .single g d a b (addSat u)
def execIsubs (g : Guard) (u : Bool) (d : Dest) (a b : Value) (s : State) : Result :=
  s.int2 (.isubs g u d a b) .single g d a b (subSat u)
def execImul (g : Guard) (d : Dest) (a b : Value) (s : State) : Result :=
  s.int2 (.imul g d a b) .single g d a b (fun x y => x * y)
def execImulh (g : Guard) (d : Dest) (a b : Value) (s : State) : Result := s.int2 (.imulh g d a b) .single g d a b highS
def execImulhu (g : Guard) (d : Dest) (a b : Value) (s : State) : Result := s.int2 (.imulhu g d a b) .single g d a b highU
def execImad (g : Guard) (d : Dest) (a b c : Value) (s : State) : Result :=
  s.int3 (.imad g d a b c) g d a b c (fun x y z => x * y + z)
def execImin (g : Guard) (h : Half) (d : Dest) (a b : Value) (s : State) : Result :=
  s.int2 (.imin g h d a b) h g d a b (fun x y => if y.slt x then y else x)
def execImax (g : Guard) (h : Half) (d : Dest) (a b : Value) (s : State) : Result :=
  s.int2 (.imax g h d a b) h g d a b (fun x y => if x.slt y then y else x)
def execIminu (g : Guard) (d : Dest) (a b : Value) (s : State) : Result :=
  s.int2 (.iminu g d a b) .single g d a b (fun x y => if y.ult x then y else x)
def execImaxu (g : Guard) (d : Dest) (a b : Value) (s : State) : Result :=
  s.int2 (.imaxu g d a b) .single g d a b (fun x y => if x.ult y then y else x)
def execIabs (g : Guard) (d : Dest) (a : Value) (s : State) : Result :=
  s.int1 (.iabs g d a) g d a (fun x => if x.slt 0 then 0 - x else x)
def execIneg (g : Guard) (d : Dest) (a : Value) (s : State) : Result := s.int1 (.ineg g d a) g d a (fun x => 0 - x)
def execLaneAnd (g : Guard) (h : Half) (d : Dest) (a b : Value) (s : State) : Result :=
  s.int2 (.laneAnd g h d a b) h g d a b (fun x y => x &&& y)
def execLaneOr (g : Guard) (h : Half) (d : Dest) (a b : Value) (s : State) : Result :=
  s.int2 (.laneOr g h d a b) h g d a b (fun x y => x ||| y)
def execLaneXor (g : Guard) (h : Half) (d : Dest) (a b : Value) (s : State) : Result :=
  s.int2 (.laneXor g h d a b) h g d a b (fun x y => x ^^^ y)
def execLaneAndn (g : Guard) (d : Dest) (a b : Value) (s : State) : Result :=
  s.int2 (.laneAndn g d a b) .single g d a b (fun x y => x &&& ~~~y)
def execLaneNot (g : Guard) (d : Dest) (a : Value) (s : State) : Result := s.int1 (.laneNot g d a) g d a (fun x => ~~~x)
def execShl (g : Guard) (h : Half) (d : Dest) (a b : Value) (s : State) : Result :=
  s.int2 (.shl g h d a b) h g d a b (fun x y => x <<< shiftOf y)
def execShr (g : Guard) (h : Half) (d : Dest) (a b : Value) (s : State) : Result :=
  s.int2 (.shr g h d a b) h g d a b (fun x y => x >>> shiftOf y)
def execSar (g : Guard) (h : Half) (d : Dest) (a b : Value) (s : State) : Result :=
  s.int2 (.sar g h d a b) h g d a b (fun x y => x.sshiftRight (shiftOf y))
def execRol (g : Guard) (d : Dest) (a b : Value) (s : State) : Result :=
  s.int2 (.rol g d a b) .single g d a b (fun x y => x.rotateLeft (shiftOf y))
def execRor (g : Guard) (d : Dest) (a b : Value) (s : State) : Result :=
  s.int2 (.ror g d a b) .single g d a b (fun x y => x.rotateRight (shiftOf y))
def execLaneClz (g : Guard) (d : Dest) (a : Value) (s : State) : Result :=
  s.int1 (.laneClz g d a) g d a (fun x => BitVec.ofNat 32 (leadZeros x))
def execLanePopc (g : Guard) (d : Dest) (a : Value) (s : State) : Result :=
  s.int1 (.lanePopc g d a) g d a (fun x => BitVec.ofNat 32 (popCount x))
def execBrev (g : Guard) (d : Dest) (a : Value) (s : State) : Result := s.int1 (.brev g d a) g d a bitReverse
def execBfx (g : Guard) (u : Bool) (d : Dest) (a b : Value) (s : State) : Result :=
  s.int2 (.bfx g u d a b) .single g d a b (bitField u)
def execBfi (g : Guard) (d : Dest) (a b c : Value) (s : State) : Result := s.int3 (.bfi g d a b c) g d a b c bitInsert
def execIdivu (g : Guard) (d : Dest) (a b : Value) (s : State) : Result :=
  s.int2 (.idivu g d a b) .single g d a b (fun x y => if y = 0 then 0xFFFFFFFF else x / y)
def execIremu (g : Guard) (d : Dest) (a b : Value) (s : State) : Result :=
  s.int2 (.iremu g d a b) .single g d a b (fun x y => if y = 0 then x else x % y)

/-- IADDC: 33 bits of a sum with carry-in; the carry-in is read before any write (06:R121). -/
def carrySum (a b : W32) (cin : Bool) : BitVec 33 := a.zeroExtend 33 + b.zeroExtend 33 + (if cin then 1 else 0)

def execIaddc (g : Guard) (d : Dest) (a b : Value) (co : Pred) (cen : Bool) (ci : Pred) (s : State) : Result :=
  .next (s.laneRun (Instr.use (.iaddc g d a b co cen ci)) .single (fun s =>
    let m := s.active g
    let w := s.warp
    let (s, x) := s.readSrc (m != 0) a
    let (s, y) := s.readSrc (m != 0) b
    let t (l : Nat) : BitVec 33 := carrySum (x l) (y l) (cen && predBit w ci.toNat l)
    (s.writeDest d m (fun l => (t l).truncate 32)).writeP co m (fun l => (t l).getLsbD 32)))

/-! ### Compares (06:R123, R124) -/

/-- A predicate of two sources in each active lane. -/
def State.compare (s : State) (g : Guard) (p : Pred) (a b : Value) (f : W32 → W32 → Bool) (fl : W32 → W32 → FFlags) : State :=
  let m := s.active g
  let (s, x) := s.readSrc (m != 0) a
  let (s, y) := s.readSrc (m != 0) b
  (s.writeP p m (fun l => f (x l) (y l))).orFlags (flagsOf m (fun l => fl (x l) (y l)))

def ICond.holds : ICond → W32 → W32 → Bool
  | .eq, a, b => a == b
  | .ne, a, b => a != b
  | .lt, a, b => a.slt b
  | .le, a, b => a.sle b
  | .gt, a, b => b.slt a
  | .ge, a, b => b.sle a
  | .ltu, a, b => a.ult b
  | .leu, a, b => a.ule b
  | .gtu, a, b => b.ult a
  | .geu, a, b => b.ule a

def execIcmp (g : Guard) (cc : ICond) (p : Pred) (a b : Value) (s : State) : Result :=
  .next (s.laneRun (Instr.use (.icmp g cc p a b)) .single (fun s => s.compare g p a b (ICond.holds cc) (fun _ _ => 0)))

/-- A NaN makes every condition false but .NE and .UN. -/
def FCond.holds (cc : FCond) (a b : W32) : Bool :=
  let x := fpOf .f32 a.toNat
  let y := fpOf .f32 b.toNat
  let un := x.isNan || y.isNan
  match cc with
  | .eq => fpEq x y
  | .ne => !fpEq x y
  | .lt => fpLt x y
  | .le => !un && !fpLt y x
  | .gt => fpLt y x
  | .ge => !un && !fpLt x y
  | .un => un
  | .ord => !un

def execFcmp (g : Guard) (cc : FCond) (p : Pred) (a b : Value) (s : State) : Result :=
  .next (s.laneRun (Instr.use (.fcmp g cc p a b)) .single (fun s =>
    s.compare g p a b (FCond.holds cc) (fun x y => snanFlag [fpOf .f32 x.toNat, fpOf .f32 y.toNat])))

/-! ### Predicates (06:R125, R126) -/

/-- A predicate of two predicates in each active lane. -/
def State.predOp (s : State) (g : Guard) (p a b : Pred) (f : Bool → Bool → Bool) : State :=
  s.writeP p (s.active g) (fun l => f (predBit s.warp a.toNat l) (predBit s.warp b.toNat l))

def execPand (g : Guard) (na nb : Bool) (p a b : Pred) (s : State) : Result :=
  .next (s.laneRun (Instr.use (.pand g na nb p a b)) .single (fun s =>
    s.predOp g p a b (fun x y => Bool.xor x na && Bool.xor y nb)))
def execPor (g : Guard) (na nb : Bool) (p a b : Pred) (s : State) : Result :=
  .next (s.laneRun (Instr.use (.por g na nb p a b)) .single (fun s =>
    s.predOp g p a b (fun x y => Bool.xor x na || Bool.xor y nb)))
def execPxor (g : Guard) (na nb : Bool) (p a b : Pred) (s : State) : Result :=
  .next (s.laneRun (Instr.use (.pxor g na nb p a b)) .single (fun s =>
    s.predOp g p a b (fun x y => Bool.xor (Bool.xor x na) (Bool.xor y nb))))
def execPnot (g : Guard) (p a : Pred) (s : State) : Result :=
  .next (s.laneRun (Instr.use (.pnot g p a)) .single (fun s => s.predOp g p a a (fun x _ => !x)))

def execPmov (g : Guard) (p : Pred) (a : Value) (k : BitVec 5) (s : State) : Result :=
  .next (s.laneRun (Instr.use (.pmov g p a k)) .single (fun s =>
    let m := s.active g
    let (s, x) := s.readSrc (m != 0) a
    s.writeP p m (fun l => (x l).getLsbD k.toNat)))

/-- The predicates of a lane as bits 0 to 7. -/
def predByte (w : Warp) (l : Nat) : W32 :=
  (List.range 8).foldl (fun x k => if predBit w k l then x ||| (1 <<< k) else x) 0

def execPget (g : Guard) (d : Dest) (s : State) : Result :=
  .next (s.laneRun (Instr.use (.pget g d)) .single (fun s => s.writeDest d (s.active g) (predByte s.warp)))

/-- SEL: a where the predicate holds, b elsewhere (06:R127). -/
def execSel (g : Guard) (h : Half) (neg : Bool) (k : Pred) (d : Dest) (a b : Value) (s : State) : Result :=
  .next (s.laneRun (Instr.use (.sel g h neg k d a b)) h (fun s =>
    let w := s.warp
    s.lane2 g d a b (fun l x y => if Bool.xor (predBit w k.toNat l) neg then x else y)))

/-! ### Masks (06:R128): every value written is ANDed with the live mask -/

def State.writeEM (s : State) (m : Mask) : State := s.onWarp (fun w => { w with em := m &&& w.live })

/-- A uniform's value. -/
def State.uniform (s : State) (u : Value) : W32 := (s.readSrc false u).2 0

def execMset (neg : Bool) (p : Pred) (s : State) : Result :=
  .next (s.laneRun (Instr.use (.mset neg p)) .single (fun s =>
    s.writeEM (s.warp.em &&& Mask.of (fun l => Bool.xor (predBit s.warp p.toNat l) neg))))
def execMrst (u : Value) (s : State) : Result :=
  .next (s.laneRun (Instr.use (.mrst u)) .single (fun s => s.writeEM (s.uniform u)))
def execMget (d : Dest) (s : State) : Result :=
  .next (s.laneRun (Instr.use (.mget d)) .single (fun s => s.writeDest d s.warp.em (fun _ => s.warp.em)))
def execMall (s : State) : Result :=
  .next (s.laneRun (Instr.use .mall) .single (fun s => s.writeEM s.warp.live))
def execMnot (u : Value) (s : State) : Result :=
  .next (s.laneRun (Instr.use (.mnot u)) .single (fun s => s.writeEM (s.uniform u &&& ~~~s.warp.em)))

end Sys2Proof.Machine
end

