-- ==== Sys2Proof/Machine/LaneQueue.lean ====
section
/-!
DEFINITION. The lane queue, the SRQ and the register file as the scalar stream reaches them: VEX, VEXR, VSYNC, SRQPOP
(05:R105 to R109), VGROW and VSHRINK (R110 to R112).
-/

namespace Sys2Proof.Machine

open Sys2Proof

/-- Enqueue a block with its snapshots; the instruction counts one, and under DET the block's words too (01:R11;
21:R354). A full queue is waited for. -/
def State.enqueue (s : State) (start : BitVec 56) (count : Nat) : Result :=
  if Config.laneQueueMax ≤ s.warp.queue.length then .next (s.waitScalar 0)
  else
    let b : Block := ⟨start, count, s.warp.s, s.warp.dseed, s.warp.vexes + 1⟩
    .next ((s.onWarp (fun w => { w with queue := w.queue ++ [b], vexes := w.vexes + 1 })).retire (1 + count))

/-- A count field: 0 means 1,024. -/
def blockCount (c : BitVec 10) : Nat := if c = 0 then 1024 else c.toNat

/-- VEX: the block at LBR + 12 × LOFF. -/
def execVex (cnt : BitVec 10) (loff : BitVec 16) (s : State) : Result :=
  s.enqueue (s.warp.lbr + loff.signExtend 56 * 12) (blockCount cnt)

/-- VEXR: the block at S(SA), which must be a multiple of 4 and fit 56 bits. -/
def execVexr (a b : SReg) (s : State) : Result :=
  let x := s.S a
  if x.toNat % 4 ≠ 0 then .next (s.trapScalar Code.misaligned x 0)
  else if 2 ^ 56 ≤ x.toNat then .next (s.trapScalar Code.rangeFault x 0)
  else s.enqueue (x.truncate 56) (blockCount ((s.S b).truncate 10))

/-- VSYNC: every lane block enqueued before it has retired; scalar stores complete before it begins (05:R103). What follows in
either stream comes after every access before it (05:R113). -/
def execVsync (s : State) : Result := s.scalarRun (fun s => (s.lanesRetired 0).bind (fun s _ => .ok s.fence ()))

/-- SRQPOP: the oldest entry, zero-extended. -/
def execSrqpop (d : SReg) (s : State) : Result :=
  s.scalarRun (fun s =>
    match s.warp.srq with
    | [] => .wait s 1
    | x :: rest => (s.onWarp (fun w => { w with srq := rest })).give d (zext64 x))

/-! ### Growing and shrinking (05:R110 to R112) -/

/-- Word 5 of REGISTER_BLOCK. -/
def growDetail (b n : Nat) : W64 := BitVec.ofNat 64 (b * 256 + n)

/-- Plain VGROWs of other warps of the pipe that wait, with their places. -/
def State.growWaiters (s : State) : List Nat :=
  ((s.coreWarps s.team.core).filter (fun w => w.pipe == s.warp.pipe && w.key != s.warp.key)).filterMap (fun w => w.growWait)

/-- Waiting(pipe): a plain VGROW of another warp began its wait earlier. -/
def State.growBehind (s : State) : Bool :=
  match s.warp.growWait with
  | none => !s.growWaiters.isEmpty
  | some k => s.growWaiters.any (fun j => decide (j < k))

/-- The registers below a count of blocks. -/
def Warp.keepBlocks (w : Warp) (b : Nat) : Warp :=
  let m : BitVec 192 := BitVec.ofNat 192 (2 ^ (16 * b) - 1)
  { w with
    v := w.v.filter (fun e => decide (e.1 < 512 * b))
    empty := w.empty &&& m
    poison := w.poison &&& m
    fills := w.fills.filter (fun f => decide (f.reg < 16 * b)) }

/-- Allocate n blocks: every lane zero, every register full. -/
def State.growBy (s : State) (n : Nat) : State :=
  s.onWarp (fun w => { w.keepBlocks w.blocks with blocks := w.blocks + n, growWait := none })

/-- Whether n more blocks are to be had now. -/
def State.canGrow (s : State) (n : Nat) : Bool := decide (n ≤ s.pipeFree s.team.core s.warp.pipe) && !s.growBehind

/-- The plain VGROW waits for its blocks in the order in which the waits began. -/
def execVgrow (n : BitVec 4) (s : State) : Result :=
  let k := n.toNat
  if k = 0 then .next (s.illegalScalar 6)
  else if 12 < s.warp.blocks + k then .next (s.trapScalar Code.registerBlock 0 (growDetail s.warp.blocks k))
  else if s.canGrow k then .next (s.growBy k).retire
  else
    let place := s.growWaiters.foldl (fun m j => max m (j + 1)) 0
    .next ((s.onWarp (fun w => { w with growWait := some (w.growWait.getD place) })).waitScalar 4)

/-- VGROW.TRY writes 1, or 0 and changes nothing. -/
def execVgrowTry (d : SReg) (n : BitVec 4) (s : State) : Result :=
  let k := n.toNat
  if k = 0 then .next (s.illegalScalar 6)
  else if 12 < s.warp.blocks + k || !s.canGrow k then .next ((s.writeS d 0).retire)
  else .next (((s.growBy k).writeS d 1).retire)

/-- VSHRINK waits for lane words issued that may name the blocks and for fills into them; their contents are lost. -/
def execVshrink (n : BitVec 4) (s : State) : Result :=
  let k := n.toNat
  let b := s.warp.blocks - k
  if k = 0 then .next (s.illegalScalar 6)
  else if b < 1 then .next (s.trapScalar Code.registerBlock 0 (growDetail s.warp.blocks k))
  else if s.warp.check != .idle || s.warp.parkL.isSome || !s.warp.rob.isEmpty || s.warp.fills.any (fun f => decide (16 * b ≤ f.reg) && f.arrived != f.lanes) then
    .next (s.waitScalar 15)
  else .next ((s.onWarp (fun w => { w.keepBlocks b with blocks := b })).retire)

end Sys2Proof.Machine
end

