-- ==== Sys2Proof/Machine/LaneSystem.lean ====
section
/-!
DEFINITION. System operations of the lane stream: CHST and CHWAIT (14:R270, R271), the random streams (R272, R273), LTRAP and LBRK
(R276), and the message that carries a send (R269).
-/

namespace Sys2Proof.Machine

open Sys2Proof

/-! ### Channels -/

/-- What CHST writes. -/
def Chan.status (c : Chan) : W32 :=
  BitVec.ofNat 32 (c.st.code + 4 * (if c.st = .recv then c.queue.length else 0))

def execChst (g : Guard) (d : Dest) (ch : BitVec 4) (s : State) : Result :=
  .next (s.laneRun (Instr.use (.chst g d ch)) .single (fun s =>
    s.writeDest d (s.active g) (fun _ => (s.warp.chan ch.toNat).status)))

/-- CHWAIT: k messages queued, or every earlier send accepted: a send retires once it is, except under DET, where it is
at the clearing. -/
def execChwait (g : Guard) (ch : BitVec 4) (k : BitVec 3) (s : State) : Result :=
  .next (s.laneAccess (Instr.use (.chwait g ch k)) (fun _ s =>
    let c := s.warp.chan ch.toNat
    if s.active g = 0 then .ok s ()
    else match c.st with
      | .unbound => .trap s (trapOf Code.channelFault 0 1)
      | .recv => if k.toNat ≤ c.queue.length then .ok s () else .wait s 11
      | .send => if s.warp.queuedSends ch.toNat = 0 then .ok s () else .wait s 11))

/-- A message on its way to the peer's queue: it waits there, or the peer accepts it. A peer that rejects it takes
nothing; the sender has its CHANNEL_FAULT. -/
def execChannelMessage (src : WarpKey) (entry : Nat) (msg : Store 32) (s : State) : Result :=
  match s.warpOf src with
  | none => .next s
  | some w =>
    let c := w.chan entry
    match s.peer src entry c with
    | .accepts => .next (s.deliverMsg src c msg)
    | .waits => .next { s with again := .held }
    | .fault _ => .next s

/-! ### Random numbers (14:R272, R273) -/

/-- A lane stream state in a register pair. -/
def State.pairAt (s : State) (n : Nat) (l : Nat) : W64 := pair64 (s.vreg n l) (s.vreg (n + 1) l)

/-- A pair goes to a pair. -/
def State.writePair (s : State) (g : Guard) (d : VReg) (f : Nat → W64) : State :=
  s.writeGroup d.toNat 2 (s.active g) (fun l => [lo32 (f l), hi32 (f l)])

def execRnext (g : Guard) (d a : VReg) (t : Bool) (s : State) : Result :=
  .next (s.laneRun (Instr.use (.rnext g d a t)) .single (fun s =>
    s.writePair g d (fun l => streamStep (s.pairAt a.toNat l) 1)))

def execRjump (g : Guard) (d a : VReg) (t : Bool) (b c : Value) (s : State) : Result :=
  .next (s.laneRun (Instr.use (.rjump g d a t b c)) .single (fun s =>
    let m := s.active g
    let (s', x) := s.readSrc (m != 0) b
    let (s', y) := s'.readSrc (m != 0) c
    s'.writePair g d (fun l => streamJump (s.pairAt a.toNat l) (pair64 (x l) (y l)))))

/-- The uniform value of an output word: FP32 of its high 24 bits times 2⁻²⁴, exact, or the word. -/
def uniform (f32 : Bool) (x : W32) : W32 :=
  if f32 then BitVec.ofNat 32 (roundTo .f32 .rn 0 false (.fin false (x.toNat / 256) (-24))).bits else x

def execRuni (g : Guard) (f32 : Bool) (d : Dest) (a : VReg) (t : Bool) (s : State) : Result :=
  .next (s.laneRun (Instr.use (.runi g f32 d a t)) .single (fun s =>
    s.writeDest d (s.active g) (fun l => uniform f32 (streamOut (s.pairAt a.toNat l)))))

def execRdith (g : Guard) (d : Dest) (a : SReg) (b : Value) (s : State) : Result :=
  .next (s.laneRun (Instr.use (.rdith g d a b)) .single (fun s =>
    s.lane1 g d b (fun _ x => BitVec.ofNat 32 (dither s.n3 (s.src64 a) x.toNat))))

/-! ### Traps and stops on request -/

def execLtrap (g : Guard) (code : BitVec 6) (s : State) : Result :=
  .next (s.laneAccess (Instr.use (.ltrap g code)) (fun _ s =>
    let m := s.active g
    if m = 0 then .ok s () else .trap s ⟨Code.trapInstr, m, 0, code.zeroExtend 64, 0⟩))

def execLbrk (g : Guard) (s : State) : Result :=
  .next (if s.active g = 0 then s.retireLane else s.breakAt true (s.active g))

/-! ### Words that no instruction has (03:R76) -/

/-- ILLEGAL_ENCODING, with the smallest reason and the half in which it lies. -/
def execIllegalEncodingWord (lane half : Bool) (reason : Nat) (s : State) : Result :=
  .next (s.takeTrap lane half (trapOf Code.illegalEncoding 0 (BitVec.ofNat 64 reason)))

end Sys2Proof.Machine
end

