-- ==== Sys2Proof/Machine/Scalar.lean ====
section
/-!
DEFINITION. The scalar stream's register arithmetic, immediates, branches and jumps (05:R90 to R99).
-/

namespace Sys2Proof.Machine

open Sys2Proof

/-! ### Register arithmetic (05:R91, R92) -/

/-- A result of two registers: 64 bits, or under `.W` 32 bits sign-extended. -/
def State.alu (s : State) (w : Bool) (d a b : SReg) (f : W64 → W64 → W64) (g : W32 → W32 → W32) : Result :=
  .next ((s.writeS d (if w then sext64 (g (lo32 (s.S a)) (lo32 (s.S b))) else f (s.S a) (s.S b))).retire)

/-- A result of one register. -/
def State.alu1 (s : State) (w : Bool) (d a : SReg) (f : W64 → W64) (g : W32 → W32) : Result :=
  .next ((s.writeS d (if w then sext64 (g (lo32 (s.S a))) else f (s.S a))).retire)

/-- The high half of a signed product. -/
def mulHigh {n : Nat} (a b : BitVec n) : BitVec n := (a.signExtend (2 * n) * b.signExtend (2 * n)).extractLsb' n n
/-- The high half of an unsigned product. -/
def mulHighU {n : Nat} (a b : BitVec n) : BitVec n := (a.zeroExtend (2 * n) * b.zeroExtend (2 * n)).extractLsb' n n
/-- Division truncates towards zero; by zero it gives all ones. -/
def divS {n : Nat} (a b : BitVec n) : BitVec n := if b = 0#n then BitVec.allOnes n else a.sdiv b
def divU {n : Nat} (a b : BitVec n) : BitVec n := if b = 0#n then BitVec.allOnes n else a / b
/-- A remainder has the sign of the dividend; by zero it is the dividend. -/
def remS {n : Nat} (a b : BitVec n) : BitVec n := if b = 0#n then a else a.srem b
def remU {n : Nat} (a b : BitVec n) : BitVec n := if b = 0#n then a else a % b
def minS {n : Nat} (a b : BitVec n) : BitVec n := if b.slt a then b else a
def maxS {n : Nat} (a b : BitVec n) : BitVec n := if a.slt b then b else a
def minU {n : Nat} (a b : BitVec n) : BitVec n := if b < a then b else a
def maxU {n : Nat} (a b : BitVec n) : BitVec n := if a < b then b else a
/-- 1 for true, 0 for false. -/
def flag {n : Nat} (b : Bool) : BitVec n := if b then 1#n else 0#n
/-- Shift amounts: bits [5:0] of a doubleword, bits [4:0] of a word. -/
def amt64 (b : W64) : Nat := b.toNat % 64
def amt32 (b : W32) : Nat := b.toNat % 32

def execAdd (w : Bool) (d a b : SReg) (s : State) : Result := s.alu w d a b (· + ·) (· + ·)
def execSub (w : Bool) (d a b : SReg) (s : State) : Result := s.alu w d a b (· - ·) (· - ·)
def execSAnd (w : Bool) (d a b : SReg) (s : State) : Result := s.alu w d a b (· &&& ·) (· &&& ·)
def execSOr (w : Bool) (d a b : SReg) (s : State) : Result := s.alu w d a b (· ||| ·) (· ||| ·)
def execSXor (w : Bool) (d a b : SReg) (s : State) : Result := s.alu w d a b (· ^^^ ·) (· ^^^ ·)
def execSAndn (w : Bool) (d a b : SReg) (s : State) : Result := s.alu w d a b (fun x y => x &&& ~~~y) (fun x y => x &&& ~~~y)
def execSll (w : Bool) (d a b : SReg) (s : State) : Result :=
  s.alu w d a b (fun x y => x <<< amt64 y) (fun x y => x <<< amt32 y)
def execSrl (w : Bool) (d a b : SReg) (s : State) : Result :=
  s.alu w d a b (fun x y => x >>> amt64 y) (fun x y => x >>> amt32 y)
def execSra (w : Bool) (d a b : SReg) (s : State) : Result :=
  s.alu w d a b (fun x y => x.sshiftRight (amt64 y)) (fun x y => x.sshiftRight (amt32 y))
def execMul (w : Bool) (d a b : SReg) (s : State) : Result := s.alu w d a b (· * ·) (· * ·)
def execMulh (w : Bool) (d a b : SReg) (s : State) : Result := s.alu w d a b mulHigh mulHigh
def execMulhu (w : Bool) (d a b : SReg) (s : State) : Result := s.alu w d a b mulHighU mulHighU
def execDiv (w : Bool) (d a b : SReg) (s : State) : Result := s.alu w d a b divS divS
def execDivu (w : Bool) (d a b : SReg) (s : State) : Result := s.alu w d a b divU divU
def execRem (w : Bool) (d a b : SReg) (s : State) : Result := s.alu w d a b remS remS
def execRemu (w : Bool) (d a b : SReg) (s : State) : Result := s.alu w d a b remU remU
def execSMin (w : Bool) (d a b : SReg) (s : State) : Result := s.alu w d a b minS minS
def execSMax (w : Bool) (d a b : SReg) (s : State) : Result := s.alu w d a b maxS maxS
def execMinu (w : Bool) (d a b : SReg) (s : State) : Result := s.alu w d a b minU minU
def execMaxu (w : Bool) (d a b : SReg) (s : State) : Result := s.alu w d a b maxU maxU
def execSlt (w : Bool) (d a b : SReg) (s : State) : Result :=
  s.alu w d a b (fun x y => flag (x.slt y)) (fun x y => flag (x.slt y))
def execSltu (w : Bool) (d a b : SReg) (s : State) : Result :=
  s.alu w d a b (fun x y => flag (decide (x < y))) (fun x y => flag (decide (x < y)))
def execSClz (w : Bool) (d a : SReg) (s : State) : Result :=
  s.alu1 w d a (fun x => BitVec.ofNat 64 (leadZeros x)) (fun x => BitVec.ofNat 32 (leadZeros x))
def execSCtz (w : Bool) (d a : SReg) (s : State) : Result :=
  s.alu1 w d a (fun x => BitVec.ofNat 64 (trailZeros x)) (fun x => BitVec.ofNat 32 (trailZeros x))
def execSPopc (w : Bool) (d a : SReg) (s : State) : Result :=
  s.alu1 w d a (fun x => BitVec.ofNat 64 (popCount x)) (fun x => BitVec.ofNat 32 (popCount x))

/-! ### Immediates (05:R93 to R95) -/

/-- SignExtend(IMM, 16) and ZeroExtend(IMM, 16). -/
def simm (i : BitVec 16) : W64 := i.signExtend 64
def zimm (i : BitVec 16) : W64 := i.zeroExtend 64

/-- A value goes to sd and the stream goes on. -/
def State.put (s : State) (d : SReg) (x : W64) : Result := .next ((s.writeS d x).retire)

def execAddi (d a : SReg) (imm : BitVec 16) (s : State) : Result := s.put d (s.S a + simm imm)
def execAndi (d a : SReg) (imm : BitVec 16) (s : State) : Result := s.put d (s.S a &&& simm imm)
def execOri (d a : SReg) (imm : BitVec 16) (s : State) : Result := s.put d (s.S a ||| zimm imm)
def execXori (d a : SReg) (imm : BitVec 16) (s : State) : Result := s.put d (s.S a ^^^ zimm imm)
def execSlti (d a : SReg) (imm : BitVec 16) (s : State) : Result := s.put d (flag ((s.S a).slt (simm imm)))
def execSltiu (d a : SReg) (imm : BitVec 16) (s : State) : Result := s.put d (flag (decide (s.S a < simm imm)))
def execSlli (w : Bool) (d a : SReg) (n : BitVec 6) (s : State) : Result :=
  s.alu1 w d a (fun x => x <<< n.toNat) (fun x => x <<< n.toNat)
def execSrli (w : Bool) (d a : SReg) (n : BitVec 6) (s : State) : Result :=
  s.alu1 w d a (fun x => x >>> n.toNat) (fun x => x >>> n.toNat)
def execSrai (w : Bool) (d a : SReg) (n : BitVec 6) (s : State) : Result :=
  s.alu1 w d a (fun x => x.sshiftRight n.toNat) (fun x => x.sshiftRight n.toNat)
def execLui (d : SReg) (imm : BitVec 16) (s : State) : Result := s.put d (simm imm <<< 16)
def execAddhi (d a : SReg) (imm : BitVec 16) (s : State) : Result := s.put d (s.S a + (simm imm <<< 16))
def execAddpc (d : SReg) (imm : BitVec 16) (s : State) : Result := s.put d (s.warp.spc + (simm imm <<< 2))

/-! ### Branches and jumps (05:R96 to R99) -/

/-- Go to SPC + 4 + 4 × an offset if the condition holds. -/
def State.branch (s : State) (c : Bool) (off : W64) : Result :=
  .next (s.retireTo (if c then s.warp.spc + 4 + (off <<< 2) else s.warp.spc + 4))

def execBeq (a b : SReg) (off : BitVec 16) (s : State) : Result := s.branch (s.S a == s.S b) (simm off)
def execBne (a b : SReg) (off : BitVec 16) (s : State) : Result := s.branch (s.S a != s.S b) (simm off)
def execBlt (a b : SReg) (off : BitVec 16) (s : State) : Result := s.branch ((s.S a).slt (s.S b)) (simm off)
def execBge (a b : SReg) (off : BitVec 16) (s : State) : Result := s.branch (!(s.S a).slt (s.S b)) (simm off)
def execBltu (a b : SReg) (off : BitVec 16) (s : State) : Result := s.branch (decide (s.S a < s.S b)) (simm off)
def execBgeu (a b : SReg) (off : BitVec 16) (s : State) : Result := s.branch (!decide (s.S a < s.S b)) (simm off)
def execJmp (off : BitVec 26) (s : State) : Result := s.branch true (off.signExtend 64)
/-- JAL writes SPC + 4 into s31 first. -/
def execJal (off : BitVec 26) (s : State) : Result :=
  (s.writeS 31 (s.warp.spc + 4)).branch true (off.signExtend 64)
/-- JALR: a target that is no multiple of 4 raises MISALIGNED and writes nothing (05:R98). -/
def execJalr (d a : SReg) (imm : BitVec 16) (s : State) : Result :=
  let t := s.S a + simm imm
  if t.toNat % 4 ≠ 0 then .next (s.trapScalar Code.misaligned t 0)
  else .next ((s.writeS d (s.warp.spc + 4)).retireTo t)

end Sys2Proof.Machine
end

