-- ==== Sys2Proof/Machine/Dispatch.lean ====
section
/-!
DEFINITION. Dispatch: one arm for each constructor of Instr, a direct call of its meaning.
-/

namespace Sys2Proof.Machine

open Sys2Proof

/-- What an instruction, a message or a command does to the machine. -/
def exec (i : Instr) (s : State) : Host.Outcome State Fault Refusal :=
  match i with
  | .add w d a b => Sys2Proof.Machine.execAdd w d a b s
  | .sub w d a b => Sys2Proof.Machine.execSub w d a b s
  | .sAnd w d a b => Sys2Proof.Machine.execSAnd w d a b s
  | .sOr w d a b => Sys2Proof.Machine.execSOr w d a b s
  | .sXor w d a b => Sys2Proof.Machine.execSXor w d a b s
  | .sAndn w d a b => Sys2Proof.Machine.execSAndn w d a b s
  | .sll w d a b => Sys2Proof.Machine.execSll w d a b s
  | .srl w d a b => Sys2Proof.Machine.execSrl w d a b s
  | .sra w d a b => Sys2Proof.Machine.execSra w d a b s
  | .mul w d a b => Sys2Proof.Machine.execMul w d a b s
  | .mulh w d a b => Sys2Proof.Machine.execMulh w d a b s
  | .mulhu w d a b => Sys2Proof.Machine.execMulhu w d a b s
  | .div w d a b => Sys2Proof.Machine.execDiv w d a b s
  | .divu w d a b => Sys2Proof.Machine.execDivu w d a b s
  | .rem w d a b => Sys2Proof.Machine.execRem w d a b s
  | .remu w d a b => Sys2Proof.Machine.execRemu w d a b s
  | .sMin w d a b => Sys2Proof.Machine.execSMin w d a b s
  | .sMax w d a b => Sys2Proof.Machine.execSMax w d a b s
  | .minu w d a b => Sys2Proof.Machine.execMinu w d a b s
  | .maxu w d a b => Sys2Proof.Machine.execMaxu w d a b s
  | .slt w d a b => Sys2Proof.Machine.execSlt w d a b s
  | .sltu w d a b => Sys2Proof.Machine.execSltu w d a b s
  | .sClz w d a => Sys2Proof.Machine.execSClz w d a s
  | .sCtz w d a => Sys2Proof.Machine.execSCtz w d a s
  | .sPopc w d a => Sys2Proof.Machine.execSPopc w d a s
  | .addi d a imm => Sys2Proof.Machine.execAddi d a imm s
  | .andi d a imm => Sys2Proof.Machine.execAndi d a imm s
  | .ori d a imm => Sys2Proof.Machine.execOri d a imm s
  | .xori d a imm => Sys2Proof.Machine.execXori d a imm s
  | .slti d a imm => Sys2Proof.Machine.execSlti d a imm s
  | .sltiu d a imm => Sys2Proof.Machine.execSltiu d a imm s
  | .slli w d a n => Sys2Proof.Machine.execSlli w d a n s
  | .srli w d a n => Sys2Proof.Machine.execSrli w d a n s
  | .srai w d a n => Sys2Proof.Machine.execSrai w d a n s
  | .lui d imm => Sys2Proof.Machine.execLui d imm s
  | .addhi d a imm => Sys2Proof.Machine.execAddhi d a imm s
  | .addpc d imm => Sys2Proof.Machine.execAddpc d imm s
  | .ldb d a imm => Sys2Proof.Machine.execLdb d a imm s
  | .ldbu d a imm => Sys2Proof.Machine.execLdbu d a imm s
  | .ldh d a imm => Sys2Proof.Machine.execLdh d a imm s
  | .ldhu d a imm => Sys2Proof.Machine.execLdhu d a imm s
  | .ldw d a imm => Sys2Proof.Machine.execLdw d a imm s
  | .ldwu d a imm => Sys2Proof.Machine.execLdwu d a imm s
  | .ldd d a imm => Sys2Proof.Machine.execLdd d a imm s
  | .stb d a imm => Sys2Proof.Machine.execStb d a imm s
  | .sth d a imm => Sys2Proof.Machine.execSth d a imm s
  | .stw d a imm => Sys2Proof.Machine.execStw d a imm s
  | .std d a imm => Sys2Proof.Machine.execStd d a imm s
  | .ldacq w sc d a => Sys2Proof.Machine.execLdacq w sc d a s
  | .strel w sc a b => Sys2Proof.Machine.execStrel w sc a b s
  | .aadd w sc o d a b => Sys2Proof.Machine.execAadd w sc o d a b s
  | .aand w sc o d a b => Sys2Proof.Machine.execAand w sc o d a b s
  | .aor w sc o d a b => Sys2Proof.Machine.execAor w sc o d a b s
  | .axor w sc o d a b => Sys2Proof.Machine.execAxor w sc o d a b s
  | .amin w sc o d a b => Sys2Proof.Machine.execAmin w sc o d a b s
  | .amax w sc o d a b => Sys2Proof.Machine.execAmax w sc o d a b s
  | .aminu w sc o d a b => Sys2Proof.Machine.execAminu w sc o d a b s
  | .amaxu w sc o d a b => Sys2Proof.Machine.execAmaxu w sc o d a b s
  | .aswp w sc o d a b => Sys2Proof.Machine.execAswp w sc o d a b s
  | .acas w sc o d a b => Sys2Proof.Machine.execAcas w sc o d a b s
  | .phaseEnd sc => Sys2Proof.Machine.execPhaseEnd sc s
  | .phaseBegin sc => Sys2Proof.Machine.execPhaseBegin sc s
  | .phaseFull sc => Sys2Proof.Machine.execPhaseFull sc s
  | .beq a b off => Sys2Proof.Machine.execBeq a b off s
  | .bne a b off => Sys2Proof.Machine.execBne a b off s
  | .blt a b off => Sys2Proof.Machine.execBlt a b off s
  | .bge a b off => Sys2Proof.Machine.execBge a b off s
  | .bltu a b off => Sys2Proof.Machine.execBltu a b off s
  | .bgeu a b off => Sys2Proof.Machine.execBgeu a b off s
  | .jmp off => Sys2Proof.Machine.execJmp off s
  | .jal off => Sys2Proof.Machine.execJal off s
  | .jalr d a imm => Sys2Proof.Machine.execJalr d a imm s
  | .vex cnt loff => Sys2Proof.Machine.execVex cnt loff s
  | .vexr a b => Sys2Proof.Machine.execVexr a b s
  | .srqpop d => Sys2Proof.Machine.execSrqpop d s
  | .vgrow n => Sys2Proof.Machine.execVgrow n s
  | .vgrowTry d n => Sys2Proof.Machine.execVgrowTry d n s
  | .vshrink n => Sys2Proof.Machine.execVshrink n s
  | .task a => Sys2Proof.Machine.execTask a s
  | .twait k => Sys2Proof.Machine.execTwait k s
  | .agdecl d a => Sys2Proof.Machine.execAgdecl d a s
  | .agdrop a => Sys2Proof.Machine.execAgdrop a s
  | .seal d a => Sys2Proof.Machine.execSeal d a s
  | .settle a => Sys2Proof.Machine.execSettle a s
  | .launch d a b => Sys2Proof.Machine.execLaunch d a b s
  | .bar level id => Sys2Proof.Machine.execBar level id s
  | .mfs d n => Sys2Proof.Machine.execMfs d n s
  | .mfsTrapinfo d => Sys2Proof.Machine.execMfsTrapinfo d s
  | .mts a n => Sys2Proof.Machine.execMts a n s
  | .mtsTrapinfo a => Sys2Proof.Machine.execMtsTrapinfo a s
  | .mtsLbr a => Sys2Proof.Machine.execMtsLbr a s
  | .mtsFpstat a => Sys2Proof.Machine.execMtsFpstat a s
  | .mtsAllowance a => Sys2Proof.Machine.execMtsAllowance a s
  | .mtsResume a => Sys2Proof.Machine.execMtsResume a s
  | .trap code => Sys2Proof.Machine.execTrap code s
  | .chbind d a => Sys2Proof.Machine.execChbind d a s
  | .chfree a => Sys2Proof.Machine.execChfree a s
  | .nap a => Sys2Proof.Machine.execNap a s
  | .extfree d a => Sys2Proof.Machine.execExtfree d a s
  | .nop g => Sys2Proof.Machine.execNop g s
  | .mov g h d a => Sys2Proof.Machine.execMov g h d a s
  | .movi g d imm => Sys2Proof.Machine.execMovi g d imm s
  | .waitf g n mode => Sys2Proof.Machine.execWaitf g n mode s
  | .bswz g d a b sel => Sys2Proof.Machine.execBswz g d a b sel s
  | .iadd g h d a b => Sys2Proof.Machine.execIadd g h d a b s
  | .isub g h d a b => Sys2Proof.Machine.execIsub g h d a b s
  | .iadds g u d a b => Sys2Proof.Machine.execIadds g u d a b s
  | .isubs g u d a b => Sys2Proof.Machine.execIsubs g u d a b s
  | .imul g d a b => Sys2Proof.Machine.execImul g d a b s
  | .imulh g d a b => Sys2Proof.Machine.execImulh g d a b s
  | .imulhu g d a b => Sys2Proof.Machine.execImulhu g d a b s
  | .imad g d a b c => Sys2Proof.Machine.execImad g d a b c s
  | .imin g h d a b => Sys2Proof.Machine.execImin g h d a b s
  | .imax g h d a b => Sys2Proof.Machine.execImax g h d a b s
  | .iminu g d a b => Sys2Proof.Machine.execIminu g d a b s
  | .imaxu g d a b => Sys2Proof.Machine.execImaxu g d a b s
  | .iabs g d a => Sys2Proof.Machine.execIabs g d a s
  | .ineg g d a => Sys2Proof.Machine.execIneg g d a s
  | .laneAnd g h d a b => Sys2Proof.Machine.execLaneAnd g h d a b s
  | .laneOr g h d a b => Sys2Proof.Machine.execLaneOr g h d a b s
  | .laneXor g h d a b => Sys2Proof.Machine.execLaneXor g h d a b s
  | .laneAndn g d a b => Sys2Proof.Machine.execLaneAndn g d a b s
  | .laneNot g d a => Sys2Proof.Machine.execLaneNot g d a s
  | .shl g h d a b => Sys2Proof.Machine.execShl g h d a b s
  | .shr g h d a b => Sys2Proof.Machine.execShr g h d a b s
  | .sar g h d a b => Sys2Proof.Machine.execSar g h d a b s
  | .rol g d a b => Sys2Proof.Machine.execRol g d a b s
  | .ror g d a b => Sys2Proof.Machine.execRor g d a b s
  | .laneClz g d a => Sys2Proof.Machine.execLaneClz g d a s
  | .lanePopc g d a => Sys2Proof.Machine.execLanePopc g d a s
  | .brev g d a => Sys2Proof.Machine.execBrev g d a s
  | .bfx g u d a b => Sys2Proof.Machine.execBfx g u d a b s
  | .bfi g d a b c => Sys2Proof.Machine.execBfi g d a b c s
  | .idivu g d a b => Sys2Proof.Machine.execIdivu g d a b s
  | .iremu g d a b => Sys2Proof.Machine.execIremu g d a b s
  | .iaddc g d a b co cen ci => Sys2Proof.Machine.execIaddc g d a b co cen ci s
  | .icmp g cc p a b => Sys2Proof.Machine.execIcmp g cc p a b s
  | .fcmp g cc p a b => Sys2Proof.Machine.execFcmp g cc p a b s
  | .pand g na nb p a b => Sys2Proof.Machine.execPand g na nb p a b s
  | .por g na nb p a b => Sys2Proof.Machine.execPor g na nb p a b s
  | .pxor g na nb p a b => Sys2Proof.Machine.execPxor g na nb p a b s
  | .pnot g p a => Sys2Proof.Machine.execPnot g p a s
  | .pmov g p a k => Sys2Proof.Machine.execPmov g p a k s
  | .pget g d => Sys2Proof.Machine.execPget g d s
  | .sel g h neg k d a b => Sys2Proof.Machine.execSel g h neg k d a b s
  | .mset neg p => Sys2Proof.Machine.execMset neg p s
  | .mrst u => Sys2Proof.Machine.execMrst u s
  | .mget d => Sys2Proof.Machine.execMget d s
  | .mnot u => Sys2Proof.Machine.execMnot u s
  | .shfl g mode width d a b q => Sys2Proof.Machine.execShfl g mode width d a b q s
  | .vote g kind d p => Sys2Proof.Machine.execVote g kind d p s
  | .lred g op d a => Sys2Proof.Machine.execLred g op d a s
  | .lscan g op excl d a => Sys2Proof.Machine.execLscan g op excl d a s
  | .lfirst g d p => Sys2Proof.Machine.execLfirst g d p s
  | .bcast g d a j => Sys2Proof.Machine.execBcast g d a j s
  | .cvtif g dst src r sat d a => Sys2Proof.Machine.execCvtif g dst src r sat d a s
  | .cvtfi g dst src r d a => Sys2Proof.Machine.execCvtfi g dst src r d a s
  | .cvtff g dst src r sat d a => Sys2Proof.Machine.execCvtff g dst src r sat d a s
  | .pack g dst r sat d a b rest => Sys2Proof.Machine.execPack g dst r sat d a b rest s
  | .unpk g src d a j => Sys2Proof.Machine.execUnpk g src d a j s
  | .qbpi g r d a b => Sys2Proof.Machine.execQbpi g r d a b s
  | .fadd g h r d a b => Sys2Proof.Machine.execFadd g h r d a b s
  | .fsub g r d a b => Sys2Proof.Machine.execFsub g r d a b s
  | .fmul g h r d a b => Sys2Proof.Machine.execFmul g h r d a b s
  | .ffma g r d a b c => Sys2Proof.Machine.execFfma g r d a b c s
  | .fmin g h d a b => Sys2Proof.Machine.execFmin g h d a b s
  | .fmax g h d a b => Sys2Proof.Machine.execFmax g h d a b s
  | .fabs g d a => Sys2Proof.Machine.execFabs g d a s
  | .fneg g d a => Sys2Proof.Machine.execFneg g d a s
  | .frcp g r d a => Sys2Proof.Machine.execFrcp g r d a s
  | .frsq g r d a => Sys2Proof.Machine.execFrsq g r d a s
  | .fsqrt g r d a => Sys2Proof.Machine.execFsqrt g r d a s
  | .fdiv g r d a b => Sys2Proof.Machine.execFdiv g r d a b s
  | .fexp2 g d a => Sys2Proof.Machine.execFexp2 g d a s
  | .flog2 g d a => Sys2Proof.Machine.execFlog2 g d a s
  | .fsin g d a => Sys2Proof.Machine.execFsin g d a s
  | .fcos g d a => Sys2Proof.Machine.execFcos g d a s
  | .ftanh g d a => Sys2Proof.Machine.execFtanh g d a s
  | .fclass g d a => Sys2Proof.Machine.execFclass g d a s
  | .fscale g r d a b => Sys2Proof.Machine.execFscale g r d a b s
  | .hadd2 g bf r d a b => Sys2Proof.Machine.execHadd2 g bf r d a b s
  | .hmul2 g bf r d a b => Sys2Proof.Machine.execHmul2 g bf r d a b s
  | .hfma2 g bf r d a b c => Sys2Proof.Machine.execHfma2 g bf r d a b c s
  | .hmin2 g bf d a b => Sys2Proof.Machine.execHmin2 g bf d a b s
  | .hmax2 g bf d a b => Sys2Proof.Machine.execHmax2 g bf d a b s
  | .fdot8 g e5 mixed r d a b c => Sys2Proof.Machine.execFdot8 g e5 mixed r d a b c s
  | .ld g sz sc pol sx d base off disp => Sys2Proof.Machine.execLd g sz sc pol sx d base off disp s
  | .ldx g sz sc pol sx d base off disp => Sys2Proof.Machine.execLdx g sz sc pol sx d base off disp s
  | .st g sz sc pol base off disp c => Sys2Proof.Machine.execSt g sz sc pol base off disp c s
  | .push g sz sc ds base off disp c => Sys2Proof.Machine.execPush g sz sc ds base off disp c s
  | .atom g op scope o dbl sc d base off disp c => Sys2Proof.Machine.execAtom g op scope o dbl sc d base off disp c s
  | .atomn g op scope o dbl sc base off disp c => Sys2Proof.Machine.execAtomn g op scope o dbl sc base off disp c s
  | .laneAcas g scope o dbl sc d base off disp c => Sys2Proof.Machine.execLaneAcas g scope o dbl sc d base off disp c s
  | .disc g sc base off disp => Sys2Proof.Machine.execDisc g sc base off disp s
  | .pref g sc home base off disp => Sys2Proof.Machine.execPref g sc home base off disp s
  | .append g sz q d base disp c => Sys2Proof.Machine.execAppend g sz q d base disp c s
  | .tailq g d base disp => Sys2Proof.Machine.execTailq g d base disp s
  | .lda g q d h lo hi => Sys2Proof.Machine.execLda g q d h lo hi s
  | .find g q d h x => Sys2Proof.Machine.execFind g q d h x s
  | .pick g q d h r => Sys2Proof.Machine.execPick g q d h r s
  | .chst g d ch => Sys2Proof.Machine.execChst g d ch s
  | .chwait g ch k => Sys2Proof.Machine.execChwait g ch k s
  | .rnext g d a t => Sys2Proof.Machine.execRnext g d a t s
  | .rjump g d a t b c => Sys2Proof.Machine.execRjump g d a t b c s
  | .runi g f32 d a t => Sys2Proof.Machine.execRuni g f32 d a t s
  | .rdith g d a b => Sys2Proof.Machine.execRdith g d a b s
  | .ltrap g code => Sys2Proof.Machine.execLtrap g code s
  | .lbrk g => Sys2Proof.Machine.execLbrk g s
  | .ldxFill w id data poison => Sys2Proof.Machine.execLdxFill w id data poison s
  | .dataReply core line data priv poison pref => Sys2Proof.Machine.execDataReply core line data priv poison pref s
  | .writeBufferDrain w id => Sys2Proof.Machine.execWriteBufferDrain w id s
  | .classCheckRequest w => Sys2Proof.Machine.execClassCheckRequest w s
  | .loadRequest r => Sys2Proof.Machine.execLoadRequest r s
  | .storeRequest w id => Sys2Proof.Machine.execStoreRequest w id s
  | .pushRequest w id => Sys2Proof.Machine.execPushRequest w id s
  | .pushInstall core line data => Sys2Proof.Machine.execPushInstall core line data s
  | .gets slice line c => Sys2Proof.Machine.execGets slice line c s
  | .getx slice line c => Sys2Proof.Machine.execGetx slice line c s
  | .upg slice line c => Sys2Proof.Machine.execUpg slice line c s
  | .evs slice line c => Sys2Proof.Machine.execEvs slice line c s
  | .evx slice line c data => Sys2Proof.Machine.execEvx slice line c data s
  | .inv slice line c => Sys2Proof.Machine.execInv slice line c s
  | .rclDowngrade slice line c => Sys2Proof.Machine.execRclDowngrade slice line c s
  | .rclInvalidate slice line c => Sys2Proof.Machine.execRclInvalidate slice line c s
  | .acknowledgement slice line => Sys2Proof.Machine.execAcknowledgement slice line s
  | .recallReply slice line data => Sys2Proof.Machine.execRecallReply slice line data s
  | .grant slice line c owned data => Sys2Proof.Machine.execGrant slice line c owned data s
  | .pageRecall ctx page => Sys2Proof.Machine.execPageRecall ctx page s
  | .barArrival w level id => Sys2Proof.Machine.execBarArrival w level id s
  | .barRelease launch level id unit => Sys2Proof.Machine.execBarRelease launch level id unit s
  | .wload t seq => Sys2Proof.Machine.execWload t seq s
  | .mma t seq => Sys2Proof.Machine.execMma t seq s
  | .accz t seq => Sys2Proof.Machine.execAccz t seq s
  | .drain t seq => Sys2Proof.Machine.execDrain t seq s
  | .copyin t seq => Sys2Proof.Machine.execCopyin t seq s
  | .copyout t seq => Sys2Proof.Machine.execCopyout t seq s
  | .gather t seq => Sys2Proof.Machine.execGather t seq s
  | .fill t seq => Sys2Proof.Machine.execFill t seq s
  | .coll t seq => Sys2Proof.Machine.execColl t seq s
  | .collPiece ctx group seq member chunk data => Sys2Proof.Machine.execCollPiece ctx group seq member chunk data s
  | .illegalEncodingWord lane half reason => Sys2Proof.Machine.execIllegalEncodingWord lane half reason s
  | .storeAcknowledgement w id => Sys2Proof.Machine.execStoreAcknowledgement w id s
  | .translationConfirmation w => Sys2Proof.Machine.execTranslationConfirmation w s
  | .writeBack core line => Sys2Proof.Machine.execWriteBack core line s
  | .vsync => Sys2Proof.Machine.execVsync s
  | .brk => Sys2Proof.Machine.execBrk s
  | .exit => Sys2Proof.Machine.execExit s
  | .yieldTurn => Sys2Proof.Machine.execYieldTurn s
  | .mall => Sys2Proof.Machine.execMall s
  | .atomicRequest r => Sys2Proof.Machine.execAtomicRequest r s
  | .appendRequest ctx addr sz elems => Sys2Proof.Machine.execAppendRequest ctx addr sz elems s
  | .tailqRequest ctx addr => Sys2Proof.Machine.execTailqRequest ctx addr s
  | .sealRequest w addr => Sys2Proof.Machine.execSealRequest w addr s
  | .rangeLoadRequest ctx q => Sys2Proof.Machine.execRangeLoadRequest ctx q s
  | .dropRequest ctx handle => Sys2Proof.Machine.execDropRequest ctx handle s
  | .regionTableRequest region die quad => Sys2Proof.Machine.execRegionTableRequest region die quad s
  | .channelMessage src entry msg => Sys2Proof.Machine.execChannelMessage src entry msg s
  | .faultAnswer ticket fatal => Sys2Proof.Machine.execFaultAnswer ticket fatal s
  | .waitNotice ctx group seq member => Sys2Proof.Machine.execWaitNotice ctx group seq member s
  | .takePacket ctx queue binds => Sys2Proof.Machine.execTakePacket ctx queue binds s
  | .dispatch die => Sys2Proof.Machine.execDispatch die s
  | .afterParent launch => Sys2Proof.Machine.execAfterParent launch s
  | .completionRecord launch => Sys2Proof.Machine.execCompletionRecord launch s
  | .preempt core => Sys2Proof.Machine.execPreempt core s
  | .bankSwap core => Sys2Proof.Machine.execBankSwap core s
  | .spill core => Sys2Proof.Machine.execSpill core s
  | .relaunch t => Sys2Proof.Machine.execRelaunch t s
  | .clearing launch => Sys2Proof.Machine.execClearing launch s
  | .napExpiry w => Sys2Proof.Machine.execNapExpiry w s
  | .sampleTick core => Sys2Proof.Machine.execSampleTick core s
  | .rangeRegisterWrite ctx k w0 w1 w2 w3 => Sys2Proof.Machine.execRangeRegisterWrite ctx k w0 w1 w2 w3 s
  | .withdraw ctx page entry => Sys2Proof.Machine.execWithdraw ctx page entry s
  | .tierMove ctx page cxl ppn => Sys2Proof.Machine.execTierMove ctx page cxl ppn s
  | .extentCreate ctx r0 r1 => Sys2Proof.Machine.execExtentCreate ctx r0 r1 s
  | .queueRegister ctx control => Sys2Proof.Machine.execQueueRegister ctx control s
  | .groupRegister ctx handle record => Sys2Proof.Machine.execGroupRegister ctx handle record s
  | .memoryKeyRegister ctx key base len r w => Sys2Proof.Machine.execMemoryKeyRegister ctx key base len r w s
  | .contextCreate num mask numerics pool frames samples => Sys2Proof.Machine.execContextCreate num mask numerics pool frames samples s
  | .contextDestroy num => Sys2Proof.Machine.execContextDestroy num s
  | .teamKill t => Sys2Proof.Machine.execTeamKill t s
  | .launchCancel launch => Sys2Proof.Machine.execLaunchCancel launch s
  | .collectiveCancel ctx group seq => Sys2Proof.Machine.execCollectiveCancel ctx group seq s
  | .latencyReserveSet die cores => Sys2Proof.Machine.execLatencyReserveSet die cores s
  | .packageNumberAssign n => Sys2Proof.Machine.execPackageNumberAssign n s
  | .declareDead agent => Sys2Proof.Machine.execDeclareDead agent s
  | .pageHandover ctx page q => Sys2Proof.Machine.execPageHandover ctx page q s
  | .pageReturn ctx page data => Sys2Proof.Machine.execPageReturn ctx page data s
  | .hostRmaWrite key addr data => Sys2Proof.Machine.execHostRmaWrite key addr data s
  | .hostRmaRead key addr len => Sys2Proof.Machine.execHostRmaRead key addr len s
  | .hostAtomicCas key addr expected new => Sys2Proof.Machine.execHostAtomicCas key addr expected new s
  | .hostFetchAdd key addr x => Sys2Proof.Machine.execHostFetchAdd key addr x s
  | .linkCrcError link outcome => Sys2Proof.Machine.execLinkCrcError link outcome s
  | .cxlPortFail port => Sys2Proof.Machine.execCxlPortFail port s
  | .thermalGate die on => Sys2Proof.Machine.execThermalGate die on s
  | .thermalShutdown die => Sys2Proof.Machine.execThermalShutdown die s
  | .patrolScrub line bad => Sys2Proof.Machine.execPatrolScrub line bad s
  | .boot image => Sys2Proof.Machine.execBoot image s
  | .recoveryImage image => Sys2Proof.Machine.execRecoveryImage image s
  | .spdmRequest index => Sys2Proof.Machine.execSpdmRequest index s
  | .managementReadback what => Sys2Proof.Machine.execManagementReadback what s
  | .stop cap t => Sys2Proof.Machine.execStop cap t s
  | .resume cap t => Sys2Proof.Machine.execResume cap t s
  | .step cap w lane => Sys2Proof.Machine.execStep cap w lane s
  | .read cap w item => Sys2Proof.Machine.execRead cap w item s
  | .write cap w item x force => Sys2Proof.Machine.execWrite cap w item x force s
  | .memread cap ctx addr len => Sys2Proof.Machine.execMemread cap ctx addr len s
  | .memwrite cap ctx addr data => Sys2Proof.Machine.execMemwrite cap ctx addr data s
  | .breakpoint cap ctx slot set => Sys2Proof.Machine.execBreakpoint cap ctx slot set s
  | .watch cap ctx slot set => Sys2Proof.Machine.execWatch cap ctx slot set s
  | .trapstop cap ctx on => Sys2Proof.Machine.execTrapstop cap ctx on s
  | .abandon cap ctx group seq => Sys2Proof.Machine.execAbandon cap ctx group seq s
  | .delegate cap rights => Sys2Proof.Machine.execDelegate cap rights s
  | .revoke cap target => Sys2Proof.Machine.execRevoke cap target s
  | .pageTableRootWrite ctx root => Sys2Proof.Machine.execPageTableRootWrite ctx root s
  | .coreTakenOffline core => Sys2Proof.Machine.execCoreTakenOffline core s
  | .coreReturns core => Sys2Proof.Machine.execCoreReturns core s
  | .agentReturn agent => Sys2Proof.Machine.execAgentReturn agent s
  | .loadRequestRemote ctx line q => Sys2Proof.Machine.execLoadRequestRemote ctx line q s

end Sys2Proof.Machine
end

