-- ==== Sys2Proof/Machine/Ahead.lean ====
section
/-!
DEFINITION. Lane accesses that issue before the oldest word has retired (01:R27, R29): the lanes of a load read, those of a write
are checked, and those whose pages are missing park, while older words wait. A word that has no part outside the registers
shows nothing when it executes early, since its results are seen only once it has retired: those words execute as they
retire (log 4).
-/

namespace Sys2Proof.Machine

open Sys2Proof

/-- The warp as it stands for the word n words after its oldest one: that word is the oldest, and the entries are those of the
older ones. -/
def Warp.ahead (w : Warp) (n : Nat) : Warp :=
  { w with
    queue := (List.range n).foldl (fun q _ => skipWord q) w.queue
    rob := (w.rob.filter (fun e => decide (e.ahead < n))).map (fun e =>
      { e with ahead := e.ahead + 1, park := if e.ahead = 0 then w.parkL else e.park })
    parkL := none, check := .idle, ask := none, done := [], xDone := false }

/-- The word that stands n words after the oldest one, as it would be fetched now. -/
def State.wordAt (s : State) (n : Nat) : Option LaneWord :=
  let t := s.onWarp (fun w => w.ahead n)
  if t.warp.queue.isEmpty then none
  else match t.fetch true (t.warp.LPC.zeroExtend 64) 12 with
    | .ok _ bs => some (laneOfBytes bs)
    | .wait _ _ => none
    | .trap _ _ => none

/-- The instructions of a word. -/
def wordParts : LaneWord → List Instr
  | .single i => [i]
  | .pair x y => [x, y]

/-! ### What an older word holds back -/

/-- A mask instruction: every younger word issues after it (02:R43; 26:R411). -/
def isMask : Instr → Bool
  | .mset _ _ => true
  | .mrst _ => true
  | .mget _ => true
  | .mnot _ => true
  | .mall => true
  | _ => false

/-- The predicate that an instruction writes. -/
def predWritten : Instr → Option Pred
  | .icmp _ _ p _ _ => some p
  | .fcmp _ _ p _ _ => some p
  | .pand _ _ _ p _ _ => some p
  | .por _ _ _ p _ _ => some p
  | .pxor _ _ _ p _ _ => some p
  | .pnot _ p _ => some p
  | .pmov _ p _ _ => some p
  | .iaddc _ _ _ _ p _ _ => some p
  | .shfl _ _ _ _ _ _ p => some p
  | .append _ _ p _ _ _ _ => some p
  | .lda _ p _ _ _ _ => some p
  | .find _ p _ _ _ => some p
  | .pick _ p _ _ _ => some p
  | _ => none

/-- An instruction must not come before an older one: that is none, or a mask instruction, or writes its guard or one of its
sources. -/
def needsOlder (u : LaneUse) (i : Instr) : Bool :=
  isMask i || (match i with | .illegalEncodingWord _ _ _ => true | _ => false) ||
    (match predWritten i with | some p => p != 0 && p == u.g.p | none => false) ||
    (Instr.use i).writes.any (fun r => u.reads.any (fun x => x.1 == r))

/-- An instruction that stands n words after the oldest one depends on no word before it. -/
def State.apart (s : State) (u : LaneUse) (n : Nat) : Bool :=
  (List.range n).all (fun k => match s.wordAt k with
    | some w => (wordParts w).all (fun i => !needsOlder u i)
    | none => false)

/-! ### Accesses that issue ahead -/

/-- What an access that issues ahead does there. -/
inductive AheadKind where
  | load (home : Bool)
  | detached (home : Bool)
  | write (aperture read : Bool)
  deriving DecidableEq, Repr

/-- A lane access whose operands stand in registers, constants or uniforms. -/
structure AheadAccess where
  use : LaneUse
  kind : AheadKind
  size : Nat
  scale : Nat
  disp : W32
  /-- an atomic that acquires: no younger access comes before it (10:R201) -/
  acquires : Bool := false

def AheadAccess.writes (l : AheadAccess) : Bool := match l.kind with | .write _ _ => true | .load _ => false | .detached _ => false
def AheadAccess.home (l : AheadAccess) : Bool := match l.kind with | .load h => h | .detached h => h | .write _ _ => true

def AheadAccess.perms (l : AheadAccess) : List Perm :=
  match l.kind with | .write _ true => [.r, .w] | .write _ false => [.w] | .load _ => [.r] | .detached _ => [.r]

def AheadAccess.aperture (l : AheadAccess) : Bool := match l.kind with | .write a _ => a | .load _ => true | .detached _ => true

/-- The access that an instruction makes. -/
def accessOf (i : Instr) : Option AheadAccess :=
  match i with
  | .ld g sz sc pol sx d base off disp =>
    some ⟨Instr.use (.ld g sz sc pol sx d base off disp), .load (Policy.home pol), sz.bytes, sc.mul, disp, false⟩
  | .ldx g sz sc pol sx d base off disp =>
    some ⟨Instr.use (.ldx g sz sc pol sx d base off disp), .detached (Policy.home pol), sz.bytes, sc.mul, disp, false⟩
  | .st g sz sc pol base off disp c => some ⟨Instr.use (.st g sz sc pol base off disp c), .write true false, sz.bytes, sc.mul, disp, false⟩
  | .push g sz sc ds base off disp c => some ⟨Instr.use (.push g sz sc ds base off disp c), .write false false, sz.bytes, sc.mul, disp, false⟩
  | .atom g op scope o dbl sc d base off disp c =>
    some ⟨Instr.use (.atom g op scope o dbl sc d base off disp c), .write true true, widthOf dbl, sc.mul, disp, Order.acquires o⟩
  | .atomn g op scope o dbl sc base off disp c =>
    some ⟨Instr.use (.atomn g op scope o dbl sc base off disp c), .write true true, widthOf dbl, sc.mul, disp, false⟩
  | .laneAcas g scope o dbl sc d base off disp c =>
    some ⟨Instr.use (.laneAcas g scope o dbl sc d base off disp c), .write true true, widthOf dbl, sc.mul, disp, Order.acquires o⟩
  | .disc g sc base off disp => some ⟨Instr.use (.disc g sc base off disp), .write true false, 1, sc.mul, disp, false⟩
  | _ => none

/-- The access that may issue ahead of older words: one that takes no message, and is no DISC. -/
def aheadAccess (i : Instr) : Option AheadAccess :=
  match i with
  | .disc _ _ _ _ _ => none
  | i => (accessOf i).filter (fun l => l.use.srcs.all (fun x => !x.1.isChan))

/-- The lanes of the access that stands n words after the oldest one: from the operands that it has logged, else from the
registers if no older word still writes them. -/
def State.lanesAt (s : State) (l : AheadAccess) (n : Nat) : Option (List LaneAddr) :=
  match s.warp.rob.find? (fun e => e.ahead == n && !e.offs.isEmpty) with
  | some e => some ((⟨e.active, e.base, fun k => e.offs.getD k 0, fun _ => [], s⟩ : LaneArgs).addrs l.scale l.disp)
  | none =>
    if l.use.srcs.all (fun x => !x.1.isChan) && s.apart l.use n then
      some (((s.onWarp (fun w => w.ahead n)).readArgs l.use).addrs l.scale l.disp)
    else none

/-- Two lane accesses share bytes of the scratchpad, or a line. -/
def State.meets (s : State) (x : LaneAddr) (n : Nat) (y : LaneAddr) (m : Nat) : Bool :=
  if inAperture x.2 != inAperture y.2 then false
  else if inAperture x.2 then decide (x.2.toNat < y.2.toNat + m) && decide (y.2.toNat < x.2.toNat + n)
  else iaOf s.ctx .r x.2 / 128 == iaOf s.ctx .r y.2 / 128

/-- Two lane accesses go to one home. -/
def State.sameHome (s : State) (x y : LaneAddr) : Bool :=
  !inAperture x.2 && !inAperture y.2 && s.home (iaOf s.ctx .r x.2) == s.home (iaOf s.ctx .r y.2)

/-- An access with lanes may come before the older access that stands k words after the oldest word: that one does not acquire;
a load reads nothing that the older one writes (09:R181; 10:R195); and of two accesses that are performed at one home the older
one comes first (09:R184). The check of a write leaves nothing, and waits for none of this but the acquire. -/
def State.overtakes (s : State) (l : AheadAccess) (lanes : List LaneAddr) (k : Nat) (o : AheadAccess) : Bool :=
  !o.acquires && (l.writes ||
    (match s.lanesAt o k with
     | none => false
     | some olds =>
       !(o.writes && lanes.any (fun x => olds.any (fun y => s.meets x l.size y o.size))) &&
         !(l.home && o.home && lanes.any (fun x => olds.any (fun y => s.sameHome x y)))))

/-- An access that stands behind a word of another kind: an APPEND, a TAILQ and a range load are performed at a home that their
operands do not show, and an APPEND writes there. -/
def waitsFor (l : AheadAccess) : Instr → Bool
  | .append _ _ _ _ _ _ _ => !l.writes
  | .tailq _ _ _ _ => !l.writes && l.home
  | .lda _ _ _ _ _ _ => !l.writes && l.home
  | .find _ _ _ _ _ => !l.writes && l.home
  | .pick _ _ _ _ _ => !l.writes && l.home
  | _ => false

/-- The access passes the older word that stands k words after the oldest one. -/
def State.passes (s : State) (l : AheadAccess) (lanes : List LaneAddr) (k : Nat) : Bool :=
  match s.wordAt k with
  | none => false
  | some w => (wordParts w).all (fun i => !needsOlder l.use i && !waitsFor l i &&
      (match accessOf i with | some o => s.overtakes l lanes k o | none => true))

/-- An older access of the warp is parked at the home of a lane (20:R326). -/
def Warp.parkedBefore (w : Warp) (n : Nat) (h : HomeOf) : Bool :=
  parkedAt h w.parkS || parkedAt h w.parkL || w.rob.any (fun e => decide (e.ahead < n) && parkedAt h e.park)

/-- The entry of an access that has issued ahead. -/
def aheadEntry (n : Nat) (w : Warp) (a : LaneArgs) (passed : Mask) (got : List (Nat × List Byte) × Mask) (ias : List (Nat × Nat))
    (gone : Mask) : RobEntry :=
  RobEntry.log ⟨n, w.LPC, 0, 0, [], [], ias, passed, gone, got.1, got.2, w.parkL, gone != 0⟩ a

/-- What younger loads have read of the lines that an older one reads now is read again (09:R181). -/
def RobEntry.behind (e : RobEntry) (n : Nat) (ias : List Nat) : RobEntry :=
  if n < e.ahead ∧ e.ias.any (fun x => ias.any (fun a => a / 128 == x.2 / 128)) then e.again else e

/-- The part of an access that is done ahead, in a state in which it is the oldest word: a load reads the lanes whose pages are
there, the lanes of a write that pass its class check have passed it (10:R193), and the others park (01:R29). -/
def State.doAhead (s : State) (l : AheadAccess) (outside : List (Nat × W64 × Nat)) (gone : Mask) :
    Option (State × Mask × (List (Nat × List Byte) × Mask)) :=
  let there := outside.filter (fun x => !gone.has x.1)
  if l.writes then some (s.touchAll (outside.map (fun x => x.2.2)), maskOf ((s.passing true l.size there).map Prod.fst), ([], 0))
  else if s.fenceBusy || there.any (fun x => s.laneWaits l.home x.2.2) then none
  else match s.readNow l.size l.home there with
    | .ok s got => some (s, maskOf (got.1.map Prod.fst), got)
    | .wait _ _ => none
    | .trap _ _ => none

/-- The access issues, and the warp gets its entry. -/
def State.startAhead (s : State) (n : Nat) (l : AheadAccess) : Option State :=
  let w := s.warp
  let full := decide (Config.operandLog ≤ s.logUsed)
  let v := s.onWarp (fun w => w.ahead n)
  match l.use.gate v with
  | .wait _ => none
  | .trap _ => none
  | .late _ => none
  | .go =>
    let a := v.readArgs l.use
    let lanes := a.addrs l.scale l.disp
    if full || v.scratchBusy l.writes l.size lanes || !(List.range n).all (s.passes l lanes) then none
    else match v.issueLane l.perms l.aperture l.size l.size lanes with
      | .wait _ _ => none
      | .trap _ _ => none
      | .ok v _ =>
        let ias := v.iasOf (l.perms.getLastD .r) lanes
        let outside := (lanes.filter (fun x => !inAperture x.2)).map (fun x => (x.1, x.2, iaOf v.ctx (l.perms.getLastD .r) x.2))
        let missing := v.missing (l.home || (match l.kind with | .detached _ => true | .load _ => false | .write _ _ => true)) outside
        let gone := maskOf (missing.map Prod.fst)
        if outside.any (fun x => w.parkedBefore n (v.home x.2.2)) then none
        else match v.doAhead l outside gone with
          | none => none
          | some (v, passed, got) =>
            let v := (v.parkLanes l.writes missing).getD v
            let e := aheadEntry n v.warp a passed got ias gone
            let rob := (w.rob.filter (fun x => decide (x.ahead < n))) ++
              e :: (w.rob.filter (fun x => decide (n < x.ahead))).map (fun x =>
                if l.writes then x else x.behind n (ias.map Prod.snd))
            some (v.onWarp (fun _ => { w with rob := rob }))

/-- The lane stream issues the word n words after its oldest one, if that is an access that can issue. -/
def State.issueAhead (s : State) (n : Nat) : Option State :=
  if n = 0 ∨ s.team.hdr.robSize ≤ n ∨ s.warp.queue.isEmpty ∨ s.warp.rob.any (fun e => e.ahead == n) ∨
      !s.warp.laneMay ∨ !s.issues s.warp ∨ s.warp.pendTrap.isSome then none
  else match s.wordAt n with
    | some (.single i) =>
      (match aheadAccess i with
       | some l => s.startAhead n l
       | none => none)
    | some (.pair _ _) => none
    | none => none

/-- The oldest access that can issue while the oldest word waits (01:R27, R29). -/
def State.nextAhead (s : State) : Option State :=
  if s.warp.parkL.isNone && !s.warp.laneStalled then none
  else (List.range s.team.hdr.robSize).findSome? (fun n => s.issueAhead n)

end Sys2Proof.Machine
end

