-- ==== Sys2Proof/Machine/Messages.lean ====
section
/-!
DEFINITION. The classes of the fabric's messages and the order in which they arrive (24:R378 to R380). AGG and WALK messages carry the
accesses of an aggregate engine to its element lines and the reads of a page walk: those accesses are parts of the step that
makes them, and no message of these classes is ever under way between two steps (log 9).
-/

namespace Sys2Proof.Machine

open Sys2Proof

/-- The classes of R378. -/
inductive MsgClass where
  | req | rsp | coh | push | chan | agg | walk
  deriving DecidableEq, Repr

/-- An agent: what sends and takes messages (R379). -/
inductive Party where
  | core (n : Nat)
  | slice (h : HomeOf)
  | engine (die quad : Nat)
  | package (q : BitVec 12)
  deriving DecidableEq, Repr

/-- The class of a message; a command of the driver or of a debugger, and work inside one agent, has none. The table of R378
names no barrier messages, pieces or write-backs of an L1: they go with the requests, the acknowledgements and the evictions
that they are like (DEDUCED, log 9). -/
def classOf : Instr → Option MsgClass
  | .loadRequest _ => some .req
  | .storeRequest _ _ => some .req
  | .pushRequest _ _ => some .req
  | .classCheckRequest _ => some .req
  | .atomicRequest _ => some .req
  | .appendRequest _ _ _ _ => some .req
  | .tailqRequest _ _ => some .req
  | .sealRequest _ _ => some .req
  | .rangeLoadRequest _ _ => some .req
  | .dropRequest _ _ => some .req
  | .barArrival _ _ _ => some .req
  | .collPiece _ _ _ _ _ _ => some .req
  | .regionTableRequest _ _ _ => some .req
  | .gets _ _ _ => some .req
  | .getx _ _ _ => some .req
  | .upg _ _ _ => some .req
  | .hostRmaWrite _ _ _ => some .req
  | .hostRmaRead _ _ _ => some .req
  | .hostAtomicCas _ _ _ _ => some .req
  | .hostFetchAdd _ _ _ => some .req
  | .loadRequestRemote _ _ _ => some .req
  | .dataReply _ _ _ _ _ _ => some .rsp
  | .ldxFill _ _ _ _ => some .rsp
  | .grant _ _ _ _ _ => some .rsp
  | .acknowledgement _ _ => some .rsp
  | .recallReply _ _ _ => some .rsp
  | .storeAcknowledgement _ _ => some .rsp
  | .barRelease _ _ _ _ => some .rsp
  | .translationConfirmation _ => some .rsp
  | .inv _ _ _ => some .coh
  | .rclDowngrade _ _ _ => some .coh
  | .rclInvalidate _ _ _ => some .coh
  | .evs _ _ _ => some .coh
  | .evx _ _ _ _ => some .coh
  | .pageRecall _ _ => some .coh
  | .writeBack _ _ => some .coh
  | .pageHandover _ _ _ => some .coh
  | .pageReturn _ _ _ => some .coh
  | .pushInstall _ _ _ => some .push
  | .channelMessage _ _ _ => some .chan
  | _ => none

/-- A node of the directory: a core, or the slice of a die that is the proxy of a line. -/
def State.nodeParty (s : State) (line : Nat) : Node → Party
  | .core n => .core n
  | .die d => .slice (s.sliceOf (.proxy d) line)

/-- The core on which a warp runs. -/
def State.warpCore (s : State) (k : WarpKey) : Nat := match s.teamOf k.teamKey with | some t => t.core | none => 0

/-- The slice to which an entry of a warp's write buffer goes, and from which its acknowledgement comes. -/
def State.entrySlice (s : State) (w : WarpKey) (id : Nat) : Option HomeOf :=
  ((s.warpOf w).bind (fun x => x.wbuf.find? (fun e => e.id == id))).map (fun e => s.homeFor (s.warpCore w) (untag e.line).2)

/-- Source and destination of a message, where it has one of each: what comes from several slices at once, and a reply that
names no sender, keep no order among themselves (log 9). -/
def State.partiesOf (s : State) (e : Instr) : Option (Party × Party) :=
  let home (line : Nat) : Party := .slice (homeOf s.dev (untag line).2)
  match e with
  | .loadRequest r => some (.core (s.warpCore r.who), .slice (s.homeFor (s.warpCore r.who) (r.line * 128)))
  | .storeRequest w id => (s.entrySlice w id).map (fun h => (.core (s.warpCore w), .slice h))
  | .pushRequest w id => (s.entrySlice w id).map (fun h => (.core (s.warpCore w), .slice h))
  | .storeAcknowledgement w id => (s.entrySlice w id).map (fun h => (.slice h, .core (s.warpCore w)))
  | .gets at' line c => some (s.nodeParty line c, .slice (s.sliceOf at' line))
  | .getx at' line c => some (s.nodeParty line c, .slice (s.sliceOf at' line))
  | .upg at' line c => some (s.nodeParty line c, .slice (s.sliceOf at' line))
  | .evs at' line c => some (s.nodeParty line c, .slice (s.sliceOf at' line))
  | .evx at' line c _ => some (s.nodeParty line c, .slice (s.sliceOf at' line))
  | .inv at' line c => some (.slice (s.sliceOf at' line), s.nodeParty line c)
  | .rclDowngrade at' line c => some (.slice (s.sliceOf at' line), s.nodeParty line c)
  | .rclInvalidate at' line c => some (.slice (s.sliceOf at' line), s.nodeParty line c)
  | .grant at' line c _ _ => some (.slice (s.sliceOf at' line), s.nodeParty line c)
  | .dataReply core line _ _ _ _ => some (home line, .core core)
  | .pushInstall core line _ => some (home line, .core core)
  | .channelMessage src entry _ =>
    (s.warpOf src).map (fun w =>
      (.core (s.warpCore src), .core (s.warpCore ⟨src.launch, (w.chan entry).team, (w.chan entry).pwarp⟩)))
  | .recallReply at' line _ => (s.ownerOf at' line (s.dirGet at' line)).map (fun o =>
      (s.nodeParty line o, .slice (s.sliceOf at' line)))
  | .writeBack core line => some (.core core, home line)
  | .atomicRequest r => some (.engine r.die r.quad, home (tagged r.ctx r.ia))
  | .loadRequestRemote ctx line x => some (.package x.package, home (tagged ctx (line * 128)))
  | .pageReturn ctx page (.back x _) => some (.package x.package, home (tagged ctx (page * 65536)))
  | .pageReturn ctx page (.dropped x) => some (.package x.package, home (tagged ctx (page * 65536)))
  | _ => none

/-- Two messages between which R379 keeps the order in which they were sent: one class, one source and one destination. -/
def State.inOrder (s : State) (a b : Instr) : Bool :=
  match classOf a, classOf b, s.partiesOf a, s.partiesOf b with
  | some c, some d, some p, some q => c == d && p == q
  | _, _, _, _ => false

/-- The PDC under whose order a host's operation is performed (24:R392). -/
def rodOf : Instr → Option Nat
  | .hostRmaWrite k _ _ => k.rod
  | .hostRmaRead k _ _ => k.rod
  | .hostAtomicCas k _ _ _ => k.rod
  | .hostFetchAdd k _ _ => k.rod
  | _ => none

/-- Two operations of one PDC under ROD. -/
def sameRod (a b : Instr) : Bool := match rodOf a, rodOf b with | some x, some y => x == y | _, _ => false

/-- The n-th message under way may arrive next: none that was sent before it must come first. A request that waits for room in a
slice's queue is still on its way; an operation under ROD waits until the one before it has been performed, wherever that
one waits (24:R379, R392). -/
def State.mayArrive (s : State) (n : Nat) : Bool :=
  match s.events[n]? with
  | none => false
  | some e => !(s.events.take n).any (fun x => s.inOrder x e || sameRod x e) &&
      !s.held.any (fun x => ((requestLine x).isSome && s.inOrder x e) || sameRod x e) &&
      !s.parked.any (fun x => sameRod x.2 e)

/-- The first message that may arrive, taken out. -/
def State.firstArrival (s : State) : Option (Instr × State) :=
  match (List.range s.events.length).find? s.mayArrive with
  | none => none
  | some n => s.events[n]?.map (fun e => (e, { s with events := s.events.eraseIdx n }))

end Sys2Proof.Machine
end

