-- ==== Sys2Proof/Machine/Idle.lean ====
section
/-!
DEFINITION. What happens when no stream of the warp in front goes on: Welhal's work on launches, dispatch, bank switches
and clearings (20:R330, R332, R333; 21:R340 to R348, R355), then the next warp in rotation.
-/

namespace Sys2Proof.Machine

open Sys2Proof

/-- The work on every launch that no team of it waits for. -/
def State.serveLaunches (s : State) : State :=
  (s.dev.launches.map (fun (l : Launch) => l.num)).foldl (fun s n => match s.launchOf n with
    | none => s
    | some l => s.stepLaunch l) s

/-- Bank switches go on. -/
def State.serveSwitches (s : State) : State :=
  (s.allCores.map (fun (c : Core) => c.id)).foldl (fun s n =>
    match (s.coreOf n).switch with
    | .none => s
    | .begun => s.bankSwap n
    | .spilling => s.endSpill n) s

/-- Teams end, start again, and launches end. -/
def State.serveTeams (s : State) : State :=
  let s := (s.allTeams.map (fun (t : Team) => t.key)).foldl (fun s k =>
    let s := s.loseColls k
    match s.teamOf k with
    | none => s
    | some t => (s.settleTeam t).relaunchTeam t) s
  (s.dev.launches.map (fun (l : Launch) => l.num)).foldl (fun s n => match s.launchOf n with
    | none => s
    | some l => s.settleLaunch l) s

/-- Dispatch on every die that has a valid slot. -/
def State.serveDies (s : State) : State :=
  ((List.range Config.dies).filter (fun d => s.dev.bindTab.any (fun b => b.die == d && b.valid))).foldl State.dispatchDie s

/-! ### Time slicing (21:R355) -/

/-- A team at the end of its quantum whose core a saved team of the launch waits for. The teams of a CORES launch stay together
(16:R285). -/
def State.sliceOut (exec : Instr → State → Result) (s : State) (l : Launch) : Option Team :=
  if l.cores then none
  else (s.launchTeams l.num).find? (fun t => t.status == .running && s.mayVacate [t] &&
    (s.launchTeams l.num).any (fun u => u.status == .saved && u.core == t.core && !s.quantumDone u) &&
    s.teamAtEnd exec l t)

/-- It is swapped out: every warp counts as at its quantum end, and what it holds for the clearing stays, the copy of a packet
that it is about to append with it. -/
def State.sliceTeam (exec : Instr → State → Result) (s : State) (t : Team) : State :=
  let back := s.warp.key
  let s := ((s.teamWarps t.key).filter (fun w => w.status == .running)).foldl (fun s w =>
    match State.stuck exec (s.focus w.key) with
    | some u => { u with held := s.held }
    | none => s) s
  let s := s.focus back
  let marks := (s.teamWarps t.key).map (fun w => (w.key, w.clearS, w.clearL, w.packet))
  let s := s.saveTeam t.key
  let s := s.mapWarps (fun w => w.key.teamKey == t.key && w.status != .exited) (fun w =>
    match marks.find? (fun m => m.1 == w.key) with
    | some m => { w with atEnd := true, clearS := m.2.1, clearL := m.2.2.1, packet := m.2.2.2 }
    | none => w)
  s.setCore { s.coreOf t.core with switch := .begun }

/-- The work on DET launches: a clearing that is under way, one that may begin, or a swap. -/
def State.serveDetLaunch (exec : Instr → State → Result) (s : State) (l : Launch) : State :=
  if l.clearing.isSome then s.stepClearing exec l
  else if s.mayClear exec l then s.beginClearing exec l
  else match s.sliceOut exec l with
    | some t => s.sliceTeam exec t
    | none => s

def State.serveClearings (exec : Instr → State → Result) (s : State) : State :=
  ((s.dev.launches.filter (fun l => l.det && l.bound && l.status == 0)).map (fun (l : Launch) => l.num)).foldl
    (fun s n => match s.launchOf n with
      | none => s
      | some l => s.serveDetLaunch exec l) s

/-- A ticket of kind 2 whose page stands at its home and is not held any more is resolved (20:R323, R328). -/
def State.serveHolds (s : State) : State :=
  s.allCtxs.foldl (fun s c =>
    (c.tickets.filter (fun r => bitsOf64 r.ticket 47 44 == 2 && !s.dev.pagesHeld.contains (pageKey c.num r.page) &&
      !s.dev.away c (r.page * 65536))).foldl (fun s r => s.answerTicket r.ticket false) s) s

/-- One round of Welhal's work. -/
def State.serveAll (exec : Instr → State → Result) (s : State) : State :=
  (((s.endFrees.serveHolds.serveQueues.serveLaunches.serveSwitches.serveTeams).serveGroups).serveClearings exec).serveDies

/-- No stream of the warp in front goes on: Welhal works, and the next warp comes to the front. -/
def State.idle (exec : Instr → State → Result) (s : State) : State := (s.serveAll exec).rotate

/-! ### The turn of the machine -/

/-- A stream of the warp in front may take its turn now. -/
def State.laneGoes (s : State) : Bool := s.warp.laneMay && !s.warp.laneStalled && s.issues s.warp
def State.scalarGoes (s : State) : Bool := s.warp.scalarMay && !s.warp.scalStalled && s.issues s.warp

/-- The turn of the warp in front: the lane stream first, then the scalar stream, then a load that can go ahead of a word that is
parked. -/
def runWarp (exec : Instr → State → Result) (s : State) : Result :=
  if s.turnsOver then .next (s.idle exec)
  else if s.laneGoes then (if s.scalarGoes then takeBoth exec s else takeTurn exec true s)
  else if s.scalarGoes then takeTurn exec false s
  else match s.nextAhead with
    | some s => .next s
    | none => .next (s.idle exec)

/-- A turn that `plan` names; one that cannot be taken changes nothing. -/
def runPlanned (exec : Instr → State → Result) (t : Turn) (s : State) : Result :=
  match t with
  | .event n =>
    match s.events[n]? with
    | some e => if s.mayArrive n then runMessage exec e { s with events := s.events.eraseIdx n } else .next s
    | none => .next s
  | .lane => if s.warp.laneMay && s.issues s.warp then takeTurn exec true s else .next s
  | .scalar => if s.warp.scalarMay && s.issues s.warp then takeTurn exec false s else .next s
  | .ahead n => .next ((s.issueAhead n).getD s)
  | .late => .next (s.onWarp (fun w => { w with late := true }))
  | .upset u single => .next (s.strike u single)
  | .switch k => .next (s.focus k)
  | .cycle core => .next (s.idleCycle core)
  | .ioDie n => .next (if n < 4 then { s with dev := { s.dev with hostDie := n } } else s)

/-- The next message, turn or idle round. -/
def runChosen (exec : Instr → State → Result) (s : State) : Result :=
  match s.plan with
  | t :: rest => runPlanned exec t { s with plan := rest }
  | [] =>
    match s.firstArrival with
    | some (e, s) => runMessage exec e s
    | none => runWarp exec s

/-- What the machine does next; requests that a slice has held and can serve now are served with it (17:R300). -/
def runNext (exec : Instr → State → Result) (s : State) : Result := andThen (runChosen exec s) (fun s => .next s.serveHeld)

end Sys2Proof.Machine
end

