-- ==== Sys2Proof/Machine/Step.lean ====
section
/-!
DEFINITION. One step of the machine: a message or a command is carried out, a stream of the warp in front takes its turn, or
the machine idles. What a step does is in Idle, Turns, Fetch and Schedule; the meanings are Dispatch's.
-/

namespace Sys2Proof.Machine

open Sys2Proof

/-- One step. -/
def step (s : State) : Host.Outcome State Fault Refusal := runNext exec s

/-- The machine with the given instruction, whose bits above `nbits` are zero, where its next step fetches. A machine
whose warp in front cannot fetch, as after reset, is loaded from outside first (Bench). -/
def State.withFetchWord (s : State) (nbits w : Nat) : State :=
  if nbits ≤ 32 then (s.placeScalar (BitVec.ofNat 32 w)).getD (s.bench.benchScalar (BitVec.ofNat 32 w))
  else (s.placeLane (BitVec.ofNat 96 w)).getD (s.bench.benchLane (BitVec.ofNat 96 w))

end Sys2Proof.Machine
end

