-- ==== Sys2Proof/Safety.lean ====
section
/-!
DEFINITION. What counts as a safe run: every step answers a next state. A run that the machine goes on with for `n` steps
has met no fault and no refusal.
-/

namespace Sys2Proof

open Sys2Proof.Machine

/-- The first `n` steps from a state all answer a next state. -/
def Safe : Nat → State → Prop
  | 0, _ => True
  | n + 1, s =>
    match step s with
    | .next t => Safe n t
    | .fault _ => False
    | .refused _ => False

end Sys2Proof
end

