-- ==== Sys2Proof/Certificates/Slice0/Obligations.lean ====
section
/-!
DEFINITION. The statements for the provers. The definitions in Sys2Proof.Claims say, in arithmetic of their own, what the
spec gives each group of instructions: values, frames, completion.
-/

namespace Sys2Proof.Claims

open Sys2Proof Sys2Proof.Machine

/-! ### Frames -/

/-- A byte of device memory. -/
def byteAt (s : State) (a : Nat) : Byte := Store.get s.dev.mem a

/-- A byte of the scratchpad of the team in front. -/
def scratchAt (s : State) (a : Nat) : Byte := Store.get s.team.scratch a

/-- Only the scalar registers, SPC and the stream's own marks (its stall and yield marks, its parked access, its wait at a home and
the address that its checks have given, what it passes after a debugger's stop, its place in a clearing, its count of the quantum)
differ: lane registers, masks, predicates, queues, channels, special registers, the trap record, the team, the caches and every
byte of memory are as before. -/
def ScalarOnly (s t : State) : Prop :=
  t = { s with warp := { s.warp with
    s := t.warp.s, spc := t.warp.spc, scalStalled := t.warp.scalStalled, laneStalled := t.warp.laneStalled
    yielded := t.warp.yielded, pass := t.warp.pass, parkS := t.warp.parkS, atHome := t.warp.atHome, scalIa := t.warp.scalIa
    late := t.warp.late, onPages := t.warp.onPages, clearS := t.warp.clearS, quantum := t.warp.quantum
    quantumEnd := t.warp.quantumEnd } } ∧
  ∀ a, byteAt t a = byteAt s a

/-- The checks at issue of a scalar access run: they count stall reason 8, once for an access (05:R102). -/
def counted (s : State) : State :=
  if s.warp.scalIa.isSome then s
  else { s with warp := { s.warp with stalls := s.warp.stalls.set 8 (s.warp.stalls.get 8 + 1) } }

/-- The checks have passed: the access at `a`, under the permission `p`, keeps the address that they have given, and is not
checked again while it waits (20:R317). -/
def issued (s : State) (p : Perm) (a : W64) : State :=
  if s.warp.scalIa.isSome then s
  else { counted s with warp := { (counted s).warp with scalIa := some (a, iaOf s.ctx p a) } }

/-- `sd := x`, discarded for s0; every other scalar register is unchanged. -/
def Wrote (s t : State) (d : SReg) (x : W64) : Prop :=
  ∀ r : SReg, t.S r = if r = d ∧ r ≠ 0 then x else s.S r

/-! ### Values of the scalar register instructions (05:R91 to R95) -/

/-- The register forms of ALU with their W bit: the function on operands of n bits, read as naturals or as integers. -/
def aluFn : Instr → Option (Bool × SReg × SReg × SReg × (∀ n : Nat, BitVec n → BitVec n → BitVec n))
  | .add w d a b => some (w, d, a, b, fun n x y => BitVec.ofNat n (x.toNat + y.toNat))
  | .sub w d a b => some (w, d, a, b, fun n x y => BitVec.ofInt n ((x.toNat : Int) - y.toNat))
  | .sAnd w d a b => some (w, d, a, b, fun n x y => BitVec.ofNat n (x.toNat &&& y.toNat))
  | .sOr w d a b => some (w, d, a, b, fun n x y => BitVec.ofNat n (x.toNat ||| y.toNat))
  | .sXor w d a b => some (w, d, a, b, fun n x y => BitVec.ofNat n (x.toNat ^^^ y.toNat))
  | .sAndn w d a b => some (w, d, a, b, fun n x y => BitVec.ofNat n (x.toNat &&& (2 ^ n - 1 - y.toNat)))
  | .sll w d a b => some (w, d, a, b, fun n x y => BitVec.ofNat n (x.toNat * 2 ^ (y.toNat % n)))
  | .srl w d a b => some (w, d, a, b, fun n x y => BitVec.ofNat n (x.toNat / 2 ^ (y.toNat % n)))
  | .sra w d a b => some (w, d, a, b, fun n x y => BitVec.ofInt n (x.toInt / 2 ^ (y.toNat % n)))
  | .mul w d a b => some (w, d, a, b, fun n x y => BitVec.ofNat n (x.toNat * y.toNat))
  | .mulh w d a b => some (w, d, a, b, fun n x y => BitVec.ofInt n (x.toInt * y.toInt / 2 ^ n))
  | .mulhu w d a b => some (w, d, a, b, fun n x y => BitVec.ofNat n (x.toNat * y.toNat / 2 ^ n))
  | .div w d a b => some (w, d, a, b, fun n x y => if y.toNat = 0 then BitVec.ofInt n (-1) else BitVec.ofInt n (x.toInt.tdiv y.toInt))
  | .divu w d a b => some (w, d, a, b, fun n x y => if y.toNat = 0 then BitVec.ofInt n (-1) else BitVec.ofNat n (x.toNat / y.toNat))
  | .rem w d a b => some (w, d, a, b, fun n x y => if y.toNat = 0 then x else BitVec.ofInt n (x.toInt.tmod y.toInt))
  | .remu w d a b => some (w, d, a, b, fun n x y => if y.toNat = 0 then x else BitVec.ofNat n (x.toNat % y.toNat))
  | .sMin w d a b => some (w, d, a, b, fun n x y => BitVec.ofInt n (min x.toInt y.toInt))
  | .sMax w d a b => some (w, d, a, b, fun n x y => BitVec.ofInt n (max x.toInt y.toInt))
  | .minu w d a b => some (w, d, a, b, fun n x y => BitVec.ofNat n (min x.toNat y.toNat))
  | .maxu w d a b => some (w, d, a, b, fun n x y => BitVec.ofNat n (max x.toNat y.toNat))
  | .slt w d a b => some (w, d, a, b, fun n x y => BitVec.ofNat n (if x.toInt < y.toInt then 1 else 0))
  | .sltu w d a b => some (w, d, a, b, fun n x y => BitVec.ofNat n (if x.toNat < y.toNat then 1 else 0))
  | _ => none

/-- `n` is the number of zeros above the highest one of a w-bit word. -/
def LeadingZeros (w x n : Nat) : Prop := n ≤ w ∧ x < 2 ^ (w - n) ∧ (n < w → 2 ^ (w - n - 1) ≤ x)
/-- `n` is the number of zeros below the lowest one of a w-bit word. -/
def TrailingZeros (w x n : Nat) : Prop := n ≤ w ∧ 2 ^ n ∣ x ∧ (n < w → ¬ 2 ^ (n + 1) ∣ x)
/-- `n` is the number of ones of a w-bit word. -/
def Ones (w x n : Nat) : Prop := n = (Finset.range w).sum (fun k => x / 2 ^ k % 2)

/-- CLZ, CTZ and POPC: what their count is of a w-bit word. -/
def countOf : Instr → Option (Bool × SReg × SReg × (Nat → Nat → Nat → Prop))
  | .sClz w d a => some (w, d, a, LeadingZeros)
  | .sCtz w d a => some (w, d, a, TrailingZeros)
  | .sPopc w d a => some (w, d, a, Ones)
  | _ => none

/-- The immediate forms: the destination and the value written. -/
def immValue (s : State) : Instr → Option (SReg × W64)
  | .addi d a i => some (d, BitVec.ofInt 64 ((s.S a).toInt + i.toInt))
  | .andi d a i => some (d, s.S a &&& BitVec.ofInt 64 i.toInt)
  | .ori d a i => some (d, s.S a ||| BitVec.ofNat 64 i.toNat)
  | .xori d a i => some (d, s.S a ^^^ BitVec.ofNat 64 i.toNat)
  | .slti d a i => some (d, if (s.S a).toInt < i.toInt then 1 else 0)
  | .sltiu d a i => some (d, if (s.S a).toNat < (BitVec.ofInt 64 i.toInt).toNat then 1 else 0)
  | .slli false d a n => some (d, BitVec.ofNat 64 ((s.S a).toNat * 2 ^ n.toNat))
  | .srli false d a n => some (d, BitVec.ofNat 64 ((s.S a).toNat / 2 ^ n.toNat))
  | .srai false d a n => some (d, BitVec.ofInt 64 ((s.S a).toInt / 2 ^ n.toNat))
  | .slli true d a n => some (d, BitVec.ofInt 64 (BitVec.ofNat 32 ((s.S a).toNat * 2 ^ n.toNat)).toInt)
  | .srli true d a n => some (d, BitVec.ofInt 64 (BitVec.ofNat 32 ((s.S a).toNat % 2 ^ 32 / 2 ^ n.toNat)).toInt)
  | .srai true d a n => some (d, BitVec.ofInt 64 ((BitVec.ofNat 32 (s.S a).toNat).toInt / 2 ^ n.toNat))
  | .lui d i => some (d, BitVec.ofInt 64 (i.toInt * 2 ^ 16))
  | .addhi d a i => some (d, BitVec.ofInt 64 ((s.S a).toInt + i.toInt * 2 ^ 16))
  | .addpc d i => some (d, BitVec.ofInt 64 (s.warp.spc.toInt + i.toInt * 4))
  | _ => none

/-! ### Branches and jumps (05:R96 to R98) -/

/-- The branches and jumps: whether the transfer is taken, the word offset, and whether s31 takes the return address. -/
def branchOf (s : State) : Instr → Option (Prop × Int × Bool)
  | .beq a b o => some (s.S a = s.S b, o.toInt, false)
  | .bne a b o => some (s.S a ≠ s.S b, o.toInt, false)
  | .blt a b o => some ((s.S a).toInt < (s.S b).toInt, o.toInt, false)
  | .bge a b o => some ((s.S b).toInt ≤ (s.S a).toInt, o.toInt, false)
  | .bltu a b o => some ((s.S a).toNat < (s.S b).toNat, o.toInt, false)
  | .bgeu a b o => some ((s.S b).toNat ≤ (s.S a).toNat, o.toInt, false)
  | .jmp o => some (True, o.toInt, false)
  | .jal o => some (True, o.toInt, true)
  | _ => none

/-! ### Scalar accesses (05:R101 to R104; 10:R207, R208) -/

/-- Bytes as a number, lowest address first (00:R5). -/
def leNat : List Byte → Nat
  | [] => 0
  | b :: rest => b.toNat + 256 * leNat rest

/-- n bytes extended to 64 bits, with the sign of their highest bit or with zeros. -/
def extended (signed : Bool) (bs : List Byte) : W64 :=
  if signed ∧ 2 ^ (8 * bs.length) ≤ 2 * leNat bs then BitVec.ofInt 64 ((leNat bs : Int) - 2 ^ (8 * bs.length))
  else BitVec.ofNat 64 (leNat bs)

/-- Byte k of a register. -/
def regByte (x : W64) (k : Nat) : Byte := BitVec.ofNat 8 (x.toNat / 256 ^ k)

/-- The loads: bytes, whether the sign is extended, destination, base, displacement. -/
def loadOf : Instr → Option (Nat × Bool × SReg × SReg × BitVec 16)
  | .ldb d a i => some (1, true, d, a, i)
  | .ldbu d a i => some (1, false, d, a, i)
  | .ldh d a i => some (2, true, d, a, i)
  | .ldhu d a i => some (2, false, d, a, i)
  | .ldw d a i => some (4, true, d, a, i)
  | .ldwu d a i => some (4, false, d, a, i)
  | .ldd d a i => some (8, false, d, a, i)
  | _ => none

/-- The stores: bytes, source, base, displacement. -/
def storeOf : Instr → Option (Nat × SReg × SReg × BitVec 16)
  | .stb d a i => some (1, d, a, i)
  | .sth d a i => some (2, d, a, i)
  | .stw d a i => some (4, d, a, i)
  | .std d a i => some (8, d, a, i)
  | _ => none

/-- The address S(sa) + imm. -/
def addrOf (s : State) (a : SReg) (imm : BitVec 16) : W64 := BitVec.ofInt 64 ((s.S a).toInt + imm.toInt)

/-- No watchpoint of the context covers a byte of the access with its kind. -/
def Unwatched (s : State) (perms : List Perm) (n : Nat) (a : W64) : Prop :=
  ∀ x ∈ s.ctx.watches, watched x.2 perms n a = false

/-- The scalar access has passed its checks before, or no watchpoint covers it. -/
def ScalarUnwatched (s : State) (perms : List Perm) (n : Nat) (a : W64) : Prop :=
  s.warp.scalIa.isSome = true ∨ Unwatched s perms n a

/-- An aligned access of n bytes inside the team's scratchpad. -/
def InScratch (s : State) (n : Nat) (a : W64) : Prop :=
  a.toNat % n = 0 ∧ 0x00FFFF0000000000 ≤ a.toNat ∧ a.toNat + n ≤ 0x00FFFF0000000000 + s.team.hdr.scratch ∧
    a.toNat < 0x00FFFF0000100000

/-- No doubleword of the scratchpad that the access meets holds an uncorrectable error (17:R305). -/
def SoundScratch (s : State) (n : Nat) (a : W64) : Prop :=
  ∀ k ∈ s.team.badScratch, ¬ (a.toNat - 0x00FFFF0000000000 < 8 * k + 8 ∧ 8 * k < a.toNat - 0x00FFFF0000000000 + n)

/-- The scratchpad bytes of an access. -/
def scratchBytes (s : State) (n : Nat) (a : W64) : List Byte :=
  (List.range n).map (fun k => scratchAt s (a.toNat - 0x00FFFF0000000000 + k))

/-- Doubleword k from an address of the scratchpad on. -/
def scratchWord (s : State) (a : W64) (k : Nat) : W64 := BitVec.ofNat 64 (leNat (scratchBytes s 8 (a + BitVec.ofNat 64 (8 * k))))

/-- Only the team's scratchpad and the marks of errors in it, which a write can only take away, and what `ScalarOnly` names,
differ. -/
def ScratchOnly (s t : State) : Prop :=
  ScalarOnly { s with team := { s.team with scratch := t.team.scratch, badScratch := t.team.badScratch } } t ∧
    ∀ k ∈ t.team.badScratch, k ∈ s.team.badScratch

/-- The access has passed its checks before, or they find no trap, no growth and no watchpoint. -/
def PassesIssue (s : State) (perms : List Perm) (aperture : Bool) (align n : Nat) (a : W64) : Prop :=
  s.warp.scalIa.isSome = true ∨
    (scalarTrap s perms aperture align n a = none ∧ growing s.ctx perms [(0, a)] = [] ∧ watchTrap s false perms n [(0, a)] = none)

/-- Nothing of the warp that a VSYNC or a PHASE orders before the access is still under way, and no slice that it needs holds it
behind a parked access, a request that its full queue keeps on the ring, or an older store of the stream (05:R113; 18:R310;
20:R326). -/
def Unheld (s : State) (ia : Nat) : Prop :=
  s.fenceBusy = false ∧ s.ringHolds ia = false ∧ s.homeHolds (s.home ia) false = false ∧ s.scalarBusy ia = false

/-- An aligned access of n bytes outside the scratchpad with the intermediate address `ia`: the one that its checks have given, or
the one at which every permission asked for lets it through. -/
def Checked (s : State) (perms : List Perm) (n : Nat) (a : W64) (ia : Nat) : Prop :=
  a.toNat % n = 0 ∧ inAperture a = false ∧
    ((s.warp.scalIa = some (a, ia) ∧ ia < 2 ^ 52) ∨ (s.warp.scalIa = none ∧ checkAll s.ctx a perms = .ok ia))

/-- The line of the core's L1 in which an intermediate address of the context lies. -/
def heldLine (s : State) (ia : Nat) : Option L1Line := (s.coreOf s.team.core).find (tagged s.ctx.num ia)

/-- The bytes that a page's entry takes in memory: one entry, or the 32 of a 2 MiB page. -/
def inEntry (p : Page) (a : Nat) : Prop :=
  if p.large then p.place - p.place % 256 ≤ a ∧ a < p.place - p.place % 256 + 256 else p.place ≤ a ∧ a < p.place + 8

/-- The scalar atomics: the operation (none: compare-and-swap), W, scope, order, sd, sa, sb. -/
def amoOf : Instr → Option (Option AtomOp × Bool × Scope × Order × SReg × SReg × SReg)
  | .aadd w sc o d a b => some (some .add, w, sc, o, d, a, b)
  | .aand w sc o d a b => some (some .and, w, sc, o, d, a, b)
  | .aor w sc o d a b => some (some .or, w, sc, o, d, a, b)
  | .axor w sc o d a b => some (some .xor, w, sc, o, d, a, b)
  | .amin w sc o d a b => some (some .min, w, sc, o, d, a, b)
  | .amax w sc o d a b => some (some .max, w, sc, o, d, a, b)
  | .aminu w sc o d a b => some (some .minu, w, sc, o, d, a, b)
  | .amaxu w sc o d a b => some (some .maxu, w, sc, o, d, a, b)
  | .aswp w sc o d a b => some (some .swp, w, sc, o, d, a, b)
  | .acas w sc o d a b => some (none, w, sc, o, d, a, b)
  | _ => none

/-- What an atomic leaves at a location of n bits that held `old`: `b` its operand, `e` the expected value. -/
def amoResult (op : Option AtomOp) (n : Nat) (old b e : BitVec n) : BitVec n :=
  match op with
  | none => if old = e then b else old
  | some .add => BitVec.ofNat n (old.toNat + b.toNat)
  | some .and => BitVec.ofNat n (old.toNat &&& b.toNat)
  | some .or => BitVec.ofNat n (old.toNat ||| b.toNat)
  | some .xor => BitVec.ofNat n (old.toNat ^^^ b.toNat)
  | some .min => BitVec.ofInt n (min old.toInt b.toInt)
  | some .max => BitVec.ofInt n (max old.toInt b.toInt)
  | some .minu => BitVec.ofNat n (min old.toNat b.toNat)
  | some .maxu => BitVec.ofNat n (max old.toNat b.toNat)
  | some .swp => b
  | some .fadd => BitVec.ofNat n (fAdd .f32 .rn 0 old.toNat b.toNat).bits

/-- The bytes after a scalar atomic on bytes `old`. -/
def amoBytes (op : Option AtomOp) (w : Bool) (old : List Byte) (b e : W64) : List Byte :=
  if w then (List.range 4).map (fun k => regByte (BitVec.ofNat 64
    (amoResult op 32 (BitVec.ofNat 32 (leNat old)) (BitVec.ofNat 32 b.toNat) (BitVec.ofNat 32 e.toNat)).toNat) k)
  else (List.range 8).map (regByte (amoResult op 64 (BitVec.ofNat 64 (leNat old)) b e))

/-- Nothing older of the warp stands before a release: no report of a failed task, no block, no store, no task that stores
outside an escrow. -/
def Ended (s : State) : Prop :=
  s.warp.report = none ∧ s.warp.queue = [] ∧ s.warp.wbuf = [] ∧
    (s.team.det = true ∨ ∀ t ∈ s.team.ring, t.warp = s.warp.key.warp → t.storesGlobal = false ∨ t.escrowOnly = true)

/-- BEGIN at a scope: TEAM drops nothing; a wider one drops the shared-clean lines of the team's core that lie on no sealed
page, and no other line. -/
def Begun (s t : State) (sc : Scope) : Prop :=
  (t.coreOf s.team.core).l1 = if sc = .team then (s.coreOf s.team.core).l1
    else (s.coreOf s.team.core).l1.filter (fun l => l.st != .sc || s.onSealed l.line)

/-! ### The queue of lane blocks and the register file (05:R105 to R111) -/

/-- Only the lane queue, the count of its blocks and what `ScalarOnly` names differ. -/
def QueueOnly (s t : State) : Prop :=
  ScalarOnly { s with warp := { s.warp with queue := t.warp.queue, vexes := t.warp.vexes } } t

/-- The block that VEX or VEXR enqueues: its start, its count, the snapshots of the moment, and its place in program order. -/
def blockOf (s : State) (start : BitVec 56) (cnt : Nat) : Block :=
  ⟨start, if cnt = 0 then 1024 else cnt, s.warp.s, s.warp.dseed, s.warp.vexes + 1⟩

/-- An enqueue at `start`: the block joins at the end while fewer than 8 stand there, and the instruction waits otherwise. -/
def Enqueues (i : Instr) (s : State) (start : BitVec 56) (cnt : Nat) : Prop :=
  (s.warp.queue.length < 8 → ∃ t, exec i s = .next t ∧ QueueOnly s t ∧ t.warp.spc = s.warp.spc + 4 ∧
    t.warp.queue = s.warp.queue ++ [blockOf s start cnt] ∧ ∀ r : SReg, t.S r = s.S r) ∧
  (8 ≤ s.warp.queue.length → exec i s = .next (s.waitScalar 0))

/-- Only the register file's size and contents, the wait of a VGROW, and what `ScalarOnly` names differ. -/
def FileOnly (s t : State) : Prop :=
  ScalarOnly { s with warp := { s.warp with
    blocks := t.warp.blocks, v := t.warp.v, empty := t.warp.empty, poison := t.warp.poison, fills := t.warp.fills
    growWait := t.warp.growWait } } t

/-- n more blocks: the registers below keep value, full/empty bit and poison, the new ones hold zero and are full. -/
def Grown (s t : State) (n : Nat) : Prop :=
  t.warp.blocks = s.warp.blocks + n ∧
  ∀ r < 192, if r < 16 * s.warp.blocks
    then (∀ l, l < 32 → t.vreg r l = s.vreg r l) ∧ t.warp.empty.getLsbD r = s.warp.empty.getLsbD r ∧
      t.warp.poison.getLsbD r = s.warp.poison.getLsbD r
    else (∀ l, l < 32 → t.vreg r l = 0) ∧ t.warp.empty.getLsbD r = false ∧ t.warp.poison.getLsbD r = false

/-- Enough unallocated blocks on the pipe, and no plain VGROW of another warp of the pipe that began to wait earlier. -/
def CanGrow (s : State) (n : Nat) : Prop := n ≤ s.pipeFree s.team.core s.warp.pipe ∧ s.growBehind = false

/-! ### What system instructions wait for -/

/-- No access of the scalar stream is parked, the feature bit is set, every earlier lane block has retired, no report of a
failed task is pending, and under DET the warp's turn in the clearing has come. -/
def Ready (s : State) (bit : Nat) : Prop :=
  s.warp.parkS = none ∧ s.ctx.feat.getLsbD bit = true ∧ s.warp.queue = [] ∧ s.warp.report = none ∧
    (s.team.det = false ∨ s.warp.clearS = .granted)

/-- The state of a channel entry as CHST codes it (14:R270). -/
def entryCode (s : State) (e : Nat) : Nat :=
  match (s.warp.chan e).st with
  | .unbound => 0
  | .send => 1
  | .recv => 2

/-- The special registers (01:R30; 14:R279): the value that MFS reads, CYCLE and TRAPINFO apart. -/
def specialOf (s : State) : Nat → Option W64
  | 0 => some (BitVec.ofNat 64 s.team.key.team)
  | 1 => some (BitVec.ofNat 64 s.team.teamCnt)
  | 2 => some (BitVec.ofNat 64 s.warp.key.warp)
  | 3 => some (BitVec.ofNat 64 ((s.team.hdr.lanes + 31) / 32))
  | 4 => some (BitVec.ofNat 64 (if s.team.det then s.team.key.team % 768 else s.team.core))
  | 5 => some (BitVec.ofNat 64 (if s.team.det then min s.team.teamCnt 768 else 768))
  | 7 => some s.warp.retired
  | 8 => some (BitVec.ofNat 64 (if s.team.det then (if s.team.hdr.quantum = 0 then 4096 else s.team.hdr.quantum) else 0))
  | 9 => some s.warp.dseed
  | 10 => some (0x1FFF &&& (s.ctx.featMask ||| 1))
  | 11 => some (BitVec.ofNat 64 (0x00030003 + s.ctx.numerics * 2 ^ 24))
  | 12 => some (BitVec.ofNat 64 s.warp.lbr.toNat)
  | 13 => some (BitVec.ofNat 64 (s.coreOf s.team.core).allowance)
  | 15 => some s.team.lpb
  | 16 => some (BitVec.ofNat 64 s.warp.fpstat.toNat)
  | 17 => some (BitVec.ofNat 64 s.team.hdr.scratch)
  | 18 => some s.warp.agstatus
  | 19 => some (if s.warp.inHandler then 1 else 0)
  | 20 => some s.team.lseed
  | 21 => some s.team.tseed
  | 22 => some (BitVec.ofNat 64 ((List.range 15).map (fun e => entryCode s e * 4 ^ e)).sum)
  | 23 => some (BitVec.ofNat 64 s.team.taskSeq.toNat)
  | _ => none

/-- Word n of the trap record, from 280 on zero. -/
def recordWord (w : Warp) (n : Nat) : W64 := if n < 280 then w.trapRec.get n else 0

/-! ### Words worked out in the spec -/

/-- A guard that every active lane passes. -/
def noGuard : Guard := ⟨false, 0⟩
/-- A lane register as a source, in mode 0. -/
def v (n : VReg) : Value := .reg n false
/-- Three 32-bit words, the lowest address first. -/
def words (w0 w1 w2 : Nat) : BitVec 96 := BitVec.ofNat 96 (w0 + 2 ^ 32 * w1 + 2 ^ 64 * w2)

/-- Scalar words with the instruction that the spec gives for each. -/
def scalarWords : List (W32 × Instr) :=
  [(0x2CA00020, .addpc 5 32), (0xC0030000, .vex 3 0), (0xC8000000, .vsync), (0x780000C0, .phaseEnd .pkg),
   (0xF8000100, .exit), (0x74C42838, .aadd false .pkg .rel 6 4 5), (0x70C40050, .ldacq true .die 6 4),
   (0x70042960, .strel false .pkg 4 5), (0xD0A00014, .vgrowTry 5 4), (0xF4000029, .bar 1 5), (0xF8A00010, .mfs 5 16),
   (0xF8050053, .mtsResume 5), (0x74E5449C, .acas false .quad .ar 7 5 8), (0xD8080000, .task 8), (0xF0A63800, .launch 5 6 7)]

/-- Lane words with the instruction or the pair that the spec gives for each. -/
def laneWords : List (BitVec 96 × LaneWord) :=
  [(words 0 0x38800480 0x400010C5, .single (.ld noGuard .w .x4 .l1 false 4 5 (.con .lane) 0)),
   (words 0 0x38400000 0x08001004, .single (.iadd noGuard .single (.reg 4) (v 4) (.con .one))),
   (words 0 0x38804480 0x410000C7, .single (.st noGuard .w .x4 .l1 7 (.con .lane) 0 (v 4))),
   (words 0x60120700 0x02806200 0x88002009,
     .pair (.iadd noGuard .x (.reg 8) (v 9) (v 10)) (.fmul noGuard .y .rn (.reg 12) (v 9) (v 14))),
   (words 3 0x01000000 0x17802802, .single (.iaddc noGuard (.reg 10) (v 2) (v 4) 3 false 0)),
   (words 2 0x3840001D 0x24001805, .single (.shfl noGuard .xor 5 (.reg 6) (v 5) (.con .one) 2)),
   (words 0 0x01406200 0x31802004, .single (.ffma noGuard .rn (.reg 8) (v 4) (v 5) (v 6))),
   (words 0 0x38005400 0x418B24C4, .single (.push ⟨false, 1⟩ .w .x1 9 4 (.con .zero) 0 (v 5))),
   (words 0 0x00806941 0x42001CCA, .single (.atom noGuard .fadd .die .rlx false .x4 7 10 (v 2) 0 (v 6))),
   (words 0 0x38004602 0x448028D0, .single (.append noGuard .d 2 10 16 0 (v 4))),
   (words 0 0x00803002 0x458018CE, .single (.lda noGuard 2 6 14 (v 2) (v 3))),
   (words 7 0 0x78500000, .single (.ltrap ⟨true, 2⟩ 7)), (words 0 0 0x54001004, .single (.rnext noGuard 4 4 false)),
   (words 0 0x200 0x55001804, .single (.runi noGuard true (.reg 6) 4 false))]

/-! ### Steps -/

/-- No message or command that is under way may arrive now. -/
def NothingArrives (s : State) : Prop := ∀ n < s.events.length, s.mayArrive n = false

/-- The scalar stream of the warp in front has the next turn, in the state s: it is named next, or nothing is named, nothing
may arrive, the warp's turns are not over and its lane stream cannot go on. No late fault of the warp is pending. -/
def ScalarTurn (s₀ s : State) : Prop :=
  s.warp.scalarMay = true ∧ s.issues s.warp = true ∧ s.warp.pendTrap = none ∧
  ((∃ rest, s₀.plan = .scalar :: rest ∧ s = { s₀ with plan := rest }) ∨
   (s₀.plan = [] ∧ NothingArrives s₀ ∧ s = s₀ ∧ s.turnsOver = false ∧ s.warp.scalStalled = false ∧
     (s.warp.laneMay = false ∨ s.warp.laneStalled = true)))

/-- The lane stream of the warp in front has the next turn; a late fault waits behind a word whose data have begun to leave. Where nothing is named and both streams could go, its turn does not
end in a trap, which a trap of the scalar stream might come before (01:R34). -/
def LaneTurn (s₀ s : State) : Prop :=
  s.warp.laneMay = true ∧ s.issues s.warp = true ∧ (s.warp.pendTrap = none ∨ s.warp.done ≠ []) ∧
  ((∃ rest, s₀.plan = .lane :: rest ∧ s = { s₀ with plan := rest }) ∨
   (s₀.plan = [] ∧ NothingArrives s₀ ∧ s = s₀ ∧ s.turnsOver = false ∧ s.warp.laneStalled = false ∧
     (s.scalarGoes = false ∨ ∀ u, takeTurn exec true s = .next u → s.trapped u = false)))

/-- A message or a command has the next turn: one named next that no message sent before it from the same agent to the same agent
in its class must precede (24:R379), or with nothing named the first such one; that order is the model's choice (assumption
3). -/
def EventTurn (s₀ s : State) (e : Instr) : Prop :=
  (s₀.plan = [] ∧ ∃ n, s₀.events[n]? = some e ∧ s₀.mayArrive n = true ∧ (∀ m < n, s₀.mayArrive m = false) ∧
    s = { s₀ with events := s₀.events.eraseIdx n }) ∨
  (∃ n rest, s₀.plan = .event n :: rest ∧ s₀.events[n]? = some e ∧ s₀.mayArrive n = true ∧
    s = { s₀ with plan := rest, events := s₀.events.eraseIdx n })

/-- A fetch of n bytes at `a`, which lie in one line that the core does not hold, of a page that is there. -/
def Fetches (s t : State) (a : W64) (n ia : Nat) (p : Page) : Prop :=
  a.toNat % 128 + n ≤ 128 ∧ check s.ctx a .x = .ok ia ∧ heldLine s ia = none ∧ missingKind s.dev s.ctx ia = none ∧
    s.letIn s.ctx (.core s.team.core) false false false ia = .ok t p ∧ t.dev.bad.contains (p.phys ia / 128) = false

/-! ### Traps (01:R33, R36, R38; 14:R281, R282) -/

/-- The codes that kill the team in any case. -/
def Kills (t : MemTrap) : Prop :=
  t.code = 0x05 ∨ t.code = 0x11 ∨ t.code = 0x07 ∨ (t.code = 0x09 ∧ (t.detail = 1 ∨ t.detail = 3))

/-- The address of the oldest lane word that has not retired, or of the one after the last. -/
def oldestWord (w : Warp) : Nat := match w.queue.head? with | some b => b.start.toNat | none => w.lpc.toNat

/-- Word n of a trap record, as a number: the eight words of the head, then 34 words for each held block. -/
def recNat (w : Warp) (lane half : Bool) (t : MemTrap) (n : Nat) : Nat :=
  match n with
  | 0 => t.code.toNat + (if lane then 2 ^ 8 else 0) + (if half then 2 ^ 16 else 0) + min w.queue.length 8 * 2 ^ 24 +
      t.lanes.toNat * 2 ^ 32
  | 1 => oldestWord w
  | 2 => w.spc.toNat % 2 ^ 56
  | 3 => w.em.toNat + w.live.toNat * 2 ^ 32
  | 4 => t.addr.toNat
  | 5 => t.detail.toNat
  | 6 => t.ticket.toNat
  | 7 => 0
  | k + 8 =>
    if 272 ≤ k then 0
    else match w.queue[k / 34]? with
      | none => 0
      | some b => match k % 34 with
        | 0 => b.start.toNat
        | 1 => b.count
        | 2 => b.dseed.toNat
        | j + 3 => (b.snap.get (j + 1)).toNat

/-- The trap is delivered to a handler. -/
def Delivered (s : State) (t : MemTrap) : Prop :=
  s.warp.inHandler = false ∧ t.code ≠ 0 ∧ s.ctx.trapStop = false ∧ s.team.hdr.handler ≠ 0 ∧ ¬ Kills t

/-- Only SPC, the lane queue, the record and its selector, the handler flag and what a precise stop discards differ: the
registers, masks, predicates, seeds, flags, channels, the team, the context and all of the package are as before. -/
def EntryOnly (s u : State) : Prop :=
  u.warp.s = s.warp.s ∧ u.warp.v = s.warp.v ∧ u.warp.preds = s.warp.preds ∧ u.warp.em = s.warp.em ∧ u.warp.live = s.warp.live ∧
    u.warp.empty = s.warp.empty ∧ u.warp.poison = s.warp.poison ∧ u.warp.fills = s.warp.fills ∧ u.warp.blocks = s.warp.blocks ∧
    u.warp.lbr = s.warp.lbr ∧ u.warp.dseed = s.warp.dseed ∧ u.warp.fpstat = s.warp.fpstat ∧ u.warp.retired = s.warp.retired ∧
    u.warp.agstatus = s.warp.agstatus ∧ u.warp.chans = s.warp.chans ∧ u.warp.srq = s.warp.srq ∧ u.warp.wbuf = s.warp.wbuf ∧
    u.warp.bar = s.warp.bar ∧ u.warp.status = s.warp.status ∧ u.team = s.team ∧ u.ctx = s.ctx ∧ u.dev = s.dev ∧
    u.core = s.core ∧ u.warps = s.warps

/-- A block of the lane queue as VEX leaves it: a count of 1 to 1,024 and a snapshot of s1 to s31. -/
def SoundBlock (b : Block) : Prop :=
  1 ≤ b.count ∧ b.count ≤ 1024 ∧ Store.wf b.snap = true ∧ ∀ k, (k = 0 ∨ 32 ≤ k) → b.snap.get k = 0

/-- A queue without its oldest word. -/
def lessOne (q : List Block) : List Block :=
  match q with
  | [] => []
  | b :: rest => if b.count = 1 then rest else { b with start := b.start + 12, count := b.count - 1 } :: rest

/-! ### Lane words: what they need -/

/-- A well-formed instruction that stands alone in a lane word. -/
def LaneSingle (i : Instr) : Prop :=
  i.wf = true ∧ (encodeFields i).isSome = true ∧ i.half ≠ some .x ∧ i.half ≠ some .y

/-- The operands of a lane instruction; LDA on a region of kind ISUM32 writes a pair (11:R229). -/
def useOf (s : State) (i : Instr) : LaneUse :=
  match i with
  | .lda g q d h lo hi => s.rangeUse (Instr.use (.lda g q d h lo hi)) true h d
  | i => Instr.use i

/-- The instruction needs feature bit b: for its opcode, a type, a channel operand or mode 1 (04:R87). -/
def Needs (u : LaneUse) (b : Nat) : Prop := b ∈ u.feats ∨ b ∈ u.operandFeats
def Featured (u : LaneUse) (s : State) : Prop := ∀ b, Needs u b → s.ctx.feat.getLsbD b = true
/-- Every lane register that it names lies below 16 × B. -/
def InFile (u : LaneUse) (s : State) : Prop := ∀ x ∈ u.named, x.1 + x.2 ≤ 16 * s.warp.blocks
/-- Every channel source is bound to receive, a channel destination, the SRQ apart, to send, and the entry that CHWAIT names
either way. -/
def Bound (u : LaneUse) (s : State) : Prop :=
  (∀ n peek k, (Value.chan n peek, k) ∈ u.srcs → (s.warp.chan n.toNat).st = .recv) ∧
  (∀ n k, u.dst = some (.chan n, k) → n = 15 ∨ (s.warp.chan n.toNat).st = .send) ∧
  (∀ n, u.chan = some n → (s.warp.chan n.toNat).st ≠ .unbound)
/-- No register read in mode 1 is empty; no register read at all is. -/
def NoTrapEmpty (u : LaneUse) (s : State) : Prop := ∀ r ∈ u.reads, r.2 = true → s.warp.empty.getLsbD r.1 = false
def AllFull (u : LaneUse) (s : State) : Prop := ∀ r ∈ u.reads, s.warp.empty.getLsbD r.1 = false
def NoPoison (u : LaneUse) (s : State) : Prop := ∀ r ∈ u.reads, s.warp.poison.getLsbD r.1 = false
/-- No channel operand. -/
def NoChannels (u : LaneUse) : Prop :=
  (∀ n peek k, (Value.chan n peek, k) ∉ u.srcs) ∧ (∀ n k, u.dst ≠ some (.chan n, k)) ∧ u.chan = none

/-- A word that stands alone may issue: every check of 04:R85 passes and nothing is waited for. A half runs after the
checks of its pair. -/
def Goes (i : Instr) (h : Half) (s : State) : Prop := h = .single → (Instr.use i).gate s = .go

/-- A word that stands alone and Y retire the word; X does not. -/
def finished (h : Half) (s : State) : State :=
  match h with
  | .single => s.retireLane
  | .x => s
  | .y => s.retireLane

/-! ### Lane words: their operands -/

/-- A predicate in a lane; p0 is true. -/
def predOf (w : Warp) (k : Pred) (l : Nat) : Bool := if k = 0 then true else (w.preds.get k.toNat).getLsbD l

/-- The sources read one after another: the state after the messages that they take, and their values in each lane. -/
def readAll (s : State) (any : Bool) : List Value → State × List (Nat → W32)
  | [] => (s, [])
  | x :: rest => ((readAll (s.readSrc any x).1 any rest).1, (s.readSrc any x).2 :: (readAll (s.readSrc any x).1 any rest).2)

/-- An instruction that writes one destination in its active lanes: its half, guard, destination, sources, and the value in
a lane as a function of the sources' values there. -/
structure LaneForm where
  h : Half
  g : Guard
  d : Dest
  srcs : List Value
  f : Nat → List W32 → W32

/-- The state of the form's write: every source of every lane read first, then the destination written. -/
def LaneForm.write (F : LaneForm) (s : State) : State :=
  (readAll s (s.active F.g != 0) F.srcs).1.writeDest F.d (s.active F.g)
    (fun l => F.f l ((readAll s (s.active F.g != 0) F.srcs).2.map (fun x => x l)))

/-- A function of one, two or three sources. -/
def on1 (f : W32 → W32) : Nat → List W32 → W32 := fun _ xs => f (xs.getD 0 0)
def on2 (f : W32 → W32 → W32) : Nat → List W32 → W32 := fun _ xs => f (xs.getD 0 0) (xs.getD 1 0)
def on3 (f : W32 → W32 → W32 → W32) : Nat → List W32 → W32 := fun _ xs => f (xs.getD 0 0) (xs.getD 1 0) (xs.getD 2 0)

/-- A word of a natural, and of an integer, modulo 2³². -/
def n32 (n : Nat) : W32 := BitVec.ofNat 32 n
def i32 (n : Int) : W32 := BitVec.ofInt 32 n
/-- An integer clamped to the signed words. -/
def clamp32 (n : Int) : W32 := i32 (max (-(2 ^ 31)) (min n (2 ^ 31 - 1)))

/-- Bits [pos + len − 1:pos] of a, with sign extension unless `u`; nothing beyond bit 31 (06:R122). -/
def fieldOf (u : Bool) (a b : W32) : W32 :=
  if b.toNat / 256 % 256 = 0 ∨ 32 ≤ b.toNat % 256 then 0
  else
    let n := min (b.toNat / 256 % 256) (32 - b.toNat % 256)
    let x := a.toNat / 2 ^ (b.toNat % 256) % 2 ^ n
    if u = false ∧ 2 ^ (n - 1) ≤ x then i32 ((x : Int) - 2 ^ n) else n32 x

/-- a with the field that b describes replaced by the low bits of c (06:R122). -/
def insertOf (a b c : W32) : W32 :=
  if b.toNat / 256 % 256 = 0 ∨ 32 ≤ b.toNat % 256 then a
  else
    let pos := b.toNat % 256
    let n := min (b.toNat / 256 % 256) (32 - pos)
    n32 (a.toNat % 2 ^ pos + c.toNat % 2 ^ n * 2 ^ pos + a.toNat / 2 ^ (pos + n) * 2 ^ (pos + n))

/-- Result byte k of the swizzle (06:R119): a byte of the eight of b and a, or zero, or the sign of the byte below. -/
def swizByte (x sel : Nat) : Nat → Nat
  | 0 => if sel / 2 ^ 12 % 2 = 1 then 0 else x / 256 ^ (sel % 8) % 256
  | k + 1 =>
    if sel / 2 ^ (17 + k) % 2 = 1 then (if 128 ≤ swizByte x sel k then 255 else 0)
    else if sel / 2 ^ (13 + k) % 2 = 1 then 0 else x / 256 ^ (sel / 8 ^ (k + 1) % 8) % 256
def swizOf (a b : W32) (sel : Nat) : W32 :=
  let y := swizByte (a.toNat + 2 ^ 32 * b.toNat) sel
  n32 (y 0 + 256 * y 1 + 65536 * y 2 + 16777216 * y 3)

/-- The moves, the integer instructions and SEL (06:R118 to R122, R127). -/
def intForm (s : State) : Instr → Option LaneForm
  | .mov g h d a => some ⟨h, g, d, [a], on1 id⟩
  | .movi g d x => some ⟨.single, g, d, [], fun _ _ => x⟩
  | .bswz g d a b (.imm k) => some ⟨.single, g, d, [a, b], on2 (fun x y => swizOf x y k.toNat)⟩
  | .bswz g d a b (.val c) => some ⟨.single, g, d, [a, b, c], on3 (fun x y z => swizOf x y (z.toNat % 2 ^ 20))⟩
  | .iadd g h d a b => some ⟨h, g, d, [a, b], on2 (fun x y => n32 (x.toNat + y.toNat))⟩
  | .isub g h d a b => some ⟨h, g, d, [a, b], on2 (fun x y => i32 ((x.toNat : Int) - y.toNat))⟩
  | .iadds g u d a b => some ⟨.single, g, d, [a, b], on2 (fun x y =>
      if u then n32 (min (x.toNat + y.toNat) (2 ^ 32 - 1)) else clamp32 (x.toInt + y.toInt))⟩
  | .isubs g u d a b => some ⟨.single, g, d, [a, b], on2 (fun x y =>
      if u then n32 (x.toNat - y.toNat) else clamp32 (x.toInt - y.toInt))⟩
  | .imul g d a b => some ⟨.single, g, d, [a, b], on2 (fun x y => n32 (x.toNat * y.toNat))⟩
  | .imulh g d a b => some ⟨.single, g, d, [a, b], on2 (fun x y => i32 (x.toInt * y.toInt / 2 ^ 32))⟩
  | .imulhu g d a b => some ⟨.single, g, d, [a, b], on2 (fun x y => n32 (x.toNat * y.toNat / 2 ^ 32))⟩
  | .imad g d a b c => some ⟨.single, g, d, [a, b, c], on3 (fun x y z => n32 (x.toNat * y.toNat + z.toNat))⟩
  | .imin g h d a b => some ⟨h, g, d, [a, b], on2 (fun x y => i32 (min x.toInt y.toInt))⟩
  | .imax g h d a b => some ⟨h, g, d, [a, b], on2 (fun x y => i32 (max x.toInt y.toInt))⟩
  | .iminu g d a b => some ⟨.single, g, d, [a, b], on2 (fun x y => n32 (min x.toNat y.toNat))⟩
  | .imaxu g d a b => some ⟨.single, g, d, [a, b], on2 (fun x y => n32 (max x.toNat y.toNat))⟩
  | .iabs g d a => some ⟨.single, g, d, [a], on1 (fun x => i32 |x.toInt|)⟩
  | .ineg g d a => some ⟨.single, g, d, [a], on1 (fun x => i32 (-x.toInt))⟩
  | .laneAnd g h d a b => some ⟨h, g, d, [a, b], on2 (fun x y => n32 (x.toNat &&& y.toNat))⟩
  | .laneOr g h d a b => some ⟨h, g, d, [a, b], on2 (fun x y => n32 (x.toNat ||| y.toNat))⟩
  | .laneXor g h d a b => some ⟨h, g, d, [a, b], on2 (fun x y => n32 (x.toNat ^^^ y.toNat))⟩
  | .laneAndn g d a b => some ⟨.single, g, d, [a, b], on2 (fun x y => n32 (x.toNat &&& (2 ^ 32 - 1 - y.toNat)))⟩
  | .laneNot g d a => some ⟨.single, g, d, [a], on1 (fun x => n32 (2 ^ 32 - 1 - x.toNat))⟩
  | .shl g h d a b => some ⟨h, g, d, [a, b], on2 (fun x y => n32 (x.toNat * 2 ^ (y.toNat % 32)))⟩
  | .shr g h d a b => some ⟨h, g, d, [a, b], on2 (fun x y => n32 (x.toNat / 2 ^ (y.toNat % 32)))⟩
  | .sar g h d a b => some ⟨h, g, d, [a, b], on2 (fun x y => i32 (x.toInt / 2 ^ (y.toNat % 32)))⟩
  | .rol g d a b => some ⟨.single, g, d, [a, b], on2 (fun x y =>
      n32 (x.toNat * 2 ^ (y.toNat % 32) % 2 ^ 32 + x.toNat / 2 ^ (32 - y.toNat % 32)))⟩
  | .ror g d a b => some ⟨.single, g, d, [a, b], on2 (fun x y =>
      n32 (x.toNat / 2 ^ (y.toNat % 32) + x.toNat * 2 ^ (32 - y.toNat % 32) % 2 ^ 32))⟩
  | .laneClz g d a => some ⟨.single, g, d, [a], on1 (fun x => n32 (32 - Nat.size x.toNat))⟩
  | .lanePopc g d a => some ⟨.single, g, d, [a], on1 (fun x => n32 ((List.range 32).map (fun k => x.toNat / 2 ^ k % 2)).sum)⟩
  | .brev g d a => some ⟨.single, g, d, [a], on1 (fun x =>
      n32 ((List.range 32).map (fun k => x.toNat / 2 ^ k % 2 * 2 ^ (31 - k))).sum)⟩
  | .bfx g u d a b => some ⟨.single, g, d, [a, b], on2 (fieldOf u)⟩
  | .bfi g d a b c => some ⟨.single, g, d, [a, b, c], on3 insertOf⟩
  | .idivu g d a b => some ⟨.single, g, d, [a, b], on2 (fun x y => if y.toNat = 0 then n32 (2 ^ 32 - 1) else n32 (x.toNat / y.toNat))⟩
  | .iremu g d a b => some ⟨.single, g, d, [a, b], on2 (fun x y => if y.toNat = 0 then x else n32 (x.toNat % y.toNat))⟩
  | .sel g h neg k d a b => some ⟨h, g, d, [a, b], fun l xs =>
      if predOf s.warp k l = neg then xs.getD 1 0 else xs.getD 0 0⟩
  | _ => none

/-! ### Compares, predicates and masks (06:R121, R123 to R128) -/

/-- ICMP's conditions. -/
def icondOf : ICond → W32 → W32 → Bool
  | .eq, a, b => decide (a.toNat = b.toNat)
  | .ne, a, b => decide (a.toNat ≠ b.toNat)
  | .lt, a, b => decide (a.toInt < b.toInt)
  | .le, a, b => decide (a.toInt ≤ b.toInt)
  | .gt, a, b => decide (b.toInt < a.toInt)
  | .ge, a, b => decide (b.toInt ≤ a.toInt)
  | .ltu, a, b => decide (a.toNat < b.toNat)
  | .leu, a, b => decide (a.toNat ≤ b.toNat)
  | .gtu, a, b => decide (b.toNat < a.toNat)
  | .geu, a, b => decide (b.toNat ≤ a.toNat)

/-- An FP32 word that is a NaN, and a signalling one. -/
def nan32 (x : W32) : Bool := decide (0x7F800000 < x.toNat % 2 ^ 31)
def snan32 (x : W32) : Bool := nan32 x && decide (x.toNat % 2 ^ 31 < 0x7FC00000)
/-- A number that orders FP32 words that are no NaN as their values: both zeros are 0. -/
def key32 (x : W32) : Int := if 2 ^ 31 ≤ x.toNat then -((x.toNat % 2 ^ 31 : Nat) : Int) else (x.toNat : Int)

/-- FCMP's conditions: a NaN makes every one false but .NE and .UN. -/
def fcondOf (cc : FCond) (a b : W32) : Bool :=
  match cc with
  | .eq => !(nan32 a || nan32 b) && decide (key32 a = key32 b)
  | .ne => nan32 a || nan32 b || decide (key32 a ≠ key32 b)
  | .lt => !(nan32 a || nan32 b) && decide (key32 a < key32 b)
  | .le => !(nan32 a || nan32 b) && decide (key32 a ≤ key32 b)
  | .gt => !(nan32 a || nan32 b) && decide (key32 b < key32 a)
  | .ge => !(nan32 a || nan32 b) && decide (key32 b ≤ key32 a)
  | .un => nan32 a || nan32 b
  | .ord => !(nan32 a || nan32 b)

/-- The instructions whose one effect is on a predicate, FCMP's flag apart: guard, predicate, sources, and its value in a lane. -/
def predForm (s : State) : Instr → Option (Guard × Pred × List Value × (Nat → List W32 → Bool))
  | .icmp g cc p a b => some (g, p, [a, b], fun _ xs => icondOf cc (xs.getD 0 0) (xs.getD 1 0))
  | .fcmp g cc p a b => some (g, p, [a, b], fun _ xs => fcondOf cc (xs.getD 0 0) (xs.getD 1 0))
  | .pand g na nb p a b => some (g, p, [], fun l _ => decide (predOf s.warp a l ≠ na) && decide (predOf s.warp b l ≠ nb))
  | .por g na nb p a b => some (g, p, [], fun l _ => decide (predOf s.warp a l ≠ na) || decide (predOf s.warp b l ≠ nb))
  | .pxor g na nb p a b => some (g, p, [], fun l _ =>
      decide (decide (predOf s.warp a l ≠ na) ≠ decide (predOf s.warp b l ≠ nb)))
  | .pnot g p a => some (g, p, [], fun l _ => decide (predOf s.warp a l = false))
  | .pmov g p a k => some (g, p, [a], fun _ xs => decide ((xs.getD 0 0).toNat / 2 ^ k.toNat % 2 = 1))
  | _ => none

/-- Which lanes of FCMP set the invalid flag: those with a signalling NaN. -/
def cmpFlags (m : Mask) (x y : Nat → W32) : FFlags :=
  if (List.range 32).any (fun l => m.has l && (snan32 (x l) || snan32 (y l))) then 1 else 0

/-- The mask instructions: the new EM, before the AND with the live mask. -/
def maskForm (s : State) : Instr → Option Mask
  | .mset neg p => some (s.warp.em &&& Mask.of (fun l => decide (predOf s.warp p l ≠ neg)))
  | .mrst u => some ((s.readSrc false u).2 0)
  | .mall => some s.warp.live
  | .mnot u => some ((s.readSrc false u).2 0 &&& ~~~s.warp.em)
  | _ => none

/-! ### Cross-lane instructions (06:R131 to R135) -/

/-- The lane that SHFL reads, if its number is in range. -/
def shflFrom (mode : ShflMode) (w l b : Nat) : Option Nat :=
  match mode with
  | .idx => if b < w then some (l / w * w + b) else none
  | .up => if b ≤ l % w then some (l - b) else none
  | .dn => if l % w + b < w then some (l + b) else none
  | .xor => if b < w then some (l ^^^ b) else none

/-- The active lanes in which a predicate holds. -/
def votes (s : State) (g : Guard) (p : Pred) (l : Nat) : Bool := (s.active g).has l && predOf s.warp p l

/-- A vote's value. -/
def voteValue (s : State) (g : Guard) (p : Pred) : VoteKind → W32
  | .any => if (List.range 32).any (votes s g p) then 1 else 0
  | .all => if (List.range 32).all (fun l => !(s.active g).has l || votes s g p l) then 1 else 0
  | .bal => Mask.of (votes s g p)
  | .eq => if (List.range 32).all (fun l => !votes s g p l) ||
      (List.range 32).all (fun l => !(s.active g).has l || votes s g p l) then 1 else 0

/-- The lowest lane below 32 in which p holds, else 32. -/
def lowest (p : Nat → Bool) : Nat := ((List.range 32).find? p).getD 32

/-- PGET, MGET, VOTE, LFIRST and BCAST as forms. -/
def crossForm (s : State) : Instr → Option (Mask × Dest × List Value × ((Nat → List W32) → Nat → W32))
  | .pget g d => some (s.active g, d, [], fun _ l =>
      n32 ((List.range 8).map (fun k => if predOf s.warp (BitVec.ofNat 3 k) l then 2 ^ k else 0)).sum)
  | .mget d => some (s.warp.em, d, [], fun _ _ => s.warp.em)
  | .vote g kind d p => some (s.active g, d, [], fun _ _ => voteValue s g p kind)
  | .lfirst g d p => some (s.active g, d, [], fun _ _ => n32 (lowest (votes s g p)))
  | .bcast g d a j => some (s.active g, d, [a], fun xs _ =>
      (xs (match j with | some j => j.toNat | none => lowest (s.active g).has)).getD 0 0)
  | _ => none

/-- The integer Combines: the function and its identity. -/
def combineOf : RedOp → Option ((W32 → W32 → W32) × W32)
  | .add => some (fun x y => n32 (x.toNat + y.toNat), 0)
  | .min false => some (fun x y => i32 (min x.toInt y.toInt), n32 (2 ^ 31 - 1))
  | .min true => some (fun x y => n32 (min x.toNat y.toNat), n32 (2 ^ 32 - 1))
  | .max false => some (fun x y => i32 (max x.toInt y.toInt), n32 (2 ^ 31))
  | .max true => some (fun x y => n32 (max x.toNat y.toNat), 0)
  | .and => some (fun x y => n32 (x.toNat &&& y.toNat), n32 (2 ^ 32 - 1))
  | .or => some (fun x y => n32 (x.toNat ||| y.toNat), 0)
  | .xor => some (fun x y => n32 (x.toNat ^^^ y.toNat), 0)
  | _ => none

/-- The Combine of the values of the active lanes below k; the identity for none. -/
def combined (f : W32 → W32 → W32) (e : W32) (m : Mask) (x : Nat → W32) (k : Nat) : W32 :=
  ((List.range k).filter (fun l => m.has l)).foldl (fun acc l => f acc (x l)) e

/-! ### Floating point (07:R137 to R147; 08:R160 to R173) -/

/-- Float forms: guard, half, destination, sources, and the rounded result in a lane. -/
structure FloatForm where
  h : Half
  g : Guard
  d : Dest
  srcs : List Value
  f : Nat → List Nat → Rounded

def fOn1 (f : Nat → Nat → Rounded) : Nat → List Nat → Rounded := fun l xs => f l (xs.getD 0 0)
def fOn2 (f : Nat → Nat → Nat → Rounded) : Nat → List Nat → Rounded := fun l xs => f l (xs.getD 0 0) (xs.getD 1 0)
def fOn3 (f : Nat → Nat → Nat → Nat → Rounded) : Nat → List Nat → Rounded :=
  fun l xs => f l (xs.getD 0 0) (xs.getD 1 0) (xs.getD 2 0)

/-- Two 16-bit results in one word. -/
def twoHalves (f : Nat → Rounded) : Rounded := ⟨(f 0).bits % 65536 + 65536 * ((f 1).bits % 65536), (f 0).flags ||| (f 1).flags⟩
def elem16 (x j : Nat) : Nat := x / 65536 ^ j % 65536
def half16 (bf : Bool) : FFmt := if bf then .bf16 else .f16
def byte8 (e5 : Bool) : FFmt := if e5 then .e5m2 else .e4m3

/-- The float instructions of FP32 and of packed halves, the dot product and the conversions. -/
def floatForm (s : State) : Instr → Option FloatForm
  | .fadd g h r d a b => some ⟨h, g, d, [a, b], fOn2 (fun l x y => fAdd .f32 r (s.laneDither r l 0) x y)⟩
  | .fsub g r d a b => some ⟨.single, g, d, [a, b], fOn2 (fun l x y => fSub .f32 r (s.laneDither r l 0) x y)⟩
  | .fmul g h r d a b => some ⟨h, g, d, [a, b], fOn2 (fun l x y => fMul .f32 r (s.laneDither r l 0) x y)⟩
  | .ffma g r d a b c => some ⟨.single, g, d, [a, b, c], fOn3 (fun l x y z => fFma .f32 r (s.laneDither r l 0) x y z)⟩
  | .fmin g h d a b => some ⟨h, g, d, [a, b], fOn2 (fun _ x y => fMinMax .f32 false x y)⟩
  | .fmax g h d a b => some ⟨h, g, d, [a, b], fOn2 (fun _ x y => fMinMax .f32 true x y)⟩
  | .fabs g d a => some ⟨.single, g, d, [a], fOn1 (fun _ x =>
      if nan32 (n32 x) then ⟨0x7FC00000, 0⟩ else ⟨x % 2 ^ 31, 0⟩)⟩
  | .fneg g d a => some ⟨.single, g, d, [a], fOn1 (fun _ x =>
      if nan32 (n32 x) then ⟨0x7FC00000, 0⟩ else ⟨(x + 2 ^ 31) % 2 ^ 32, 0⟩)⟩
  | .frcp g r d a => some ⟨.single, g, d, [a], fOn1 (fun l x => fRcp r (s.laneDither r l 0) x)⟩
  | .frsq g r d a => some ⟨.single, g, d, [a], fOn1 (fun l x => fRsq r (s.laneDither r l 0) x)⟩
  | .fsqrt g r d a => some ⟨.single, g, d, [a], fOn1 (fun l x => fSqrt r (s.laneDither r l 0) x)⟩
  | .fdiv g r d a b => some ⟨.single, g, d, [a, b], fOn2 (fun l x y => fDiv r (s.laneDither r l 0) x y)⟩
  | .fexp2 g d a => some ⟨.single, g, d, [a], fOn1 (fun _ x => fExp2 x)⟩
  | .flog2 g d a => some ⟨.single, g, d, [a], fOn1 (fun _ x => fLog2 x)⟩
  | .fsin g d a => some ⟨.single, g, d, [a], fOn1 (fun _ x => fSin x)⟩
  | .fcos g d a => some ⟨.single, g, d, [a], fOn1 (fun _ x => fCos x)⟩
  | .ftanh g d a => some ⟨.single, g, d, [a], fOn1 (fun _ x => fTanh x)⟩
  | .fclass g d a => some ⟨.single, g, d, [a], fOn1 (fun _ x => ⟨2 ^ fClass x, 0⟩)⟩
  | .fscale g r d a b => some ⟨.single, g, d, [a, b], fOn2 (fun l x y => fScale r (s.laneDither r l 0) x (n32 y).toInt)⟩
  | .hadd2 g bf r d a b => some ⟨.single, g, d, [a, b], fOn2 (fun l x y =>
      twoHalves (fun j => fAdd (half16 bf) r (s.laneDither r l j) (elem16 x j) (elem16 y j)))⟩
  | .hmul2 g bf r d a b => some ⟨.single, g, d, [a, b], fOn2 (fun l x y =>
      twoHalves (fun j => fMul (half16 bf) r (s.laneDither r l j) (elem16 x j) (elem16 y j)))⟩
  | .hfma2 g bf r d a b c => some ⟨.single, g, d, [a, b, c], fOn3 (fun l x y z =>
      twoHalves (fun j => fFma (half16 bf) r (s.laneDither r l j) (elem16 x j) (elem16 y j) (elem16 z j)))⟩
  | .hmin2 g bf d a b => some ⟨.single, g, d, [a, b], fOn2 (fun _ x y =>
      twoHalves (fun j => fMinMax (half16 bf) false (elem16 x j) (elem16 y j)))⟩
  | .hmax2 g bf d a b => some ⟨.single, g, d, [a, b], fOn2 (fun _ x y =>
      twoHalves (fun j => fMinMax (half16 bf) true (elem16 x j) (elem16 y j)))⟩
  | .fdot8 g e5 mixed r d a b c => some ⟨.single, g, d, [a, b, c], fOn3 (fun l x y z =>
      fDot8 (byte8 e5) (byte8 (e5 != mixed)) r (s.laneDither r l 0) x y z)⟩
  | .cvtff g dst src r sat d a => some ⟨.single, g, d, [a], fOn1 (fun l x => cvtFloat dst src r (s.laneDither r l 0) sat x)⟩
  | .pack g dst r sat d a b .none => some ⟨.single, g, d, [a, b], fOn2 (fun l x y =>
      twoHalves (fun j => cvtFloat dst .f32 r (s.laneDither r l j) sat (if j = 0 then x else y)))⟩
  | .pack g dst r sat d a b (.fp8 c half) => some ⟨.single, g, d, [a, b, c], fOn3 (fun l x y z =>
      let j := if half then 2 else 0
      let p := cvtFloat dst .f32 r (s.laneDither r l j) sat x
      let q := cvtFloat dst .f32 r (s.laneDither r l (j + 1)) sat y
      ⟨if half then z % 65536 + 65536 * (p.bits % 256 + 256 * (q.bits % 256))
        else z / 65536 * 65536 + (p.bits % 256 + 256 * (q.bits % 256)), p.flags ||| q.flags⟩)⟩
  | .unpk g src d a j => some ⟨.single, g, d, [a], fOn1 (fun _ x => unpkOf src j.toNat x)⟩
  | .qbpi g r d a b => some ⟨.single, g, d, [a, b], fOn2 (fun l x y =>
      ⟨(i32 (qbpiOf r (s.laneDither r l 0) x (y % 256)).1).toNat, (qbpiOf r (s.laneDither r l 0) x (y % 256)).2⟩)⟩
  | _ => none

/-- The state of a float form: its results written, and the flags of its active lanes in FPSTAT. -/
def FloatForm.write (F : FloatForm) (s : State) : State :=
  let m := s.active F.g
  let r (l : Nat) : Rounded := F.f l ((readAll s (m != 0) F.srcs).2.map (fun x => (x l).toNat))
  ((readAll s (m != 0) F.srcs).1.writeDest F.d m (fun l => n32 (r l).bits)).orFlags (flagsOf m (fun l => (r l).flags))

/-- The value of the low bits of x in a format, where they are finite (07:R137). -/
def valueIn (f : FFmt) (x : Nat) : ℚ :=
  let mb := fmtMant f
  let body := x % 2 ^ (fmtWidth f - 1)
  let sign : ℚ := if x / 2 ^ (fmtWidth f - 1) % 2 = 1 then -1 else 1
  if body / 2 ^ mb = 0 then sign * (body % 2 ^ mb : Nat) * (2 : ℚ) ^ ((1 : Int) - fmtBias f - mb)
  else sign * ((2 ^ mb + body % 2 ^ mb : Nat) : ℚ) * (2 : ℚ) ^ (((body / 2 ^ mb : Nat) : Int) - fmtBias f - mb)

/-- A word of the format that is a finite number. -/
def FiniteIn (f : FFmt) (x : Nat) : Prop := x < 2 ^ fmtWidth f ∧ x % 2 ^ (fmtWidth f - 1) ≤ fmtMax f

/-- `r` is the value `v` rounded in a format that has infinities: the nearest finite word, of two equally near ones the even
one (RN); the largest below (RD), the smallest above (RU), the nearer to zero (RZ). -/
def RoundedTo (f : FFmt) (mode : Rnd) (v : ℚ) (r : Nat) : Prop :=
  match mode with
  | .rn => ∀ y, FiniteIn f y → |valueIn f r - v| ≤ |valueIn f y - v| ∧
      (|valueIn f r - v| = |valueIn f y - v| → valueIn f y ≠ valueIn f r → r % 2 = 0)
  | .rd => valueIn f r ≤ v ∧ ∀ y, FiniteIn f y → valueIn f y ≤ v → valueIn f y ≤ valueIn f r
  | .ru => v ≤ valueIn f r ∧ ∀ y, FiniteIn f y → v ≤ valueIn f y → valueIn f r ≤ valueIn f y
  | .rz => |valueIn f r| ≤ |v| ∧ 0 ≤ valueIn f r * v ∧ ∀ y, FiniteIn f y → |valueIn f y| ≤ |v| → |valueIn f y| ≤ |valueIn f r|
  | .sr => True

/-! ### Lane accesses (10:R190 to R203) -/

/-- The address of a lane: the base, the offset zero-extended times the scale, the displacement sign-extended. -/
def laneAddr (s : State) (base : SReg) (x : Nat → W32) (scale : Nat) (disp : W32) (l : Nat) : W64 :=
  BitVec.ofInt 64 ((s.src64 base).toInt + (x l).toNat * scale + disp.toInt)

/-- Every active lane's access is aligned, lies in the team's scratchpad, meets no watchpoint and, where it reads, no error; no
task is in flight, the word executes for the first time and its pipe has an entry of the operand log free (01:R28). -/
def LanesInScratch (s : State) (m : Mask) (perms : List Perm) (n : Nat) (A : Nat → W64) : Prop :=
  s.warp.parkL = none ∧ s.team.ring = [] ∧ s.warp.headEntry = none ∧ s.logUsed < 16 ∧
    ∀ l < 32, m.has l = true → InScratch s n (A l) ∧ Unwatched s perms n (A l) ∧ (.r ∈ perms → SoundScratch s n (A l))

/-- A lane access runs: it is not parked, its word passes every check of 04:R85, and it has its entry of the operand log. -/
def AccessRuns (s : State) (u : LaneUse) : Prop := s.warp.parkL = none ∧ u.gate s = .go ∧ s.logFull u = false

/-- A loaded value: the bytes, lowest first, sign-extended to 32 bits under `.SX`. -/
def loadedValue (sx : Bool) (bs : List Byte) : Nat :=
  if sx = true ∧ bs.length ≤ 2 ∧ 2 ^ (8 * bs.length) ≤ 2 * leNat bs then 2 ^ 32 + leNat bs - 2 ^ (8 * bs.length) else leNat bs

/-- Word k of a value. -/
def wordOf (x k : Nat) : W32 := n32 (x / 2 ^ (32 * k))

/-- Byte j of the words of a lane. -/
def dataByte (ws : List W32) (j : Nat) : Byte := regByte (BitVec.ofNat 64 (ws.getD (j / 4) 0).toNat) (j % 4)

/-- The highest active lane whose n bytes cover byte x of the scratchpad. -/
def lastLane (m : Mask) (A : Nat → W64) (n x : Nat) : Option Nat :=
  (List.range 32).reverse.find? (fun l => m.has l && decide ((A l).toNat - 0x00FFFF0000000000 ≤ x) &&
    decide (x < (A l).toNat - 0x00FFFF0000000000 + n))

/-- No lane register, scalar register, predicate or mask differs, nor anything of the package. -/
def NoRegisters (s t : State) : Prop :=
  (∀ r l, l < 32 → t.vreg r l = s.vreg r l) ∧ t.warp.s = s.warp.s ∧ t.warp.preds = s.warp.preds ∧ t.warp.em = s.warp.em ∧
    t.warp.fpstat = s.warp.fpstat ∧ t.dev = s.dev

/-- The word at LPC waits for a reason: no register, no byte of the scratchpad and nothing of the package differs. -/
def WaitsAt (s : State) (i : Instr) (n : Nat) : Prop :=
  ∃ t, exec i s = .next t ∧ NoRegisters s t ∧ t.team = s.team ∧ t.warp.queue = s.warp.queue ∧ t.warp.laneStalled = true ∧
    t.warp.laneReason = n

/-- The word has retired. -/
def Retired (s t : State) : Prop :=
  t.warp.queue = s.warp.retireWord.queue ∧ t.warp.lpc = s.warp.retireWord.lpc ∧ t.warp.retired = s.warp.retireWord.retired

/-- The scratchpad after the atomics of some lanes, one after another in the order listed, and the old bytes of each: lane,
address, operand, expected value. -/
def seqAtoms (op : Option AtomOp) (dbl : Bool) : List (Nat × W64 × W64 × W64) → Store 8 → Store 8 × List (Nat × List Byte)
  | [], m => (m, [])
  | (l, a, b, e) :: rest, m =>
    let k := a.toNat - 0x00FFFF0000000000
    let old := (List.range (if dbl then 8 else 4)).map (fun j => Store.get m (k + j))
    let new := amoBytes op (!dbl) old b e
    let r := seqAtoms op dbl rest (((List.range new.length).zip new).foldl (fun m x => Store.set m (k + x.1) x.2) m)
    (r.1, (l, old) :: r.2)

/-- The old bytes of a lane. -/
def oldOf (r : List (Nat × List Byte)) (l : Nat) : List Byte := ((r.find? (fun x => x.1 == l)).map Prod.snd).getD []

/-- Two words as a doubleword. -/
def pairOf (ws : List W32) : W64 := BitVec.ofNat 64 ((ws.getD 0 0).toNat + 2 ^ 32 * (ws.getD 1 0).toNat)

/-- The lane atomics: the operation, scope, order, doubleword, scale, destination if there is one, base, offset,
displacement, operand. -/
def laneAtomOf : Instr → Option (Guard × Option AtomOp × Scope × Order × Bool × AScale × Option VReg × SReg × Value × W32 × Value)
  | .atom g op scope o dbl sc d base off disp c => some (g, some op, scope, o, dbl, sc, some d, base, off, disp, c)
  | .atomn g op scope o dbl sc base off disp c => some (g, some op, scope, o, dbl, sc, none, base, off, disp, c)
  | .laneAcas g scope o dbl sc d base off disp c => some (g, none, scope, o, dbl, sc, some d, base, off, disp, c)
  | _ => none

/-- How many active lanes lie below l. -/
def rankOf (m : Mask) (l : Nat) : Nat := ((List.range l).filter (fun k => m.has k)).length

/-- Step of the lane stream generator (14:R272). -/
def lcgStep (x : W64) : W64 := BitVec.ofNat 64 (x.toNat * 0xD1B54A32D192ED0D + 1)
/-- The pair of registers n and n + 1 of a lane. -/
def regPair (s : State) (n : VReg) (l : Nat) : W64 := pairOf [s.vreg n.toNat l, s.vreg (n.toNat + 1) l]
/-- A pair written to registers n and n + 1 of the active lanes. -/
def writtenPair (s : State) (n : VReg) (m : Mask) (f : Nat → W64) : State :=
  (s.writeV n.toNat m (fun l => n32 (f l).toNat)).writeV (n.toNat + 1) m (fun l => n32 ((f l).toNat / 2 ^ 32))
/-- Out (14:R272): the high word against the low word rotated right by the top five bits. -/
def lcgOut (x : W64) : Nat :=
  let lo := x.toNat % 2 ^ 32
  let k := x.toNat / 2 ^ 59
  (x.toNat / 2 ^ 32) ^^^ ((lo / 2 ^ k + lo * 2 ^ (32 - k)) % 2 ^ 32)

/-! ### The memory side (17:R286 to R291, R297 to R304; 20:R322) -/

/-- Byte k of a line. -/
def lineByte (x : LineData) (k : Nat) : Byte := BitVec.ofNat 8 (x.toNat / 256 ^ k)

/-- A line as a core holds it. -/
def l1At (s : State) (core line : Nat) : Option L1Line := (s.coreOf core).find line

/-- A line that DISC drops (10:R202): dirty on a page private to the core. A line that the core owns on such a page is dirty where
its data are not those of its home. -/
def discardable (s : State) (l : L1Line) : Bool :=
  l.st == .pd || (l.st == .ox && match s.ctxOf (untag l.line).1 with
    | none => false
    | some c =>
      (match walk s.dev c (untag l.line).2 with
        | .page p => p.cls == 0 && p.share == 1 && p.owner == s.team.core
        | .absent => false | .malformed => false) &&
      (match s.fetchLine c (untag l.line).2 with | some x => x.1 != l.data | none => false))

/-- No prefetch of a warp that has begun a phase since. -/
def InTime (s : State) (pref : Option (WarpKey × Nat)) : Prop :=
  match pref with
  | none => True
  | some (k, n) => ∃ w, s.warpOf k = some w ∧ w.begins = n

/-- The home holds these data for a line now. -/
def AtHome (s : State) (line : Nat) (data : LineData) : Prop :=
  ∃ c bad, s.ctxOf (untag line).1 = some c ∧ s.fetchLine c (untag line).2 = some (data, bad)

/-- Only messages under way, the warps and what `events` gained differ: no memory, no cache, no directory. -/
def Quiet (s t : State) : Prop := t.dev = s.dev ∧ t.core = s.core ∧ t.cores = s.cores ∧ t.ctx = s.ctx ∧ t.ctxs = s.ctxs

/-- The write-buffer entry of the front warp, ready to leave: it has not left yet. -/
def MayLeave (s : State) (id : Nat) (e : WEntry) : Prop :=
  s.warp.status ≠ .absent ∧ s.warp.entry id = some e ∧ e.stage = .buffered

/-! ### The directory and the task scheduler (13:R240 to R257; 17:R297 to R304; 22:R356 to R372) -/

/-- Messages for which a request waits in a slice's queue. -/
def HeldAt (s t : State) (slice : DirAt) (line : Nat) (i : Instr) : Prop :=
  t = { s with dev := { s.dev with dirHeld := s.dev.dirHeld ++ [(slice, line, i)] } }

/-- The entry of a line becomes e, and these messages are sent. -/
def Moved (s t : State) (slice : DirAt) (line : Nat) (e : W64) (out : List Instr) : Prop :=
  t.dirGet slice line = e ∧ t.events = s.events ++ out ∧ t.dev.mem = s.dev.mem ∧ t.core = s.core ∧ t.cores = s.cores ∧
    t.dev.dirHeld = s.dev.dirHeld ∧ ∀ at' l, (at' ≠ slice ∨ l ≠ line) → (∀ d, at' = .proxy d → d < 32) →
      (∀ d, slice = .proxy d → d < 32) → t.dirGet at' l = s.dirGet at' l

/-- A node of the package: a core of the line's home die, or another die. -/
def NodeOk (s : State) (line : Nat) : Node → Prop
  | .core n => n / 32 = s.lineDie line
  | .die d => d < 24

/-- A record of a team's ring, which has found nothing to read or to write yet and is not parked, that may issue or has
issued. -/
def TaskReady (s : State) (t : Team) (c : Context) (r : TaskRec) (kind : Nat) : Prop :=
  s.teamOf t.key = some t ∧ t.ring.find? (fun x => x.seq == r.seq) = some r ∧ s.ctxOf t.ctx = some c ∧ r.kind = kind ∧
    r.fatal = none ∧ r.out = none ∧ r.reads = none ∧ r.parks = [] ∧ t.status = .running ∧
    (r.issued = true ∨ s.taskMay t r = true) ∧ (t.det = false ∨ s.clearingOf t.key.launch = false)

/-- The record has issued, and its team has been served. -/
def issue (s : State) (t : Team) (r : TaskRec) : State := if r.issued then s else s.issueTask t r

/-- Nothing differs but one team, and which team of a core was served last. -/
def TeamOnly (s u : State) (k : TeamKey) : Prop :=
  u.dev = s.dev ∧ u.warp = s.warp ∧ u.warps = s.warps ∧ u.ctx = s.ctx ∧ u.ctxs = s.ctxs ∧ u.events = s.events ∧
    (∀ n, { u.coreOf n with served := (s.coreOf n).served } = s.coreOf n) ∧ ∀ k', k' ≠ k → u.teamOf k' = s.teamOf k'

/-- The task has retired, or under DET waits for the clearing with nothing left to read or to write (13:R261); `t'` is its team
then. -/
def RetiredWith (s u : State) (t t' : Team) (r : TaskRec) : Prop :=
  TeamOnly s u t.key ∧ u.teamOf t.key = some t' ∧ t'.status = .running ∧
    (t.det = false → t'.ring = t.ring.filter (fun x => x.seq != r.seq)) ∧
    (t.det = true → t'.ring.map (fun x => x.seq) = t.ring.map (fun x => x.seq) ∧ ∃ r', t'.ring.find? (fun x => x.seq == r.seq) = some r' ∧
      r'.issued = true ∧ r'.reads = none ∧ r'.out = some [])

/-- The granules of 256 bytes that a set of weights takes (13:R247): its columns, 128 elements each, and one granule more for
scales. -/
def setGranules (fmt ncols k : Nat) : Nat :=
  ((if fmt = 3 ∨ fmt = 4 then 256 * ncols else if fmt = 5 ∨ fmt = 6 then 128 * ncols else if fmt = 7 then 64 * ncols else 16 * ncols * k) + 255) / 256 +
    (if fmt = 7 ∨ fmt = 12 then 1 else 0)

/-- The next state of a task that has found what it has to write. -/
def ToWrite (u : State) (t : Team) (r : TaskRec) (ws : List TaskWrite) : State :=
  if ws.isEmpty then u.finishTask t r.seq
  else { u.onTask t.key r.seq (fun x => { x with out := some ws }) with again := .held }

/-- The next state of a task that has found what it has to read. -/
def ToRead (u : State) (t : Team) (r : TaskRec) (reads : List TaskRead) : State :=
  if reads.isEmpty then u.finishTask t r.seq
  else { u.onTask t.key r.seq (fun x => { x with reads := some reads }) with again := .held }

/-- A task of a DET launch that has nothing left but its clearing, or has not begun: its message comes while a clearing of the launch
is under way. -/
def InClearing (s : State) (t : Team) (c : Context) (r : TaskRec) (kind : Nat) : Prop :=
  s.teamOf t.key = some t ∧ t.ring.find? (fun x => x.seq == r.seq) = some r ∧ s.ctxOf t.ctx = some c ∧ r.kind = kind ∧
    r.fatal = none ∧ r.out = none ∧ t.det = true ∧ s.clearingOf t.key.launch = true

/-! ### Requests that reach a home, and answers (09:R182; 10:R205 to R210; 14:R269; 20:R318, R328; 24:R384) -/

/-- The context of a number after a step. -/
def CtxIs (t : State) (n : Nat) (c : Context) : Prop := t.ctxOf n = some c

/-- What goes out is added at the end. -/
def Answered (s t : State) (o : Out) : Prop := t.dev.outbox = s.dev.outbox ++ [o]

/-! ### Launches and teams (13:R261; 16:R285; 20:R329 to R336; 21:R337 to R355; 25:R402 to R404) -/

/-- The front team stands where its warp is in front. -/
def FrontOf (s : State) (k : TeamKey) : Prop := s.team.key = k → s.warp.key.teamKey = k ∧ s.warp.status ≠ .absent

/-- A team and its warps as they start: index n of a launch, on a core. -/
def Started (t : State) (l : Launch) (n core : Nat) : Prop :=
  (∃ tm, t.teamOf ⟨l.num, n⟩ = some tm ∧ tm.status = .running ∧ tm.core = core ∧ tm.ring = [] ∧ tm.hdr = l.hdr ∧ tm.lseed = l.lseed ∧
    tm.tseed = streamJump l.lseed (BitVec.ofNat 64 (n * 2 ^ 40)) ∧ tm.lpb = l.lpb ∧ tm.teamCnt = l.teams) ∧
  ∀ w < (l.hdr.lanes + 31) / 32, ∃ x, t.warpOf ⟨l.num, n, w⟩ = some x ∧ x.status = .running ∧ x.spc.toNat = l.hdr.entry.toNat ∧
    x.lbr = l.hdr.lanebase ∧ x.em = x.live ∧ x.blocks = l.hdr.blocks ∧ x.queue = [] ∧ x.inHandler = false ∧
    x.dseed = streamJump l.lseed (BitVec.ofNat 64 (n * 2 ^ 40)) ∧ ∀ k < 32, x.live.has k = decide (32 * w + k < l.hdr.lanes)

/-- A launch after a step: the launch of its number is `l`. -/
def LaunchIs (t : State) (l : Launch) : Prop := t.launchOf l.num = some l

/-! ### The driver, the fabric and the debugger (20:R315 to R328; 24:R382 to R394; 25:R395 to R410) -/

/-- No L1 holds a line of a page of a context. -/
def NoLineOf (t : State) (ctx page : Nat) : Prop :=
  ∀ core, ∀ l ∈ (t.coreOf core).l1, lineIn ctx (page * 65536) 65536 l.line = false

/-- The steps of a command that withdraws a page of a context, which packages may have: it holds the page at its home and tells
them; it comes back until every one of them has answered; then it does what `done` says, and holds the page no longer. -/
def Withdraws (i : Instr) (s : State) (ctx page : Nat) (qs : List (BitVec 12)) (done : State → Prop) : Prop :=
  (pageKey ctx page ∉ s.dev.pagesHeld → ∃ t, exec i s = .next t ∧ t.again = .held ∧ pageKey ctx page ∈ t.dev.pagesHeld ∧
    t.dev.mem = s.dev.mem ∧ ∀ q ∈ qs, q ∉ s.dev.deadPkgs → (pageKey ctx page, q) ∈ t.dev.drops ∧
      Out.pageDrop (pageKey ctx page) q ∈ t.dev.outbox) ∧
  (pageKey ctx page ∈ s.dev.pagesHeld → (∃ x ∈ s.dev.drops, x.1 = pageKey ctx page) → exec i s = .next { s with again := .held }) ∧
  (pageKey ctx page ∈ s.dev.pagesHeld → (∀ x ∈ s.dev.drops, x.1 ≠ pageKey ctx page) →
    ∃ t, exec i s = .next t ∧ pageKey ctx page ∉ t.dev.pagesHeld ∧ done t)

/-- An image that the boot ROM accepts: signed, by a key that is not revoked, and of a sufficient security version. -/
def Accepted (s : State) (i : FirmwareImage) : Prop :=
  Config.signatureOk i = true ∧ s.dev.revokedKeys.getLsbD i.key.toNat = false ∧ s.dev.minSecVersion ≤ i.secVersion

/-- Welhal serves. -/
def Serves (s : State) : Prop := ∃ i, s.dev.boot = .running i

/-- A capability that stands in a context and holds a right. -/
def Holds (s : State) (h : BitVec 32) (ctx right : Nat) : Prop :=
  s.dev.revoked.contains h = false ∧ ∃ c, s.dev.caps.find? (fun x => x.handle == h) = some c ∧ c.ctx = ctx ∧ c.rights.getLsbD right = true

/-- A command answers a status and a value, and nothing else goes out. -/
def Says (s : State) (status : Nat) (x : W64) : State := s.send [.silrad status x]

/-- Welhal has taken no command of a context that it has not completed. -/
def NoCommand (s : State) (ctx : Nat) : Prop := ∀ y ∈ s.dev.taken, y.1 ≠ ctx

/-- A command of a context is carried out: Welhal has taken it already, or it takes it now, and its capability holds the right. -/
def Carried (s : State) (x : Command) (h : BitVec 32) (ctx right : Nat) : Prop :=
  (ctx, x) ∈ s.dev.taken ∨ (NoCommand s ctx ∧ Holds s h ctx right)

/-- The front warp's key stands once. -/
def FrontOnce (s : State) : Prop := s.warp.status ≠ .absent ∧ ∀ w ∈ s.warps, w.key ≠ s.warp.key

end Sys2Proof.Claims

open Sys2Proof Sys2Proof.Machine

/-! ## The scalar stream -/

/-- 05:R91, R92: the register forms write f of 64 bits, or under `.W` the sign-extended f of the low halves, and SPC moves
to the next word; nothing else changes. Division by zero and the overflow of the most negative dividend are among the
operands. -/
def Obligations.RegisterArithmeticWritesItsValue : Prop :=
  ∀ (i : Instr) (w : Bool) (d a b : SReg) (f : ∀ n : Nat, BitVec n → BitVec n → BitVec n) (s : State),
    Claims.aluFn i = some (w, d, a, b, f) →
    ∃ t, exec i s = .next t ∧ Claims.ScalarOnly s t ∧ t.warp.spc = s.warp.spc + 4 ∧
      Claims.Wrote s t d (if w then BitVec.ofInt 64 (f 32 (lo32 (s.S a)) (lo32 (s.S b))).toInt else f 64 (s.S a) (s.S b))

/-- 05:R91: CLZ, CTZ and POPC write the count of zeros above the highest one, of zeros below the lowest one, of ones. -/
def Obligations.BitCountsCountTheBits : Prop :=
  ∀ (i : Instr) (w : Bool) (d a : SReg) (P : Nat → Nat → Nat → Prop) (s : State),
    Claims.countOf i = some (w, d, a, P) →
    ∃ t n, exec i s = .next t ∧ Claims.ScalarOnly s t ∧ t.warp.spc = s.warp.spc + 4 ∧
      (if w then P 32 ((s.S a).toNat % 2 ^ 32) n else P 64 (s.S a).toNat n) ∧ Claims.Wrote s t d (BitVec.ofNat 64 n)

/-- 05:R93, R94, R95: the immediate forms, for every operand that the encoding admits. -/
def Obligations.ImmediateFormsWriteTheirValue : Prop :=
  ∀ (i : Instr) (d : SReg) (x : W64) (s : State), i.wf = true → Claims.immValue s i = some (d, x) →
    ∃ t, exec i s = .next t ∧ Claims.ScalarOnly s t ∧ t.warp.spc = s.warp.spc + 4 ∧ Claims.Wrote s t d x

/-- 05:R96, R97: a branch or a jump goes to SPC + 4 + 4 × offset when its condition holds and to SPC + 4 otherwise; JAL
writes SPC + 4 into s31.
05:R98: JALR with a target that is a multiple of 4 writes SPC + 4 into sd and goes to the target, read before the
write; any other target raises MISALIGNED with the target as its address, and sd is not written. -/
def Obligations.BranchesAndJumpsGoToTheirTarget : Prop :=
  (∀ (i : Instr) (c : Prop) (off : Int) (link : Bool) (s : State), Claims.branchOf s i = some (c, off, link) →
     ∃ t, exec i s = .next t ∧ Claims.ScalarOnly s t ∧
       (c → t.warp.spc = BitVec.ofInt 64 (s.warp.spc.toInt + 4 + 4 * off)) ∧ (¬ c → t.warp.spc = s.warp.spc + 4) ∧
       (if link then Claims.Wrote s t 31 (s.warp.spc + 4) else ∀ r : SReg, t.S r = s.S r)) ∧
  (∀ (d a : SReg) (imm : BitVec 16) (s : State) (target : W64), target = BitVec.ofInt 64 ((s.S a).toInt + imm.toInt) →
     (target.toNat % 4 = 0 → ∃ t, exec (.jalr d a imm) s = .next t ∧ Claims.ScalarOnly s t ∧ t.warp.spc = target ∧
       Claims.Wrote s t d (s.warp.spc + 4)) ∧
     (target.toNat % 4 ≠ 0 → exec (.jalr d a imm) s = .next (s.takeTrap false false ⟨0x06, 0, target, 0, 0⟩)))


/-- 05:R101, R102: a load of n bytes, aligned and inside the scratchpad, none of them with an uncorrectable error, writes the bytes
there, extended to 64 bits, into sd; a load into s0 discards them. 17:R305: bytes with such an error raise ECC_FATAL.
05:R113: while a store that a VSYNC or a PHASE orders before it is under way, the load waits. -/
def Obligations.ScalarLoadsReadTheScratchpad : Prop :=
  (∀ (i : Instr) (n : Nat) (sx : Bool) (d a : SReg) (imm : BitVec 16) (s : State),
    Claims.loadOf i = some (n, sx, d, a, imm) → s.warp.parkS = none → Claims.InScratch s n (Claims.addrOf s a imm) →
    Claims.SoundScratch s n (Claims.addrOf s a imm) → Claims.ScalarUnwatched s [.r] n (Claims.addrOf s a imm) → s.fenceBusy = false →
    ∃ t, exec i s = .next t ∧ Claims.ScalarOnly (Claims.counted s) t ∧ t.warp.spc = s.warp.spc + 4 ∧
      Claims.Wrote s t d (Claims.extended sx (Claims.scratchBytes s n (Claims.addrOf s a imm)))) ∧
  (∀ (i : Instr) (n : Nat) (sx : Bool) (d a : SReg) (imm : BitVec 16) (s : State),
    Claims.loadOf i = some (n, sx, d, a, imm) → s.warp.parkS = none → Claims.InScratch s n (Claims.addrOf s a imm) →
    ¬ Claims.SoundScratch s n (Claims.addrOf s a imm) → Claims.ScalarUnwatched s [.r] n (Claims.addrOf s a imm) → s.fenceBusy = false →
    exec i s = .next ((Claims.issued s .r (Claims.addrOf s a imm)).takeTrap false false ⟨0x11, 0, Claims.addrOf s a imm, 0, 0⟩)) ∧
  (∀ (i : Instr) (n : Nat) (sx : Bool) (d a : SReg) (imm : BitVec 16) (s : State),
    Claims.loadOf i = some (n, sx, d, a, imm) → s.warp.parkS = none → Claims.InScratch s n (Claims.addrOf s a imm) →
    Claims.ScalarUnwatched s [.r] n (Claims.addrOf s a imm) → s.fenceBusy = true →
    exec i s = .next ((Claims.issued s .r (Claims.addrOf s a imm)).waitScalar 15))

/-- 05:R101, R102: a store of n bytes, aligned and inside the scratchpad, puts the low bytes of S(sd) there, zeros for s0;
every other byte of the scratchpad, every register and all of device memory are unchanged. 05:R113: it waits while a store
that a VSYNC or a PHASE orders before it is under way. -/
def Obligations.ScalarStoresWriteTheScratchpad : Prop :=
  ∀ (i : Instr) (n : Nat) (d a : SReg) (imm : BitVec 16) (s : State),
    Claims.storeOf i = some (n, d, a, imm) → s.warp.parkS = none → Claims.InScratch s n (Claims.addrOf s a imm) →
    Claims.ScalarUnwatched s [.w] n (Claims.addrOf s a imm) →
    (s.fenceBusy = false →
      ∃ t, exec i s = .next t ∧ Claims.ScratchOnly (Claims.counted s) t ∧ t.warp.spc = s.warp.spc + 4 ∧ (∀ r : SReg, t.S r = s.S r) ∧
        (∀ k < n, Claims.scratchAt t ((Claims.addrOf s a imm).toNat - 0x00FFFF0000000000 + k) = Claims.regByte (s.S d) k) ∧
        (∀ x, (x < (Claims.addrOf s a imm).toNat - 0x00FFFF0000000000 ∨ (Claims.addrOf s a imm).toNat - 0x00FFFF0000000000 + n ≤ x) →
          Claims.scratchAt t x = Claims.scratchAt s x)) ∧
    (s.fenceBusy = true → exec i s = .next ((Claims.issued s .w (Claims.addrOf s a imm)).waitScalar 15))

/-- 05:R102: an access that is no multiple of its size raises MISALIGNED, before the other checks, with its address and a
faulting-lane mask of 0; an aligned access that lies in the aperture and runs past the team's allocation raises
SCRATCH_BOUND. Nothing of either is visible before the trap is taken; the checks count stall reason 8. -/
def Obligations.ScalarAccessesThatDoNotFitTrap : Prop :=
  (∀ (i : Instr) (n : Nat) (addr : W64) (s : State), s.warp.parkS = none → s.warp.scalIa = none → addr.toNat % n ≠ 0 →
    ((∃ sx d a imm, Claims.loadOf i = some (n, sx, d, a, imm) ∧ addr = Claims.addrOf s a imm) ∨
     (∃ d a imm, Claims.storeOf i = some (n, d, a, imm) ∧ addr = Claims.addrOf s a imm)) →
    exec i s = .next ((Claims.counted s).takeTrap false false ⟨0x06, 0, addr, 0, 0⟩)) ∧
  (∀ (i : Instr) (n : Nat) (addr : W64) (s : State), s.warp.parkS = none → s.warp.scalIa = none → addr.toNat % n = 0 →
    0x00FFFF0000000000 ≤ addr.toNat → addr.toNat < 0x00FFFF0000100000 →
    s.team.hdr.scratch < addr.toNat - 0x00FFFF0000000000 + n →
    ((∃ sx d a imm, Claims.loadOf i = some (n, sx, d, a, imm) ∧ addr = Claims.addrOf s a imm) ∨
     (∃ d a imm, Claims.storeOf i = some (n, d, a, imm) ∧ addr = Claims.addrOf s a imm)) →
    exec i s = .next ((Claims.counted s).takeTrap false false ⟨0x0A, 0, addr, 0, 0⟩))

/-- 05:R103, R104: a load of device memory whose line the core holds sound, and as no copy older than the core's floor (09:R181),
takes the line's bytes, with the warp's own newer bytes over them, into sd, and no byte of memory and no register but sd
changes; one whose line the core does not hold completes with what the memory side answers for the line. -/
def Obligations.ScalarLoadsReadDeviceMemory : Prop :=
  (∀ (i : Instr) (n : Nat) (sx : Bool) (d a : SReg) (imm : BitVec 16) (ia : Nat) (l : L1Line) (s : State),
    Claims.loadOf i = some (n, sx, d, a, imm) → s.warp.parkS = none → Claims.Checked s [.r] n (Claims.addrOf s a imm) ia →
    Claims.ScalarUnwatched s [.r] n (Claims.addrOf s a imm) → Claims.heldLine s ia = some l → l.poison = false → l.parity = false →
    (s.coreOf s.team.core).stale l = false → s.fenceBusy = false → s.scalarBusy ia = false →
    ∃ t, exec i s = .next t ∧ t.warp.spc = s.warp.spc + 4 ∧
      Claims.ScalarOnly { Claims.counted s with core := t.core, cores := t.cores } t ∧
      Claims.Wrote s t d (Claims.extended sx (overlay (s.warp.ownBytes false) ia (lineBytes l.data (ia % 128) n)))) ∧
  (∀ (i : Instr) (n : Nat) (sx : Bool) (d a : SReg) (imm : BitVec 16) (ia : Nat) (s t : State) (x : LineData),
    Claims.loadOf i = some (n, sx, d, a, imm) → s.warp.parkS = none → Claims.Checked s [.r] n (Claims.addrOf s a imm) ia →
    Claims.ScalarUnwatched s [.r] n (Claims.addrOf s a imm) → Claims.heldLine s ia = none → Claims.Unheld s ia →
    missingKind s.dev s.ctx ia = none →
    (Claims.issued s .r (Claims.addrOf s a imm)).readLine s.ctx s.team.core ia = .ok t (x, false) →
    exec i s = .next ((t.writeS d (Claims.extended sx (overlay (t.warp.ownBytes false) ia (lineBytes x (ia % 128) n)))).retire))

/-- 05:R103, R104: outside deterministic mode a store whose line the core does not hold privately is performed at its home.
The bytes stored to are the n bytes at the page's place of `ia`, computed as the meaning computes it; outside them and
outside the entries of the page every byte of memory reads as before; no scalar register changes. One whose home has
accepted it and performs it later (`late`; 05:R113 lets the lane stream's accesses come before it) completes with its bytes in an
entry of its own, whose request is sent, and no byte of memory changes. -/
def Obligations.ScalarStoresReachTheirHome : Prop :=
  ∀ (i : Instr) (n : Nat) (d a : SReg) (imm : BitVec 16) (ia : Nat) (p₀ p : Page) (s s' : State),
    Claims.storeOf i = some (n, d, a, imm) → s.warp.parkS = none → Claims.Checked s [.w] n (Claims.addrOf s a imm) ia →
    Claims.ScalarUnwatched s [.w] n (Claims.addrOf s a imm) → s.team.det = false → Claims.Unheld s ia →
    walk s.dev s.ctx ia = .page p₀ → writeVerdict s.dev s.ctx ia n = none →
    (s.warp.late = false → (∀ l, Claims.heldLine s ia = some l → l.st ≠ .pc ∧ l.st ≠ .pd ∧ l.parity = false) →
     (Claims.issued s .w (Claims.addrOf s a imm)).letIn s.ctx (.core s.team.core) true false false ia = .ok s' p →
     ∃ t, exec i s = .next t ∧ t.warp.spc = s.warp.spc + 4 ∧ (∀ r : SReg, t.S r = s.S r) ∧
      (∀ k < n, ¬ Claims.inEntry p (p.phys ia + k) → Claims.byteAt t (p.phys ia + k) = Claims.regByte (s.S d) k) ∧
      (∀ x, (x < p.phys ia ∨ p.phys ia + n ≤ x) → ¬ Claims.inEntry p₀ x → ¬ Claims.inEntry p x →
        Claims.byteAt t x = Claims.byteAt s x)) ∧
    (s.warp.late = true → s.core.holdsPrivate (tagged s.ctx.num ia) = false →
     ∃ t e, exec i s = .next t ∧ t.warp.spc = s.warp.spc + 4 ∧ (∀ r : SReg, t.S r = s.S r) ∧ t.dev = s.dev ∧
      t.warp.wbuf = s.warp.wbuf ++ [e] ∧ e.line = tagged s.ctx.num ia ∧ e.scalar = true ∧
      e.writes = [⟨0, Claims.addrOf s a imm, ia, (List.range n).map (Claims.regByte (s.S d))⟩] ∧
      t.events = s.events ++ [.storeRequest s.warp.key e.id])

/-- 09:R189: in deterministic mode a store is held for the clearing, at its place in program order, behind every block enqueued
before it: it completes, and no byte of memory changes. -/
def Obligations.DeterministicScalarStoresAreHeld : Prop :=
  ∀ (i : Instr) (n : Nat) (d a : SReg) (imm : BitVec 16) (ia : Nat) (s : State),
    Claims.storeOf i = some (n, d, a, imm) → s.warp.parkS = none → Claims.Checked s [.w] n (Claims.addrOf s a imm) ia →
    Claims.ScalarUnwatched s [.w] n (Claims.addrOf s a imm) → s.team.det = true → Claims.Unheld s ia →
    missingKind s.dev s.ctx ia = none → writeVerdict s.dev s.ctx ia n = none →
    ∃ t, exec i s = .next t ∧ t.warp.spc = s.warp.spc + 4 ∧ t.dev = s.dev ∧ t.core = s.core ∧ (∀ r : SReg, t.S r = s.S r) ∧
      t.warp.comms = s.warp.comms.filter (fun x => decide (x.1 ≤ 2 * s.warp.vexes + 1)) ++
        (2 * s.warp.vexes + 1, .store [⟨0, Claims.addrOf s a imm, ia, (List.range n).map (Claims.regByte (s.S d))⟩] none) ::
        s.warp.comms.filter (fun x => decide (2 * s.warp.vexes + 1 < x.1))

/-- 10:R208: AADD, AAND, AOR, AXOR, AMIN, AMAX, AMINU, AMAXU, ASWP and ACAS on the scratchpad complete: they leave there what R200
says of the old bytes and the operand, and write the old value into sd; .REL and .AR wait for END first, .ACQ and .AR make
a BEGIN at the scope. No lane register, predicate, mask or byte of device memory changes.
10:R208; 09:R175: those outside the scratchpad whose scope places them at the home, .DIE, .PKG, .SYS and every one under
DET, complete with the old bytes of the home in sd and with R200's bytes there, the page's entries apart; an atomic that
its scope places in the L1 takes the old bytes from the owned line.
10:R214: under DET each of them waits for the clearing, on the scratchpad too.
That an END under DET waits neither for the stores that the clearing performs nor for the warp's tasks (`Ended`) is the
model's choice (assumption 15). -/
def Obligations.ScalarAtomicsUpdateAndReturnTheOldValue : Prop :=
  (∀ (i : Instr) (op : Option AtomOp) (w : Bool) (sc : Scope) (o : Order) (d a b : SReg) (s : State) (n : Nat),
     Claims.amoOf i = some (op, w, sc, o, d, a, b) → n = (if w then 4 else 8) → s.warp.parkS = none →
     (o = .rel ∨ o = .ar → Claims.Ended s) → Claims.InScratch s n (s.S a) → Claims.SoundScratch s n (s.S a) →
     Claims.ScalarUnwatched s [.r, .w] n (s.S a) → s.fenceBusy = false → (s.team.det = false ∨ s.warp.clearS = .granted) →
     ∃ t, exec i s = .next t ∧ t.warp.spc = s.warp.spc + 4 ∧ t.dev = s.dev ∧ t.ctx = s.ctx ∧ t.events = s.events ∧
       t.warp.v = s.warp.v ∧ t.warp.preds = s.warp.preds ∧ t.warp.em = s.warp.em ∧
       Claims.Wrote s t d (Claims.extended w (Claims.scratchBytes s n (s.S a))) ∧
       Claims.scratchBytes t n (s.S a) = Claims.amoBytes op w (Claims.scratchBytes s n (s.S a)) (s.S b) (s.S d) ∧
       (∀ x, (x < (s.S a).toNat - 0x00FFFF0000000000 ∨ (s.S a).toNat - 0x00FFFF0000000000 + n ≤ x) →
         Claims.scratchAt t x = Claims.scratchAt s x) ∧
       Claims.Begun s t (if o = .acq ∨ o = .ar then sc else .team)) ∧
  (∀ (i : Instr) (op : Option AtomOp) (w : Bool) (sc : Scope) (o : Order) (d a b : SReg) (s : State) (n : Nat),
     Claims.amoOf i = some (op, w, sc, o, d, a, b) → n = (if w then 4 else 8) → s.warp.parkS = none → s.warp.report = none →
     (o = .rel ∨ o = .ar) → ¬ Claims.Ended s →
     (Claims.InScratch s n (s.S a) ∨ ∃ ia, Claims.Checked s [.r, .w] n (s.S a) ia) → Claims.ScalarUnwatched s [.r, .w] n (s.S a) →
     exec i s = .next ((Claims.issued s .w (s.S a)).waitScalar 12)) ∧
  (∀ (i : Instr) (op : Option AtomOp) (w : Bool) (sc : Scope) (o : Order) (d a b : SReg) (s : State) (n : Nat),
     Claims.amoOf i = some (op, w, sc, o, d, a, b) → n = (if w then 4 else 8) → s.warp.parkS = none →
     (o = .rel ∨ o = .ar → Claims.Ended s) → Claims.InScratch s n (s.S a) → Claims.ScalarUnwatched s [.r, .w] n (s.S a) →
     s.fenceBusy = false → s.team.det = true → s.warp.clearS ≠ .granted →
     ∃ t, exec i s = .next t ∧ Claims.ScalarOnly ((Claims.counted s).waitScalar 14) t ∧ t.warp.spc = s.warp.spc ∧
       t.warp.clearS = .waiting ∧ ∀ r : SReg, t.S r = s.S r) ∧
  (∀ (i : Instr) (op : Option AtomOp) (w : Bool) (sc : Scope) (o : Order) (d a b : SReg) (s : State) (n ia : Nat),
     Claims.amoOf i = some (op, w, sc, o, d, a, b) → n = (if w then 4 else 8) → s.warp.parkS = none →
     (o = .rel ∨ o = .ar → Claims.Ended s) → Claims.Checked s [.r, .w] n (s.S a) ia → Claims.ScalarUnwatched s [.r, .w] n (s.S a) →
     missingKind s.dev s.ctx ia = none → writeVerdict s.dev s.ctx ia n = none →
     (s.team.det = false ∨ s.warp.clearS = .granted) → Claims.Unheld s ia →
     ((sc = .die ∨ sc = .pkg ∨ sc = .sys ∨ s.team.det = true) → ∀ (s' : State) (p : Page),
       (Claims.issued s .w (s.S a)).letIn s.ctx (.core s.team.core) true false true ia = .ok s' p →
       s'.dev.bad.contains (p.phys ia / 128) = false →
       ∃ t, exec i s = .next t ∧ t.warp.spc = s.warp.spc + 4 ∧ t.team = s.team ∧ t.warp.v = s.warp.v ∧
         Claims.Wrote s t d (Claims.extended w (readBytes s'.dev.mem (p.phys ia) n)) ∧
         (∀ k < n, ¬ Claims.inEntry p (p.phys ia + k) → Claims.byteAt t (p.phys ia + k) =
           (Claims.amoBytes op w (readBytes s'.dev.mem (p.phys ia) n) (s.S b) (s.S d)).getD k 0) ∧
         (∀ x, (x < p.phys ia ∨ p.phys ia + n ≤ x) → ¬ Claims.inEntry p x → Claims.byteAt t x = Claims.byteAt s' x)) ∧
     (∀ (t : State) (old : List Byte), (Claims.issued s .w (s.S a)).placeAtomic sc op (!w) ia (s.S b) (s.S d) = .ok t (old, false) →
     exec i s = .next (((if o = .acq ∨ o = .ar then t.begin sc else t).writeS d (Claims.extended w old)).retire)))

/-- 10:R207: LDACQ loads and then begins a phase at its scope; STREL ends one and then stores. On the scratchpad: the value,
the lines dropped, the bytes stored. 05:R113: the load waits while a store that a VSYNC or a PHASE orders before it is under way.
That an END under DET waits neither for the stores that the clearing performs nor for the warp's tasks (`Ended`) is the
model's choice (assumption 15).
10:R209; 09:R177, R178: PHASE.END completes once every earlier store of the warp has been performed and waits otherwise;
PHASE.BEGIN waits for the earlier lane blocks and drops the shared-clean lines; FULL does both. -/
def Obligations.ScopedAccessesAndPhases : Prop :=
  (∀ (w : Bool) (sc : Scope) (d a b : SReg) (s : State) (n : Nat), n = (if w then 4 else 8) → s.warp.parkS = none →
     Claims.InScratch s n (s.S a) →
     (Claims.ScalarUnwatched s [.r] n (s.S a) → s.fenceBusy = true →
       exec (.ldacq w sc d a) s = .next ((Claims.issued s .r (s.S a)).waitScalar 15)) ∧
     (Claims.ScalarUnwatched s [.r] n (s.S a) → Claims.SoundScratch s n (s.S a) → s.fenceBusy = false →
       ∃ t, exec (.ldacq w sc d a) s = .next t ∧ t.warp.spc = s.warp.spc + 4 ∧ t.dev = s.dev ∧ t.team = s.team ∧
         Claims.Wrote s t d (Claims.extended w (Claims.scratchBytes s n (s.S a))) ∧ Claims.Begun s t sc) ∧
     (Claims.ScalarUnwatched s [.w] n (s.S a) → Claims.Ended s →
       ∃ t, exec (.strel w sc a b) s = .next t ∧ t.warp.spc = s.warp.spc + 4 ∧ Claims.ScratchOnly (Claims.counted s) t ∧
         (∀ r : SReg, t.S r = s.S r) ∧ Claims.scratchBytes t n (s.S a) = (List.range n).map (Claims.regByte (s.S b)) ∧
         (∀ x, (x < (s.S a).toNat - 0x00FFFF0000000000 ∨ (s.S a).toNat - 0x00FFFF0000000000 + n ≤ x) →
           Claims.scratchAt t x = Claims.scratchAt s x))) ∧
  (∀ (sc : Scope) (s : State), s.warp.parkS = none →
     (Claims.Ended s → ∃ t, exec (.phaseEnd sc) s = .next t ∧ Claims.ScalarOnly s t ∧ t.warp.spc = s.warp.spc + 4 ∧
       ∀ r : SReg, t.S r = s.S r) ∧
     (s.warp.report = none → ¬ Claims.Ended s → exec (.phaseEnd sc) s = .next (s.waitScalar 12) ∧
       exec (.phaseFull sc) s = .next (s.waitScalar 12)) ∧
     (s.warp.queue = [] → ∃ t, exec (.phaseBegin sc) s = .next t ∧ t.warp.spc = s.warp.spc + 4 ∧ t.dev = s.dev ∧
       t.team = s.team ∧ (∀ r : SReg, t.S r = s.S r) ∧ Claims.Begun s t sc) ∧
     (s.warp.queue ≠ [] → exec (.phaseBegin sc) s = .next (s.waitScalar 12)) ∧
     (Claims.Ended s → ∃ t, exec (.phaseFull sc) s = .next t ∧ t.warp.spc = s.warp.spc + 4 ∧ t.dev = s.dev ∧
       t.team = s.team ∧ (∀ r : SReg, t.S r = s.S r) ∧ Claims.Begun s t sc))


/-- 01:R11; 05:R105, R106: VEX and VEXR enqueue a block with the snapshots of the moment; a full queue is waited for; an
address of VEXR that is no multiple of 4, or does not fit 56 bits, traps and enqueues nothing. -/
def Obligations.BlocksAreEnqueuedWithTheirSnapshots : Prop :=
  ∀ s : State,
    (∀ (cnt : BitVec 10) (loff : BitVec 16),
      Claims.Enqueues (.vex cnt loff) s (BitVec.ofInt 56 (s.warp.lbr.toInt + 12 * loff.toInt)) cnt.toNat) ∧
    (∀ a b : SReg,
      ((s.S a).toNat % 4 ≠ 0 → exec (.vexr a b) s = .next (s.takeTrap false false ⟨0x06, 0, s.S a, 0, 0⟩)) ∧
      ((s.S a).toNat % 4 = 0 → 2 ^ 56 ≤ (s.S a).toNat →
        exec (.vexr a b) s = .next (s.takeTrap false false ⟨0x04, 0, s.S a, 0, 0⟩)) ∧
      ((s.S a).toNat % 4 = 0 → (s.S a).toNat < 2 ^ 56 →
        Claims.Enqueues (.vexr a b) s (BitVec.ofNat 56 (s.S a).toNat) ((s.S b).toNat % 1024)))

/-- 05:R107, R108, R113: VSYNC completes once every block enqueued before it has retired, and puts the stores that are under way
before every access that follows; SRQPOP takes the oldest entry, zero-extended, and waits for one.
14:R277, R278; 09:R187: YIELD changes nothing but the turn; a NAP with a bound of 0, or under DET, completes at once, and
any other suspends the scalar stream; EXIT, after its END and the fills into the warp's registers, frees its channels and
blocks. That an END under DET waits neither for the stores that the clearing performs nor for the warp's tasks (`Ended`) is the
model's choice (assumption 15). -/
def Obligations.WaitsPausesAndExits : Prop :=
  (∀ (d : SReg) (s : State), s.warp.parkS = none →
     (s.warp.queue = [] → ∃ t, exec .vsync s = .next t ∧ t.warp.spc = s.warp.spc + 4 ∧ (∀ r : SReg, t.S r = s.S r) ∧
       Claims.ScalarOnly { s with warp := { s.warp with wbuf := s.warp.wbuf.map (fun e => { e with fenced := true }) } } t) ∧
     (s.warp.queue ≠ [] → exec .vsync s = .next (s.waitScalar 0)) ∧
     (∀ (x : W32) (rest : List W32), s.warp.srq = x :: rest →
       ∃ t, exec (.srqpop d) s = .next t ∧ t.warp.spc = s.warp.spc + 4 ∧ t.warp.srq = rest ∧
         Claims.ScalarOnly { s with warp := { s.warp with srq := rest } } t ∧ Claims.Wrote s t d (BitVec.ofNat 64 x.toNat)) ∧
     (s.warp.srq = [] → exec (.srqpop d) s = .next (s.waitScalar 1))) ∧
  (∀ (a : SReg) (s : State),
     (∃ t, exec .yieldTurn s = .next t ∧ Claims.ScalarOnly s t ∧ t.warp.spc = s.warp.spc + 4 ∧ t.warp.yielded = true ∧
       ∀ r : SReg, t.S r = s.S r) ∧
     ((s.S a).toNat % 2 ^ 32 = 0 ∨ s.team.det = true → ∃ t, exec (.nap a) s = .next t ∧ Claims.ScalarOnly s t ∧
       t.warp.spc = s.warp.spc + 4 ∧ ∀ r : SReg, t.S r = s.S r) ∧
     ((s.S a).toNat % 2 ^ 32 ≠ 0 → s.team.det = false → ∃ t, exec (.nap a) s = .next t ∧ t.warp.nap = true ∧
       t.warp.spc = s.warp.spc + 4 ∧ t.dev = s.dev ∧ (∀ r : SReg, t.S r = s.S r) ∧
       t.warp.stalls.get 15 = s.warp.stalls.get 15 + 1) ∧
     (s.warp.parkS = none → Claims.Ended s → (∀ f ∈ s.warp.fills, f.arrived = f.lanes) → ∃ t, exec .exit s = .next t ∧ t.warp.status = .exited ∧ t.warp.blocks = 0 ∧
       t.warp.chans = List.replicate 15 Chan.free ∧ t.team = s.team ∧ t.dev.mem = s.dev.mem))

/-- 05:R110, R111: VGROW of n blocks, plain and TRY: the allocation, the trap of a request beyond 12 blocks, and what each
form does when the blocks are not to be had. VSHRINK releases its blocks once no lane access that is under way and no
fill can reach them; fewer than one block left raises REGISTER_BLOCK and changes nothing of the file. -/
def Obligations.RegisterBlocksGrowAndShrink : Prop :=
  (∀ (n : BitVec 4) (d : SReg) (s : State), n ≠ 0 →
    (12 < s.warp.blocks + n.toNat →
      exec (.vgrow n) s = .next (s.takeTrap false false ⟨0x0C, 0, 0, BitVec.ofNat 64 (s.warp.blocks * 256 + n.toNat), 0⟩)) ∧
    (s.warp.blocks + n.toNat ≤ 12 → Claims.CanGrow s n.toNat →
      ∃ t, exec (.vgrow n) s = .next t ∧ t.warp.spc = s.warp.spc + 4 ∧ Claims.FileOnly s t ∧ Claims.Grown s t n.toNat ∧
        ∀ r : SReg, t.S r = s.S r) ∧
    (s.warp.blocks + n.toNat ≤ 12 → ¬ Claims.CanGrow s n.toNat →
      ∃ t, exec (.vgrow n) s = .next t ∧ t.warp.spc = s.warp.spc ∧ t.warp.blocks = s.warp.blocks ∧ t.warp.v = s.warp.v ∧
        t.warp.growWait.isSome = true ∧ t.warp.scalStalled = true ∧ t.dev = s.dev) ∧
    (s.warp.blocks + n.toNat ≤ 12 → Claims.CanGrow s n.toNat →
      ∃ t, exec (.vgrowTry d n) s = .next t ∧ t.warp.spc = s.warp.spc + 4 ∧ Claims.FileOnly s t ∧ Claims.Grown s t n.toNat ∧
        Claims.Wrote s t d 1) ∧
    (12 < s.warp.blocks + n.toNat ∨ ¬ Claims.CanGrow s n.toNat →
      ∃ t, exec (.vgrowTry d n) s = .next t ∧ t.warp.spc = s.warp.spc + 4 ∧ Claims.ScalarOnly s t ∧ Claims.Wrote s t d 0)) ∧
  (∀ (n : BitVec 4) (s : State), n ≠ 0 →
    (s.warp.blocks ≤ n.toNat →
      exec (.vshrink n) s = .next (s.takeTrap false false ⟨0x0C, 0, 0, BitVec.ofNat 64 (s.warp.blocks * 256 + n.toNat), 0⟩)) ∧
    (n.toNat < s.warp.blocks → s.warp.check = .idle → s.warp.parkL = none → s.warp.rob = [] →
      (∀ f ∈ s.warp.fills, 16 * (s.warp.blocks - n.toNat) ≤ f.reg → f.arrived = f.lanes) →
      ∃ t, exec (.vshrink n) s = .next t ∧ t.warp.spc = s.warp.spc + 4 ∧ Claims.FileOnly s t ∧
        t.warp.blocks = s.warp.blocks - n.toNat ∧ (∀ r : SReg, t.S r = s.S r) ∧
        ∀ r < 16 * (s.warp.blocks - n.toNat), ∀ l < 32, t.vreg r l = s.vreg r l))

/-- 13:R238, R241: TASK enqueues the record of the four registers at the end of the team's ring with the next sequence
number; TWAIT completes with at most k tasks in flight and waits otherwise.
13:R259, R260: a pending report of a failed task is taken by the next TASK, TWAIT, PHASE.END, PHASE.FULL, STREL or
EXIT of the warp that nothing else holds up: the report goes, and TASK_FAULT is raised with sequence number, kind and
reason as its detail. -/
def Obligations.TasksJoinTheRingAndReport : Prop :=
  (∀ (a : SReg) (k : BitVec 16) (s : State), s.warp.parkS = none → s.warp.report = none →
     (1 ≤ a.toNat → a.toNat ≤ 28 → s.warp.queue = [] → s.team.ring.length < 256 →
       (s.recordAt a).reasonAgainst s.ctx.feat s.scrsize (s.team.loadFmt (s.recordAt a).wsMma) = none →
       (s.recordAt a).beyond s.scrsize (((s.team.loadFmt (s.recordAt a).wsMma).map BitVec.toNat).getD 0) = none →
       ∃ t r, exec (.task a) s = .next t ∧ t.warp.spc = s.warp.spc + 4 ∧ t.team.ring = s.team.ring ++ [r] ∧
         r.seq = s.team.taskSeq ∧ r.warp = s.warp.key.warp ∧ r.t0 = s.S a ∧ r.t1 = s.S (a + 1) ∧ r.t2 = s.S (a + 2) ∧
         r.t3 = s.S (a + 3) ∧ r.dseed = s.warp.dseed ∧ t.team.taskSeq = s.team.taskSeq + 1 ∧ t.dev = s.dev ∧
         t.team.scratch = s.team.scratch ∧ ∀ q : SReg, t.S q = s.S q) ∧
     (s.team.ring.length ≤ k.toNat → ∃ t, exec (.twait k) s = .next t ∧ Claims.ScalarOnly s t ∧
       t.warp.spc = s.warp.spc + 4 ∧ ∀ r : SReg, t.S r = s.S r) ∧
     (k.toNat < s.team.ring.length → exec (.twait k) s = .next (s.waitScalar 10))) ∧
  (∀ (i : Instr) (r : Report) (s : State), s.warp.parkS = none → s.warp.report = some r → s.warp.queue = [] →
     ((∃ a : SReg, i = .task a ∧ 1 ≤ a.toNat ∧ a.toNat ≤ 28) ∨ (∃ k, i = .twait k) ∨ (∃ sc, i = .phaseEnd sc) ∨
       (∃ sc, i = .phaseFull sc) ∨ (∃ w sc a b, i = .strel w sc a b) ∨ i = .exit) →
     exec i s = .next (({ s with warp := { s.warp with report := none } }).takeTrap false false
       ⟨0x12, 0, r.addr, BitVec.ofNat 64 (r.seq.toNat * 65536 + r.kind.toNat * 256 + r.reason), r.ticket⟩))

/-- 11:R216, R217, R220: AGDECL whose descriptor can be read ends with the status of the first condition it meets, in
AGSTATUS, and with 0 in sd; with status 0 the region joins those of the context under the handle in sd, and its nodes
leave the pool. The END that comes first is, under DET, the model's choice (`Ended`, assumption 15). 20:R323, R324: while a page of the array lies on the CXL tier, AGDECL waits for its move, and declares nothing. AGDROP of a handle that stands removes its region and returns its nodes; any other handle raises
AGG_FAULT with detail 6. -/
def Obligations.RegionsAreDeclaredAndDropped : Prop :=
  (∀ (d a : SReg) (s t : State) (desc : AggDesc), Claims.Ready s 7 → Claims.Ended s →
    ((Claims.InScratch s 32 (s.S a) ∧ Claims.SoundScratch s 32 (s.S a) ∧ Claims.ScalarUnwatched s [.r] 8 (s.S a) ∧
        t = Claims.issued s .r (s.S a) ∧ desc = ⟨Claims.scratchWord s (s.S a) 0, Claims.scratchWord s (s.S a) 1, Claims.scratchWord s (s.S a) 2,
          Claims.scratchWord s (s.S a) 3⟩) ∨
      (Claims.PassesIssue s [.r] true 32 8 (s.S a) ∧ (Claims.issued s .r (s.S a)).readDesc (s.S a) = .ok t desc)) →
    (t.aggStatus desc t.team.core ≠ 0 →
      ∃ u, exec (.agdecl d a) s = .next u ∧ u.warp.spc = t.warp.spc + 4 ∧ Claims.Wrote t u d 0 ∧
        u.warp.agstatus = BitVec.ofNat 64 (t.aggStatus desc t.team.core) ∧ u.ctx = t.ctx ∧ u.dev = t.dev) ∧
    (∀ h, t.aggStatus desc t.team.core = 0 → t.aggMissing desc = none → freeHandle t.ctx = some h →
      t.aggMoves desc = [] →
      ∃ u g, exec (.agdecl d a) s = .next u ∧ u.warp.spc = t.warp.spc + 4 ∧ Claims.Wrote t u d (BitVec.ofNat 64 h) ∧
        u.warp.agstatus = 0 ∧ u.ctx.regions = t.ctx.regions ++ [g] ∧ g.handle = h ∧ g.base = desc.base ∧ g.log2n = desc.log2n ∧
        g.kind = desc.kind ∧ u.ctx.pool = t.ctx.pool - (2 ^ desc.log2n - 1)) ∧
    (∀ h, t.aggStatus desc t.team.core = 0 → t.aggMissing desc = none → freeHandle t.ctx = some h → t.aggMoves desc ≠ [] →
      ∃ u, exec (.agdecl d a) s = .next u ∧ u.warp.spc = t.warp.spc ∧ u.warp.scalStalled = true ∧ u.warp.onPages = true ∧
        u.ctx.regions = t.ctx.regions ∧ u.dev = t.dev ∧ ∀ r : SReg, u.S r = t.S r)) ∧
  (∀ (a : SReg) (s : State), Claims.Ready s 7 →
    ((∃ g ∈ s.ctx.regions, g.handle = (s.S a).toNat) →
      ∃ t, exec (.agdrop a) s = .next t ∧ t.warp.spc = s.warp.spc + 4 ∧ (∀ r : SReg, t.S r = s.S r) ∧
        t.ctx.regions = s.ctx.regions.filter (fun g => g.handle != (s.S a).toNat) ∧
        ∀ g, s.ctx.regions.find? (fun g => g.handle == (s.S a).toNat) = some g → t.ctx.pool = s.ctx.pool + (2 ^ g.log2n - 1)) ∧
    ((∀ g ∈ s.ctx.regions, g.handle ≠ (s.S a).toNat) →
      exec (.agdrop a) s = .next (s.takeTrap false false ⟨0x09, 0, 0, 6, 0⟩)))

/-- 10:R210, R211: SEAL and EXTFREE name the append extent of their address. SEAL gives 0 and leaves the extent closed and
sealed when its tails agree, 1 when it was sealed before, 2 for an address in no extent; EXTFREE gives 0 and the extent is
no more, 2, or 3 for one that is not sealed.
10:R211: an EXTFREE of a sealed extent waits until every other package of the context has dropped its pages.
10:R212: SETTLE reads the shape record; one without the ESCROW flag raises ESCROW_FAULT with detail 1; every open escrow page of
the buffer is swapped once no escrow write of the warp's tasks to it has still to be performed, and SETTLE waits till then. -/
def Obligations.ExtentsAndEscrowsEnd : Prop :=
  (∀ (d a : SReg) (s u : State) (x : Extent), Claims.Ready s 8 → s.warp.sealing = false →
     ((inAperture (s.S a) = true ∧ u = s) ∨ (inAperture (s.S a) = false ∧ Claims.PassesIssue s [.w] false 1 1 (s.S a) ∧
       u = Claims.issued s .w (s.S a))) →
     ((inAperture (s.S a) = true ∨ extentAt s.ctx (s.S a) = none) →
       (∃ t, exec (.seal d a) s = .next t ∧ t.warp.spc = s.warp.spc + 4 ∧ Claims.ScalarOnly u t ∧ Claims.Wrote s t d 2) ∧
       (∃ t, exec (.extfree d a) s = .next t ∧ t.warp.spc = s.warp.spc + 4 ∧ Claims.ScalarOnly u t ∧ Claims.Wrote s t d 2)) ∧
     (inAperture (s.S a) = false → extentAt s.ctx (s.S a) = some x →
       (x.sealed = true →
         (∃ t, exec (.seal d a) s = .next t ∧ t.warp.spc = s.warp.spc + 4 ∧ Claims.ScalarOnly u t ∧ Claims.Wrote s t d 1) ∧
         ((x.freeing = true ∨ ∀ q ∈ s.ctx.pkgs, s.dev.deadPkgs.contains q = true) →
           s.dropsOpen ((s.extentPages x).map (pageKey s.ctx.num)) = false →
           ∃ t, exec (.extfree d a) s = .next t ∧ t.warp.spc = s.warp.spc + 4 ∧ Claims.Wrote s t d 0 ∧
             t.ctx.extents = s.ctx.extents.filter (fun y => y.base != x.base)) ∧
         (x.freeing = true → s.dropsOpen ((s.extentPages x).map (pageKey s.ctx.num)) = true →
           exec (.extfree d a) s = .next ((u.onWarp (fun w => { w with onPages := true })).waitScalar 15))) ∧
       (x.sealed = false →
         ∃ t, exec (.extfree d a) s = .next t ∧ t.warp.spc = s.warp.spc + 4 ∧ Claims.ScalarOnly u t ∧ Claims.Wrote s t d 3) ∧
       (x.sealed = false → x.closed = false → x.committed = x.reserved →
         ∃ t, exec (.seal d a) s = .next t ∧ t.warp.spc = s.warp.spc + 4 ∧ Claims.Wrote s t d 0 ∧
           t.ctx.extents = (s.ctx.setExtent { x with closed := true, sealed := true }).extents))) ∧
  (∀ (a : SReg) (s t : State) (bs : List Byte), Claims.Ready s 9 → Claims.PassesIssue s [.r] false 64 8 (s.S a) →
     State.loadWords (s.S a) 8 (Claims.issued s .r (s.S a)) [] = .ok t bs →
     ((shapeOf bs).escrow = false → exec (.settle a) s = .next (t.takeTrap false false ⟨0x10, 0, 0, 1, 0⟩)) ∧
     ((shapeOf bs).escrow = true → t.escrowBusy (shapeOf bs) = true → exec (.settle a) s = .next (t.waitScalar 15)) ∧
     ((shapeOf bs).escrow = true → t.escrowBusy (shapeOf bs) = false →
       exec (.settle a) s = .next ((bufferEscrow t.ctx (shapeOf bs)).foldl State.swapPage t).retire))

/-- 14:R275; 21:R338: LAUNCH reads the packet at S(sa) once and, after its END, appends it to the queue of the handle S(sb) and
writes the status of the append; a number that is no queue handle gives 2 and appends nothing.
14:R267, R268: CHBIND writes the status of R267 and binds on status 0 only; CHFREE unbinds its entry and drops its
messages, and raises CHANNEL_FAULT with detail 4 above entry 14. The order of CHBIND's statuses, 3 before 2 before 1, is the model's
reading (assumption 16); what END waits for under DET is its choice (assumption 15). -/
def Obligations.LaunchAndChannelOperations : Prop :=
  (∀ (d a b : SReg) (s t : State) (bs : List Byte), Claims.Ready s 11 → s.warp.packet = none → Claims.Ended t → t.team.det = false →
     ((Claims.InScratch s 64 (s.S a) ∧ Claims.SoundScratch s 64 (s.S a) ∧ Claims.ScalarUnwatched s [.r] 8 (s.S a) ∧
         t = Claims.issued s .r (s.S a) ∧ bs = Claims.scratchBytes s 64 (s.S a)) ∨
       (Claims.PassesIssue s [.r] true 64 8 (s.S a) ∧ State.loadWords (s.S a) 8 (Claims.issued s .r (s.S a)) [] = .ok t bs)) →
     (t.ctx.queueAt (t.S b) = none → exec (.launch d a b) s = .next (((t.onWarp (fun w => { w with packet := none })).writeS d 2).retire)) ∧
     (∀ control u n, t.ctx.queueAt (t.S b) = some control →
       (t.onWarp (fun w => { w with packet := some bs })).appendPacket control (t.childPacket bs) = .ok u n →
       exec (.launch d a b) s = .next (((u.onWarp (fun w => { w with packet := none })).writeS d (BitVec.ofNat 64 n)).retire))) ∧
  (∀ (d a : SReg) (s : State) (x : Nat), Claims.Ready s 5 → s.warp.chans.length = 15 → x = (s.S a).toNat →
     (∃ t n, exec (.chbind d a) s = .next t ∧ t.warp.spc = s.warp.spc + 4 ∧ Claims.Wrote s t d (BitVec.ofNat 64 n) ∧
       t.dev = s.dev ∧ t.team = s.team ∧
       ((x % 16 = 15 ∨ x / 2 ^ 16 % 16 = 15 ∨ x / 2 ^ 20 % 4096 ≠ 0 ∨ x / 2 ^ 13 % 8 ≠ 0 ∨ x / 2 ^ 5 % 8 ≠ 0) → n = 3) ∧
       (¬(x % 16 = 15 ∨ x / 2 ^ 16 % 16 = 15 ∨ x / 2 ^ 20 % 4096 ≠ 0 ∨ x / 2 ^ 13 % 8 ≠ 0 ∨ x / 2 ^ 5 % 8 ≠ 0) →
         (s.team.teamCnt ≤ x / 2 ^ 32 ∨ (s.team.hdr.lanes + 31) / 32 ≤ x / 2 ^ 8 % 32 → n = 2) ∧
         (x / 2 ^ 32 < s.team.teamCnt → x / 2 ^ 8 % 32 < (s.team.hdr.lanes + 31) / 32 →
           n = if (s.warp.chan (x % 16)).st = .unbound then 0 else 1)) ∧
       t.warp.chans = if n = 0 then s.warp.chans.set (x % 16)
           ⟨if x / 16 % 2 = 1 then .recv else .send, x / 2 ^ 32, x / 2 ^ 8 % 32, x / 2 ^ 16 % 16, []⟩
         else s.warp.chans) ∧
     (x ≤ 14 → ∃ t, exec (.chfree a) s = .next t ∧ t.warp.spc = s.warp.spc + 4 ∧
       t.warp.chans = s.warp.chans.set x ⟨.unbound, 0, 0, 0, []⟩ ∧ t.dev = s.dev ∧ ∀ r : SReg, t.S r = s.S r) ∧
     (14 < x → exec (.chfree a) s = .next (s.takeTrap false false ⟨0x0B, 0, 0, 4, 0⟩)))

/-- 14:R262 to R265: a BAR whose episode has been released completes: it begins a phase at the scope of its level and goes on. One
that its warp has not arrived at yet sends its arrival once END has completed and waits; one in between waits and does not
arrive again. What END waits for under DET (`Ended`) is the model's choice (assumption 15). A level above TEAM outside CORES
and DET raises BAR_SCOPE. An arrival counts for its warp in its episode; an episode releases none of its warps while one has
not arrived, and then all that have. -/
def Obligations.BarriersArriveOnceAndRelease : Prop :=
  ∀ (level : BitVec 2) (id : BitVec 13) (s : State),
    ((∀ b ∈ s.warp.bar, ¬(b.level = level.toNat ∧ b.id = id.toNat)) → s.warp.parkS = none → Claims.Ended s →
      (level = 0 ∨ s.team.cores = true ∨ s.team.det = true) →
      ∃ t, exec (.bar level id) s = .next t ∧ t.warp.spc = s.warp.spc ∧
        t.warp.bar = s.warp.bar ++ [⟨level.toNat, id.toNat, false⟩] ∧
        t.events = s.events ++ [.barArrival s.warp.key level.toNat id.toNat] ∧ t.dev = s.dev) ∧
    ((∀ b ∈ s.warp.bar, ¬(b.level = level.toNat ∧ b.id = id.toNat)) → s.warp.parkS = none → s.warp.report = none →
      level ≠ 0 → s.team.cores = false → s.team.det = false →
      exec (.bar level id) s = .next (s.takeTrap false false ⟨0x0D, 0, 0, 0, 0⟩)) ∧
    ((∀ b ∈ s.warp.bar, ¬(b.level = level.toNat ∧ b.id = id.toNat)) → s.warp.parkS = none → s.warp.report = none →
      ¬ Claims.Ended s → (level = 0 ∨ s.team.cores = true ∨ s.team.det = true) →
      exec (.bar level id) s = .next (s.waitScalar 12)) ∧
    (∀ x, s.warp.bar.find? (fun b => b.level == level.toNat && b.id == id.toNat) = some x → x.released = false →
      exec (.bar level id) s = .next (s.waitScalar (if s.team.det = true ∧ level ≠ 0 then 14 else 13))) ∧
    (∀ pre post, s.warp.bar = pre ++ [⟨level.toNat, id.toNat, true⟩] ++ post →
      (∀ b ∈ pre ++ post, ¬(b.level = level.toNat ∧ b.id = id.toNat)) →
      ∃ t, exec (.bar level id) s = .next t ∧ t.warp.spc = s.warp.spc + 4 ∧ t.warp.bar = pre ++ post ∧
        t.events = s.events ∧ (∀ r : SReg, t.S r = s.S r) ∧
        Claims.Begun s t (match level.toNat with | 0 => .team | 1 => .quad | 2 => .die | _ => .pkg)) ∧
    (∀ (w : WarpKey) (x : Warp) (tm : Team) (n : Nat), s.warpOf w = some x → s.teamOf w.teamKey = some tm →
      (∃ b ∈ x.bar, b.level = n ∧ b.id = id.toNat ∧ b.released = false) →
      ∃ t b, exec (.barArrival w n id.toNat) s = .next t ∧ t.warp = s.warp ∧ b ∈ t.dev.bars ∧ b.launch = w.launch ∧ b.level = n ∧
        b.id = id.toNat ∧ b.unit = tm.barUnit n ∧ (w.team, w.warp) ∈ b.arrived ∧
        (s.barMissing b = false → n = 0 → Instr.barRelease w.launch n id.toNat b.unit ∈ t.events ++ t.held)) ∧
    (∀ (launch n unit : Nat) (b : Bar),
      s.dev.bars.find? (fun b => b.launch == launch && b.level == n && b.id == id.toNat && b.unit == unit) = some b →
      (s.barMissing b = true → exec (.barRelease launch n id.toNat unit) s = .next s) ∧
      (s.barMissing b = false → ∃ t, exec (.barRelease launch n id.toNat unit) s = .next t ∧ b ∉ t.dev.bars ∧
        ∀ w ∈ s.warp :: s.warps, w.key.launch = launch → (w.key.team, w.key.warp) ∈ b.arrived →
          ∃ x ∈ t.warp :: t.warps, x.key = w.key ∧ x.spc = w.spc ∧ x.bar.length = w.bar.length ∧
            ∀ y ∈ x.bar, y.level = n → y.id = id.toNat → y.released = true))

/-- 01:R30; 14:R279; 21:R352: MFS writes the special register's value into sd and changes nothing else: FEAT as the context masks it
and ISAVER with its numerics number (04:R87, R86), QUANTUM with its default (21:R354). What CYCLE shows is an open value that each
read advances (assumption 5). -/
def Obligations.SpecialRegistersRead : Prop :=
  ∀ (d : SReg) (s : State),
    (∀ (n : BitVec 6) (x : W64), Claims.specialOf s n.toNat = some x →
      ∃ t, exec (.mfs d n) s = .next t ∧ Claims.ScalarOnly s t ∧ t.warp.spc = s.warp.spc + 4 ∧ Claims.Wrote s t d x) ∧
    (∃ t, exec (.mfs d 6) s = .next t ∧ t.warp.spc = s.warp.spc + 4 ∧ t.dev = s.dev ∧ t.team = s.team ∧
      Claims.Wrote s t d (Config.cycleAt (s.coreOf s.team.core).cycle))

/-- 01:R10, R31, R32, R35; 14:R280: what an MTS leaves in the register it names, and the reading of TRAPINFO. An MTS of LBR
with a bit below 16 set raises MISALIGNED; of ALLOWANCE above 512 stores 512; of RESUME outside the handler has no
effect. That LBR keeps the low 56 bits of the value is the model's choice (assumption 47). -/
def Obligations.SpecialRegistersWrite : Prop :=
  ∀ (a : SReg) (s : State),
    (∃ t, exec (.mts a 9) s = .next t ∧ t.warp.spc = s.warp.spc + 4 ∧ t.warp.dseed = s.S a ∧
      Claims.ScalarOnly { s with warp := { s.warp with dseed := s.S a } } t ∧ ∀ r : SReg, t.S r = s.S r) ∧
    (∃ t, exec (.mtsTrapinfo a) s = .next t ∧ t.warp.spc = s.warp.spc + 4 ∧ t.warp.trapSel.toNat = (s.S a).toNat % 512 ∧
      Claims.ScalarOnly { s with warp := { s.warp with trapSel := t.warp.trapSel } } t ∧ ∀ r : SReg, t.S r = s.S r) ∧
    ((s.S a).toNat % 16 = 0 → ∃ t, exec (.mtsLbr a) s = .next t ∧ t.warp.spc = s.warp.spc + 4 ∧
      t.warp.lbr.toNat = (s.S a).toNat % 2 ^ 56 ∧
      Claims.ScalarOnly { s with warp := { s.warp with lbr := t.warp.lbr } } t ∧ ∀ r : SReg, t.S r = s.S r) ∧
    ((s.S a).toNat % 16 ≠ 0 → exec (.mtsLbr a) s = .next (s.takeTrap false false ⟨0x06, 0, 0, 0, 0⟩)) ∧
    (∃ t, exec (.mtsFpstat a) s = .next t ∧ t.warp.spc = s.warp.spc + 4 ∧ t.warp.fpstat.toNat = (s.S a).toNat % 32 ∧
      Claims.ScalarOnly { s with warp := { s.warp with fpstat := t.warp.fpstat } } t ∧ ∀ r : SReg, t.S r = s.S r) ∧
    (∃ t, exec (.mtsAllowance a) s = .next t ∧ t.warp.spc = s.warp.spc + 4 ∧
      (t.coreOf s.team.core).allowance = min (s.S a).toNat 512 ∧ (t.coreOf s.team.core).l1 = (s.coreOf s.team.core).l1 ∧
      t.dev = s.dev ∧ t.team = s.team ∧ ∀ r : SReg, t.S r = s.S r) ∧
    (s.warp.inHandler = false → ∃ t, exec (.mtsResume a) s = .next t ∧ Claims.ScalarOnly s t ∧
      t.warp.spc = s.warp.spc + 4 ∧ ∀ r : SReg, t.S r = s.S r) ∧
    (∀ d : SReg, ∃ t, exec (.mfsTrapinfo d) s = .next t ∧ t.warp.spc = s.warp.spc + 4 ∧
      Claims.Wrote s t d (Claims.recordWord s.warp s.warp.trapSel.toNat) ∧
      t.warp.trapSel.toNat = (if s.warp.trapSel.toNat = 279 ∨ s.warp.trapSel.toNat = 511 then 0 else s.warp.trapSel.toNat + 1) ∧
      Claims.ScalarOnly { s with warp := { s.warp with trapSel := t.warp.trapSel } } t)

/-- 14:R276: TRAP raises TRAP_INSTR with its code as the detail; BRK stops the warp when a debugger holds the capability to
stop it and raises BREAKPOINT otherwise. -/
def Obligations.TrapAndBrkStopTheWarp : Prop :=
  ∀ (code : BitVec 6) (s : State),
    exec (.trap code) s = .next (s.takeTrap false false ⟨0x0E, 0, 0, BitVec.ofNat 64 code.toNat, 0⟩) ∧
    (s.debugHeld = false → exec .brk s = .next (s.takeTrap false false ⟨0x0F, 0, 0, 0, 0⟩)) ∧
    (s.debugHeld = true → ∃ t, exec .brk s = .next t ∧ t.warp.status = .stopped ∧ t.warp.spc = s.warp.spc ∧
      t.warp.trapRec = s.warp.trapRec ∧ (t.warp.stopRec.get 0).toNat % 256 = 0)


/-! ## Words and steps -/

/-- 03:R67, R68, R73; 04:R78 to R82: the words that the spec works out bit by bit decode to the instructions they stand for,
and the word of zeros is illegal in both streams. -/
def Obligations.DecodeWorkedWords : Prop :=
  (∀ x ∈ Claims.scalarWords, decodeScalar x.1 = .ok x.2) ∧ (∀ x ∈ Claims.laneWords, decodeLane x.1 = .ok x.2) ∧
  (∃ r, decodeScalar 0 = .error r) ∧ (∃ h r, decodeLane 0 = .error (h, r))

/-- 03:R66, R67: every well-formed scalar instruction is the one that its word decodes to, and a word that decodes is the
word of its instruction, bit for bit. -/
def Obligations.ScalarWordsRoundTrip : Prop :=
  (∀ (i : Instr) (w : W32), i.wf = true → encodeScalar i = some w → decodeScalar w = .ok i) ∧
  (∀ (w : W32) (i : Instr), decodeScalar w = .ok i → encodeScalar i = some w)

/-- 03:R68, R73: the same of lane words, single instructions and pairs. -/
def Obligations.LaneWordsRoundTrip : Prop :=
  (∀ (i : LaneWord) (w : BitVec 96), i.wf = true → encodeLane i = some w → decodeLane w = .ok i) ∧
  (∀ (w : BitVec 96) (i : LaneWord), decodeLane w = .ok i → encodeLane i = some w)

/-- 01:R8, R12: a stream's turn runs the instruction that the bytes at SPC, or at the oldest lane word, decode to, and then
does what follows every turn; bytes that no instruction has raise ILLEGAL_ENCODING; a pair whose X half has completed runs its Y
half alone; a message is carried out by its own instruction. Requests that a slice holds are served after each of these as
soon as they can be (17:R300). Which stream or message moves next where nothing is named is the model's choice (assumption 3). -/
def Obligations.StepRunsTheDecodedInstruction : Prop :=
  ∀ (s₀ s t : State) (bs : List Byte),
    (Claims.ScalarTurn s₀ s → s.breakHit false s.warp.spc = false → s.fetch false s.warp.spc 4 = .ok t bs →
      (∀ i, decodeScalar (ofBytes 32 bs) = .ok i →
        step s₀ = andThen (exec i t) (fun u => .next (u.afterTurn false).serveHeld)) ∧
      (∀ r, decodeScalar (ofBytes 32 bs) = .error r →
        step s₀ = andThen (exec (.illegalEncodingWord false false r) t) (fun u => .next (u.afterTurn false).serveHeld))) ∧
    (Claims.LaneTurn s₀ s → s.breakHit true (s.warp.LPC.zeroExtend 64) = false ∨ s.warp.done ≠ [] →
      s.fetch true (s.warp.LPC.zeroExtend 64) 12 = .ok t bs →
      (∀ i, decodeLane (ofBytes 96 bs) = .ok (.single i) →
        step s₀ = andThen (exec i t) (fun u => .next (u.afterTurn true).serveHeld)) ∧
      (∀ x y, decodeLane (ofBytes 96 bs) = .ok (.pair x y) → t.warp.xDone = false →
        (Instr.use x).gate t = .go → (Instr.use y).gate t = .go →
        step s₀ = andThen (exec x t) (fun u => andThen (exec y u) (fun v => .next (v.afterTurn true).serveHeld))) ∧
      (∀ x y, decodeLane (ofBytes 96 bs) = .ok (.pair x y) → t.warp.xDone = true → (Instr.use y).gate t = .go →
        step s₀ = andThen (exec y t) (fun u => .next (u.afterTurn true).serveHeld)) ∧
      (∀ h r, decodeLane (ofBytes 96 bs) = .error (h, r) →
        step s₀ = andThen (exec (.illegalEncodingWord true h r) t) (fun u => .next (u.afterTurn true).serveHeld))) ∧
    (∀ e, Claims.EventTurn s₀ s e → isMessage e = true →
      step s₀ = andThen (exec e s) (fun u => .next (u.keepMessage e).serveHeld)) ∧
    (∀ lane a n ia p, Claims.Fetches s t a n ia p →
      s.fetch lane a n = .ok t ((List.range n).map (fun k => Claims.byteAt t (p.phys ia + k))))

/-- 00:R1: no instruction, message or command stops the machine: a step answers a next state whenever what is under way
are messages and commands. -/
def Obligations.NothingStopsTheMachine : Prop :=
  (∀ (i : Instr) (s : State), ∃ t, exec i s = .next t) ∧
  (∀ s : State, (∀ e ∈ s.events, isMessage e = true) → ∃ t, step s = .next t)

/-- What the model's reset state holds (assumption 2): no warp, team or launch; every core with the allowance of a core with
no resident team and an empty L1; memory in its one form, every byte zero (assumption 1). -/
def Obligations.ResetHoldsNothing : Prop :=
  State.reset.allWarps = [] ∧ State.reset.allTeams = [] ∧ State.reset.dev.launches = [] ∧ State.reset.events = [] ∧
  (∀ n, (State.reset.coreOf n).allowance = 64 ∧ (State.reset.coreOf n).l1 = []) ∧
  State.reset.dev.mem.wf = true ∧ ∀ a, Claims.byteAt State.reset a = 0

/-- The model's memory is one list of (address, byte) pairs, strictly rising, with no zero byte listed (assumption 1): every
step, of either stream or of a message, keeps that form, so that equal contents are equal memories. -/
def Obligations.EveryStepKeepsTheFormOfMemory : Prop :=
  ∀ s t : State, s.dev.mem.wf = true → step s = .next t → t.dev.mem.wf = true

/-! ## Traps -/

/-- 01:R33, R36, R38; 14:R281, R282: a trap that the handler takes writes the record, empties the lane queue and enters the
handler at its address; every register, mask and predicate and all of memory stay. A word that no instruction has raises
ILLEGAL_ENCODING with its reason. -/
def Obligations.TrapsWriteTheRecordAndEnterTheHandler : Prop :=
  ∀ (lane half : Bool) (t : MemTrap) (r : Nat) (s : State),
    exec (.illegalEncodingWord lane half r) s = .next (s.takeTrap lane half ⟨0x01, 0, 0, BitVec.ofNat 64 r, 0⟩) ∧
    (Claims.Delivered s t →
      (∀ n, (s.takeTrap lane half t).warp.trapRec.get n = BitVec.ofNat 64 (Claims.recNat s.warp lane half t n)) ∧
      (s.takeTrap lane half t).warp.spc.toNat = s.team.hdr.handler.toNat ∧ (s.takeTrap lane half t).warp.queue = [] ∧
      (s.takeTrap lane half t).warp.inHandler = true ∧ (s.takeTrap lane half t).warp.trapSel = 0 ∧
      Claims.EntryOnly s (s.takeTrap lane half t))

/-- 14:R281; 20:R327, R329: a trap of a code that kills, a trap with no handler, and a trap in the handler kill the team: it and
every warp of it that has not exited stop for good, it keeps words 0 to 7 of the record, and memory is as before. While a
lane word of another warp of the team is half gone the team stands, and none of its warps starts anything more. -/
def Obligations.TrapsThatKillEndTheTeam : Prop :=
  ∀ (lane half : Bool) (t : MemTrap) (s : State), t.code ≠ 0 → (s.ctx.trapStop = false ∨ Claims.Kills t) →
    (s.warp.inHandler = true ∨ Claims.Kills t ∨ s.team.hdr.handler = 0) →
    s.warp.status = .running → lane = true ∨ s.warp.done = [] → s.team.key = s.warp.key.teamKey → s.team.status = .running → s.team.dying = none →
    (s.takeTrap lane half t).dev.mem = s.dev.mem ∧
    ((∀ w ∈ s.warps, w.key.teamKey = s.team.key → w.status = .running → w.done = []) →
      (s.takeTrap lane half t).team.status = .killed ∧
      (∀ w ∈ (s.takeTrap lane half t).allWarps, w.key.teamKey = s.team.key → w.status = .killed ∨ w.status = .exited) ∧
      (∀ n < 8, (s.takeTrap lane half t).team.killRec.get n =
        if s.warp.inHandler then s.warp.trapRec.get n else BitVec.ofNat 64 (Claims.recNat s.warp lane half t n))) ∧
    ((∃ w ∈ s.warps, w.key.teamKey = s.team.key ∧ w.status = .running ∧ w.done ≠ []) →
      (s.takeTrap lane half t).team.status = .running ∧ (s.takeTrap lane half t).team.dying.isSome = true ∧
      ∀ w ∈ (s.takeTrap lane half t).allWarps, w.key.teamKey = s.team.key → w.halt = true)

/-- 14:R282: RESUME in the handler waits for the handler's lane blocks; then it restores EM, the held blocks with their
snapshots and SPC from the record, and leaves the handler. With bit 0 of S(sa) set the trapping instruction is skipped: the
oldest lane word, or the scalar word at SPC. -/
def Obligations.ResumeRestoresWhatTheTrapSaved : Prop :=
  ∀ (lane half : Bool) (t : MemTrap) (a : SReg) (s : State),
    (s.warp.inHandler = true → s.warp.queue ≠ [] → exec (.mtsResume a) s = .next (s.waitScalar 0)) ∧
    (Claims.Delivered s t → s.warp.queue.length ≤ 8 → (∀ b ∈ s.warp.queue, Claims.SoundBlock b) →
      ∃ u, exec (.mtsResume a) (s.takeTrap lane half t) = .next u ∧ u.warp.inHandler = false ∧ u.warp.em = s.warp.em ∧
        u.dev = s.dev ∧ u.team = s.team ∧ (∀ r : SReg, u.S r = s.S r) ∧ u.warp.v = s.warp.v ∧
        u.warp.queue = (if (s.S a).toNat % 2 = 1 ∧ lane = true then Claims.lessOne s.warp.queue else s.warp.queue) ∧
        u.warp.spc.toNat = s.warp.spc.toNat % 2 ^ 56 + (if (s.S a).toNat % 2 = 1 ∧ lane = false then 4 else 0))

/-! ## Lane words -/

/-- 04:R85, R88: the checks of a lane word that stands alone come in order: the lowest feature bit that FEAT has clear, a
register at or beyond 16 × B, a channel entry unbound or used the wrong way, an empty register in mode 1; then an empty
register is waited for. With all of them passed and registers that are full and sound the word may issue. -/
def Obligations.LaneChecksComeInOrder : Prop :=
  ∀ (i : Instr) (s : State), Claims.LaneSingle i → s.warp.parkL = none →
    (∀ b, Claims.Needs (Claims.useOf s i) b → s.ctx.feat.getLsbD b = false →
      (∀ c < b, Claims.Needs (Claims.useOf s i) c → s.ctx.feat.getLsbD c = true) →
      exec i s = .next (s.takeTrap true false ⟨0x02, 0, 0, BitVec.ofNat 64 b, 0⟩)) ∧
    (Claims.Featured (Claims.useOf s i) s → ¬ Claims.InFile (Claims.useOf s i) s →
      exec i s = .next (s.takeTrap true false ⟨0x0C, 0, 0, 0, 0⟩)) ∧
    (Claims.Featured (Claims.useOf s i) s → Claims.InFile (Claims.useOf s i) s → ¬ Claims.Bound (Claims.useOf s i) s →
      exec i s = .next (s.takeTrap true false ⟨0x0B, 0, 0, 1, 0⟩)) ∧
    (Claims.Featured (Claims.useOf s i) s → Claims.InFile (Claims.useOf s i) s → Claims.Bound (Claims.useOf s i) s →
      ¬ Claims.NoTrapEmpty (Claims.useOf s i) s → exec i s = .next (s.takeTrap true false ⟨0x03, 0, 0, 0, 0⟩)) ∧
    (Claims.Featured (Claims.useOf s i) s → Claims.InFile (Claims.useOf s i) s → Claims.Bound (Claims.useOf s i) s →
      Claims.NoTrapEmpty (Claims.useOf s i) s → ¬ Claims.AllFull (Claims.useOf s i) s → exec i s = .next (s.waitLane 2)) ∧
    (Claims.Featured (Claims.useOf s i) s → Claims.InFile (Claims.useOf s i) s → Claims.NoChannels (Claims.useOf s i) →
      Claims.AllFull (Claims.useOf s i) s → Claims.NoPoison (Claims.useOf s i) s → s.warp.fills = [] →
      (Claims.useOf s i).gate s = .go)

/-- 01:R19 to R27: a lane is active where EM is set and the guard holds; what each kind of source gives; a destination register
takes the values in the active lanes alone, becomes full and sound if there is one, and nothing else changes; the SRQ takes
the lowest active lane's value; a message holds the active lanes' values and zeros; with no active lane nothing is sent or
taken; a retired word moves LPC on and counts one. A memory word that has executed before takes the active lanes, the base and
the offsets that its first execution logged, and one whose pipe has 16 entries of the operand log taken waits with reason 7
(01:R28, R29; when an entry is taken and given back is the model's reading, assumption 22). -/
def Obligations.LaneOperandsReadAndWrite : Prop :=
  ∀ s : State,
    (∀ g l, l < 32 → ((s.active g).has l = true ↔ s.warp.em.has l = true ∧ (Claims.predOf s.warp g.p l ≠ g.neg ∨ g = ⟨false, 0⟩))) ∧
    (∀ any r mode, s.readSrc any (.reg r mode) = (s, s.vreg r.toNat)) ∧
    (∀ any n l, (s.readSrc any (.uni n)).1 = s ∧ (s.readSrc any (.uni n)).2 l = BitVec.ofNat 32 (if n = 0 then 0
        else ((match s.warp.queue.head? with | some b => b.snap | none => s.warp.s).get n.toNat).toNat)) ∧
    (∀ any k l, (s.readSrc any (.con k)).2 l = (match k with
      | .zero => 0 | .one => 1 | .lane => Claims.n32 l | .warp => Claims.n32 s.warp.key.warp
      | .team => Claims.n32 s.team.key.team | .em => s.warp.em | .live => s.warp.live)) ∧
    (∀ n peek msg rest l, (s.warp.chan n.toNat).queue = msg :: rest →
      (s.readSrc true (.chan n peek)).2 l = msg.get l ∧ s.readSrc false (.chan n peek) = (s, fun _ => 0) ∧
      (s.warp.chans.length = 15 → n ≠ 15 →
        ((s.readSrc true (.chan n peek)).1.warp.chan n.toNat).queue = if peek then msg :: rest else rest)) ∧
    (∀ (n : VReg) (m : Mask) (x : Nat → W32),
      (∀ r l, l < 32 → (s.writeDest (.reg n) m x).vreg r l = if r = n.toNat ∧ m.has l = true then x l else s.vreg r l) ∧
      (∀ r, r < 192 → (s.writeDest (.reg n) m x).warp.empty.getLsbD r = (s.warp.empty.getLsbD r && !(decide (r = n.toNat) && decide (m ≠ 0))) ∧
        (s.writeDest (.reg n) m x).warp.poison.getLsbD r = (s.warp.poison.getLsbD r && !(decide (r = n.toNat) && decide (m ≠ 0)))) ∧
      s.writeDest (.reg n) m x = { s with warp := { s.warp with
        v := (s.writeDest (.reg n) m x).warp.v, empty := (s.writeDest (.reg n) m x).warp.empty
        poison := (s.writeDest (.reg n) m x).warp.poison, fills := (s.writeDest (.reg n) m x).warp.fills } }) ∧
    (∀ (n : BitVec 4) (m : Mask) (x : Nat → W32), (m = 0 → s.writeDest (.chan n) m x = s) ∧
      (m ≠ 0 → s.writeDest (.chan 15) m x =
        { s with warp := { s.warp with srq := s.warp.srq ++ [x (Claims.lowest m.has)] } }) ∧
      ∀ l, l < 32 → (message m x).get l = if m.has l then x l else 0) ∧
    (∀ b rest, s.warp.queue = b :: rest → s.retireLane.warp.LPC = (if 1 < b.count then b.start + 12
        else match rest.head? with | some c => c.start | none => b.start + 12) ∧
      s.retireLane.warp.retired = s.warp.retired + 1 ∧ s.retireLane.warp.v = s.warp.v ∧ s.retireLane.dev = s.dev ∧
      s.retireLane.warp.queue = if 1 < b.count then { b with start := b.start + 12, count := b.count - 1 } :: rest else rest) ∧
    (∀ (u : LaneUse) e, s.warp.headEntry = some e → e.offs ≠ [] → (s.laneArgs u).m = e.active ∧ (s.laneArgs u).base = e.base ∧
      ∀ l, (s.laneArgs u).offs l = e.offs.getD l 0) ∧
    (∀ (u : LaneUse) body, s.warp.parkL = none → u.gate s = .go → u.log ≠ none → s.warp.headEntry = none → 16 ≤ s.logUsed →
      s.laneAccess u body = s.waitLane 7)

/-- 06:R114, R118 to R122, R127: the moves, the byte swizzle, the integer instructions and SEL, alone or as halves of a pair,
write their value into the active lanes of the destination and retire the word; what `writeDest` and a retirement change is
said by LaneOperandsReadAndWrite. -/
def Obligations.LaneIntegerInstructionsWriteTheirValue : Prop :=
  ∀ (i : Instr) (F : Claims.LaneForm) (s : State), Claims.intForm s i = some F → Claims.Goes i F.h s →
    exec i s = .next (Claims.finished F.h (F.write s))

/-- 06:R121, R123 to R126, R128: ICMP, FCMP and the predicate instructions write their predicate in the active lanes, p0
excepted, and FCMP sets the invalid flag for a signalling NaN; IADDC writes the low 32 bits of a sum with carry-in and its
carry-out; the mask instructions leave EM within the live mask. -/
def Obligations.ComparesPredicatesAndMasks : Prop :=
  ∀ (i : Instr) (s : State), (Instr.use i).gate s = .go →
    (∀ g p srcs f, Claims.predForm s i = some (g, p, srcs, f) →
      exec i s = .next ((((Claims.readAll s (s.active g != 0) srcs).1.writeP p (s.active g)
        (fun l => f l ((Claims.readAll s (s.active g != 0) srcs).2.map (fun x => x l)))).orFlags
          (match i with
            | .fcmp _ _ _ a b => Claims.cmpFlags (s.active g) (s.readSrc (s.active g != 0) a).2
                ((s.readSrc (s.active g != 0) a).1.readSrc (s.active g != 0) b).2
            | _ => 0)).retireLane)) ∧
    (∀ g d a b co cen ci, i = .iaddc g d a b co cen ci →
      ∃ (u : State) (x y : Nat → W32) (sum : Nat → Nat), Claims.readAll s (s.active g != 0) [a, b] = (u, [x, y]) ∧
        (∀ l, sum l = (x l).toNat + (y l).toNat + (if cen = true ∧ Claims.predOf s.warp ci l = true then 1 else 0)) ∧
        exec i s = .next (((u.writeDest d (s.active g) (fun l => Claims.n32 (sum l))).writeP co (s.active g)
          (fun l => decide (2 ^ 32 ≤ sum l))).retireLane)) ∧
    (∀ m, Claims.maskForm s i = some m →
      exec i s = .next ({ s with warp := { s.warp with em := m &&& s.warp.live } }).retireLane) ∧
    (∀ p m b, ∀ (k : Pred) (l : Nat), l < 32 → Claims.predOf (s.writeP p m b).warp k l =
      if k = p ∧ k ≠ 0 ∧ m.has l = true then b l else Claims.predOf s.warp k l)

/-- 06:R126, R128, R131 to R135: SHFL reads the lane that its mode names where that lane is live and its own value elsewhere, and
says so in its predicate; PGET, MGET, VOTE, LFIRST and BCAST give every active lane their value; LRED and LSCAN of an
integer operator combine the active lanes' values in lane order, the identity where there is none; a NaN of a floating-point
operator is the canonical one (07:R138). That an inactive lane alone contributes nothing to a floating-point operator, so that a
tree of none has the identity, is the model's reading (assumption 42). -/
def Obligations.CrossLaneInstructionsCombineLanes : Prop :=
  ∀ (i : Instr) (s : State), (Instr.use i).gate s = .go →
    (∀ m d srcs f, Claims.crossForm s i = some (m, d, srcs, f) →
      exec i s = .next (((Claims.readAll s (m != 0) srcs).1.writeDest d m
        (f (fun l => (Claims.readAll s (m != 0) srcs).2.map (fun x => x l)))).retireLane)) ∧
    (∀ g mode width d a b q, i = .shfl g mode width d a b q → width.toNat ≤ 5 →
      ∃ (u : State) (x y : Nat → W32) (src : Nat → Option Nat), Claims.readAll s (s.active g != 0) [a, b] = (u, [x, y]) ∧
        (∀ l < 32, src l = (Claims.shflFrom mode (2 ^ width.toNat) l (y l).toNat).filter (fun j => s.warp.live.has j)) ∧
        exec i s = .next (((u.writeDest d (s.active g) (fun l => x ((src l).getD l))).writeP q (s.active g)
          (fun l => (src l).isSome)).retireLane)) ∧
    (∀ g op d a, i = .lred g op d a → ∀ (m : Mask) (leaf : Nat → Option W32), m = s.active g →
      (∀ l, leaf l = if m.has l then some ((s.readSrc (m != 0) a).2 l) else none) →
      exec i s = .next ((((s.readSrc (m != 0) a).1.writeDest d m
        (fun _ => redResult op ((redNode op leaf 5 0).getD (redIdentity op)))).orFlags (redFlags op leaf)).retireLane)) ∧
    (∀ g op excl d a, i = .lscan g op excl d a → ∀ (m : Mask) (leaf : Nat → Option W32), m = s.active g →
      (∀ l, leaf l = if m.has l then some ((s.readSrc (m != 0) a).2 l) else none) →
      exec i s = .next ((((s.readSrc (m != 0) a).1.writeDest d m
        (fun l => redResult op ((redPrefix op leaf (if excl then l else l + 1)).1.getD (redIdentity op)))).orFlags
          (redFlags op leaf ||| flagsOf m (fun l => (redPrefix op leaf (if excl then l else l + 1)).2))).retireLane)) ∧
    (∀ op, (op = .fmin ∨ op = .fmax ∨ ∃ k, op = .fadd k) → ∀ x : W32, redResult op x =
      if 2 ^ 31 - 2 ^ 23 < x.toNat % 2 ^ 31 then 0x7FC00000 else x) ∧
    (∀ g op d a f e, i = .lred g op d a → Claims.combineOf op = some (f, e) →
      exec i s = .next (((s.readSrc (s.active g != 0) a).1.writeDest d (s.active g)
        (fun _ => Claims.combined f e (s.active g) (s.readSrc (s.active g != 0) a).2 32)).retireLane)) ∧
    (∀ g op excl d a f e, i = .lscan g op excl d a → Claims.combineOf op = some (f, e) →
      exec i s = .next (((s.readSrc (s.active g != 0) a).1.writeDest d (s.active g)
        (fun l => if l < 32 then Claims.combined f e (s.active g) (s.readSrc (s.active g != 0) a).2 (if excl then l else l + 1)
          else redIdentity op)).retireLane))

/-- 08:R155 to R173: the float instructions of FP32 and of packed halves, the dot product and the conversions write their
rounded results into the active lanes and OR those lanes' flags into FPSTAT; CVTIF and CVTFI do the same between the
integer types and the formats, an I64 taking a register pair. -/
def Obligations.FloatInstructionsWriteResultsAndFlags : Prop :=
  ∀ (i : Instr) (s : State),
    (∀ F, Claims.floatForm s i = some F → Claims.Goes i F.h s → exec i s = .next (Claims.finished F.h (F.write s))) ∧
    ((Instr.use i).gate s = .go →
      (∀ g dst src r sat d a, i = .cvtif g dst src r sat d a →
        ∃ (u : State) (x : Nat → List W32) (y : Nat → Rounded), s.readGroup (s.active g != 0) a src.regs = (u, x) ∧
          (∀ l, y l = roundTo dst r (s.laneDither r l 0) sat (fpOfInt (intOf src (BitVec.ofNat 64
            (((x l).getD 0 0).toNat + 2 ^ 32 * ((x l).getD 1 0).toNat))))) ∧
          exec i s = .next (((u.writeDest d (s.active g) (fun l => Claims.n32 (y l).bits)).orFlags
            (flagsOf (s.active g) (fun l => (y l).flags))).retireLane)) ∧
      (∀ g dst src r d a, i = .cvtfi g dst src r d a →
        ∃ (u : State) (x : Nat → W32) (y : Nat → Int × FFlags), s.readSrc (s.active g != 0) a = (u, x) ∧
          (∀ l, y l = cvtToInt dst src r (s.laneDither r l 0) ((x l).toNat % 2 ^ fmtWidth src)) ∧
          (dst ≠ .i64 → exec i s = .next (((u.writeDest d (s.active g) (fun l => Claims.i32 (y l).1)).orFlags
            (flagsOf (s.active g) (fun l => (y l).2))).retireLane)) ∧
          (∀ n, dst = .i64 → d = .reg n → exec i s = .next ((((u.writeV n.toNat (s.active g) (fun l => Claims.i32 (y l).1)).writeV
            (n.toNat + 1) (s.active g) (fun l => Claims.i32 ((y l).1 / 2 ^ 32))).orFlags
              (flagsOf (s.active g) (fun l => (y l).2))).retireLane))))

/-- 07:R144; 08:R160: sums, differences and products of finite FP32 and 16-bit numbers are the exact value rounded once, in each of the
directed modes and to the nearest with ties to even; an inexact result, and no other, has its flag. -/
def Obligations.SumsAndProductsAreRoundedOnce : Prop :=
  ∀ (f : FFmt) (mode : Rnd) (a b : Nat) (v : ℚ) (r : Rounded), (f = .f32 ∨ f = .f16 ∨ f = .bf16) → mode ≠ .sr →
    Claims.FiniteIn f a → Claims.FiniteIn f b →
    ((v = Claims.valueIn f a + Claims.valueIn f b ∧ r = fAdd f mode 0 a b) ∨
     (v = Claims.valueIn f a - Claims.valueIn f b ∧ r = fSub f mode 0 a b) ∨
     (v = Claims.valueIn f a * Claims.valueIn f b ∧ r = fMul f mode 0 a b)) →
    |v| ≤ Claims.valueIn f (fmtMax f) →
    Claims.FiniteIn f r.bits ∧ Claims.RoundedTo f mode v r.bits ∧ (Claims.valueIn f r.bits = v ↔ r.flags.getLsbD 4 = false)

/-! ## Lane memory -/

/-- 10:R191, R194 to R197; 01:R16, R18: a load of lanes in the scratchpad writes each active lane's value, word by word, into the
registers of its destination; a detached load leaves them empty and posts its fill, which writes the lanes and makes the
registers full, those that a younger instruction has written apart. A load of device memory writes what the memory side
answers. 05:R113: a load with an active lane waits while a store that a VSYNC or a PHASE orders before it is under way. 01:R13: the
blocks of a killed warp are free once its last fill has arrived. -/
def Obligations.LaneLoadsReadTheirLanes : Prop :=
  ∀ (g : Guard) (sz : MemSize) (sc : Scale) (pol : Policy) (sx : Bool) (d : VReg) (base : SReg) (off : Value) (disp : W32)
    (s : State) (m : Mask) (A : Nat → W64), m = s.active g →
    (∀ l, A l = Claims.laneAddr s base (s.readSrc (m != 0) off).2 sc.mul disp l) →
    (Claims.LanesInScratch s m [.r] sz.bytes A → m ≠ 0 → s.fenceBusy = true →
      ((Instr.use (.ld g sz sc pol sx d base off disp)).gate s = .go → Claims.WaitsAt s (.ld g sz sc pol sx d base off disp) 15) ∧
      ((Instr.use (.ldx g sz sc pol sx d base off disp)).gate s = .go → Claims.WaitsAt s (.ldx g sz sc pol sx d base off disp) 15)) ∧
    (Claims.LanesInScratch s m [.r] sz.bytes A → (Instr.use (.ld g sz sc pol sx d base off disp)).gate s = .go →
      (m = 0 ∨ s.fenceBusy = false) →
      exec (.ld g sz sc pol sx d base off disp) s = .next (((s.readSrc (m != 0) off).1.writeGroup d.toNat sz.regs m (fun l =>
        (List.range sz.regs).map (Claims.wordOf (Claims.loadedValue sx (Claims.scratchBytes s sz.bytes (A l)))))).retireLane)) ∧
    (Claims.LanesInScratch s m [.r] sz.bytes A → (Instr.use (.ldx g sz sc pol sx d base off disp)).gate s = .go →
      (m = 0 ∨ s.fenceBusy = false) →
      ∃ t, exec (.ldx g sz sc pol sx d base off disp) s = .next t ∧ Claims.NoRegisters s t ∧ Claims.Retired s t ∧
        (∀ r < 192, t.warp.empty.getLsbD r = (s.warp.empty.getLsbD r ||
          (decide (m ≠ 0) && decide (d.toNat ≤ r) && decide (r < d.toNat + sz.regs)))) ∧
        t.events = s.events ++ (if m = 0 then [] else [.ldxFill s.warp.key s.warp.nextId (m.lanes.map (fun l =>
          (l, BitVec.ofNat 128 (Claims.loadedValue sx (Claims.scratchBytes s sz.bytes (A l)))))) 0])) ∧
    (∀ v u got a lanes, Claims.AccessRuns s (Instr.use (.ld g sz sc pol sx d base off disp)) →
      a = s.laneArgs (Instr.use (.ld g sz sc pol sx d base off disp)) → lanes = a.addrs sc.mul disp →
      s.issueAccess [.r] true sz.bytes sz.bytes lanes = .ok v () →
      v.laneLoad sz.bytes (pol != .l1) false lanes = .ok u got →
      exec (.ld g sz sc pol sx d base off disp) s = .next (((u.takePops a.after).writeGroup d.toNat sz.regs a.m
        (fun l => (List.range sz.regs).map (valueWord (laneValue sz sx got.1 l)))).retireLane)) ∧
    (∀ (id : Nat) (data : List (Nat × BitVec 128)), s.warp.status = .killed → (∀ x ∈ data, x.1 < 32) →
      (s.warp.fills.map (fun f => f.reg)).Nodup →
      (∀ f ∈ s.warp.fills, f.id = id ∧ f.arrived = 0 ∧ ∀ l < 32, f.lanes.has l = true → l ∈ data.map Prod.fst) →
      ∃ t, exec (.ldxFill s.warp.key id data 0) s = .next t ∧ t.warp.blocks = 0 ∧ t.warp.fills = [] ∧ t.dev = s.dev) ∧
    (∀ (id : Nat) (data : List (Nat × BitVec 128)), s.warp.status ≠ .absent → s.warp.status ≠ .killed → (data.map Prod.fst).Nodup →
      (s.warp.fills.map (fun f => f.reg)).Nodup → (∀ x ∈ data, x.1 < 32) →
      ∃ t, exec (.ldxFill s.warp.key id data 0) s = .next t ∧ t.warp.s = s.warp.s ∧ t.warp.preds = s.warp.preds ∧ t.dev = s.dev ∧
        (∀ f ∈ s.warp.fills, f.id = id → ∀ x ∈ data, f.lanes.has x.1 = true →
          t.vreg f.reg x.1 = Claims.wordOf x.2.toNat f.word) ∧
        (∀ f ∈ s.warp.fills, f.id = id → f.reg < 192 → (∀ l < 32, f.lanes.has l = true → l ∈ data.map Prod.fst) →
          f.arrived = 0 → t.warp.empty.getLsbD f.reg = false) ∧
        (∀ r l, l < 32 → (∀ f ∈ s.warp.fills, f.id = id → f.reg ≠ r) → t.vreg r l = s.vreg r l ∧
          t.warp.empty.getLsbD r = s.warp.empty.getLsbD r))

/-- 10:R191 to R195, R198, R199; 17:R288: a store of lanes in the scratchpad leaves there the bytes of the highest lane that
covers each, and no other byte changes. A store or a push to device memory asks for its class check, and once that has
passed its data enter the write buffer: no byte of memory changes yet. 05:R113: one that writes the scratchpad waits while a store
that a VSYNC or a PHASE orders before it is under way. -/
def Obligations.LaneStoresReachScratchpadAndBuffer : Prop :=
  ∀ (g : Guard) (sz : MemSize) (sc : Scale) (pol : Policy) (ds base : SReg) (off : Value) (disp : W32) (c : Value) (s t : State)
    (m : Mask) (A : Nat → W64) (y : Nat → List W32) (lanes : List (Nat × W64)), m = s.active g →
    (∀ l, A l = Claims.laneAddr s base (s.readSrc (m != 0) off).2 sc.mul disp l) →
    (s.readSrc (m != 0) off).1.readGroup (m != 0) c sz.regs = (t, y) → lanes = m.lanes.map (fun l => (l, A l)) →
    ((Instr.use (.st g sz sc pol base off disp c)).gate s = .go → Claims.LanesInScratch s m [.w] sz.bytes A → m ≠ 0 →
      s.fenceBusy = true → Claims.WaitsAt s (.st g sz sc pol base off disp c) 15) ∧
    ((Instr.use (.st g sz sc pol base off disp c)).gate s = .go → Claims.LanesInScratch s m [.w] sz.bytes A → s.warp.done = [] →
      (m = 0 ∨ s.fenceBusy = false) → (Instr.st g sz sc pol base off disp c).wf = true →
      ∃ u, exec (.st g sz sc pol base off disp c) s = .next u ∧ Claims.NoRegisters s u ∧ Claims.Retired s u ∧ u.warp.chans = t.warp.chans ∧
        ∀ x, Claims.scratchAt u x = match Claims.lastLane m A sz.bytes x with
          | some l => Claims.dataByte (y l) (x - ((A l).toNat - 0x00FFFF0000000000))
          | none => Claims.scratchAt s x) ∧
    (∀ (i : Instr) (push : Option W64), Claims.AccessRuns s (Instr.use i) →
      ((i = .st g sz sc pol base off disp c ∧ push = none) ∨ (i = .push g sz sc ds base off disp c ∧ push = some (s.src64 ds))) →
      (s.warp.headEntry = none → s.issueLane [.w] push.isNone sz.bytes sz.bytes lanes = .ok s () →
        s.scratchBusy true sz.bytes lanes = false → s.apertureFenced lanes = false → s.warp.check = .idle → (∃ x ∈ lanes, inAperture x.2 = false) →
        (∀ x ∈ lanes, inAperture x.2 = false → s.homeHolds (s.home (iaOf s.ctx .w x.2)) true = false) →
        ∃ u, exec i s = .next u ∧ Claims.NoRegisters s u ∧ u.warp.queue = s.warp.queue ∧ u.warp.check = .asked ∧
          u.events = s.events ++ [.classCheckRequest s.warp.key] ∧
          ∃ k, u.warp.ask = some k ∧ k.write = true ∧ k.size = sz.bytes ∧ k.addrs.map (fun x => (x.1, x.2.1)) =
            lanes.filter (fun x => !inAperture x.2)) ∧
      (∀ v u a lanes', a = s.laneArgs (Instr.use i) → lanes' = a.addrs sc.mul disp →
        s.issueAccess [.w] push.isNone sz.bytes sz.bytes lanes' = .ok v () → s.scratchBusy true sz.bytes lanes' = false →
        s.apertureFenced lanes' = false → s.warp.check = .passed → v.storeLanes push (storeData sz.bytes lanes' a.data) = (u, true) →
        ∃ w, exec i s = .next w ∧ w = (u.takePops a.after).retireLane ∧ Claims.NoRegisters s w ∧
          (∀ a, Claims.byteAt w a = Claims.byteAt s a)))

/-- 10:R202, R203, R214: DISC drops the lines of its lanes that the core holds dirty on a private page (PD, or owned there with data that
the home does not have), and no other, and under DET nothing; PREF asks for the lines of its lanes that a range register covers.
Neither changes a register or a byte of memory. That an owned line counts as dirty where its data are not those of its home, and
that DISC waits for the warp's own stores to its lines in the buffer, are the model's readings (assumption 37). -/
def Obligations.DiscardsAndPrefetches : Prop :=
  ∀ (g : Guard) (sc : Scale) (home : Bool) (base : SReg) (off : Value) (disp : W32) (s : State) (m : Mask) (A : Nat → W64)
    (lanes : List (Nat × W64)), m = s.active g → s.warp.parkL = none → s.warp.headEntry = none → s.logUsed < 16 →
    (∀ l, A l = Claims.laneAddr s base (s.readSrc (m != 0) off).2 sc.mul disp l) →
    lanes = (m.lanes.map (fun l => (l, A l))) →
    ((Instr.use (.disc g sc base off disp)).gate s = .go →
      (∀ x ∈ lanes, if inAperture x.2 then x.2.toNat - 0x00FFFF0000000000 + 1 ≤ s.team.hdr.scratch else ∃ ia, check s.ctx x.2 .w = .ok ia) →
      (∀ x ∈ lanes, inAperture x.2 = false → ∀ e ∈ s.warp.wbuf, e.line ≠ tagged s.ctx.num (iaOf s.ctx .w x.2)) →
      ∃ t, exec (.disc g sc base off disp) s = .next t ∧ Claims.NoRegisters s t ∧ Claims.Retired s t ∧
        (s.team.det = true → t.core = s.core ∧ t.cores = s.cores) ∧
        (s.team.det = false → ∀ k, (t.coreOf s.team.core).find k =
          ((s.coreOf s.team.core).find k).filter (fun l => !(Claims.discardable s l &&
            lanes.any (fun x => !inAperture x.2 && k == tagged s.ctx.num (iaOf s.ctx .w x.2)))))) ∧
    ((Instr.use (.pref g sc home base off disp)).gate s = .go →
      ∃ t es, exec (.pref g sc home base off disp) s = .next t ∧ Claims.NoRegisters s t ∧ Claims.Retired s t ∧
        t.events = s.events ++ es ∧ t.core = s.core ∧ es.Nodup ∧
        (∀ e, e ∈ es ↔ ∃ x ∈ lanes, inAperture x.2 = false ∧ ∃ ia, coveredIa s.ctx x.2 = some ia ∧
          e = .loadRequest ⟨s.warp.key, ia / 128, if home then .prefHome else .prefL1, s.warp.begins⟩))

/-- 10:R195, R200, R201: the atomics of lanes in the scratchpad are performed one after another in lane order; ATOM and ACAS write
the old values, the expected value of ACAS being the destination's before; an acquire that returns begins a phase. At
device memory, once checked, they take the old values from where their scope places them. 05:R113: on the scratchpad they wait
while a store that a VSYNC or a PHASE orders before them is under way; 10:R214: under DET those that return a value wait for
the clearing. -/
def Obligations.LaneAtomicsAreSequential : Prop :=
  ∀ (i : Instr) (g : Guard) (op : Option AtomOp) (scope : Scope) (o : Order) (dbl : Bool) (sc : AScale) (d : Option VReg) (base : SReg)
    (off : Value) (disp : W32) (c : Value) (s t : State) (m : Mask) (A : Nat → W64) (y : Nat → List W32) (n : Nat),
    Claims.laneAtomOf i = some (g, op, scope, o, dbl, sc, d, base, off, disp, c) → (Instr.use i).gate s = .go → m = s.active g →
    (∀ l, A l = Claims.laneAddr s base (s.readSrc (m != 0) off).2 sc.mul disp l) → n = (if dbl then 8 else 4) →
    (s.readSrc (m != 0) off).1.readGroup (m != 0) c (dblRegs dbl) = (t, y) → (o = .rel ∨ o = .ar → s.warp.wbuf = []) →
    (Claims.LanesInScratch s m [.r, .w] n A → m ≠ 0 → s.fenceBusy = true → Claims.WaitsAt s i 15) ∧
    (Claims.LanesInScratch s m [.r, .w] n A → m ≠ 0 → s.fenceBusy = false → d.isSome = true → s.team.det = true →
      s.warp.clearL ≠ .granted → Claims.WaitsAt s i 14) ∧
    (∀ r, Claims.LanesInScratch s m [.r, .w] n A → s.warp.done = [] → (m = 0 ∨ s.fenceBusy = false) →
      (m = 0 ∨ d = none ∨ s.team.det = false ∨ s.warp.clearL = .granted) →
      r = Claims.seqAtoms op dbl (m.lanes.map (fun l => (l, A l, Claims.pairOf (y l),
        match d with | some n => Claims.pairOf ((List.range (dblRegs dbl)).map (fun k => s.vreg (n.toNat + k) l)) | none => 0)))
          s.team.scratch →
      ∃ u, exec i s = .next u ∧ Claims.Retired s u ∧ u.dev = s.dev ∧ u.warp.s = s.warp.s ∧ u.warp.preds = s.warp.preds ∧
        (∀ x, Claims.scratchAt u x = Store.get r.1 x) ∧
        (∀ q l, l < 32 → u.vreg q l = match d with
          | some k => if m.has l = true ∧ k.toNat ≤ q ∧ q < k.toNat + dblRegs dbl then
              Claims.wordOf (Claims.leNat (Claims.oldOf r.2 l)) (q - k.toNat) else s.vreg q l
          | none => s.vreg q l) ∧
        Claims.Begun s u (if d.isSome = true ∧ (o = .acq ∨ o = .ar) ∧ m ≠ 0 then scope else .team)) ∧
    (∀ a lanes v, Claims.AccessRuns s (Instr.use i) → a = s.laneArgs (Instr.use i) → lanes = a.addrs sc.mul disp →
      s.atomFront o dbl lanes = .ok v () →
      (∀ k u e, d = some k → (v.team.det = false ∨ v.warp.clearL = .granted) →
        e = (s.readGroup (a.m != 0) (.reg k false) (dblRegs dbl)).2 →
        v.performAtoms true scope op dbl (laneAtoms lanes a.data e) = .ok u () →
        ∃ w, w = (u.takePops a.after).writeGroup k.toNat (dblRegs dbl) a.m (fun l =>
            [lo32 (((u.warp.done.find? (fun z => z.1 == l)).map Prod.snd).getD 0),
             hi32 (((u.warp.done.find? (fun z => z.1 == l)).map Prod.snd).getD 0)]) ∧
          exec i s = .next (if (o = .acq ∨ o = .ar) ∧ a.m ≠ 0 then w.begin scope else w).retireLane) ∧
      (∀ u, d = none → v.team.det = false → v.performAtoms false scope op dbl (laneAtoms lanes a.data (fun _ => [])) = .ok u () →
        exec i s = .next (u.takePops a.after).retireLane))

/-- 10:R205, R206: APPEND of an extent that is not closed reserves a span for its active lanes, which gets each lane the offset of
its element and sets its predicate, or clears the predicate where the extent has no room; TAILQ gives the committed tail
with bit 31 set for a sealed extent. 10:R193: it raises ECC_FATAL where the extent's entry holds an error; that a tail home's entry
can be struck so is the model's reading of 17:R305 (assumption 34). -/
def Obligations.AppendsReserveAndTailsAreRead : Prop :=
  ∀ (g : Guard) (sz : MemSize) (q : Pred) (d : VReg) (base : SReg) (disp : W32) (c : Value) (s t v : State) (m : Mask) (a : W64)
    (y : Nat → List W32) (x : Extent) (n : Nat), m = s.active g → a = BitVec.ofInt 64 ((s.src64 base).toInt + disp.toInt) →
    s.readGroup (m != 0) c sz.regs = (t, y) → s.warp.parkL = none → s.warp.headEntry = none → s.logUsed < 16 → n = sz.bytes →
    ((Instr.use (.append g sz q d base disp c)).gate s = .go → s.extentFront m true n a = .ok v x → m ≠ 0 → x.closed = false →
      (s.team.det = false ∨ s.warp.clearL = .granted) → (∃ c', s.ctxOf s.ctx.num = some c') →
      (Instr.append g sz q d base disp c).wf = true →
      (65536 * x.pages < (x.reserved + n - 1) / n * n + n * Claims.rankOf m 32 →
        exec (.append g sz q d base disp c) s = .next (((v.takePops t).writeP q m (fun _ => false)).retireLane)) ∧
      (∀ u, v.appendSpan v.ctx.num (v.home (iaOf v.ctx .w (BitVec.ofNat 64 x.base))) x n ((m.lanes.map (fun l => (List.range n).map (Claims.dataByte (y l)))).flatten) =
          (u, .at ((x.reserved + n - 1) / n * n) false) →
        exec (.append g sz q d base disp c) s = .next ((((u.takePops t).writeV d.toNat m (fun l =>
          Claims.n32 ((x.reserved + n - 1) / n * n + n * Claims.rankOf m l))).writeP q m (fun _ => true)).retireLane))) ∧
    ((Instr.use (.tailq g d base disp)).gate s = .go → s.extentFront m false 4 a = .ok v x → m ≠ 0 →
      (x.bad = false → exec (.tailq g d base disp) s = .next ((v.writeV d.toNat m (fun _ =>
        Claims.n32 (x.committed % 2 ^ 31 + if x.sealed then 2 ^ 31 else 0))).retireLane)) ∧
      (x.bad = true → exec (.tailq g d base disp) s = .next (v.takeTrap true false ⟨0x11, m, a, 0, 0⟩))) ∧
    (m = 0 → (Instr.use (.append g sz q d base disp c)).gate s = .go →
      exec (.append g sz q d base disp c) s = .next s.retireLane) ∧
    (m = 0 → (Instr.use (.tailq g d base disp)).gate s = .go → exec (.tailq g d base disp) s = .next s.retireLane)

/-- 11:R228 to R232: with every lane's bounds in order and every element read sound, LDA gives the sum, minimum or maximum over
[lo, hi) and whether it is non-empty, FIND and PICK the first element they look for and whether there is one. A handle
that names no region, bounds out of order, a pair that starts at an odd register and a PICK of a minimum or maximum
raise AGG_FAULT. -/
def Obligations.RangeLoadsAnswerFromTheTree : Prop :=
  ∀ (g : Guard) (q : Pred) (d : VReg) (h : SReg) (a b : Value) (s : State) (m : Mask) (r : Region), m = s.active g → m ≠ 0 →
    s.warp.parkL = none → s.warp.headEntry = none → s.logUsed < 16 → (∀ t, s.warp.check ≠ .failed t) →
    (∀ i, (i = .lda g q d h a b ∨ i = .find g q d h a ∨ i = .pick g q d h a) → (Claims.useOf s i).gate s = .go →
      regionOf s.ctx (s.src64 h).toNat = none → exec i s = .next (s.takeTrap true false ⟨0x09, m, 0, 2, 0⟩)) ∧
    (∀ t x y, regionOf s.ctx (s.src64 h).toNat = some r → (Claims.useOf s (.lda g q d h a b)).gate s = .go →
      Claims.readAll s true [a, b] = (t, [x, y]) → ¬(r.kind = 0 ∧ d.toNat % 2 = 1) →
      (∃ l < 32, m.has l = true ∧ ((y l).toNat < (x l).toNat ∨ r.n < (y l).toNat)) →
      ∃ bad : Mask, exec (.lda g q d h a b) s = .next (s.takeTrap true false ⟨0x09, bad, 0, 4, 0⟩) ∧
        ∀ l < 32, bad.has l = (m.has l && (decide ((y l).toNat < (x l).toNat) || decide (r.n < (y l).toNat)))) ∧
    (regionOf s.ctx (s.src64 h).toNat = some r → s.homeBusy r.ia = false → s.homeHolds (s.home r.ia) true = false →
      (∀ t x y, (Claims.useOf s (.lda g q d h a b)).gate s = .go → Claims.readAll s true [a, b] = (t, [x, y]) →
        (r.kind = 0 ∧ d.toNat % 2 = 1 → exec (.lda g q d h a b) s = .next (s.takeTrap true false ⟨0x09, m, 0, 5, 0⟩)) ∧
        (¬(r.kind = 0 ∧ d.toNat % 2 = 1) → (∀ l < 32, m.has l = true → (x l).toNat ≤ (y l).toNat ∧ (y l).toNat ≤ r.n ∧
            ldaBad s.dev s.ctx r (x l).toNat (y l).toNat = false) →
          ∃ u ans, (∀ l, ans l = ldaAnswer s.dev s.ctx r (x l).toNat (y l).toNat) ∧
            u = (if r.kind = 0 then Claims.writtenPair t d m ans else t.writeV d.toNat m (fun l => Claims.n32 (ans l).toNat)) ∧
            exec (.lda g q d h a b) s = .next ((u.writeP q m (fun l => decide ((x l).toNat < (y l).toNat))).retireLane))) ∧
      (∀ t x, (Instr.use (.find g q d h a)).gate s = .go → s.readSrc true a = (t, x) →
        (∀ l < 32, m.has l = true → searchBad s.dev s.ctx r (findAnswer s.dev s.ctx r (x l)) = false) →
        exec (.find g q d h a) s = .next (((t.writeV d.toNat m (fun l => Claims.n32 (findAnswer s.dev s.ctx r (x l)))).writeP q m
          (fun l => decide (findAnswer s.dev s.ctx r (x l) < r.n))).retireLane)) ∧
      (∀ t x, (Instr.use (.pick g q d h a)).gate s = .go → s.readSrc true a = (t, x) →
        (2 ≤ r.kind → exec (.pick g q d h a) s = .next (s.takeTrap true false ⟨0x09, m, 0, 5, 0⟩)) ∧
        (r.kind < 2 → (∀ l < 32, m.has l = true → searchBad s.dev s.ctx r (pickAnswer s.dev s.ctx r (x l)) = false) →
          exec (.pick g q d h a) s = .next (((t.writeV d.toNat m (fun l => Claims.n32 (pickAnswer s.dev s.ctx r (x l)))).writeP q m
            (fun l => decide (pickAnswer s.dev s.ctx r (x l) < r.n))).retireLane))))

/-- 06:R118; 14:R270 to R273, R276: NOP and WAITF retire and write nothing; CHST gives an entry's state and its messages, CHWAIT
completes with k messages or with every send accepted and traps on an unbound entry whatever the masks hold;
RNEXT, RJUMP and RUNI step, jump and read the lane streams; RDITH gives a dither; LTRAP and LBRK stop the warp where a lane is active and do nothing otherwise. -/
def Obligations.LaneSystemInstructions : Prop :=
  ∀ (g : Guard) (n a d : VReg) (mode f32 : Bool) (ch : BitVec 4) (k : BitVec 3) (dst : Dest) (sa : SReg) (b c : Value) (code : BitVec 6)
    (s : State) (m : Mask), m = s.active g → s.warp.parkL = none → s.warp.headEntry = none →
    ((Instr.use (.nop g)).gate s = .go → exec (.nop g) s = .next s.retireLane) ∧
    ((Instr.use (.waitf g n mode)).gate s = .go → exec (.waitf g n mode) s = .next s.retireLane) ∧
    ((Instr.use (.chst g dst ch)).gate s = .go → exec (.chst g dst ch) s = .next ((s.writeDest dst m (fun _ =>
      match (s.warp.chan ch.toNat).st with
      | .unbound => 0
      | .send => 1
      | .recv => Claims.n32 (2 + 4 * (s.warp.chan ch.toNat).queue.length))).retireLane)) ∧
    ((Instr.use (.chwait g ch k)).gate s = .go →
      (m = 0 ∨ ((s.warp.chan ch.toNat).st = .recv ∧ k.toNat ≤ (s.warp.chan ch.toNat).queue.length) ∨
        ((s.warp.chan ch.toNat).st = .send ∧ ∀ n e p x, (n, Comm.send e p x) ∈ s.warp.comms → e ≠ ch.toNat) →
          exec (.chwait g ch k) s = .next s.retireLane) ∧
      (m ≠ 0 → (s.warp.chan ch.toNat).st = .recv → (s.warp.chan ch.toNat).queue.length < k.toNat →
        exec (.chwait g ch k) s = .next (s.waitLane 11))) ∧
    (s.ctx.feat.getLsbD 5 = true → (s.warp.chan ch.toNat).st = .unbound →
      exec (.chwait g ch k) s = .next (s.takeTrap true false ⟨0x0B, 0, 0, 1, 0⟩)) ∧
    ((Instr.use (.rnext g d a mode)).gate s = .go → exec (.rnext g d a mode) s =
      .next ((Claims.writtenPair s d m (fun l => Claims.lcgStep (Claims.regPair s a l))).retireLane)) ∧
    (∀ t x y, (Instr.use (.rjump g d a mode b c)).gate s = .go → Claims.readAll s (m != 0) [b, c] = (t, [x, y]) →
      exec (.rjump g d a mode b c) s = .next ((Claims.writtenPair t d m
        (fun l => Claims.lcgStep^[(Claims.pairOf [x l, y l]).toNat] (Claims.regPair s a l))).retireLane)) ∧
    ((Instr.use (.runi g f32 dst a mode)).gate s = .go → ∃ x : Nat → W32,
      (∀ l, if f32 then Claims.FiniteIn .f32 (x l).toNat ∧
          Claims.valueIn .f32 (x l).toNat = ((Claims.lcgOut (Claims.regPair s a l) / 256 : Nat) : ℚ) / 2 ^ 24
        else (x l).toNat = Claims.lcgOut (Claims.regPair s a l)) ∧
      exec (.runi g f32 dst a mode) s = .next ((s.writeDest dst m x).retireLane)) ∧
    ((Instr.use (.rdith g dst sa b)).gate s = .go → exec (.rdith g dst sa b) s =
      .next (((s.readSrc (m != 0) b).1.writeDest dst m (fun l =>
        Claims.n32 (dither s.n3 (s.src64 sa) ((s.readSrc (m != 0) b).2 l).toNat))).retireLane)) ∧
    ((Instr.use (.ltrap g code)).gate s = .go →
      (m = 0 → exec (.ltrap g code) s = .next s.retireLane) ∧
      (m ≠ 0 → exec (.ltrap g code) s = .next (s.takeTrap true false ⟨0x0E, m, 0, BitVec.ofNat 64 code.toNat, 0⟩))) ∧
    ((Instr.use (.lbrk g)).gate s = .go →
      (m = 0 → exec (.lbrk g) s = .next s.retireLane) ∧
      (m ≠ 0 → s.debugHeld = false → exec (.lbrk g) s = .next (s.takeTrap true false ⟨0x0F, m, 0, 0, 0⟩)) ∧
      (m ≠ 0 → s.debugHeld = true → ∃ t, exec (.lbrk g) s = .next t ∧ t.warp.status = .stopped ∧ t.warp.queue = s.warp.queue))

/-! ## Messages and commands -/

/-- 09:R175, R178; 10:R203; 17:R287, R291, R294; 19:R312: a load request answers with the line at its home; a reply is
installed unless the line is held or has changed; a push is installed within ALLOWANCE (02:R46) and no older than the floor of the
line (09:R185), and one that is refused leaves no copy of the line (01:R32); a write-back puts a dirty line's bytes into memory and
leaves it clean; a page recall makes a page shared; the first request homes a region. That a push leaves a tracked or private copy
of the line as it stands, and that one within ALLOWANCE is installed, is the model's choice (DEDUCED, log 17). -/
def Obligations.LinesMoveBetweenCachesAndHomes : Prop :=
  (∀ (r : LoadReq) (s u : State) (tm : Team) (c : Context) (p : Page) (x : LineData) (bad : Bool), s.teamOf r.who.teamKey = some tm →
    s.ctxOf tm.ctx = some c → s.letIn c (.core tm.core) false false false (r.line * 128) = .ok u p →
    u.fetchLine c (r.line * 128) = some (x, bad) →
    exec (.loadRequest r) s = .next (if p.cls = 1 ∨ r.use = .prefHome then u else u.post
      [.dataReply tm.core (tagged c.num (r.line * 128)) x (p.share == 1) bad (if r.use = .prefL1 then some (r.who, r.begins) else none)])) ∧
  (∀ (core line : Nat) (data : LineData) (priv poison : Bool) (pref : Option (WarpKey × Nat)) (s : State),
    (Claims.InTime s pref → Claims.l1At s core line = none → Claims.AtHome s line data →
      ∃ t, exec (.dataReply core line data priv poison pref) s = .next t ∧
        Claims.l1At t core line = some ⟨line, if priv && s.privateTo core line then .pc else .sc, data, poison, s.dev.vers.get line, false⟩ ∧
        t.warp = s.warp) ∧
    (¬ Claims.InTime s pref ∨ Claims.l1At s core line ≠ none ∨ ¬ Claims.AtHome s line data →
      exec (.dataReply core line data priv poison pref) s = .next s)) ∧
  (∀ (core line : Nat) (data : PushedLine) (s : State),
    ((∀ l, Claims.l1At s core line = some l → l.st = .sc ∨ l.st = .pu) → (s.coreOf core).floors.get line ≤ data.ver →
      ((∃ l, Claims.l1At s core line = some l ∧ l.st = .pu) ∨ (s.coreOf core).pushedLines < (s.coreOf core).allowance) →
      ∃ t, exec (.pushInstall core line data) s = .next t ∧
        Claims.l1At t core line = some ⟨line, .pu, data.bytes, data.poison, data.ver, false⟩) ∧
    ((data.ver < (s.coreOf core).floors.get line ∨
        ((∀ l, Claims.l1At s core line = some l → l.st ≠ .pu) ∧ (s.coreOf core).allowance ≤ (s.coreOf core).pushedLines)) →
      ∃ t, exec (.pushInstall core line data) s = .next t ∧ Claims.l1At t core line = none ∧
        (Claims.l1At s core line = none → t = s)) ∧
    (∀ l, Claims.l1At s core line = some l → (l.st = .ts ∨ l.st = .ox ∨ l.st = .pc ∨ l.st = .pd) →
      (s.coreOf core).floors.get line ≤ data.ver → (s.coreOf core).pushedLines < (s.coreOf core).allowance →
      exec (.pushInstall core line data) s = .next s)) ∧
  (∀ (core line : Nat) (l : L1Line) (c : Context) (p : Page) (s : State), Claims.l1At s core line = some l → l.st = .pd →
    s.ctxOf (untag line).1 = some c → walk s.dev c (untag line).2 = .page p →
    ∃ t, exec (.writeBack core line) s = .next t ∧ Claims.l1At t core line = some { l with st := .pc } ∧
      (∀ k < 128, ¬ Claims.inEntry p (p.phys (untag line).2 + k) →
        Claims.byteAt t (p.phys (untag line).2 + k) = Claims.lineByte l.data k) ∧
      ∀ a, (a < p.phys (untag line).2 ∨ p.phys (untag line).2 + 128 ≤ a) → ¬ Claims.inEntry p a →
        Claims.byteAt t a = Claims.byteAt s a) ∧
  (∀ (ctx page : Nat) (c : Context) (p : Page) (s : State), s.ctxOf ctx = some c → walk s.dev c (page * 65536) = .page p →
    p.share = 1 → p.large = false → (∀ l ∈ (s.coreOf p.owner).l1, l.st ≠ .pd) →
    ∃ t, exec (.pageRecall ctx page) s = .next t ∧ bitsOf64 (readD t.dev.mem p.place) 56 55 = 2 ∧
      (t.coreOf p.owner).l1 = (s.coreOf p.owner).l1.map (fun l =>
        if lineIn ctx (page * 65536) 65536 l.line && l.st == .pc then { l with st := .sc } else l)) ∧
  (∀ (region die quad : Nat) (s : State), ∃ t, exec (.regionTableRequest region die quad) s = .next t ∧ t.dev.mem = s.dev.mem ∧
    ∀ r, t.dev.regionTab.get r = if r = region ∧ (s.dev.regionTab.get r).getLsbD 31 = false then
      BitVec.ofNat 32 (2 ^ 31 + die % 32 * 2 ^ 21 + quad % 4 * 2 ^ 19) else s.dev.regionTab.get r)

/-- 09:R175, R177, R184; 10:R193, R198, R199; 17:R288; 20:R326, R328: the class check and the translation of a lane access answer
the warp that asked; a write-buffer entry leaves for its home, or is performed, behind the older ones, in the L1 that holds its
line privately; at its home it waits behind older entries and a parked access of the other stream, is written and acknowledged, with
the other entries of a batch of aggregate elements (12:R237), or meets its missing page or its trap; the acknowledgement frees the
entry. The stages in which an entry travels, and the trap that a warp takes for a store after its instruction has retired, are
the model's reading (DEDUCED, log 10). -/
def Obligations.BufferedStoresReachTheirHomes : Prop :=
  (∀ (i : Instr) (a : LaneAsk) (s : State), (i = .classCheckRequest s.warp.key ∨ i = .translationConfirmation s.warp.key) →
    s.warp.status ≠ .absent → s.warp.ask = some a →
    (∀ x ∈ a.addrs, missingKind s.dev s.ctx x.2.2 = none) →
    ∃ t, exec i s = .next t ∧ t.dev = (s.touchAll (a.addrs.map (fun x => x.2.2))).dev ∧ t.core = s.core ∧ t.cores = s.cores ∧
      t.ctx = s.ctx ∧ t.ctxs = s.ctxs ∧ t.warp.v = s.warp.v ∧ t.warp.ask = none ∧ t.warp.check =
      match (if a.write then lanesVerdict s.dev s.ctx a.size a.addrs else none) with
      | some tr => .failed tr
      | none => .passed) ∧
  (∀ (id : Nat) (e : WEntry) (s : State), Claims.MayLeave s id e →
    (e.push ≠ none ∨ (∀ l, Claims.l1At s (s.coreOfWarp s.warp.key) e.line = some l → l.st ≠ .pc ∧ l.st ≠ .pd) →
      ∃ t, exec (.writeBufferDrain s.warp.key id) s = .next t ∧ t.dev = s.dev ∧ t.warp.entry id = some { e with stage := .sent } ∧
        t.events = s.events ++ [if e.push = none then .storeRequest s.warp.key id else .pushRequest s.warp.key id] ∧
        (∀ l, Claims.l1At s (s.coreOfWarp s.warp.key) e.line = some l → (l.st = .sc ∨ l.st = .pu ∨ l.st = .ts) →
          Claims.l1At t (s.coreOfWarp s.warp.key) e.line =
            some { l with data := patchLine l.data (e.bytes.map (fun b => (b.1 % 128, b.2))) })) ∧
    (∀ l, e.push = none → Claims.l1At s (s.coreOfWarp s.warp.key) e.line = some l → (l.st = .pc ∨ l.st = .pd) →
      s.olderEntry s.warp (s.coreOfWarp s.warp.key) e = true → exec (.writeBufferDrain s.warp.key id) s = .next { s with again := .held }) ∧
    (∀ l, e.push = none → Claims.l1At s (s.coreOfWarp s.warp.key) e.line = some l → (l.st = .pc ∨ l.st = .pd) → l.parity = false →
      s.olderEntry s.warp (s.coreOfWarp s.warp.key) e = false →
      ∃ t, exec (.writeBufferDrain s.warp.key id) s = .next t ∧ t.dev = s.dev.bump e.line ∧ t.warp.entry id = none ∧
        Claims.l1At t (s.coreOfWarp s.warp.key) e.line =
          some { l with st := .pd, ver := (s.dev.bump e.line).vers.get e.line, poison := e.poison || (l.poison && e.cells.length != 128)
                        data := patchLine l.data (e.bytes.map (fun b => (b.1 % 128, b.2))) })) ∧
  (∀ (i : Instr) (id : Nat) (e : WEntry) (c : Context) (s u : State), (i = .storeRequest s.warp.key id ∨ i = .pushRequest s.warp.key id) →
    s.warp.status ≠ .absent → s.warp.entry id = some e → e.stage = .sent → s.ctxOf (untag e.line).1 = some c →
    ((s.olderEntry s.warp (s.coreOfWarp s.warp.key) e || s.heldByPark s.warp (s.coreOfWarp s.warp.key) e) = true →
      exec i s = .next { s with again := .held }) ∧
    (s.olderEntry s.warp (s.coreOfWarp s.warp.key) e = false → s.heldByPark s.warp (s.coreOfWarp s.warp.key) e = false →
    (missingKind s.dev c e.first.1 = some 1 → s.joinTicket s.warp e = none → ∃ t ticket, exec i s = .next t ∧
      t.again = .parked ticket ∧ t.warp = s.warp ∧
      t.dev.outbox = s.dev.outbox ++ [.notice ticket (BitVec.ofNat 64 (e.first.1 / 65536 * 65536)) e.first.2 1]) ∧
    (∀ ticket, missingKind s.dev c e.first.1 = some 1 → s.joinTicket s.warp e = some ticket →
      exec i s = .next { s with again := .parked ticket }) ∧
    (missingKind s.dev c e.first.1 = some 3 → s.warp.pendTrap = none → ∃ t ticket, exec i s = .next t ∧ t.warp.entry id = none ∧
      t.warp.pendTrap = some (e.trapOf e.writes Code.pageFatal 0 ticket)) ∧
    (∀ code detail ws, missingKind s.dev c e.first.1 = none → s.entryVerdict c e = some ((code, detail), ws) → s.warp.pendTrap = none →
      ∃ t, exec i s = .next t ∧ t.dev = s.dev ∧ t.warp.entry id = none ∧ t.warp.pendTrap = some (e.trapOf ws code detail 0)) ∧
    (∀ es, missingKind s.dev c e.first.1 = none → s.entryVerdict c e = none → s.batchOf s.warp (s.coreOfWarp s.warp.key) e = es →
     (s.batchWaits c es = true → exec i s = .next { s with again := .held }) ∧
     (s.batchWaits c es = false →
     s.letInAll c (s.coreOfWarp s.warp.key) e.push.isSome (es.map (fun y => y.line)) = (u, true) →
     exec i s = .next (es.foldl (fun v y => v.performed s.warp.key y.id) (u.performEntries c (s.coreOfWarp s.warp.key) es)) ∧
     (∀ ia bs p, es = [e] → (if e.push = none ∧ e.elems = false then runsOf e.cells else e.writes.map (fun x => (x.ia, x.bytes))) =
        [(ia, bs)] → walk u.dev c ia = .page p →
      ∃ t, exec i s = .next t ∧ Instr.storeAcknowledgement s.warp.key id ∈ t.events ∧
        (∀ k < bs.length, ¬ Claims.inEntry p (p.phys ia + k) → Claims.byteAt t (p.phys ia + k) = bs.getD k 0) ∧
        ∀ a, (a < p.phys ia ∨ p.phys ia + bs.length ≤ a) → ¬ Claims.inEntry p a → Claims.byteAt t a = Claims.byteAt u a))))) ∧
  (∀ (id : Nat) (e : WEntry) (s : State), s.warp.status ≠ .absent → s.warp.entry id = some e →
    (e.push = none ∨ s.pushUnderWay [e.line] = false) →
    ∃ t, exec (.storeAcknowledgement s.warp.key id) s = .next t ∧ Claims.Quiet s t ∧
      t.warp.wbuf = s.warp.wbuf.filter (fun y => y.id != id))

/-- 17:R292, R297 to R303; 19:R311: the home's directory follows its table, holds requests for a transient entry or a full set
within its queue of 8 (R292), and serves them when the entry is stable again; a core acknowledges an invalidation, which voids a
grant that is still on its way, answers a recall, and takes a grant. That a request waits where its set, one of 512, has no free way is
the model's choice (DESIGN CHOICE, log 9). -/
def Obligations.DirectoryFollowsItsTable : Prop :=
  ∀ (line : Nat) (s : State),
    (∀ c, s.queuedFor .home line = false → DirE.state (s.dirGet .home line) = DirE.unc → s.hasWay .home line = true →
      (∃ t, exec (.gets .home line c) s = .next t ∧
      Claims.Moved s t .home line (onlyNode DirE.shr c) [.grant .home line c false (s.lineNow line)])) ∧
    (∀ c i, (i = .getx .home line c ∨ i = .upg .home line c) → s.queuedFor .home line = false →
      DirE.state (s.dirGet .home line) = DirE.unc → s.hasWay .home line = true →
      ∃ t, exec i s = .next t ∧ Claims.Moved s t .home line (onlyNode DirE.own c) [.grant .home line c true (s.lineNow line)]) ∧
    (∀ c, s.queuedFor .home line = false → DirE.state (s.dirGet .home line) = DirE.shr → (∃ t, exec (.gets .home line c) s = .next t ∧
      Claims.Moved s t .home line (DirE.addSharer (s.dirGet .home line) c) [.grant .home line c false (s.lineNow line)])) ∧
    (∀ c i u, (i = .getx .home line c ∧ u = false ∨ i = .upg .home line c ∧ u = true) → s.queuedFor .home line = false →
      DirE.state (s.dirGet .home line) = DirE.shr → Claims.NodeOk s line c →
      ∃ t e, exec i s = .next t ∧
        let data := !(u && pointed (s.dirGet .home line) c)
        let others := (s.sharers .home line (s.dirGet .home line)).filter (fun x => x != c)
        (others = [] → Claims.Moved s t .home line (onlyNode DirE.own c) [.grant .home line c true (if data then s.lineNow line else none)]) ∧
        (others ≠ [] → Claims.Moved s t .home line e (others.map (fun x => Instr.inv .home line x)) ∧ DirE.state e = DirE.s2o ∧
          DirE.acks e = others.length ∧ DirE.wdata e = data ∧ s.requester .home line e = c)) ∧
    (∀ c o i, DirE.state (s.dirGet .home line) = DirE.own → s.ownerOf .home line (s.dirGet .home line) = some o →
      Claims.NodeOk s line c → (i = .gets .home line c ∨ i = .getx .home line c ∨ i = .upg .home line c) →
      (c = o → s.queuedAt (s.sliceOf .home line) < 8 → ∃ t, exec i s = .next t ∧ Claims.HeldAt s t .home line i) ∧
      (c ≠ o → s.queuedFor .home line = false → ∃ t e, exec i s = .next t ∧ s.requester .home line e = c ∧ s.ownerOf .home line e = some o ∧
        DirE.state e = (if i = .gets .home line c then DirE.o2s else DirE.o2o) ∧
        Claims.Moved s t .home line e
          [if i = .gets .home line c then .rclDowngrade .home line o else .rclInvalidate .home line o])) ∧
    (∀ c i, (i = .gets .home line c ∨ i = .getx .home line c ∨ i = .upg .home line c) →
      (3 ≤ DirE.state (s.dirGet .home line) ∨ s.queuedFor .home line = true ∨ s.hasWay .home line = false) →
      (s.queuedAt (s.sliceOf .home line) < 8 → ∃ t, exec i s = .next t ∧ Claims.HeldAt s t .home line i) ∧
      (8 ≤ s.queuedAt (s.sliceOf .home line) → exec i s = .next { s with again := .held }) ∧
      (∀ h, h = (DirAt.home, line, i) → s.dev.dirHeld = [h] → s.servable .home line c = true →
        s.serveHeld = ({ s with dev := { s.dev with dirHeld := [] } } : State).serveRequest i)) ∧
    (∀ c, DirE.state (s.dirGet .home line) = DirE.shr → DirE.coarse (s.dirGet .home line) = false →
      DirE.npt (s.dirGet .home line) ≤ 4 → ∀ n, c = Node.core n →
      ∃ t, exec (.evs .home line c) s = .next t ∧ t.events = s.events ∧
        DirE.dievec (t.dirGet .home line) = DirE.dievec (s.dirGet .home line) ∧
        DirE.ptrs (t.dirGet .home line) = (DirE.ptrs (s.dirGet .home line)).filter (fun k => k != n % 32)) ∧
    (∀ c data, DirE.state (s.dirGet .home line) = DirE.own → s.ownerOf .home line (s.dirGet .home line) = some c →
      ∃ t, exec (.evx .home line c data) s = .next t ∧ t.dirGet .home line = 0 ∧ t.dev.mem = (s.returnLine line data).dev.mem ∧
        t.events = s.events) ∧
    (∀ c data, 3 ≤ DirE.state (s.dirGet .home line) → exec (.evs .home line c) s = .next s ∧
      exec (.evx .home line c data) s = .next (s.returnLine line data)) ∧
    (DirE.state (s.dirGet .home line) = DirE.s2o →
      (2 ≤ DirE.acks (s.dirGet .home line) → ∃ t, exec (.acknowledgement .home line) s = .next t ∧
        Claims.Moved s t .home line (DirE.setAcks (s.dirGet .home line) (DirE.acks (s.dirGet .home line) - 1)) []) ∧
      (DirE.acks (s.dirGet .home line) = 1 → ∃ t, exec (.acknowledgement .home line) s = .next t ∧
        let c := s.requester .home line (s.dirGet .home line)
        t.dirGet .home line = onlyNode DirE.own c ∧ t.events = s.events ++ [.grant .home line c true
          (if DirE.wdata (s.dirGet .home line) then s.lineNow line else none)])) ∧
    (∀ data o, s.ownerOf .home line (s.dirGet .home line) = some o →
      ∃ u, u = s.returnLine line data ∧
      let c := s.requester .home line (s.dirGet .home line)
      (DirE.state (s.dirGet .home line) = DirE.o2s → ∃ t, exec (.recallReply .home line (some data)) s = .next t ∧
        t.dirGet .home line = sharedBy [o, c] ∧ t.dev.mem = u.dev.mem ∧
        t.events = s.events ++ [.grant .home line c false (u.lineNow line)]) ∧
      (DirE.state (s.dirGet .home line) = DirE.o2o → ∃ t, exec (.recallReply .home line (some data)) s = .next t ∧
        t.dirGet .home line = onlyNode DirE.own c ∧ t.dev.mem = u.dev.mem ∧
        t.events = s.events ++ [.grant .home line c true (u.lineNow line)])) ∧
    (∀ n, s.justGranted n line = false →
      ((∀ e ∈ s.events ++ s.held, grantFor .home line (.core n) e = none) →
        ∃ t, exec (.inv .home line (.core n)) s = .next t ∧ t.events = s.events ++ [.acknowledgement .home line] ∧ t.dev = s.dev ∧
        ∀ l, Claims.l1At t n line = some l → l.st ≠ .ts) ∧
      (∀ e ∈ s.events, ∀ owned, grantFor .home line (.core n) e = some owned →
        (∀ e' ∈ s.events ++ s.held, grantFor .home line (.core n) e' = none ∨ grantFor .home line (.core n) e' = some owned) →
        ∃ t, exec (.inv .home line (.core n)) s = .next t ∧ t.dev = s.dev ∧
          t.events = s.events.filter (fun e => (grantFor .home line (.core n) e).isNone) ++
            [if owned then .getx .home line (.core n) else .gets .home line (.core n)] ++ [.acknowledgement .home line]) ∧
      (∀ l, Claims.l1At s n line = some l → l.st = .ox →
        (∃ t, exec (.rclDowngrade .home line (.core n)) s = .next t ∧ t.events = s.events ++ [.recallReply .home line (some l.data)] ∧
          Claims.l1At t n line = some { l with st := .ts }) ∧
        (∃ t, exec (.rclInvalidate .home line (.core n)) s = .next t ∧ t.events = s.events ++ [.recallReply .home line (some l.data)] ∧
          Claims.l1At t n line = none))) ∧
    (∀ n x owned l, (∃ t l', exec (.grant .home line (.core n) owned (some x)) s = .next t ∧ Claims.l1At t n line = some l' ∧
        l'.data = x ∧ l'.st = if owned then .ox else .ts) ∧
      (Claims.l1At s n line = some l → l.parity = false → ∃ t l', exec (.grant .home line (.core n) true none) s = .next t ∧
        Claims.l1At t n line = some l' ∧ l'.data = l.data ∧ l'.st = .ox))

/-- 13:R246 to R250, R253 to R255; 22:R356, R357, R360: WLOAD latches a set of weights from the scratchpad, MMA writes every
accumulator of its rows, ACCZ zeroes its units, and FILL, COPYIN and a loading GATHER write their scratchpad bytes, a read the
bytes of its line; each then retires, under DET at the clearing, during which no task goes on that has not found its writes
(13:R261). That activation planes beyond klen read as 0 is the
model's choice (DESIGN CHOICE, log 44), and so is what a box row takes of dimensions that its tensor does not use (log 43). -/
def Obligations.TasksFillWeightsAndAccumulators : Prop :=
  ∀ (t : Team) (c : Context) (r : TaskRec) (s : State),
    (Claims.TaskReady s t c r 1 → t.anyScratchBad (r.scratchRanges 0).1 = false →
      (∃ a < 2, s.granulesUsed t.core a t.key r.wsLoad + Claims.setGranules r.fmt r.ncols r.planes ≤ 384) →
      ∃ u t' w, exec (.wload t.key r.seq) s = .next u ∧ Claims.RetiredWith s u t t' r ∧ t'.scratch = t.scratch ∧ t'.acc = t.acc ∧
        (∀ h, t'.wsets.find? (fun e => e.1 == h) = if h = r.wsLoad then some (h, w) else t.wsets.find? (fun e => e.1 == h)) ∧
        w.fmt.toNat = r.fmt ∧ w.k = r.planes ∧ w.mid = r.mid ∧ w.ncols = r.ncols ∧
        w.data = readBytes t.scratch r.off1 (weightBytes r.fmt r.ncols r.planes) ∧
        w.scales = (if r.fmt = 7 ∨ r.fmt = 12 then readBytes t.scratch r.off2 (4 * r.ncols) else []) ∧
        w.bad = false ∧ (w.array = 0 ∨ w.array = 1)) ∧
    (∀ h w, Claims.TaskReady s t c r 2 → t.wsets.find? (fun e => e.1 == r.wsMma) = some (h, w) → w.bad = false →
      t.anyScratchBad (r.mmaReads w) = false → t.accBad r.accRanges.1 = false →
      ∃ u t', exec (.mma t.key r.seq) s = .next u ∧ Claims.RetiredWith s u t t' r ∧ t'.scratch = t.scratch ∧ t'.wsets = t.wsets ∧
        (∀ i < r.rows, ∀ n < 48, accGet t'.acc r.acc r.af i n =
          chunkInto (TaskRec.afFmt r.af) r.mode (r.ditherAt t (accRow r.acc r.af i * 48 + n)) r.accum t.hdr.fused
            (accGet t.acc r.acc r.af i n) (chunkSum (r.actAt t.scratch i) (fun k => w.value k n)) % 2 ^ (8 * accBytes r.af)) ∧
        ∀ a, (a < 96 * r.acc ∨ 96 * (r.acc + r.rows * TaskRec.unitsOf r.af) ≤ a) → t'.acc.get a = t.acc.get a) ∧
    (Claims.TaskReady s t c r 3 →
      ∃ u t', exec (.accz t.key r.seq) s = .next u ∧ Claims.RetiredWith s u t t' r ∧ t'.scratch = t.scratch ∧ t'.wsets = t.wsets ∧
        ∀ a, t'.acc.get a = if 96 * r.acc ≤ a ∧ a < 96 * (r.acc + bitsOf64 r.t0 44 32) then 0 else t.acc.get a) ∧
    (Claims.TaskReady s t c r 8 → r.dir = false →
      ∃ u t', exec (.fill t.key r.seq) s = .next u ∧ Claims.RetiredWith s u t t' r ∧ t'.acc = t.acc ∧ t'.wsets = t.wsets ∧
        ∀ a, t'.scratch.get a = if r.fillOff ≤ a ∧ a < r.fillOff + r.fillLen then
          BitVec.ofNat 8 (r.pattern.toNat / 256 ^ ((a - r.fillOff) % 4)) else t.scratch.get a) ∧
    (∀ sh u v reads, Claims.TaskReady s t c r 5 → (Claims.issue s t r).taskShape c t r = .ok u sh → layoutBad r sh = false →
      boxOutside r sh = false →
      (if sh.fmt = 12 then v = u ∧ reads = runReads sh.base sh.planesBytes r.soff
        else v = u.zeroTails t.key r sh (boxRows r sh) ∧ reads = (boxRows r sh).flatMap (rowReads r sh)) →
      exec (.copyin t.key r.seq) s = .next (Claims.ToRead v t r reads)) ∧
    (∀ sh u v rows, Claims.TaskReady s t c r 7 → r.dir = false → (Claims.issue s t r).taskShape c t r = .ok u sh →
      layoutBad r sh = false → t.scratchBad r.ioff (4 * r.cnt) = false →
      (sh.clip = true ∨ (sh.box 0 ≤ sh.dim 0 ∧ ∀ j < r.cnt, (readW t.scratch (r.ioff + 4 * j)).toNat < sh.dim 1)) →
      rows = (List.range r.cnt).map (gatherRow r sh t.scratch) → v = u.zeroTails t.key r sh rows →
      exec (.gather t.key r.seq) s = .next (Claims.ToRead v t r (rows.flatMap (rowReads r sh)))) ∧
    (∀ i reads w, (r.kind = 5 ∧ i = .copyin t.key r.seq ∨ r.kind = 7 ∧ i = .gather t.key r.seq) →
      s.teamOf t.key = some t → t.ring.find? (fun x => x.seq == r.seq) = some r → s.ctxOf t.ctx = some c → r.fatal = none →
      r.issued = true → r.out = none → r.reads = some reads → (t.det = false ∨ s.clearingOf t.key.launch = false) →
      (State.taskReads c t r reads s [] = .ok w [] → exec i s = .next (w.finishTask t r.seq)) ∧
      (∀ left, State.taskReads c t r reads s [] = .ok w left → left ≠ [] →
        exec i s = .next { w.onTask t.key r.seq (fun x => { x with reads := some left }) with again := .held })) ∧
    (∀ i, (Claims.InClearing s t c r 1 ∧ i = .wload t.key r.seq ∨ Claims.InClearing s t c r 2 ∧ i = .mma t.key r.seq ∨
        Claims.InClearing s t c r 3 ∧ i = .accz t.key r.seq ∨ Claims.InClearing s t c r 4 ∧ i = .drain t.key r.seq ∨
        Claims.InClearing s t c r 5 ∧ i = .copyin t.key r.seq ∨ Claims.InClearing s t c r 6 ∧ i = .copyout t.key r.seq ∨
        Claims.InClearing s t c r 7 ∧ i = .gather t.key r.seq ∨ Claims.InClearing s t c r 8 ∧ i = .fill t.key r.seq) →
      exec i s = .next { s with again := .held }) ∧
    (∀ (x : TaskRead) v bs tv, s.pageParked c t r.seq .r x.va = false → s.taskRead c t r x.va x.len = .ok v (bs, false) →
      v.teamOf t.key = some tv →
      ∃ w t', State.taskReads c t r [x] s [] = .ok w [] ∧ w.dev = v.dev ∧ w.teamOf t.key = some t' ∧
        ∀ a, t'.scratch.get a = if x.dest ≤ a ∧ a < x.dest + bs.length then (r.asRead x.va bs).getD (a - x.dest) 0
          else tv.scratch.get a)

/-- 13:R252 to R257, R261; 22:R361 to R364: DRAIN, COPYOUT, a storing GATHER and a global FILL find the writes of every box row;
the writes are then performed at their homes, those of a missing page later, and the task retires, under DET at the
clearing. -/
def Obligations.TasksMoveTensorsToMemory : Prop :=
  ∀ (t : Team) (c : Context) (r : TaskRec) (s : State),
    (∀ sh f u v, Claims.TaskReady s t c r 4 → (Claims.issue s t r).taskShape c t r = .ok u sh → boxOutside r sh = false →
      floatFmt sh.fmt = some f → u.escrowFor t r sh = .ok v () → t.accBad r.accRanges.1 = false →
      exec (.drain t.key r.seq) s = .next (Claims.ToWrite v t r ((boxRows r sh).flatMap (drainRow t r sh f)))) ∧
    (∀ sh u v, Claims.TaskReady s t c r 6 → (Claims.issue s t r).taskShape c t r = .ok u sh → layoutBad r sh = false →
      boxOutside r sh = false → u.escrowFor t r sh = .ok v () → t.anyScratchBad (copyoutPlan t r sh).2 = false →
      exec (.copyout t.key r.seq) s = .next (Claims.ToWrite v t r (if sh.fmt = 12 then
        runWrites sh.escrow sh.base (sh.maskPlanes 0 (readBytes t.scratch r.soff sh.planesBytes))
        else (boxRows r sh).flatMap (fun row => runWrites sh.escrow row.addr (copyoutRow t r sh row))))) ∧
    (∀ sh u, Claims.TaskReady s t c r 7 → (Claims.issue s t r).taskShape c t r = .ok u sh → layoutBad r sh = false →
      (sh.clip = true ∨ (sh.box 0 ≤ sh.dim 0 ∧ ∀ j < r.cnt, (readW t.scratch (r.ioff + 4 * j)).toNat < sh.dim 1)) → r.dir = true →
      t.scratchBad r.ioff (4 * r.cnt) = false → t.anyScratchBad (((List.range r.cnt).map (gatherRow r sh t.scratch)).map
        (fun row => (r.rowAt row.row, r.rowAt row.row + sh.bytes row.count))) = false →
      exec (.gather t.key r.seq) s = .next (Claims.ToWrite u t r ((List.range r.cnt).flatMap (fun j =>
        let row := gatherRow r sh t.scratch j
        runWrites false row.addr (readBytes t.scratch (r.soff + j * (r.pitch * 16)) (sh.bytes row.count)))))) ∧
    (∀ sh u, Claims.TaskReady s t c r 8 → r.dir = true → (Claims.issue s t r).taskShape c t r = .ok u sh → boxOutside r sh = false →
      exec (.fill t.key r.seq) s = .next (Claims.ToWrite u t r ((boxRows r sh).flatMap (fun row =>
        runWrites false row.addr ((List.replicate row.count (toBytes (sh.bytes 1) (zext64 r.pattern))).flatten))))) ∧
    (∀ i out, (r.kind = 4 ∧ i = .drain t.key r.seq ∨ r.kind = 6 ∧ i = .copyout t.key r.seq ∨ r.kind = 7 ∧ i = .gather t.key r.seq ∨
        r.kind = 8 ∧ i = .fill t.key r.seq) →
      s.teamOf t.key = some t → t.ring.find? (fun x => x.seq == r.seq) = some r → s.ctxOf t.ctx = some c → r.fatal = none →
      r.issued = true → r.out = some out → t.status = .running →
      (t.det = true → exec i s = .next { s with again := .held }) ∧
      (∀ u, t.det = false → s.taskWrites c t r t.place out = .ok u [] → exec i s = .next (u.retireTask t.key r.seq)) ∧
      (∀ u left, t.det = false → s.taskWrites c t r t.place out = .ok u left → left ≠ [] →
        exec i s = .next { u.onTask t.key r.seq (fun x => { x with out := some left }) with again := .held }) ∧
      (∀ w ia line v p, t.det = false → out = [w] → w.add = false → w.escrow = false → r.parks = [] →
        inAperture (BitVec.ofNat 64 w.va) = false → w.va % 128 + w.bytes.length ≤ 128 →
        check c (BitVec.ofNat 64 w.va) .w = .ok ia → missingKind s.dev c ia = none → line = ia / 128 * 128 →
        writeVerdict s.dev c line 0 = none → splitsElement c line (lineOf [w]) = none →
        s.admitNow c t.place.1 t.place.2 true line = .ok v p →
        ∃ u, exec i s = .next u ∧
          (∀ k < w.bytes.length, ¬ Claims.inEntry p (p.phys (line + (w.va % 128 + k))) →
            Claims.byteAt u (p.phys (line + (w.va % 128 + k))) = w.bytes.getD k 0) ∧
          ∀ a, (∀ k < w.bytes.length, a ≠ p.phys (line + (w.va % 128 + k))) → ¬ Claims.inEntry p a →
            Claims.byteAt u a = Claims.byteAt v a))

/-- 22:R366 to R372, R374: a COLL joins the collective of its group and sends its pieces; a piece is read at its homes, goes to
the owner of its chunk, here or on another package, and is folded in member order; a piece of another operation or group
fails the collective; a member whose chunks are all written and read retires; a wait beyond waitms tells the driver; a
cancelled collective fails for every member that has joined. Where an owner's engine reads and writes, what the messages between
packages carry, and that a differing record makes MISMATCH there, are the model's reading (DEDUCED, log 45). -/
def Obligations.CollectivesFoldInMemberOrder : Prop :=
  ∀ (t : Team) (c : Context) (g : Group) (r : TaskRec) (j : Nat) (s : State),
    (Claims.TaskReady s t c r 9 → r.issued = false → c.groupOf r.collGroup = some g → g.indexOf s.dev.pkgNum t.key.team = some j →
      (∀ n, s.groupHolder g = some n → n = t.key.launch) → s.collOf c.num g.handle (g.countAt j) = none →
      s.slotFor (dieOf t.core) c.num g.handle (g.countAt j) = true →
      r.badBuffers g.m = false → s.collDead g = false →
      ∃ u cl r', exec (.coll t.key r.seq) s = .next u ∧ u.again = .held ∧ u.collOf c.num g.handle (g.countAt j) = some cl ∧
        cl.joined = [(j, t.key, r')] ∧ cl.failed = none ∧ r'.t0 = r.t0 ∧ r'.t1 = r.t1 ∧ r'.t2 = r.t2 ∧ r'.t3 = r.t3 ∧
        u.events = s.events ++ ((List.range (r.chunks g.m)).filter (fun k => r.sources k j)).map
          (fun k => Instr.collPiece c.num r.collGroup (g.countAt j) j k none)) ∧
    (∀ cl u cl', s.teamOf t.key = some t → t.ring.find? (fun x => x.seq == r.seq) = some r → s.ctxOf t.ctx = some c → r.kind = 9 →
      r.issued = true → r.fatal = none → s.collFor t.key r.seq = some (cl, j) →
      c.groupOf cl.group = some g → s.collKilled cl = false → s.collDead g = false → t.det = false →
      State.writeChunks c g t r j (cl.due r g.m j) s cl = (u, cl', 0) → cl'.due r g.m j = [] → cl'.readAll r g.m j = true →
      exec (.coll t.key r.seq) s = .next ((u.setColl cl').retireTask t.key r.seq).sweepColls) ∧
    (∀ ctx group seq chunk cl cl' u bs n place now, s.ctxOf ctx = some c → c.groupOf group = some g → s.collOf ctx group seq = some cl →
      cl.failed = none → cl.joined.find? (fun x => x.1 == j) = some (j, t.key, r) → s.teamOf t.key = some t →
      s.recordOf t.key r.seq = some now → now.fatal = none → s.collKilled cl = false → n = r.esize * r.chunkLen chunk →
      (t.det = false ∨ s.clearingOf t.key.launch = false) → s.runParked c t r.seq .r (r.sendAt chunk) n = false → place = s.ownerPlace g cl r chunk t false →
      s.getBytes c place.1 place.2 (r.sendAt chunk) n = .ok u (bs, false) → cl' = { cl with read := cl.read ++ [(chunk, j)] } →
      u.taskOwn t r = [] → bs.length = n →
      (s.ownsChunk g r chunk = true → s.stagingRoom g cl r t j chunk = true →
        exec (.collPiece ctx group seq j chunk none) s =
          .next ((u.setColl cl').putPiece g cl' r j chunk r.dseed (elemsOf r.esize (r.chunkLen chunk) bs))) ∧
      (s.ownsChunk g r chunk = false → exec (.collPiece ctx group seq j chunk none) s =
        .next ((u.setColl cl').send [.piece cl.group cl.seq (r.ownerOf g.m chunk) chunk
          (.piece (g.headOf r) r.dseed (elemsOf r.esize (r.chunkLen chunk) bs))]))) ∧
    (∀ ctx group seq chunk cl k, s.ctxOf ctx = some c → c.groupOf group = some g → s.collOf ctx group seq = some cl →
      cl.failed = none → cl.joined.head? = some (k, t.key, r) → s.teamOf t.key = some t →
      (∀ status, exec (.collPiece ctx group seq j chunk (some (.failed status))) s = .next (s.failHere cl status)) ∧
      (∀ head xs, (head ≠ ⟨r.collKey, g.members, g.waitms⟩ →
          exec (.collPiece ctx group seq j chunk (some (.result head xs))) s = .next (s.failColl cl 1)) ∧
        (head = ⟨r.collKey, g.members, g.waitms⟩ → (∀ a ∈ cl.results, a.1 ≠ chunk) →
          exec (.collPiece ctx group seq j chunk (some (.result head xs))) s =
            .next (s.setColl { cl with results := cl.results ++ [(chunk, xs)] }))) ∧
      (∀ head seed xs,
        (head ≠ ⟨r.collKey, g.members, g.waitms⟩ →
          exec (.collPiece ctx group seq j chunk (some (.piece head seed xs))) s = .next (s.failColl cl 1)) ∧
        (head = ⟨r.collKey, g.members, g.waitms⟩ → s.ownsChunk g r chunk = true → s.stagingRoom g cl r t j chunk = true →
          exec (.collPiece ctx group seq j chunk (some (.piece head seed xs))) s = .next (s.putPiece g cl r j chunk seed xs)))) ∧
    (∀ (cl : Coll) n3 m chunk member seed xs acc, r.collOp < 2 → (∀ p ∈ cl.pieces, p.1 ≠ chunk) →
      cl.accs.find? (fun a => a.1 == chunk) = some (chunk, member, acc) →
      (∀ a ∈ cl.accs, a.1 = chunk → a.2.1 = member) → member + 1 < m → r.collType = 0 → r.collRed = 0 →
      ∃ v, (cl.arrive r n3 m member chunk seed xs).accs.find? (fun a => a.1 == chunk) = some (chunk, member + 1, v) ∧
        v = (List.range acc.length).map (fun k => acc.getD k 0 + xs.getD k 0)) ∧
    (∀ (cl : Coll) n3 m chunk member next seed xs acc, r.collOp < 2 → (∀ p ∈ cl.pieces, p.1 ≠ chunk) →
      cl.accs.find? (fun a => a.1 == chunk) = some (chunk, next, acc) → next < member → (∀ a ∈ cl.accs, a.1 = chunk → a.2.1 = next) →
      (cl.arrive r n3 m member chunk seed xs).accs = cl.accs ∧ (chunk, member, xs) ∈ (cl.arrive r n3 m member chunk seed xs).pieces) ∧
    (∀ ctx group seq member cl, s.ctxOf ctx = some c → c.groupOf group = some g → g.waitms ≠ 0 → s.collOf ctx group seq = some cl →
      s.awaits g cl member = true →
      (∀ l p n, g.holder = some l → g.members[member]? = some (p, n) → p = s.dev.pkgNum → s.memberHeld l n = false) →
      exec (.waitNotice ctx group seq member) s = .next (s.send [.waitNotice group seq member])) ∧
    (∀ ctx group seq cl, s.ctxOf ctx = some c → c.groupOf group = some g → s.collOf ctx group seq = some cl → cl.failed = none →
      ∃ u, exec (.collectiveCancel ctx group seq) s = .next u ∧ (∀ cl', u.collOf ctx group seq = some cl' → cl'.failed = some 6) ∧
        ∀ x ∈ cl.joined, ∀ tm, u.teamOf x.2.1 = some tm → ∀ y ∈ tm.ring, y.seq ≠ x.2.2.seq)

/-- 09:R182; 10:R205, R206, R210; 11:R220, R230 to R232; 14:R269; 20:R318, R325, R328; 24:R384, R385: what a home does with the
requests of other agents: an atomic answers the old value and leaves the new one; an append answers its start and
moves the tails; a tail query, a range load and a load of another package are answered, unless that package is dead; SEAL
closes and seals; a drop forgets its region; a message enters its channel; an answered ticket lets its access go on or
makes it fatal. The request of a dead package, or of one whose number is older than its package's, is dropped (24:R389); how much
of it the model drops is the model's reading (log 29). An entry of a tail queue that cannot be read answers ECC_FATAL as 10:R193 has
it for data, which the model reads into TAILQ (log 34). -/
def Obligations.RequestsAreServedAtTheirHomes : Prop :=
  (∀ (r : AtomReq) (c : Context) (s u : State) (p : Page), s.ctxOf r.ctx = some c → writeVerdict s.dev c r.ia (widthOf r.dbl) = none →
    (s.quiesce r.ctx r.ia).letIn c (.other r.die r.quad) true false true r.ia = .ok u p →
    u.dev.bad.contains (p.phys r.ia / 128) = false →
    ∃ t, exec (.atomicRequest r) s = .next t ∧
      let old := readBytes u.dev.mem (p.phys r.ia) (widthOf r.dbl)
      let new := atomBytes r.op r.dbl old r.operand r.expected
      Out.value (ofBytes 64 old) ∈ t.dev.outbox ∧
      (new.2 = true → ∀ k < widthOf r.dbl, ¬ Claims.inEntry p (p.phys r.ia + k) →
        Claims.byteAt t (p.phys r.ia + k) = new.1.getD k 0) ∧
      (new.2 = false → t.dev.mem = u.dev.mem) ∧
      ∀ a, (a < p.phys r.ia ∨ p.phys r.ia + widthOf r.dbl ≤ a) → ¬ Claims.inEntry p a → Claims.byteAt t a = Claims.byteAt u a) ∧
  (∀ (ctx start : Nat) (addr : W64) (sz : MemSize) (elems : List (BitVec 128)) (c : Context) (x : Extent) (s : State),
    s.ctxOf ctx = some c → s.extentFor c (iaOf c .w addr) addr = .found x → x.closed = false →
    start = (x.reserved + sz.bytes - 1) / sz.bytes * sz.bytes →
    (65536 * x.pages < start + sz.bytes * elems.length →
      exec (.appendRequest ctx addr sz elems) s = .next (s.send [.value (BitVec.allOnes 64)])) ∧
    (∀ k ia, start + sz.bytes * elems.length ≤ 65536 * x.pages →
      spanMissing s.dev c (x.base + x.reserved) (start - x.reserved + sz.bytes * elems.length) = some (k, ia) →
      exec (.appendRequest ctx addr sz elems) s = .next (s.send [.error])) ∧
    (∀ v, start + sz.bytes * elems.length ≤ 65536 * x.pages →
      spanMissing s.dev c (x.base + x.reserved) (start - x.reserved + sz.bytes * elems.length) = none → s.writeSpan c
        (homeOf s.dev (iaOf c .w (BitVec.ofNat 64 x.base))) (x.base + x.reserved)
        (List.replicate (start - x.reserved) (0 : Byte) ++ elems.flatMap (fun e => toBytes sz.bytes e)) = (v, false) →
      v.ctxOf ctx = some c →
      ∃ t, exec (.appendRequest ctx addr sz elems) s = .next t ∧ Claims.Answered v t (.value (BitVec.ofNat 64 start)) ∧
        t.dev.mem = v.dev.mem ∧ Claims.CtxIs t ctx (c.setExtent { x with
          reserved := start + sz.bytes * elems.length
          committed := if x.committed = x.reserved then start + sz.bytes * elems.length else x.committed }))) ∧
  (∀ (ctx : Nat) (addr : W64) (c : Context) (x : Extent) (s : State), s.ctxOf ctx = some c →
    s.extentFor c (iaOf c .r addr) addr = .found x →
    (x.bad = true → exec (.tailqRequest ctx addr) s = .next (s.send [.trap 0x11 0])) ∧
    (x.bad = false → ∃ y : W64, exec (.tailqRequest ctx addr) s = .next (s.send [.value y]) ∧
      y.toNat = x.committed % 2 ^ 31 + (if x.sealed then 2 ^ 31 else 0))) ∧
  (∀ (addr : W64) (x : Extent) (s : State), s.warp.status ≠ .absent → inAperture addr = false → extentAt s.ctx addr = some x →
    x.sealed = false →
    ∃ t, exec (.sealRequest s.warp.key addr) s = .next t ∧ t.warp = s.warp ∧
      t.ctx = s.ctx.setExtent { x with closed := true, sealed := decide (x.committed = x.reserved) } ∧
      (x.committed ≠ x.reserved → t.dev = s.dev)) ∧
  (∀ (ctx h : Nat) (c : Context) (g : Region) (s : State), s.ctxOf ctx = some c → regionOf c h = some g →
    (∀ lo hi, exec (.rangeLoadRequest ctx (.lda h lo hi)) s =
      .next (s.send [if ldaBad s.dev c g lo hi then .trap 0x11 0 else .value (ldaAnswer s.dev c g lo hi)])) ∧
    (∀ x, exec (.rangeLoadRequest ctx (.find h x)) s = .next (s.send [if searchBad s.dev c g (findAnswer s.dev c g x) then .trap 0x11 0
      else .value (BitVec.ofNat 64 (findAnswer s.dev c g x))])) ∧
    (∀ x, exec (.rangeLoadRequest ctx (.pick h x)) s = .next (s.send [if searchBad s.dev c g (pickAnswer s.dev c g x) then .trap 0x11 0
      else .value (BitVec.ofNat 64 (pickAnswer s.dev c g x))])) ∧
    ∃ t c', exec (.dropRequest ctx h) s = .next t ∧ Claims.CtxIs t ctx c' ∧ c'.pool = c.pool + (2 ^ g.log2n - 1) ∧
      c'.regions = c.regions.filter (fun x => x.handle != h)) ∧
  (∀ (ctx h : Nat) (c : Context) (s : State), s.ctxOf ctx = some c → regionOf c h = none → ∀ q,
    ((∃ lo hi, q = .lda h lo hi) ∨ (∃ x, q = .find h x) ∨ (∃ x, q = .pick h x)) →
    exec (.rangeLoadRequest ctx q) s = .next (s.send [.trap 0x09 3])) ∧
  (∀ (src : WarpKey) (entry : Nat) (msg : Store 32) (w p : Warp) (s : State), s.warpOf src = some w →
    s.warpOf ⟨src.launch, (w.chan entry).team, (w.chan entry).pwarp⟩ = some p →
    (s.peer src entry (w.chan entry) = .accepts → exec (.channelMessage src entry msg) s = .next (s.setWarp
      { p.setChan (w.chan entry).pch { p.chan (w.chan entry).pch with queue := (p.chan (w.chan entry).pch).queue ++ [msg] } with
        nap := false, laneStalled := false, scalStalled := false })) ∧
    (s.peer src entry (w.chan entry) = .waits → exec (.channelMessage src entry msg) s = .next { s with again := .held })) ∧
  (∀ (ticket : W64) (fatal : Bool) (c : Context) (r : TicketRec) (s : State), s.ticketRec ticket = some (c, r) →
    s.ctxOf c.num = some c →
    ∃ t c', exec (.faultAnswer ticket fatal) s = .next t ∧ Claims.CtxIs t c.num c' ∧
      c'.tickets = c.tickets.filter (fun x => x.ticket != ticket) ∧ c'.ranges = c.ranges ∧ c'.root = c.root ∧
      c'.extents = c.extents ∧
      (∀ p, r.warp = some s.warp.key → s.warp.parkS = some p → p.ticket = ticket → t.warp.parkS =
        if fatal then some (if p.grow then { p with refused := true } else { p with fatal := true }) else none) ∧
      (∀ p, r.warp = some s.warp.key → s.warp.parkL = some p → p.ticket = ticket → t.warp.parkL =
        if fatal then some (if p.grow then { p with refused := true } else { p with fatal := true }) else none)) ∧
  (∀ (ctx line page : Nat) (src : Stamp) (c : Context) (p : Page) (x : LineData) (s v w u : State), s.ctxOf ctx = some c →
    page = line * 128 / 65536 → walk s.dev c (line * 128) = .page p → p.cls ≠ 2 → p.large = false →
    bitsOf64 (s.dev.pageRecord c page) 63 62 = 0 →
    v = ((s.joinPackage ctx src.package).sharePage ctx page).recallRange ctx (page * 65536) 65536 false →
    w = v.putRecordOf c page (BitVec.ofNat 64 (2 ^ 62 + 2 ^ 58 + src.package.toNat)) → u = w.quiesceRead ctx (line * 128) →
    u.fetchLine c (line * 128) = some (x, false) → s.dev.oldStamp src = false →
    exec (.loadRequestRemote ctx line src) s = .next (u.send [.data (toBytes 128 x)])) ∧
  (∀ (ctx line : Nat) (src : Stamp) (s : State), (s.dev.deadPkgs.contains src.package = true ∨
      src.incarnation.toNat < (s.dev.incarnation.get (Config.dies + src.package.toNat)).toNat) →
    exec (.loadRequestRemote ctx line src) s =
      .next (s.send [.dropped (Config.dies + src.package.toNat) 0 (tagged ctx (line * 128))]))

/-- 21:R337 to R343, R347: Welhal takes a packet from a queue; a launch waits for its parent; dispatch starts a team on the
lowest core of its mask that it fits; a launch that has ended leaves a completion record, its first word last. -/
def Obligations.LaunchesStartAndComplete : Prop :=
  (∀ (ctx queue : Nat) (binds : List Bind) (c : Context) (control : W64) (q : Queue) (bs : List Byte) (s u v : State), s.ctxOf ctx = some c →
    c.queueAt (BitVec.ofNat 64 queue) = some control →
    (s.peekPacket c control = .ok u none → exec (.takePacket ctx queue binds) s = .next u) ∧
    (s.peekPacket c control = .ok u (some (q, bs)) → (∀ x, s.nextQueue = some x → x.1.num ≠ ctx ∨ x.2.1 ≠ queue) →
      exec (.takePacket ctx queue binds) s = .next s.comeBack) ∧
    (s.peekPacket c control = .ok u (some (q, bs)) → (∃ x, s.nextQueue = some x ∧ x.1.num = ctx ∧ x.2.1 = queue) →
      u.popPacket c control q = .ok v () →
      ∃ t l, exec (.takePacket ctx queue binds) s = .next t ∧ t.dev.mem = v.dev.mem ∧ t.dev.launches = v.dev.launches ++ [l] ∧
        t.dev.nextLaunch = v.dev.nextLaunch + 1 ∧ t.dev.visited = (ctx, queue) ∧ l.num = v.dev.nextLaunch ∧ l.ctx = ctx ∧ l.header = wordAt bs 0 ∧
        l.teams = (lo32 (wordAt bs 1)).toNat ∧ l.lpb = wordAt bs 2 ∧ l.done = wordAt bs 3 ∧ l.lseed = wordAt bs 4 ∧
        l.cores = (wordAt bs 5).getLsbD 0 ∧ l.det = (wordAt bs 5).getLsbD 1 ∧ l.afterParent = (wordAt bs 5).getLsbD 2 ∧
        l.latency = (wordAt bs 5).getLsbD 3 ∧ l.prio = bitsOf64 (wordAt bs 5) 11 8 ∧ l.retry = bitsOf64 (wordAt bs 5) 23 16 ∧
        l.parent = wordAt bs 6 ∧ l.bound = false ∧ l.recorded = false ∧
        (l.status = 7 ∨ l.status = 0) ∧ (l.status = 7 ↔ (packetOf bs).bad = true))) ∧
  (∀ (l : Launch) (c : Context) (bs : List Byte) (s u : State), Claims.LaunchIs s l → l.afterParent = true → l.bound = false →
    l.status = 0 → l.ticket = 0 → s.ctxOf l.ctx = some c → s.welhalGet c l.parent.toNat 8 = .ok u (bs, false) →
    (wordAt bs 0 = 0 → exec (.afterParent l.num) s = .next u) ∧
    (wordAt bs 0 = 1 → exec (.afterParent l.num) s = .next (u.setLaunch { l with afterParent := false })) ∧
    (2 ≤ (wordAt bs 0).toNat → exec (.afterParent l.num) s = .next (u.setLaunch { l with status := 6 }))) ∧
  (∀ (die n core : Nat) (l : Launch) (b : BindSlot) (s : State), s.dev.deadDies.contains die = false → s.slotOrder die = [b] →
    s.slotNow b = b → b.launch = l.num → Claims.LaunchIs s l → l.cancelled = false → l.det = false → l.cores = false → l.latency = false →
    s.nextTeam b = .fresh n →
    s.findCore b (fun c => s.fitsCore l.hdr.scratch l.hdr.load c (fun _ => false)) = some core → Claims.FrontOf s ⟨l.num, n⟩ →
    ∃ t, exec (.dispatch die) s = .next t ∧ Claims.Started t l n core) ∧
  (∀ (l : Launch) (c : Context) (s u v : State), Claims.LaunchIs s l → l.status ≠ 0 → l.recorded = false → l.ticket = 0 →
    s.ctxOf l.ctx = some c → l.done.toNat % 128 = 0 →
    s.welhalPut c (l.done.toNat + 8) (bytesOf ([BitVec.ofNat 64 (l.kills % 2 ^ 32 * 2 ^ 32 + l.exited % 2 ^ 32),
      BitVec.ofNat 64 (l.retries % 256), BitVec.ofNat 64 (l.kteam % 2 ^ 32), 0, 0, 0, 0] ++
      (List.range 8).map (fun k => l.killRec.get k))) = .ok u () →
    u.welhalPut c l.done.toNat (toBytes 8 (BitVec.ofNat 64 l.status)) = .ok v () →
    exec (.completionRecord l.num) s = .next (v.setLaunch { l with recorded := true }))

/-- 20:R329, R330, R332 to R334; 21:R341, R348, R351: teams leave their cores and are saved, banks swap and spill, killed
teams end and start again, launches are cancelled, and the reserve and the cores offline are set. -/
def Obligations.TeamsLeaveEndAndStartAgain : Prop :=
  (∀ (core : Nat) (s : State), s.team.status = .running → s.team.core = core → s.mayVacate (s.vacating (fun _ => true) [core]) = true →
    ∃ t, exec (.preempt core) s = .next t ∧ t.team.status = .saved ∧ (t.coreOf core).switch = .begun ∧ t.dev.mem = s.dev.mem ∧
      (s.warp.key.teamKey = s.team.key → s.warp.status = .running → t.warp.status = .saved ∧ t.warp.v = s.warp.v ∧
        t.warp.queue = s.warp.queue ∧ t.warp.spc = s.warp.spc ∧ t.warp.parkS = s.warp.parkS ∧
        t.warp.parkL = s.warp.parkL.filter Parked.grow)) ∧
  (∀ (core : Nat) (s : State), s.team.status = .running → s.team.core = core →
    s.mayBegin (s.vacating (fun _ => true) [core]) = false → exec (.preempt core) s = .next { s with again := .held }) ∧
  (∀ (core : Nat) (s : State),
    ((s.coreOf core).switch = .begun → exec (.bankSwap core) s = .next (s.setCore { s.coreOf core with switch := .spilling })) ∧
    ((s.coreOf core).switch = .spilling → (∀ t ∈ s.allTeams, t.core = core → t.status = .saved → s.spilled t = true) →
      exec (.spill core) s = .next (s.setCore { s.coreOf core with switch := .none }))) ∧
  (∀ (k : TeamKey) (s : State), exec (.teamKill k) s = .next (s.killTeam k []) ∧
    (s.team.key = k → s.team.status = .running → s.leaving k = false → ∃ t, exec (.teamKill k) s = .next t ∧ t.team.status = .killed ∧
      t.dev.mem = s.dev.mem ∧ (s.team.dying = none → ∀ n, t.team.killRec.get n = 0) ∧
      (s.warp.key.teamKey = k → s.warp.status ≠ .exited → t.warp.status = .killed ∧
        ((∀ f ∈ s.warp.fills, f.due = false) → t.warp.blocks = 0))) ∧
    (s.team.key = k → s.team.status = .running → s.leaving k = true → ∃ t, exec (.teamKill k) s = .next t ∧ t.team.status = .running ∧
      t.team.dying ≠ none ∧ t.dev.mem = s.dev.mem ∧ (s.warp.key.teamKey = k → t.warp = { s.warp with halt := true }))) ∧
  (∀ (k : TeamKey) (tm : Team) (l : Launch) (s : State), s.teamOf k = some tm → tm.status = .killed → l.num = k.launch → Claims.LaunchIs s l →
    l.hdr.idem = true → l.retries < l.retry → l.cancelled = false → s.drained tm = true → Claims.FrontOf s k →
    ∃ t t' l', exec (.relaunch k) s = .next t ∧ t.teamOf k = some t' ∧ t'.status = .saved ∧
      t'.core = (if l.det then l.coreOf k.team else tm.core) ∧
      t'.tseed = streamJump l.lseed (BitVec.ofNat 64 (k.team * 2 ^ 40)) ∧ t'.ring = [] ∧
      l' = { l with retries := l.retries + 1 } ∧ Claims.LaunchIs t l') ∧
  (∀ (l : Launch) (s : State), Claims.LaunchIs s l → l.status = 0 →
    (l.bound = false → ∃ t, exec (.launchCancel l.num) s = .next t ∧ Claims.LaunchIs t { l with status := 8, cancelled := true, ticket := 0 } ∧
      t.dev.mem = s.dev.mem ∧ t.team = s.team) ∧
    (l.bound = true → s.team.key.launch = l.num → s.team.status = .running →
      ∃ t, exec (.launchCancel l.num) s = .next t ∧ (s.leaving s.team.key = false → t.team.status = .killed) ∧
        (s.leaving s.team.key = true → t.team.dying ≠ none))) ∧
  (∀ (die : Nat) (cores : Mask) (s : State),
    (24 ≤ die ∨ 8 < popCount cores → exec (.latencyReserveSet die cores) s = .next s) ∧
    (die < 24 → popCount cores ≤ 8 → ∃ t, exec (.latencyReserveSet die cores) s = .next t ∧ t.dev.reserveOf die = cores ∧
      ∀ d, d ≠ die → t.dev.reserveOf d = s.dev.reserveOf d)) ∧
  (∀ (core : Nat) (s : State),
    (s.mayVacate (s.vacating (fun t => !t.det) [core]) = true →
      ∃ t, exec (.coreTakenOffline core) s = .next t ∧ (t.coreOf core).offline = true ∧
        (s.team.status = .running → s.team.core = core → s.team.det = false → t.team.status = .saved)) ∧
    exec (.coreReturns core) s = .next (s.setCore { s.coreOf core with offline := false }))

/-- 09:R189; 14:R278; 21:R354, R355; 25:R403, R404: a clearing takes its warps in order, performs what they have queued, and then
begins the next quantum; a NAP ends when its time has passed; a sample is written when its interval has passed (its
CYCLE word, and which of the ready warps has issued, are open values: assumptions 5 and 20). -/
def Obligations.ClearingsNapsAndSamples : Prop :=
  (∀ (l : Launch) (rest : List WarpKey) (s : State), Claims.LaunchIs s l → l.clearing = some (s.warp.key :: rest) →
    s.warp.status = .running → s.warp.clearL = .none → s.warp.clearS = .none → s.warp.parkS = none →
    (s.warp.comms = [] → exec (.clearing l.num) s = .next (s.setLaunch { l with clearing := some rest })) ∧
    (∀ n ws line ia bs p q v, s.warp.comms = [(n, .store ws none)] → (ws.map (fun x => x.ia / 128 * 128)).eraseDups = [line] →
      (∀ x ∈ ws, ∀ b ∈ x.cells, regionAt s.ctx b.1 = none) →
      runsOf ((List.range 128).filterMap (fun k => (ws.flatMap LaneStore.cells).reverse.find? (fun y => y.1 == line + k))) = [(ia, bs)] →
      State.admitNow { s with warp := { s.warp with comms := [] } } s.ctx s.team.place.1 s.team.place.2 true line = .ok v q →
      walk v.dev s.ctx ia = .page p → v.warp = { s.warp with comms := [] } → v.dev.launches = s.dev.launches →
      ∃ t, exec (.clearing l.num) s = .next t ∧ t.warp.comms = [] ∧ Claims.LaunchIs t { l with clearing := some rest } ∧
        (∀ k < bs.length, ¬ Claims.inEntry p (p.phys ia + k) → Claims.byteAt t (p.phys ia + k) = bs.getD k 0) ∧
        ∀ a, (a < p.phys ia ∨ p.phys ia + bs.length ≤ a) → ¬ Claims.inEntry p a → Claims.byteAt t a = Claims.byteAt v a)) ∧
  (∀ (l : Launch) (s : State), Claims.LaunchIs s l → l.clearing = some [] → s.warp.key.launch = l.num → s.detCores l.binds = l.remap →
    (∀ t ∈ s.allTeams, t.key.launch = l.num → t.status ≠ .saved) →
    ∃ t, exec (.clearing l.num) s = .next t ∧ Claims.LaunchIs t { l with clearing := none } ∧ t.warp.quantum = 0 ∧
      t.warp.quantumEnd = false ∧ t.warp.frozen = false ∧ t.dev.mem = s.dev.mem) ∧
  (∀ (s : State), ∃ t, exec (.napExpiry s.warp.key) s = .next t ∧ t.warp.nap = false ∧ t.dev = s.dev ∧ t.team = s.team ∧
    t.warp.spc = s.warp.spc ∧ t.warp.queue = s.warp.queue) ∧
  (∀ (core name : Nat) (c : Context) (b : SampleBlock) (w : Warp) (i : Option Warp) (tm : Team) (p : Sampler) (s u : State),
    s.samplingOn core = some (c, b) →
    (if (s.coreOf core).sampler.block = some b.at' then p = (s.coreOf core).sampler else p.block = some b.at' ∧
      p.pipe = (s.coreOf core).sampler.pipe ∧ p.last = (s.coreOf core).sampler.last ∧ p.seq = (s.coreOf core).sampler.seq ∧
      p.lfsr = lfsrStep (if b.seed = 0 then 1 else b.seed) ∧ p.wait = b.interval + (p.lfsr.toNat &&& b.jmask)) →
    s.issuerAt core p.pipe (s.coreOf core).cycle = i → s.chooseWarp core p.pipe p.last i = some w →
    s.teamOf w.key.teamKey = some tm → name = (if tm.det then tm.key.team % Config.cores else tm.core) → s.putRecord c core name p.seq b
      [BitVec.ofNat 64 (2 ^ 56 + 4 * 2 ^ 40 + s.heldBy w % 16 * 2 ^ 36 + name % 1024 * 2 ^ 26 + p.seq % 2 ^ 26),
        Config.cycleAt (s.coreOf core).cycle, s.sampleWord i, s.sampleWord (some w)] = .ok u true →
    ∃ t, exec (.sampleTick core) s = .next t ∧ t.dev.mem = u.dev.mem ∧ (t.coreOf core).sampler.seq = p.seq + 1 ∧
      (t.coreOf core).sampler.block = some b.at' ∧ (t.coreOf core).sampler.pipe = (p.pipe + 1) % 4 ∧
      (t.coreOf core).sampler.lfsr = lfsrStep p.lfsr ∧
      (t.coreOf core).sampler.wait = b.interval + ((lfsrStep p.lfsr).toNat &&& b.jmask))

/-- 04:R87; 10:R204; 20:R315, R317, R319, R323, R324, R328; 21:R339; 22:R365; 24:R383, R391: what the driver's commands leave; a command
that its rule refuses changes nothing of the machine. That CONTEXT_CREATE refuses a numerics limit of 0 or above 3 is the model's
choice (DESIGN CHOICE, log 61). -/
def Obligations.DriverCommandsTakeEffect : Prop :=
  ∀ (ctx : Nat) (s : State),
    (∀ mask numerics pool frames samples, (¬ Claims.Serves s ∨ 65536 ≤ ctx ∨ numerics = 0 ∨ 3 < numerics.toNat ∨
        (∃ c, s.ctxOf ctx = some c ∧ c.numerics ≠ 0) →
        exec (.contextCreate ctx mask numerics pool frames samples) s = .next (s.send [.handle 0])) ∧
      (Claims.Serves s → ctx < 65536 → numerics = 1 ∨ numerics = 2 ∨ numerics = 3 → (∀ c, s.ctxOf ctx = some c → c.numerics = 0) →
        ∃ t c, exec (.contextCreate ctx mask numerics pool frames samples) s = .next t ∧ Claims.CtxIs t ctx c ∧
          c.featMask = (mask ||| 1) ∧ c.numerics = numerics.toNat ∧ c.pool = pool.nodes ∧ c.frames = frames ∧ c.save = pool.save ∧
          c.samples = samples ∧
          c.root = 0 ∧ c.tickets = [] ∧ c.extents = [] ∧ t.dev.caps = s.dev.caps ++ [⟨s.dev.nextCap, ctx, 0x3F, none⟩] ∧
          Claims.Answered s t (.handle s.dev.nextCap.toNat))) ∧
    (∀ c u, s.ctxOf ctx = some c → c.numerics ≠ 0 → u = s.closeContext c → (∀ l ∈ u.dev.launches, l.ctx = ctx → l.recorded = true) →
      ∃ t, exec (.contextDestroy ctx) s = .next t ∧ (∀ c', t.ctxOf ctx = some c' → c'.numerics = 0) ∧
        (∀ x ∈ t.dev.caps, x.ctx ≠ ctx) ∧ ∀ l ∈ t.dev.launches, l.ctx ≠ ctx) ∧
    (∀ c k w0 w1 w2 w3, s.ctxOf ctx = some c →
      (k < 16 → (RangeReg.mk w0 w1 w2 w3).legal = true →
        exec (.rangeRegisterWrite ctx k w0 w1 w2 w3) s = .next (s.setCtx { c with ranges := listPut c.ranges k ⟨w0, w1, w2, w3⟩ })) ∧
      (16 ≤ k ∨ (RangeReg.mk w0 w1 w2 w3).legal = false → exec (.rangeRegisterWrite ctx k w0 w1 w2 w3) s = .next s)) ∧
    (∀ c root, s.ctxOf ctx = some c →
      (root.toNat % 32768 = 0 → root.toNat < 2 ^ 48 → exec (.pageTableRootWrite ctx root) s = .next (s.setCtx { c with root := root })) ∧
      (root.toNat % 32768 ≠ 0 ∨ 2 ^ 48 ≤ root.toNat → exec (.pageTableRootWrite ctx root) s = .next s)) ∧
    (∀ c page place entry, s.ctxOf ctx = some c → s.dev.away c (page * 65536) = false → entryPlace s.dev c (page * 65536) = some place →
      (readD s.dev.mem place).getLsbD 63 = false ∨ (readD s.dev.mem place).getLsbD 61 = false → entry.getLsbD 61 = false →
      Claims.Withdraws (.withdraw ctx page entry) s ctx page c.pkgs (fun t => Claims.NoLineOf t ctx page ∧
        readD t.dev.mem place = putBits (putBits entry 62 62 0) 56 45 0)) ∧
    (∀ page cxl ppn c p q u, s.ctxOf ctx = some c → s.dev.away c (page * 65536) = false →
      walkEntry s.dev c (page * 65536) = .page p → p.large = false →
      (cxl = true → p.cls ≠ 1 ∧ p.cls ≠ 2 ∧ p.cls ≠ 4 ∧ ppn.toNat < s.dev.tierPages) →
      u = (s.recallPages c [page] true).recallRange ctx (page * 65536) 65536 true → u.ctxOf ctx = some c →
      walkEntry u.dev c (page * 65536) = .page q → q.large = false → u.dev.mem.wf = true →
      Claims.Withdraws (.tierMove ctx page cxl ppn) s ctx page c.pkgs (fun t =>
        readD t.dev.mem q.place = putBits (putBits q.raw 57 57 (if cxl then 1 else 0)) 44 13 ppn.toNat ∧
        ∀ k < 65536, (frameAt cxl ppn.toNat + k < q.place ∨ q.place + 8 ≤ frameAt cxl ppn.toNat + k) →
          Claims.byteAt t (frameAt cxl ppn.toNat + k) = Claims.byteAt u (q.phys 0 + k))) ∧
    (∀ c c' r0 r1 u, s.ctxOf ctx = some c →
      (extentLegal c r0 r1 = false → exec (.extentCreate ctx r0 r1) s = .next (s.send [.handle 0])) ∧
      (∀ ias here, extentLegal c r0 r1 = true → ias = (List.range (bitsOf64 r1 12 0)).map (fun k =>
          iaOf c .w (BitVec.ofNat 64 (r0.toNat + 65536 * k))) → presentPages s.dev c ias = here →
        (∀ ia, appendMissing s.dev c ias = some (1, ia) → exec (.extentCreate ctx r0 r1) s = .next (s.parkMessage ctx 1 ia true)) ∧
        (appendMissing s.dev c ias = none → c.hbmFrames.length < framesNeeded s.dev c ias →
          exec (.extentCreate ctx r0 r1) s = .next { s with again := .held }) ∧
        (appendMissing s.dev c ias = none → framesNeeded s.dev c ias ≤ c.hbmFrames.length →
          here.foldl (fun v p => v.splitPage c p) s = s → (∀ p ∈ here, s.dev.away c (p * 65536) = false) →
          (∀ p ∈ here, pageKey ctx p ∈ s.dev.pagesHeld) → (∀ p ∈ here, ∀ x ∈ s.dev.drops, x.1 ≠ pageKey ctx p) →
          ias.foldl (State.appendPage ctx) (s.recallPages c here true) = u → u.ctxOf ctx = some c' →
          exec (.extentCreate ctx r0 r1) s = .next (((u.setCtx { c' with
            extents := c'.extents ++ [⟨r0.toNat, bitsOf64 r1 12 0, 0, 0, false, false, false, false⟩] }).send [.handle 1]).releasePages
              ctx here)) ∧
        (∀ p ∈ here, appendMissing s.dev c ias = none → framesNeeded s.dev c ias ≤ c.hbmFrames.length →
          here.foldl (fun v p => v.splitPage c p) s = s → (∀ p ∈ here, s.dev.away c (p * 65536) = false) →
          pageKey ctx p ∉ s.dev.pagesHeld → ∃ t, exec (.extentCreate ctx r0 r1) s = .next t ∧ t.again = .held ∧
            pageKey ctx p ∈ t.dev.pagesHeld ∧ t.dev.mem = s.dev.mem))) ∧
    (∀ c control h, s.ctxOf ctx = some c → 1 ≤ h → h ≤ 255 → (∀ q ∈ c.queues, q.1 ≠ h) → (∀ k, 1 ≤ k → k < h → ∃ q ∈ c.queues, q.1 = k) →
      exec (.queueRegister ctx control) s = .next ((s.setCtx { c with queues := c.queues ++ [(h, control)] }).send [.handle h])) ∧
    (∀ c handle record u g, s.ctxOf ctx = some c → 1 ≤ handle → handle ≤ 65535 → c.groupOf handle = none →
      s.readGroupRecord c handle record = .ok u (some g) →
      ∃ t c', exec (.groupRegister ctx handle record) s = .next t ∧ Claims.Answered u t (.handle handle) ∧
        (u.ctxOf ctx = some c → Claims.CtxIs t ctx c' ∧ c'.groups = c.groups ++ [g] ∧ (∀ q ∈ c.pkgs, q ∈ c'.pkgs) ∧
          ∀ m ∈ g.members, m.1 ≠ u.dev.pkgNum → m.1 ∈ c'.pkgs)) ∧
    (∀ c key base len r w, s.ctxOf ctx = some c → c.keys.length < Config.keysMax → (∀ x ∈ s.allCtxs, ∀ k ∈ x.keys, k.key ≠ key) →
      exec (.memoryKeyRegister ctx key base len r w) s =
        .next ((s.setCtx { c with keys := c.keys ++ [⟨key, base.toNat, len.toNat, r, w⟩] }).send [.handle 1])) ∧
    (∀ n, (Claims.Serves s → (∀ c ∈ s.allCtxs, c.numerics = 0) →
        ∃ t, exec (.packageNumberAssign n) s = .next t ∧ t.dev.pkgNum = n ∧ t.dev.mem = s.dev.mem) ∧
      (¬ Claims.Serves s ∨ (∃ c ∈ s.allCtxs, c.numerics ≠ 0) → exec (.packageNumberAssign n) s = .next s))

/-- 17:R305; 24:R379, R382, R385 to R389, R391, R394; 25:R407 to R410: messages of one class between two agents arrive in the order
in which they were sent, and an error that a structure corrects is no more than counted; dies and packages are declared dead and
return, pages leave for another package and come back, the host reads and writes through its keys, links and ports fail, dies
are gated, memory is scrubbed, and the management core boots and answers. What a signature check answers is an open value (assumption 7).
Which dies are beyond a failed link, and how links are numbered, is the model's choice (DESIGN CHOICE, log 58). -/
def Obligations.FabricHostAndManagement : Prop :=
  ∀ (s : State),
    (∀ n e rest, s.plan = .event n :: rest → s.events[n]? = some e →
      (∃ k < n, ∃ x, s.events[k]? = some x ∧ s.inOrder x e = true) → step s = .next ({ s with plan := rest } : State).serveHeld) ∧
    (∀ u rest, s.plan = .upset u true :: rest → (∀ core line, u ≠ .l1 core line) →
      ∃ t : State, step s = .next t.serveHeld ∧ t = { s with plan := rest, dev := { s.dev with
          corrected := t.dev.corrected, outbox := s.dev.outbox ++ [.errorIn u.number true] } } ∧
        ∀ k, t.dev.corrected.get k = s.dev.corrected.get k + if k = u.number then 1 else 0) ∧
    (∀ a, ¬ Claims.Serves s → exec (.declareDead a) s = .next s ∧ exec (.agentReturn a) s = .next s) ∧
    (∀ d < 24, s.dev.deadDies.contains d = false → ∀ i, (i = .declareDead (.die d) ∧ Claims.Serves s ∨ i = .thermalShutdown d) →
      ∃ t, exec i s = .next t ∧ t.dev.deadDies = s.dev.deadDies ++ [d] ∧ t.dev.incarnation.get d = s.dev.incarnation.get d + 1 ∧
        ∀ n, n / 32 = d → (t.coreOf n).l1 = []) ∧
    (∀ p, Claims.Serves s → p ≠ s.dev.pkgNum → s.dev.deadPkgs.contains p = false →
      ∃ t, exec (.declareDead (.package p)) s = .next t ∧ t.dev.deadPkgs = s.dev.deadPkgs ++ [p] ∧
        t.dev.incarnation.get (24 + p.toNat) = s.dev.incarnation.get (24 + p.toNat) + 1) ∧
    (∀ d, Claims.Serves s → ∃ t, exec (.agentReturn (.die d)) s = .next t ∧ t.dev = { s.dev with deadDies := s.dev.deadDies.filter (fun x => x != d) } ∧
      ∀ n, n / 32 = d → (t.coreOf n).l1 = []) ∧
    (∀ p, Claims.Serves s → exec (.agentReturn (.package p)) s = .next { s with dev := { s.dev with
      deadPkgs := s.dev.deadPkgs.filter (fun x => x != p) } }) ∧
    (∀ link, exec (.linkCrcError link .retried) s = .next (s.countCorrected 0) ∧
      exec (.linkCrcError link .retrained) s = .next ((s.putLinkFails link 0).countCorrected 0) ∧
      ((s.dev.linkFails.get link + 1).toNat < 3 → exec (.linkCrcError link .failed) s =
        .next ((s.putLinkFails link (s.dev.linkFails.get link + 1)).send [.errorIn 0 false])) ∧
      (3 ≤ (s.dev.linkFails.get link + 1).toNat → ∃ t, exec (.linkCrcError link .failed) s = .next t ∧ link ∈ t.dev.badLinks ∧
        (∀ l, l ∈ s.dev.badLinks → l ∈ t.dev.badLinks) ∧
        ∀ d ∈ Device.cutOff { s.dev with badLinks := s.dev.badLinks.filter (fun l => l != link) ++ [link] },
          (linkEnds link).isSome = true → d ∈ t.dev.deadDies)) ∧
    (∀ port, (8 ≤ port → exec (.cxlPortFail port) s = .next s) ∧
      (port < 8 → ∃ t, exec (.cxlPortFail port) s = .next t ∧ port ∈ t.dev.badPorts ∧ t.dev.mem = s.dev.mem)) ∧
    (∀ die on, ∃ t, exec (.thermalGate die on) s = .next t ∧ (die ∈ t.dev.gatedDies ↔ on = true) ∧
      (∀ d, d ≠ die → (d ∈ t.dev.gatedDies ↔ d ∈ s.dev.gatedDies)) ∧ t.dev.mem = s.dev.mem ∧ t.warp = s.warp) ∧
    (∀ line, exec (.patrolScrub (.memory line) false) s = .next (s.countCorrected 1) ∧
      ∃ t, exec (.patrolScrub (.memory line) true) s = .next t ∧ line ∈ t.dev.bad ∧ t.dev.mem = s.dev.mem ∧
        t.dev.outbox = s.dev.outbox ++ [.errorIn 1 false] ∧ ∀ l, l ≠ line → (l ∈ t.dev.bad ↔ l ∈ s.dev.bad)) ∧
    (∀ k off tm, s.teamOf k = some tm → off < tm.hdr.scratch → exec (.patrolScrub (.scratch k off) false) s = .next (s.countCorrected 8) ∧
      ∃ t t', exec (.patrolScrub (.scratch k off) true) s = .next t ∧ t.teamOf k = some t' ∧ off / 8 ∈ t'.badScratch ∧
        t'.scratch = tm.scratch) ∧
    (∀ (c : Context) page (q : BitVec 12) (p p' : Page) v, s.ctxOf c.num = some c → s.dev.away c (page * 65536) = false →
      walkEntry s.dev c (page * 65536) = .page p → p.large = false → q ≠ s.dev.pkgNum → s.dev.deadPkgs.contains q = false →
      (p.cls = 0 ∨ p.cls = 3) → escrowAt c (page * 65536) = none →
      v = (((s.recallPages c [page] false).sharePage c.num page).dropPushed c.num page).joinPackage c.num q →
      walkEntry v.dev c (page * 65536) = .page p' → p'.large = false →
      Claims.Withdraws (.pageHandover c.num page q) s c.num page (c.sharersOf (s.dev.pageRecord c page)) (fun t =>
        t.dev.pageRecs.get (pageKey c.num page) = BitVec.ofNat 64 (2 * 2 ^ 62 + 2 ^ 58 + q.toNat) ∧
        Out.page (pageKey c.num page) q ⟨readBytes v.dev.mem (p.phys (page * 65536)) 65536, v.dev.badLines p page⟩ ∈ t.dev.outbox)) ∧
    (∀ (c : Context) page (src : Stamp) data, s.ctxOf c.num = some c →
      (s.dev.oldStamp src = true →
        exec (.pageReturn c.num page (.back src data)) s =
          .next (s.send [.dropped (24 + src.package.toNat) 2 (tagged c.num (page * 65536))]) ∧
        exec (.pageReturn c.num page (.dropped src)) s =
          .next (s.send [.dropped (24 + src.package.toNat) 1 (tagged c.num (page * 65536))])) ∧
      (s.dev.oldStamp src = false → exec (.pageReturn c.num page (.dropped src)) s =
        .next { s with dev := { s.dev with drops := s.dev.drops.erase (pageKey c.num page, src.package) } }) ∧
      (s.dev.oldStamp src = false → (s.dev.away c (page * 65536) = false ∨
          (s.dev.pageRecs.get (pageKey c.num page)).truncate 12 ≠ src.package) →
        exec (.pageReturn c.num page (.back src data)) s = .next s) ∧
      (s.dev.oldStamp src = false → s.dev.away c (page * 65536) = true → s.dev.recordKey c page = pageKey c.num page →
        (s.dev.pageRecs.get (pageKey c.num page)).truncate 12 = src.package →
        ∃ t, exec (.pageReturn c.num page (.back src data)) s = .next t ∧ t.dev.pageRecs.get (pageKey c.num page) = 0 ∧
        ∀ p, data.bytes.length = 65536 →
          walk { s.dev with pageRecs := s.dev.pageRecs.set (pageKey c.num page) 0 } c (page * 65536) = .page p →
          (∀ k < 512, (p.phys (page * 65536) / 128 + k ∈ t.dev.bad ↔ k ∈ data.bad)) ∧
          ∀ k < 65536, ¬ Claims.inEntry p (p.phys (page * 65536) + k) →
            Claims.byteAt t (p.phys (page * 65536) + k) = data.bytes.getD k 0)) ∧
    (∀ (key : HostOp) (addr : W64) (c : Context) u bs data,
      (s.keyCtx key.key addr.toNat data.length false true = some c → s.welhalPut c addr.toNat data = .ok u () →
        exec (.hostRmaWrite key addr data) s = .next (u.send [.data []])) ∧
      (s.keyCtx key.key addr.toNat data.length true false = some c → s.welhalGet c addr.toNat data.length = .ok u (bs, false) →
        exec (.hostRmaRead key addr data.length) s = .next (u.send [.data bs])) ∧
      (s.keyCtx key.key addr.toNat data.length false true = none → exec (.hostRmaWrite key addr data) s = .next (s.send [.error])) ∧
      (s.keyCtx key.key addr.toNat data.length true false = none → exec (.hostRmaRead key addr data.length) s = .next (s.send [.error]))) ∧
    (∀ (key : HostOp) (addr x e : W64) (c : Context) ia u p i op,
      (i = .hostAtomicCas key addr e x ∧ op = none ∨ i = .hostFetchAdd key addr x ∧ op = some AtomOp.add) →
      s.keyCtx key.key addr.toNat 8 true true = some c → addr.toNat % 8 = 0 → checkAll c addr [.r, .w] = .ok ia →
      missingKind s.dev c ia = none → writeVerdict s.dev c ia 8 = none →
      (s.quiesce c.num ia).letIn c (.other s.dev.hostPlace.1 s.dev.hostPlace.2) true false true ia = .ok u p →
      u.dev.bad.contains (p.phys ia / 128) = false →
      ∃ t, exec i s = .next t ∧ Out.value (ofBytes 64 (readBytes u.dev.mem (p.phys ia) 8)) ∈ t.dev.outbox ∧
        ∀ k < 8, ¬ Claims.inEntry p (p.phys ia + k) → Claims.byteAt t (p.phys ia + k) =
          (toBytes 8 (match op with
            | some _ => ofBytes 64 (readBytes u.dev.mem (p.phys ia) 8) + x
            | none => if ofBytes 64 (readBytes u.dev.mem (p.phys ia) 8) = e then x else ofBytes 64 (readBytes u.dev.mem (p.phys ia) 8))).getD k 0) ∧
    (∀ img i, (s.dev.boot = .off ∧ i = .boot img ∨ s.dev.boot = .recovery ∧ i = .recoveryImage img) →
      (Claims.Accepted s img → ∃ t, exec i s = .next t ∧ t.dev.boot = .running img ∧ t.dev.mem = s.dev.mem) ∧
      (¬ Claims.Accepted s img → ∃ t, exec i s = .next t ∧ t.dev.boot = .recovery ∧ t.dev.mem = s.dev.mem)) ∧
    (∀ img i, (s.dev.boot ≠ .off ∧ i = .boot img ∨ s.dev.boot ≠ .recovery ∧ i = .recoveryImage img) → exec i s = .next s) ∧
    (∀ img, s.dev.boot = .running img →
      exec (.spdmRequest 2) s = .next (s.send [.measurement img.digest, .measurement img.secVersion]) ∧
      exec (.spdmRequest 3) s = .next (s.send [.measurement (Config.fuseMeasurement s.dev.revokedKeys s.dev.minSecVersion)]) ∧
      exec (.spdmRequest 5) s = .next (s.send [.measurement (if s.dev.caps.any (fun c => c.parent.isSome) then 1 else 0)])) ∧
    (∀ what, ¬ Claims.Serves s → exec (.managementReadback what) s = .next s) ∧
    (∀ what ws, Claims.Serves s → s.readback what = some ws → exec (.managementReadback what) s = .next (s.send [.words ws])) ∧
    (∀ region, Claims.Serves s → exec (.managementReadback (.regionEntry region)) s = .next (s.send [.words [(s.dev.regionTab.get region).zeroExtend 64]]))

/-- 22:R373; 25:R395 to R400, R406: a command of the debugger needs a capability that holds its right; what each then does to a warp,
a context or a capability, and the status that it answers. A command that has been taken is completed, whatever is revoked meanwhile
(R396). The registers of a warp are read only while it is stopped or saved; that READ answers NOTSTOPPED otherwise, and BADARG for
words that no record has, is the model's choice (DESIGN CHOICE, log 59). -/
def Obligations.DebuggerCommandsNeedTheirRight : Prop :=
  ∀ (cap : BitVec 32) (s : State),
    (∀ w tm item x force, s.teamOf s.warp.key.teamKey = some tm → w = s.warp.key → s.warp.status ≠ .absent → ¬ Claims.NoCommand s tm.ctx →
      exec (.read cap w item) s = .next { s with again := .held } ∧ exec (.write cap w item x force) s = .next { s with again := .held }) ∧
    (∀ w tm item x force, s.teamOf s.warp.key.teamKey = some tm → w = s.warp.key → s.warp.status ≠ .absent → Claims.NoCommand s tm.ctx →
      (¬ Claims.Holds s cap tm.ctx 0 → exec (.read cap w item) s = .next (Claims.Says s (s.capStatus cap tm.ctx 0) 0)) ∧
      (s.dev.revoked.contains cap = true → exec (.write cap w item x force) s = .next (Claims.Says s 4 0)) ∧
      (Claims.Holds s cap tm.ctx 0 → s.warp.status = .running →
        ((∀ n, item ≠ .stall n) → exec (.read cap w item) s = .next (Claims.Says s 2 0)) ∧
        (∀ n, exec (.read cap w (.stall n)) s = .next (Claims.Says s 0 (s.warp.stalls.get n.toNat)))) ∧
      (Claims.Holds s cap tm.ctx 0 → s.warp.status ≠ .running →
        (∀ n : SReg, exec (.read cap w (.s n)) s = .next (Claims.Says s 0 (s.S n))) ∧
        (∀ (n : VReg) l, n.toNat < 16 * s.warp.blocks → exec (.read cap w (.v n l)) s =
          .next (if s.warp.empty.getLsbD n.toNat then Claims.Says s 1 0 else Claims.Says s 0 (zext64 (s.vreg n.toNat l.toNat)))) ∧
        exec (.read cap w .spc) s = .next (Claims.Says s 0 s.warp.spc) ∧
        exec (.read cap w .em) s = .next (Claims.Says s 0 (zext64 s.warp.em)) ∧
        exec (.read cap w (.recWord 600)) s = .next (Claims.Says s 5 0)) ∧
      (Claims.Holds s cap tm.ctx 1 → s.warp.status ≠ .stopped → exec (.write cap w item x force) s = .next (Claims.Says s 2 0)) ∧
      (Claims.Holds s cap tm.ctx 1 → s.warp.status = .stopped →
        (∀ n : SReg, n ≠ 0 → ∃ t, exec (.write cap w (.s n) x force) s = .next t ∧ t.S n = x ∧ (∀ r : SReg, r ≠ n → t.S r = s.S r) ∧
          t.warp.status = .stopped ∧ t.dev.outbox = s.dev.outbox ++ [.silrad 0 0]) ∧
        (x.toNat < 2 ^ 56 → x.toNat % 4 = 0 → ∃ t, exec (.write cap w .spc x force) s = .next t ∧ t.warp.spc = x ∧
          t.dev.outbox = s.dev.outbox ++ [.silrad 0 0]) ∧
        exec (.write cap w .live x force) s = .next (Claims.Says s 5 0))) ∧
    (∀ tm, Claims.FrontOnce s → s.teamOf s.warp.key.teamKey = some tm →
      Claims.Carried s (.stop cap (.warp s.warp.key)) cap tm.ctx 2 → s.warp.status = .running →
      (s.warp.done ≠ [] → ∃ t, exec (.stop cap (.warp s.warp.key)) s = .next t ∧ t.again = .held ∧
        (tm.ctx, Command.stop cap (.warp s.warp.key)) ∈ t.dev.taken ∧ t.warp = s.warp) ∧
      (s.warp.done = [] →
        ∃ t, exec (.stop cap (.warp s.warp.key)) s = .next t ∧ t.warp.status = .stopped ∧ t.warp.key = s.warp.key ∧
          t.warp.queue = s.warp.queue ∧ t.warp.spc = s.warp.spc ∧ t.warp.v = s.warp.v ∧ t.warp.parkS = s.warp.parkS ∧
          t.warp.parkL = s.warp.parkL ∧ t.dev.outbox = s.dev.outbox ++ [.silrad 0 0])) ∧
    (∀ tm, Claims.FrontOnce s → s.teamOf s.warp.key.teamKey = some tm → Claims.NoCommand s tm.ctx → Claims.Holds s cap tm.ctx 2 →
      (s.warp.status = .stopped → s.warp.pendTrap = none → tm.status = .running →
        (∃ t, exec (.resume cap (.warp s.warp.key)) s = .next t ∧ t.warp.status = .running ∧ t.warp.stepping = none ∧
          t.warp.queue = s.warp.queue ∧ t.warp.spc = s.warp.spc ∧ t.dev.outbox = s.dev.outbox ++ [.silrad 0 0]) ∧
        (∀ lane, (lane = false ∨ s.warp.queue ≠ []) →
          ∃ t, exec (.step cap s.warp.key lane) s = .next t ∧ t.warp.status = .running ∧ t.warp.stepping = some lane ∧
            t.dev.outbox = s.dev.outbox ++ [.silrad 0 0])) ∧
      (s.warp.status = .running → ∀ lane, exec (.step cap s.warp.key lane) s = .next (Claims.Says s 2 0))) ∧
    (∀ (c : Context) (addr : W64) u bs data, s.ctxOf c.num = some c →
      (Claims.Carried s (.memread cap addr data.length) cap c.num 0 → s.welhalGet c addr.toNat data.length = .ok u (bs, false) →
        ∃ t, exec (.memread cap c.num addr data.length) s = .next t ∧ t.dev.outbox = u.dev.outbox ++ [.silrad 0 0, .data bs] ∧
          t.dev.mem = u.dev.mem) ∧
      (Claims.Carried s (.memread cap addr data.length) cap c.num 0 → ∀ ia, s.welhalGet c addr.toNat data.length = .missing 1 ia →
        ∃ t ticket, exec (.memread cap c.num addr data.length) s = .next t ∧ t.again = .parked ticket ∧
          (c.num, Command.memread cap addr data.length) ∈ t.dev.taken) ∧
      (Claims.Carried s (.memwrite cap addr data) cap c.num 1 → s.welhalPut c addr.toNat data = .ok u () →
        ∃ t, exec (.memwrite cap c.num addr data) s = .next t ∧ t.dev.outbox = u.dev.outbox ++ [.silrad 0 0] ∧ t.dev.mem = u.dev.mem) ∧
      (Claims.NoCommand s c.num → Claims.Holds s cap c.num 3 →
        (∀ slot < 8, ∀ a lane, exec (.breakpoint cap c.num slot (some (a, lane))) s = .next (Claims.Says (s.setCtx { c with
          breaks := c.breaks.filter (fun b => b.1 != slot) ++ [(slot, a, lane)] }) 0 0)) ∧
        (∀ slot < 4, ∀ w : WatchSpec, 2 ≤ w.log2len → w.log2len ≤ 20 → w.base.toNat % 2 ^ w.log2len = 0 → w.base.toNat < 2 ^ 56 →
          exec (.watch cap c.num slot (some w)) s = .next (Claims.Says (s.setCtx { c with
            watches := c.watches.filter (fun b => b.1 != slot) ++ [(slot, w)] }) 0 0)) ∧
        (∀ slot, 8 ≤ slot → exec (.breakpoint cap c.num slot none) s = .next (Claims.Says s 5 0)) ∧
        (∀ on, exec (.trapstop cap c.num on) s = .next (Claims.Says (s.setCtx { c with trapStop := on }) 0 0))) ∧
      (∀ g seq cl, Claims.NoCommand s c.num → Claims.Holds s cap c.num 4 → c.groupOf g.handle = some g → s.anyHeld g = true →
        s.collOf c.num g.handle seq = some cl → cl.failed = none →
        ∃ t, exec (.abandon cap c.num g.handle seq) s = .next t ∧ ∀ cl', t.collOf c.num g.handle seq = some cl' → cl'.failed = some 5)) ∧
    (∀ (x : Cap) rights, s.dev.revoked.contains cap = false → s.dev.caps.find? (fun y => y.handle == cap) = some x → x.rights.getLsbD 5 = true →
      ((rights &&& ~~~x.rights) = 0 → (rights &&& 0xC0) = 0 → ∃ t, exec (.delegate cap rights) s = .next t ∧
        t.dev.caps = s.dev.caps ++ [⟨s.dev.nextCap, x.ctx, rights, some cap⟩] ∧
        t.dev.outbox = s.dev.outbox ++ [.silrad 0 (s.dev.nextCap.zeroExtend 64)]) ∧
      ((rights &&& ~~~x.rights) ≠ 0 → exec (.delegate cap rights) s = .next (Claims.Says s 5 0))) ∧
    (∀ (x y : Cap), s.dev.revoked.contains cap = false → s.dev.caps.find? (fun z => z.handle == cap) = some x → x.rights.getLsbD 5 = true →
      y ∈ s.dev.caps → y.parent = some cap → y.handle ≠ cap → s.dev.revoked.contains y.handle = false →
      ∃ t, exec (.revoke cap y.handle) s = .next t ∧ y.handle ∈ t.dev.revoked ∧ (∀ z ∈ t.dev.caps, z.handle ≠ y.handle) ∧
        (∀ z ∈ s.dev.caps, z.parent = some y.handle → z.handle ∈ t.dev.revoked))
end

