-- ==== Sys2Proof/Laws/State.lean ====
section
/-!
SUPPORT. What each update of the state leaves in each field, so that no proof unfolds a record update.
-/

namespace Sys2Proof.Machine

open Sys2Proof

/-! ### The agents and the lists -/

@[simp] theorem State.onWarp_team (s : State) (f : Warp → Warp) : (s.onWarp f).team = s.team := rfl
@[simp] theorem State.onWarp_core (s : State) (f : Warp → Warp) : (s.onWarp f).core = s.core := rfl
@[simp] theorem State.onWarp_ctx (s : State) (f : Warp → Warp) : (s.onWarp f).ctx = s.ctx := rfl
@[simp] theorem State.onWarp_dev (s : State) (f : Warp → Warp) : (s.onWarp f).dev = s.dev := rfl
@[simp] theorem State.onWarp_warps (s : State) (f : Warp → Warp) : (s.onWarp f).warps = s.warps := rfl
@[simp] theorem State.onWarp_teams (s : State) (f : Warp → Warp) : (s.onWarp f).teams = s.teams := rfl
@[simp] theorem State.onWarp_cores (s : State) (f : Warp → Warp) : (s.onWarp f).cores = s.cores := rfl
@[simp] theorem State.onWarp_ctxs (s : State) (f : Warp → Warp) : (s.onWarp f).ctxs = s.ctxs := rfl
@[simp] theorem State.onWarp_events (s : State) (f : Warp → Warp) : (s.onWarp f).events = s.events := rfl
@[simp] theorem State.onWarp_held (s : State) (f : Warp → Warp) : (s.onWarp f).held = s.held := rfl
@[simp] theorem State.onWarp_parked (s : State) (f : Warp → Warp) : (s.onWarp f).parked = s.parked := rfl
@[simp] theorem State.onWarp_again (s : State) (f : Warp → Warp) : (s.onWarp f).again = s.again := rfl
@[simp] theorem State.onWarp_turns (s : State) (f : Warp → Warp) : (s.onWarp f).turns = s.turns := rfl
@[simp] theorem State.onWarp_plan (s : State) (f : Warp → Warp) : (s.onWarp f).plan = s.plan := rfl
@[simp] theorem State.onWarp_warp (s : State) (f : Warp → Warp) : (s.onWarp f).warp = f s.warp := rfl

@[simp] theorem State.post_warp (s : State) (es : List Instr) : (s.post es).warp = s.warp := rfl
@[simp] theorem State.post_team (s : State) (es : List Instr) : (s.post es).team = s.team := rfl
@[simp] theorem State.post_core (s : State) (es : List Instr) : (s.post es).core = s.core := rfl
@[simp] theorem State.post_ctx (s : State) (es : List Instr) : (s.post es).ctx = s.ctx := rfl
@[simp] theorem State.post_dev (s : State) (es : List Instr) : (s.post es).dev = s.dev := rfl
@[simp] theorem State.post_warps (s : State) (es : List Instr) : (s.post es).warps = s.warps := rfl
@[simp] theorem State.post_teams (s : State) (es : List Instr) : (s.post es).teams = s.teams := rfl
@[simp] theorem State.post_cores (s : State) (es : List Instr) : (s.post es).cores = s.cores := rfl
@[simp] theorem State.post_ctxs (s : State) (es : List Instr) : (s.post es).ctxs = s.ctxs := rfl
@[simp] theorem State.post_held (s : State) (es : List Instr) : (s.post es).held = s.held := rfl
@[simp] theorem State.post_parked (s : State) (es : List Instr) : (s.post es).parked = s.parked := rfl
@[simp] theorem State.post_again (s : State) (es : List Instr) : (s.post es).again = s.again := rfl
@[simp] theorem State.post_turns (s : State) (es : List Instr) : (s.post es).turns = s.turns := rfl
@[simp] theorem State.post_plan (s : State) (es : List Instr) : (s.post es).plan = s.plan := rfl
@[simp] theorem State.post_events (s : State) (es : List Instr) : (s.post es).events = s.events ++ es := rfl

@[simp] theorem State.hold_warp (s : State) (e : Instr) : (s.hold e).warp = s.warp := rfl
@[simp] theorem State.hold_team (s : State) (e : Instr) : (s.hold e).team = s.team := rfl
@[simp] theorem State.hold_core (s : State) (e : Instr) : (s.hold e).core = s.core := rfl
@[simp] theorem State.hold_ctx (s : State) (e : Instr) : (s.hold e).ctx = s.ctx := rfl
@[simp] theorem State.hold_dev (s : State) (e : Instr) : (s.hold e).dev = s.dev := rfl
@[simp] theorem State.hold_warps (s : State) (e : Instr) : (s.hold e).warps = s.warps := rfl
@[simp] theorem State.hold_teams (s : State) (e : Instr) : (s.hold e).teams = s.teams := rfl
@[simp] theorem State.hold_cores (s : State) (e : Instr) : (s.hold e).cores = s.cores := rfl
@[simp] theorem State.hold_ctxs (s : State) (e : Instr) : (s.hold e).ctxs = s.ctxs := rfl
@[simp] theorem State.hold_events (s : State) (e : Instr) : (s.hold e).events = s.events := rfl
@[simp] theorem State.hold_parked (s : State) (e : Instr) : (s.hold e).parked = s.parked := rfl
@[simp] theorem State.hold_again (s : State) (e : Instr) : (s.hold e).again = s.again := rfl
@[simp] theorem State.hold_turns (s : State) (e : Instr) : (s.hold e).turns = s.turns := rfl
@[simp] theorem State.hold_plan (s : State) (e : Instr) : (s.hold e).plan = s.plan := rfl
@[simp] theorem State.hold_held (s : State) (e : Instr) : (s.hold e).held = s.held ++ [e] := rfl

@[simp] theorem State.send_warp (s : State) (o : List Out) : (s.send o).warp = s.warp := rfl
@[simp] theorem State.send_team (s : State) (o : List Out) : (s.send o).team = s.team := rfl
@[simp] theorem State.send_core (s : State) (o : List Out) : (s.send o).core = s.core := rfl
@[simp] theorem State.send_ctx (s : State) (o : List Out) : (s.send o).ctx = s.ctx := rfl
@[simp] theorem State.send_warps (s : State) (o : List Out) : (s.send o).warps = s.warps := rfl
@[simp] theorem State.send_teams (s : State) (o : List Out) : (s.send o).teams = s.teams := rfl
@[simp] theorem State.send_cores (s : State) (o : List Out) : (s.send o).cores = s.cores := rfl
@[simp] theorem State.send_ctxs (s : State) (o : List Out) : (s.send o).ctxs = s.ctxs := rfl
@[simp] theorem State.send_events (s : State) (o : List Out) : (s.send o).events = s.events := rfl
@[simp] theorem State.send_held (s : State) (o : List Out) : (s.send o).held = s.held := rfl
@[simp] theorem State.send_parked (s : State) (o : List Out) : (s.send o).parked = s.parked := rfl
@[simp] theorem State.send_again (s : State) (o : List Out) : (s.send o).again = s.again := rfl
@[simp] theorem State.send_turns (s : State) (o : List Out) : (s.send o).turns = s.turns := rfl
@[simp] theorem State.send_plan (s : State) (o : List Out) : (s.send o).plan = s.plan := rfl
@[simp] theorem State.send_outbox (s : State) (o : List Out) : (s.send o).dev.outbox = s.dev.outbox ++ o := rfl
@[simp] theorem State.send_mem (s : State) (o : List Out) : (s.send o).dev.mem = s.dev.mem := rfl
@[simp] theorem State.send_bad (s : State) (o : List Out) : (s.send o).dev.bad = s.dev.bad := rfl
@[simp] theorem State.send_regionTab (s : State) (o : List Out) : (s.send o).dev.regionTab = s.dev.regionTab := rfl
@[simp] theorem State.send_vers (s : State) (o : List Out) : (s.send o).dev.vers = s.dev.vers := rfl
@[simp] theorem State.send_hostDie (s : State) (o : List Out) : (s.send o).dev.hostDie = s.dev.hostDie := rfl
@[simp] theorem State.send_dir (s : State) (o : List Out) : (s.send o).dev.dir = s.dev.dir := rfl
@[simp] theorem State.send_proxyDir (s : State) (o : List Out) : (s.send o).dev.proxyDir = s.dev.proxyDir := rfl
@[simp] theorem State.send_dirHeld (s : State) (o : List Out) : (s.send o).dev.dirHeld = s.dev.dirHeld := rfl
@[simp] theorem State.send_pageRecs (s : State) (o : List Out) : (s.send o).dev.pageRecs = s.dev.pageRecs := rfl
@[simp] theorem State.send_pagesHeld (s : State) (o : List Out) : (s.send o).dev.pagesHeld = s.dev.pagesHeld := rfl
@[simp] theorem State.send_drops (s : State) (o : List Out) : (s.send o).dev.drops = s.dev.drops := rfl
@[simp] theorem State.send_corrected (s : State) (o : List Out) : (s.send o).dev.corrected = s.dev.corrected := rfl
@[simp] theorem State.send_visited (s : State) (o : List Out) : (s.send o).dev.visited = s.dev.visited := rfl
@[simp] theorem State.send_launches (s : State) (o : List Out) : (s.send o).dev.launches = s.dev.launches := rfl
@[simp] theorem State.send_nextLaunch (s : State) (o : List Out) : (s.send o).dev.nextLaunch = s.dev.nextLaunch := rfl
@[simp] theorem State.send_bindTab (s : State) (o : List Out) : (s.send o).dev.bindTab = s.dev.bindTab := rfl
@[simp] theorem State.send_bars (s : State) (o : List Out) : (s.send o).dev.bars = s.dev.bars := rfl
@[simp] theorem State.send_colls (s : State) (o : List Out) : (s.send o).dev.colls = s.dev.colls := rfl
@[simp] theorem State.send_caps (s : State) (o : List Out) : (s.send o).dev.caps = s.dev.caps := rfl
@[simp] theorem State.send_nextCap (s : State) (o : List Out) : (s.send o).dev.nextCap = s.dev.nextCap := rfl
@[simp] theorem State.send_revoked (s : State) (o : List Out) : (s.send o).dev.revoked = s.dev.revoked := rfl
@[simp] theorem State.send_reserve (s : State) (o : List Out) : (s.send o).dev.reserve = s.dev.reserve := rfl
@[simp] theorem State.send_pkgNum (s : State) (o : List Out) : (s.send o).dev.pkgNum = s.dev.pkgNum := rfl
@[simp] theorem State.send_incarnation (s : State) (o : List Out) : (s.send o).dev.incarnation = s.dev.incarnation := rfl
@[simp] theorem State.send_deadDies (s : State) (o : List Out) : (s.send o).dev.deadDies = s.dev.deadDies := rfl
@[simp] theorem State.send_deadPkgs (s : State) (o : List Out) : (s.send o).dev.deadPkgs = s.dev.deadPkgs := rfl
@[simp] theorem State.send_gatedDies (s : State) (o : List Out) : (s.send o).dev.gatedDies = s.dev.gatedDies := rfl
@[simp] theorem State.send_tierPages (s : State) (o : List Out) : (s.send o).dev.tierPages = s.dev.tierPages := rfl
@[simp] theorem State.send_badPorts (s : State) (o : List Out) : (s.send o).dev.badPorts = s.dev.badPorts := rfl
@[simp] theorem State.send_badLinks (s : State) (o : List Out) : (s.send o).dev.badLinks = s.dev.badLinks := rfl
@[simp] theorem State.send_boot (s : State) (o : List Out) : (s.send o).dev.boot = s.dev.boot := rfl
@[simp] theorem State.send_minSecVersion (s : State) (o : List Out) : (s.send o).dev.minSecVersion = s.dev.minSecVersion := rfl
@[simp] theorem State.send_revokedKeys (s : State) (o : List Out) : (s.send o).dev.revokedKeys = s.dev.revokedKeys := rfl

@[simp] theorem State.mapWarps_team (s : State) (p : Warp → Bool) (f : Warp → Warp) : (s.mapWarps p f).team = s.team := rfl
@[simp] theorem State.mapWarps_core (s : State) (p : Warp → Bool) (f : Warp → Warp) : (s.mapWarps p f).core = s.core := rfl
@[simp] theorem State.mapWarps_ctx (s : State) (p : Warp → Bool) (f : Warp → Warp) : (s.mapWarps p f).ctx = s.ctx := rfl
@[simp] theorem State.mapWarps_dev (s : State) (p : Warp → Bool) (f : Warp → Warp) : (s.mapWarps p f).dev = s.dev := rfl
@[simp] theorem State.mapWarps_teams (s : State) (p : Warp → Bool) (f : Warp → Warp) : (s.mapWarps p f).teams = s.teams := rfl
@[simp] theorem State.mapWarps_cores (s : State) (p : Warp → Bool) (f : Warp → Warp) : (s.mapWarps p f).cores = s.cores := rfl
@[simp] theorem State.mapWarps_ctxs (s : State) (p : Warp → Bool) (f : Warp → Warp) : (s.mapWarps p f).ctxs = s.ctxs := rfl
@[simp] theorem State.mapWarps_events (s : State) (p : Warp → Bool) (f : Warp → Warp) : (s.mapWarps p f).events = s.events := rfl
@[simp] theorem State.mapWarps_held (s : State) (p : Warp → Bool) (f : Warp → Warp) : (s.mapWarps p f).held = s.held := rfl
@[simp] theorem State.mapWarps_parked (s : State) (p : Warp → Bool) (f : Warp → Warp) : (s.mapWarps p f).parked = s.parked := rfl
@[simp] theorem State.mapWarps_again (s : State) (p : Warp → Bool) (f : Warp → Warp) : (s.mapWarps p f).again = s.again := rfl
@[simp] theorem State.mapWarps_turns (s : State) (p : Warp → Bool) (f : Warp → Warp) : (s.mapWarps p f).turns = s.turns := rfl
@[simp] theorem State.mapWarps_plan (s : State) (p : Warp → Bool) (f : Warp → Warp) : (s.mapWarps p f).plan = s.plan := rfl
@[simp] theorem State.setWarp_team (s : State) (w : Warp) : (s.setWarp w).team = s.team := rfl
@[simp] theorem State.setWarp_core (s : State) (w : Warp) : (s.setWarp w).core = s.core := rfl
@[simp] theorem State.setWarp_ctx (s : State) (w : Warp) : (s.setWarp w).ctx = s.ctx := rfl
@[simp] theorem State.setWarp_dev (s : State) (w : Warp) : (s.setWarp w).dev = s.dev := rfl
@[simp] theorem State.setWarp_teams (s : State) (w : Warp) : (s.setWarp w).teams = s.teams := rfl
@[simp] theorem State.setWarp_cores (s : State) (w : Warp) : (s.setWarp w).cores = s.cores := rfl
@[simp] theorem State.setWarp_ctxs (s : State) (w : Warp) : (s.setWarp w).ctxs = s.ctxs := rfl
@[simp] theorem State.setWarp_events (s : State) (w : Warp) : (s.setWarp w).events = s.events := rfl
@[simp] theorem State.setWarp_held (s : State) (w : Warp) : (s.setWarp w).held = s.held := rfl
@[simp] theorem State.setWarp_parked (s : State) (w : Warp) : (s.setWarp w).parked = s.parked := rfl
@[simp] theorem State.setWarp_again (s : State) (w : Warp) : (s.setWarp w).again = s.again := rfl
@[simp] theorem State.setWarp_turns (s : State) (w : Warp) : (s.setWarp w).turns = s.turns := rfl
@[simp] theorem State.setWarp_plan (s : State) (w : Warp) : (s.setWarp w).plan = s.plan := rfl
@[simp] theorem State.setTeam_warp (s : State) (t : Team) : (s.setTeam t).warp = s.warp := rfl
@[simp] theorem State.setTeam_core (s : State) (t : Team) : (s.setTeam t).core = s.core := rfl
@[simp] theorem State.setTeam_ctx (s : State) (t : Team) : (s.setTeam t).ctx = s.ctx := rfl
@[simp] theorem State.setTeam_dev (s : State) (t : Team) : (s.setTeam t).dev = s.dev := rfl
@[simp] theorem State.setTeam_warps (s : State) (t : Team) : (s.setTeam t).warps = s.warps := rfl
@[simp] theorem State.setTeam_cores (s : State) (t : Team) : (s.setTeam t).cores = s.cores := rfl
@[simp] theorem State.setTeam_ctxs (s : State) (t : Team) : (s.setTeam t).ctxs = s.ctxs := rfl
@[simp] theorem State.setTeam_events (s : State) (t : Team) : (s.setTeam t).events = s.events := rfl
@[simp] theorem State.setTeam_held (s : State) (t : Team) : (s.setTeam t).held = s.held := rfl
@[simp] theorem State.setTeam_parked (s : State) (t : Team) : (s.setTeam t).parked = s.parked := rfl
@[simp] theorem State.setTeam_again (s : State) (t : Team) : (s.setTeam t).again = s.again := rfl
@[simp] theorem State.setTeam_turns (s : State) (t : Team) : (s.setTeam t).turns = s.turns := rfl
@[simp] theorem State.setTeam_plan (s : State) (t : Team) : (s.setTeam t).plan = s.plan := rfl
@[simp] theorem State.setCtx_warp (s : State) (c : Context) : (s.setCtx c).warp = s.warp := rfl
@[simp] theorem State.setCtx_team (s : State) (c : Context) : (s.setCtx c).team = s.team := rfl
@[simp] theorem State.setCtx_core (s : State) (c : Context) : (s.setCtx c).core = s.core := rfl
@[simp] theorem State.setCtx_dev (s : State) (c : Context) : (s.setCtx c).dev = s.dev := rfl
@[simp] theorem State.setCtx_warps (s : State) (c : Context) : (s.setCtx c).warps = s.warps := rfl
@[simp] theorem State.setCtx_teams (s : State) (c : Context) : (s.setCtx c).teams = s.teams := rfl
@[simp] theorem State.setCtx_cores (s : State) (c : Context) : (s.setCtx c).cores = s.cores := rfl
@[simp] theorem State.setCtx_events (s : State) (c : Context) : (s.setCtx c).events = s.events := rfl
@[simp] theorem State.setCtx_held (s : State) (c : Context) : (s.setCtx c).held = s.held := rfl
@[simp] theorem State.setCtx_parked (s : State) (c : Context) : (s.setCtx c).parked = s.parked := rfl
@[simp] theorem State.setCtx_again (s : State) (c : Context) : (s.setCtx c).again = s.again := rfl
@[simp] theorem State.setCtx_turns (s : State) (c : Context) : (s.setCtx c).turns = s.turns := rfl
@[simp] theorem State.setCtx_plan (s : State) (c : Context) : (s.setCtx c).plan = s.plan := rfl
@[simp] theorem State.setLaunch_warp (s : State) (l : Launch) : (s.setLaunch l).warp = s.warp := rfl
@[simp] theorem State.setLaunch_team (s : State) (l : Launch) : (s.setLaunch l).team = s.team := rfl
@[simp] theorem State.setLaunch_core (s : State) (l : Launch) : (s.setLaunch l).core = s.core := rfl
@[simp] theorem State.setLaunch_ctx (s : State) (l : Launch) : (s.setLaunch l).ctx = s.ctx := rfl
@[simp] theorem State.setLaunch_warps (s : State) (l : Launch) : (s.setLaunch l).warps = s.warps := rfl
@[simp] theorem State.setLaunch_teams (s : State) (l : Launch) : (s.setLaunch l).teams = s.teams := rfl
@[simp] theorem State.setLaunch_cores (s : State) (l : Launch) : (s.setLaunch l).cores = s.cores := rfl
@[simp] theorem State.setLaunch_ctxs (s : State) (l : Launch) : (s.setLaunch l).ctxs = s.ctxs := rfl
@[simp] theorem State.setLaunch_events (s : State) (l : Launch) : (s.setLaunch l).events = s.events := rfl
@[simp] theorem State.setLaunch_held (s : State) (l : Launch) : (s.setLaunch l).held = s.held := rfl
@[simp] theorem State.setLaunch_parked (s : State) (l : Launch) : (s.setLaunch l).parked = s.parked := rfl
@[simp] theorem State.setLaunch_again (s : State) (l : Launch) : (s.setLaunch l).again = s.again := rfl
@[simp] theorem State.setLaunch_turns (s : State) (l : Launch) : (s.setLaunch l).turns = s.turns := rfl
@[simp] theorem State.setLaunch_plan (s : State) (l : Launch) : (s.setLaunch l).plan = s.plan := rfl
@[simp] theorem State.setLaunch_mem (s : State) (l : Launch) : (s.setLaunch l).dev.mem = s.dev.mem := rfl
@[simp] theorem State.setLaunch_bad (s : State) (l : Launch) : (s.setLaunch l).dev.bad = s.dev.bad := rfl
@[simp] theorem State.setLaunch_regionTab (s : State) (l : Launch) : (s.setLaunch l).dev.regionTab = s.dev.regionTab := rfl
@[simp] theorem State.setLaunch_vers (s : State) (l : Launch) : (s.setLaunch l).dev.vers = s.dev.vers := rfl
@[simp] theorem State.setLaunch_hostDie (s : State) (l : Launch) : (s.setLaunch l).dev.hostDie = s.dev.hostDie := rfl
@[simp] theorem State.setLaunch_dir (s : State) (l : Launch) : (s.setLaunch l).dev.dir = s.dev.dir := rfl
@[simp] theorem State.setLaunch_proxyDir (s : State) (l : Launch) : (s.setLaunch l).dev.proxyDir = s.dev.proxyDir := rfl
@[simp] theorem State.setLaunch_dirHeld (s : State) (l : Launch) : (s.setLaunch l).dev.dirHeld = s.dev.dirHeld := rfl
@[simp] theorem State.setLaunch_pageRecs (s : State) (l : Launch) : (s.setLaunch l).dev.pageRecs = s.dev.pageRecs := rfl
@[simp] theorem State.setLaunch_pagesHeld (s : State) (l : Launch) : (s.setLaunch l).dev.pagesHeld = s.dev.pagesHeld := rfl
@[simp] theorem State.setLaunch_drops (s : State) (l : Launch) : (s.setLaunch l).dev.drops = s.dev.drops := rfl
@[simp] theorem State.setLaunch_corrected (s : State) (l : Launch) : (s.setLaunch l).dev.corrected = s.dev.corrected := rfl
@[simp] theorem State.setLaunch_visited (s : State) (l : Launch) : (s.setLaunch l).dev.visited = s.dev.visited := rfl
@[simp] theorem State.setLaunch_nextLaunch (s : State) (l : Launch) : (s.setLaunch l).dev.nextLaunch = s.dev.nextLaunch := rfl
@[simp] theorem State.setLaunch_bindTab (s : State) (l : Launch) : (s.setLaunch l).dev.bindTab = s.dev.bindTab := rfl
@[simp] theorem State.setLaunch_bars (s : State) (l : Launch) : (s.setLaunch l).dev.bars = s.dev.bars := rfl
@[simp] theorem State.setLaunch_colls (s : State) (l : Launch) : (s.setLaunch l).dev.colls = s.dev.colls := rfl
@[simp] theorem State.setLaunch_caps (s : State) (l : Launch) : (s.setLaunch l).dev.caps = s.dev.caps := rfl
@[simp] theorem State.setLaunch_nextCap (s : State) (l : Launch) : (s.setLaunch l).dev.nextCap = s.dev.nextCap := rfl
@[simp] theorem State.setLaunch_revoked (s : State) (l : Launch) : (s.setLaunch l).dev.revoked = s.dev.revoked := rfl
@[simp] theorem State.setLaunch_reserve (s : State) (l : Launch) : (s.setLaunch l).dev.reserve = s.dev.reserve := rfl
@[simp] theorem State.setLaunch_pkgNum (s : State) (l : Launch) : (s.setLaunch l).dev.pkgNum = s.dev.pkgNum := rfl
@[simp] theorem State.setLaunch_incarnation (s : State) (l : Launch) : (s.setLaunch l).dev.incarnation = s.dev.incarnation := rfl
@[simp] theorem State.setLaunch_deadDies (s : State) (l : Launch) : (s.setLaunch l).dev.deadDies = s.dev.deadDies := rfl
@[simp] theorem State.setLaunch_deadPkgs (s : State) (l : Launch) : (s.setLaunch l).dev.deadPkgs = s.dev.deadPkgs := rfl
@[simp] theorem State.setLaunch_gatedDies (s : State) (l : Launch) : (s.setLaunch l).dev.gatedDies = s.dev.gatedDies := rfl
@[simp] theorem State.setLaunch_tierPages (s : State) (l : Launch) : (s.setLaunch l).dev.tierPages = s.dev.tierPages := rfl
@[simp] theorem State.setLaunch_badPorts (s : State) (l : Launch) : (s.setLaunch l).dev.badPorts = s.dev.badPorts := rfl
@[simp] theorem State.setLaunch_badLinks (s : State) (l : Launch) : (s.setLaunch l).dev.badLinks = s.dev.badLinks := rfl
@[simp] theorem State.setLaunch_boot (s : State) (l : Launch) : (s.setLaunch l).dev.boot = s.dev.boot := rfl
@[simp] theorem State.setLaunch_minSecVersion (s : State) (l : Launch) : (s.setLaunch l).dev.minSecVersion = s.dev.minSecVersion := rfl
@[simp] theorem State.setLaunch_revokedKeys (s : State) (l : Launch) : (s.setLaunch l).dev.revokedKeys = s.dev.revokedKeys := rfl
@[simp] theorem State.setLaunch_outbox (s : State) (l : Launch) : (s.setLaunch l).dev.outbox = s.dev.outbox := rfl

@[simp] theorem State.setCore_warp (s : State) (c : Core) : (s.setCore c).warp = s.warp := by
  unfold State.setCore; split <;> (try split) <;> rfl
@[simp] theorem State.setCore_team (s : State) (c : Core) : (s.setCore c).team = s.team := by
  unfold State.setCore; split <;> (try split) <;> rfl
@[simp] theorem State.setCore_ctx (s : State) (c : Core) : (s.setCore c).ctx = s.ctx := by
  unfold State.setCore; split <;> (try split) <;> rfl
@[simp] theorem State.setCore_dev (s : State) (c : Core) : (s.setCore c).dev = s.dev := by
  unfold State.setCore; split <;> (try split) <;> rfl
@[simp] theorem State.setCore_warps (s : State) (c : Core) : (s.setCore c).warps = s.warps := by
  unfold State.setCore; split <;> (try split) <;> rfl
@[simp] theorem State.setCore_teams (s : State) (c : Core) : (s.setCore c).teams = s.teams := by
  unfold State.setCore; split <;> (try split) <;> rfl
@[simp] theorem State.setCore_ctxs (s : State) (c : Core) : (s.setCore c).ctxs = s.ctxs := by
  unfold State.setCore; split <;> (try split) <;> rfl
@[simp] theorem State.setCore_events (s : State) (c : Core) : (s.setCore c).events = s.events := by
  unfold State.setCore; split <;> (try split) <;> rfl
@[simp] theorem State.setCore_held (s : State) (c : Core) : (s.setCore c).held = s.held := by
  unfold State.setCore; split <;> (try split) <;> rfl
@[simp] theorem State.setCore_parked (s : State) (c : Core) : (s.setCore c).parked = s.parked := by
  unfold State.setCore; split <;> (try split) <;> rfl
@[simp] theorem State.setCore_again (s : State) (c : Core) : (s.setCore c).again = s.again := by
  unfold State.setCore; split <;> (try split) <;> rfl
@[simp] theorem State.setCore_turns (s : State) (c : Core) : (s.setCore c).turns = s.turns := by
  unfold State.setCore; split <;> (try split) <;> rfl
@[simp] theorem State.setCore_plan (s : State) (c : Core) : (s.setCore c).plan = s.plan := by
  unfold State.setCore; split <;> (try split) <;> rfl

@[simp] theorem State.dropChecks_warp (s : State) (k : WarpKey) : (s.dropChecks k).warp = s.warp := rfl
@[simp] theorem State.dropChecks_team (s : State) (k : WarpKey) : (s.dropChecks k).team = s.team := rfl
@[simp] theorem State.dropChecks_core (s : State) (k : WarpKey) : (s.dropChecks k).core = s.core := rfl
@[simp] theorem State.dropChecks_ctx (s : State) (k : WarpKey) : (s.dropChecks k).ctx = s.ctx := rfl
@[simp] theorem State.dropChecks_dev (s : State) (k : WarpKey) : (s.dropChecks k).dev = s.dev := rfl
@[simp] theorem State.dropChecks_warps (s : State) (k : WarpKey) : (s.dropChecks k).warps = s.warps := rfl
@[simp] theorem State.dropChecks_teams (s : State) (k : WarpKey) : (s.dropChecks k).teams = s.teams := rfl
@[simp] theorem State.dropChecks_cores (s : State) (k : WarpKey) : (s.dropChecks k).cores = s.cores := rfl
@[simp] theorem State.dropChecks_ctxs (s : State) (k : WarpKey) : (s.dropChecks k).ctxs = s.ctxs := rfl
@[simp] theorem State.dropChecks_parked (s : State) (k : WarpKey) : (s.dropChecks k).parked = s.parked := rfl
@[simp] theorem State.dropChecks_again (s : State) (k : WarpKey) : (s.dropChecks k).again = s.again := rfl
@[simp] theorem State.dropChecks_turns (s : State) (k : WarpKey) : (s.dropChecks k).turns = s.turns := rfl
@[simp] theorem State.dropChecks_plan (s : State) (k : WarpKey) : (s.dropChecks k).plan = s.plan := rfl

/-! ### Registers -/

@[simp] theorem State.writeS_team (s : State) (n : SReg) (x : W64) : (s.writeS n x).team = s.team := by
  unfold State.writeS; split <;> rfl
@[simp] theorem State.writeS_core (s : State) (n : SReg) (x : W64) : (s.writeS n x).core = s.core := by
  unfold State.writeS; split <;> rfl
@[simp] theorem State.writeS_ctx (s : State) (n : SReg) (x : W64) : (s.writeS n x).ctx = s.ctx := by
  unfold State.writeS; split <;> rfl
@[simp] theorem State.writeS_dev (s : State) (n : SReg) (x : W64) : (s.writeS n x).dev = s.dev := by
  unfold State.writeS; split <;> rfl
@[simp] theorem State.writeS_warps (s : State) (n : SReg) (x : W64) : (s.writeS n x).warps = s.warps := by
  unfold State.writeS; split <;> rfl
@[simp] theorem State.writeS_teams (s : State) (n : SReg) (x : W64) : (s.writeS n x).teams = s.teams := by
  unfold State.writeS; split <;> rfl
@[simp] theorem State.writeS_cores (s : State) (n : SReg) (x : W64) : (s.writeS n x).cores = s.cores := by
  unfold State.writeS; split <;> rfl
@[simp] theorem State.writeS_ctxs (s : State) (n : SReg) (x : W64) : (s.writeS n x).ctxs = s.ctxs := by
  unfold State.writeS; split <;> rfl
@[simp] theorem State.writeS_events (s : State) (n : SReg) (x : W64) : (s.writeS n x).events = s.events := by
  unfold State.writeS; split <;> rfl
@[simp] theorem State.writeS_held (s : State) (n : SReg) (x : W64) : (s.writeS n x).held = s.held := by
  unfold State.writeS; split <;> rfl
@[simp] theorem State.writeS_parked (s : State) (n : SReg) (x : W64) : (s.writeS n x).parked = s.parked := by
  unfold State.writeS; split <;> rfl
@[simp] theorem State.writeS_again (s : State) (n : SReg) (x : W64) : (s.writeS n x).again = s.again := by
  unfold State.writeS; split <;> rfl
@[simp] theorem State.writeS_turns (s : State) (n : SReg) (x : W64) : (s.writeS n x).turns = s.turns := by
  unfold State.writeS; split <;> rfl
@[simp] theorem State.writeS_plan (s : State) (n : SReg) (x : W64) : (s.writeS n x).plan = s.plan := by
  unfold State.writeS; split <;> rfl
@[simp] theorem State.writeS_warp (s : State) (n : SReg) (x : W64) :
    (s.writeS n x).warp = { s.warp with s := if n = 0 then s.warp.s else s.warp.s.set n.toNat x } := by
  unfold State.writeS; split <;> simp_all

@[simp] theorem State.retireTo_team (s : State) (pc : W64) (n : Nat) : (s.retireTo pc n).team = s.team := rfl
@[simp] theorem State.retireTo_core (s : State) (pc : W64) (n : Nat) : (s.retireTo pc n).core = s.core := rfl
@[simp] theorem State.retireTo_ctx (s : State) (pc : W64) (n : Nat) : (s.retireTo pc n).ctx = s.ctx := rfl
@[simp] theorem State.retireTo_dev (s : State) (pc : W64) (n : Nat) : (s.retireTo pc n).dev = s.dev := rfl
@[simp] theorem State.retireTo_warps (s : State) (pc : W64) (n : Nat) : (s.retireTo pc n).warps = s.warps := rfl
@[simp] theorem State.retireTo_teams (s : State) (pc : W64) (n : Nat) : (s.retireTo pc n).teams = s.teams := rfl
@[simp] theorem State.retireTo_cores (s : State) (pc : W64) (n : Nat) : (s.retireTo pc n).cores = s.cores := rfl
@[simp] theorem State.retireTo_ctxs (s : State) (pc : W64) (n : Nat) : (s.retireTo pc n).ctxs = s.ctxs := rfl
@[simp] theorem State.retireTo_events (s : State) (pc : W64) (n : Nat) : (s.retireTo pc n).events = s.events := rfl
@[simp] theorem State.retireTo_held (s : State) (pc : W64) (n : Nat) : (s.retireTo pc n).held = s.held := rfl
@[simp] theorem State.retireTo_parked (s : State) (pc : W64) (n : Nat) : (s.retireTo pc n).parked = s.parked := rfl
@[simp] theorem State.retireTo_again (s : State) (pc : W64) (n : Nat) : (s.retireTo pc n).again = s.again := rfl
@[simp] theorem State.retireTo_turns (s : State) (pc : W64) (n : Nat) : (s.retireTo pc n).turns = s.turns := rfl
@[simp] theorem State.retireTo_plan (s : State) (pc : W64) (n : Nat) : (s.retireTo pc n).plan = s.plan := rfl
@[simp] theorem State.retireTo_warp (s : State) (pc : W64) (n : Nat) :
    (s.retireTo pc n).warp = { s.warp with
      spc := pc, scalStalled := false, laneStalled := false, yielded := false
      pass := { s.warp.pass with breakS := false, watchS := false }
      parkS := none, atHome := false, scalIa := none, late := false, onPages := false, clearS := .none
      quantum := if s.team.det then s.warp.quantum + n else s.warp.quantum
      quantumEnd := if s.team.det then decide (s.team.q ≤ s.warp.quantum + n) else s.warp.quantumEnd } := rfl

@[simp] theorem State.waitScalar_team (s : State) (n : Nat) : (s.waitScalar n).team = s.team := rfl
@[simp] theorem State.waitScalar_core (s : State) (n : Nat) : (s.waitScalar n).core = s.core := rfl
@[simp] theorem State.waitScalar_ctx (s : State) (n : Nat) : (s.waitScalar n).ctx = s.ctx := rfl
@[simp] theorem State.waitScalar_dev (s : State) (n : Nat) : (s.waitScalar n).dev = s.dev := rfl
@[simp] theorem State.waitScalar_warps (s : State) (n : Nat) : (s.waitScalar n).warps = s.warps := rfl
@[simp] theorem State.waitScalar_teams (s : State) (n : Nat) : (s.waitScalar n).teams = s.teams := rfl
@[simp] theorem State.waitScalar_cores (s : State) (n : Nat) : (s.waitScalar n).cores = s.cores := rfl
@[simp] theorem State.waitScalar_ctxs (s : State) (n : Nat) : (s.waitScalar n).ctxs = s.ctxs := rfl
@[simp] theorem State.waitScalar_events (s : State) (n : Nat) : (s.waitScalar n).events = s.events := rfl
@[simp] theorem State.waitScalar_held (s : State) (n : Nat) : (s.waitScalar n).held = s.held := rfl
@[simp] theorem State.waitScalar_parked (s : State) (n : Nat) : (s.waitScalar n).parked = s.parked := rfl
@[simp] theorem State.waitScalar_again (s : State) (n : Nat) : (s.waitScalar n).again = s.again := rfl
@[simp] theorem State.waitScalar_turns (s : State) (n : Nat) : (s.waitScalar n).turns = s.turns := rfl
@[simp] theorem State.waitScalar_plan (s : State) (n : Nat) : (s.waitScalar n).plan = s.plan := rfl
@[simp] theorem State.waitLane_team (s : State) (n : Nat) : (s.waitLane n).team = s.team := rfl
@[simp] theorem State.waitLane_core (s : State) (n : Nat) : (s.waitLane n).core = s.core := rfl
@[simp] theorem State.waitLane_ctx (s : State) (n : Nat) : (s.waitLane n).ctx = s.ctx := rfl
@[simp] theorem State.waitLane_dev (s : State) (n : Nat) : (s.waitLane n).dev = s.dev := rfl
@[simp] theorem State.waitLane_warps (s : State) (n : Nat) : (s.waitLane n).warps = s.warps := rfl
@[simp] theorem State.waitLane_teams (s : State) (n : Nat) : (s.waitLane n).teams = s.teams := rfl
@[simp] theorem State.waitLane_cores (s : State) (n : Nat) : (s.waitLane n).cores = s.cores := rfl
@[simp] theorem State.waitLane_ctxs (s : State) (n : Nat) : (s.waitLane n).ctxs = s.ctxs := rfl
@[simp] theorem State.waitLane_events (s : State) (n : Nat) : (s.waitLane n).events = s.events := rfl
@[simp] theorem State.waitLane_held (s : State) (n : Nat) : (s.waitLane n).held = s.held := rfl
@[simp] theorem State.waitLane_parked (s : State) (n : Nat) : (s.waitLane n).parked = s.parked := rfl
@[simp] theorem State.waitLane_again (s : State) (n : Nat) : (s.waitLane n).again = s.again := rfl
@[simp] theorem State.waitLane_turns (s : State) (n : Nat) : (s.waitLane n).turns = s.turns := rfl
@[simp] theorem State.waitLane_plan (s : State) (n : Nat) : (s.waitLane n).plan = s.plan := rfl
@[simp] theorem State.writeScratch_scratch (s : State) (a : W64) (bs : List Byte) :
    (s.writeScratch a bs).team.scratch = writeBytes s.team.scratch (a.toNat - Config.apertureBase) bs := rfl
@[simp] theorem State.waitScalar_warp (s : State) (n : Nat) : (s.waitScalar n).warp = { s.warp.countStall n with scalStalled := true, scalReason := n } := rfl
@[simp] theorem State.waitLane_warp (s : State) (n : Nat) : (s.waitLane n).warp = { s.warp.countStall n with laneStalled := true, laneReason := n } := rfl

@[simp] theorem State.retireLane_team (s : State) : (s.retireLane).team = s.team := rfl
@[simp] theorem State.retireLane_core (s : State) : (s.retireLane).core = s.core := rfl
@[simp] theorem State.retireLane_ctx (s : State) : (s.retireLane).ctx = s.ctx := rfl
@[simp] theorem State.retireLane_dev (s : State) : (s.retireLane).dev = s.dev := rfl
@[simp] theorem State.retireLane_warps (s : State) : (s.retireLane).warps = s.warps := rfl
@[simp] theorem State.retireLane_teams (s : State) : (s.retireLane).teams = s.teams := rfl
@[simp] theorem State.retireLane_cores (s : State) : (s.retireLane).cores = s.cores := rfl
@[simp] theorem State.retireLane_ctxs (s : State) : (s.retireLane).ctxs = s.ctxs := rfl
@[simp] theorem State.retireLane_events (s : State) : (s.retireLane).events = s.events := rfl
@[simp] theorem State.retireLane_held (s : State) : (s.retireLane).held = s.held := rfl
@[simp] theorem State.retireLane_parked (s : State) : (s.retireLane).parked = s.parked := rfl
@[simp] theorem State.retireLane_again (s : State) : (s.retireLane).again = s.again := rfl
@[simp] theorem State.retireLane_turns (s : State) : (s.retireLane).turns = s.turns := rfl
@[simp] theorem State.retireLane_plan (s : State) : (s.retireLane).plan = s.plan := rfl
@[simp] theorem State.retireLane_warp (s : State) : s.retireLane.warp = s.warp.retireWord := rfl

@[simp] theorem State.orFlags_team (s : State) (f : FFlags) : (s.orFlags f).team = s.team := rfl
@[simp] theorem State.orFlags_core (s : State) (f : FFlags) : (s.orFlags f).core = s.core := rfl
@[simp] theorem State.orFlags_ctx (s : State) (f : FFlags) : (s.orFlags f).ctx = s.ctx := rfl
@[simp] theorem State.orFlags_dev (s : State) (f : FFlags) : (s.orFlags f).dev = s.dev := rfl
@[simp] theorem State.orFlags_warps (s : State) (f : FFlags) : (s.orFlags f).warps = s.warps := rfl
@[simp] theorem State.orFlags_teams (s : State) (f : FFlags) : (s.orFlags f).teams = s.teams := rfl
@[simp] theorem State.orFlags_cores (s : State) (f : FFlags) : (s.orFlags f).cores = s.cores := rfl
@[simp] theorem State.orFlags_ctxs (s : State) (f : FFlags) : (s.orFlags f).ctxs = s.ctxs := rfl
@[simp] theorem State.orFlags_events (s : State) (f : FFlags) : (s.orFlags f).events = s.events := rfl
@[simp] theorem State.orFlags_held (s : State) (f : FFlags) : (s.orFlags f).held = s.held := rfl
@[simp] theorem State.orFlags_parked (s : State) (f : FFlags) : (s.orFlags f).parked = s.parked := rfl
@[simp] theorem State.orFlags_again (s : State) (f : FFlags) : (s.orFlags f).again = s.again := rfl
@[simp] theorem State.orFlags_turns (s : State) (f : FFlags) : (s.orFlags f).turns = s.turns := rfl
@[simp] theorem State.orFlags_plan (s : State) (f : FFlags) : (s.orFlags f).plan = s.plan := rfl
@[simp] theorem State.writeV_team (s : State) (n : Nat) (m : Mask) (x : LaneVec) : (s.writeV n m x).team = s.team := rfl
@[simp] theorem State.writeV_core (s : State) (n : Nat) (m : Mask) (x : LaneVec) : (s.writeV n m x).core = s.core := rfl
@[simp] theorem State.writeV_ctx (s : State) (n : Nat) (m : Mask) (x : LaneVec) : (s.writeV n m x).ctx = s.ctx := rfl
@[simp] theorem State.writeV_dev (s : State) (n : Nat) (m : Mask) (x : LaneVec) : (s.writeV n m x).dev = s.dev := rfl
@[simp] theorem State.writeV_warps (s : State) (n : Nat) (m : Mask) (x : LaneVec) : (s.writeV n m x).warps = s.warps := rfl
@[simp] theorem State.writeV_teams (s : State) (n : Nat) (m : Mask) (x : LaneVec) : (s.writeV n m x).teams = s.teams := rfl
@[simp] theorem State.writeV_cores (s : State) (n : Nat) (m : Mask) (x : LaneVec) : (s.writeV n m x).cores = s.cores := rfl
@[simp] theorem State.writeV_ctxs (s : State) (n : Nat) (m : Mask) (x : LaneVec) : (s.writeV n m x).ctxs = s.ctxs := rfl
@[simp] theorem State.writeV_events (s : State) (n : Nat) (m : Mask) (x : LaneVec) : (s.writeV n m x).events = s.events := rfl
@[simp] theorem State.writeV_held (s : State) (n : Nat) (m : Mask) (x : LaneVec) : (s.writeV n m x).held = s.held := rfl
@[simp] theorem State.writeV_parked (s : State) (n : Nat) (m : Mask) (x : LaneVec) : (s.writeV n m x).parked = s.parked := rfl
@[simp] theorem State.writeV_again (s : State) (n : Nat) (m : Mask) (x : LaneVec) : (s.writeV n m x).again = s.again := rfl
@[simp] theorem State.writeV_turns (s : State) (n : Nat) (m : Mask) (x : LaneVec) : (s.writeV n m x).turns = s.turns := rfl
@[simp] theorem State.writeV_plan (s : State) (n : Nat) (m : Mask) (x : LaneVec) : (s.writeV n m x).plan = s.plan := rfl
@[simp] theorem State.writeV_warp (s : State) (n : Nat) (m : Mask) (x : LaneVec) :
    (s.writeV n m x).warp =
      { (if m = 0 then s.warp else s.warp.fillDone n) with
        v := Store.setAll s.warp.v (m.lanes.map (fun l => (32 * n + l, x l))) } := rfl
@[simp] theorem State.writeP_team (s : State) (k : Pred) (m : Mask) (b : Nat → Bool) : (s.writeP k m b).team = s.team := by
  unfold State.writeP; split <;> rfl
@[simp] theorem State.writeP_core (s : State) (k : Pred) (m : Mask) (b : Nat → Bool) : (s.writeP k m b).core = s.core := by
  unfold State.writeP; split <;> rfl
@[simp] theorem State.writeP_ctx (s : State) (k : Pred) (m : Mask) (b : Nat → Bool) : (s.writeP k m b).ctx = s.ctx := by
  unfold State.writeP; split <;> rfl
@[simp] theorem State.writeP_dev (s : State) (k : Pred) (m : Mask) (b : Nat → Bool) : (s.writeP k m b).dev = s.dev := by
  unfold State.writeP; split <;> rfl
@[simp] theorem State.writeP_warps (s : State) (k : Pred) (m : Mask) (b : Nat → Bool) : (s.writeP k m b).warps = s.warps := by
  unfold State.writeP; split <;> rfl
@[simp] theorem State.writeP_teams (s : State) (k : Pred) (m : Mask) (b : Nat → Bool) : (s.writeP k m b).teams = s.teams := by
  unfold State.writeP; split <;> rfl
@[simp] theorem State.writeP_cores (s : State) (k : Pred) (m : Mask) (b : Nat → Bool) : (s.writeP k m b).cores = s.cores := by
  unfold State.writeP; split <;> rfl
@[simp] theorem State.writeP_ctxs (s : State) (k : Pred) (m : Mask) (b : Nat → Bool) : (s.writeP k m b).ctxs = s.ctxs := by
  unfold State.writeP; split <;> rfl
@[simp] theorem State.writeP_events (s : State) (k : Pred) (m : Mask) (b : Nat → Bool) : (s.writeP k m b).events = s.events := by
  unfold State.writeP; split <;> rfl
@[simp] theorem State.writeP_held (s : State) (k : Pred) (m : Mask) (b : Nat → Bool) : (s.writeP k m b).held = s.held := by
  unfold State.writeP; split <;> rfl
@[simp] theorem State.writeP_parked (s : State) (k : Pred) (m : Mask) (b : Nat → Bool) : (s.writeP k m b).parked = s.parked := by
  unfold State.writeP; split <;> rfl
@[simp] theorem State.writeP_again (s : State) (k : Pred) (m : Mask) (b : Nat → Bool) : (s.writeP k m b).again = s.again := by
  unfold State.writeP; split <;> rfl
@[simp] theorem State.writeP_turns (s : State) (k : Pred) (m : Mask) (b : Nat → Bool) : (s.writeP k m b).turns = s.turns := by
  unfold State.writeP; split <;> rfl
@[simp] theorem State.writeP_plan (s : State) (k : Pred) (m : Mask) (b : Nat → Bool) : (s.writeP k m b).plan = s.plan := by
  unfold State.writeP; split <;> rfl
@[simp] theorem State.writeP_warp (s : State) (k : Pred) (m : Mask) (b : Nat → Bool) :
    (s.writeP k m b).warp = { s.warp with
      preds := if k = 0 then s.warp.preds
        else s.warp.preds.set k.toNat ((s.warp.preds.get k.toNat &&& ~~~m) ||| (Mask.of b &&& m)) } := by
  unfold State.writeP; split <;> simp_all
@[simp] theorem State.orFlags_warp (s : State) (f : FFlags) : (s.orFlags f).warp = { s.warp with fpstat := s.warp.fpstat ||| f } := rfl

@[simp] theorem State.writeScratch_warp (s : State) (a : W64) (bs : List Byte) : (s.writeScratch a bs).warp = s.warp := rfl
@[simp] theorem State.writeScratch_core (s : State) (a : W64) (bs : List Byte) : (s.writeScratch a bs).core = s.core := rfl
@[simp] theorem State.writeScratch_ctx (s : State) (a : W64) (bs : List Byte) : (s.writeScratch a bs).ctx = s.ctx := rfl
@[simp] theorem State.writeScratch_dev (s : State) (a : W64) (bs : List Byte) : (s.writeScratch a bs).dev = s.dev := rfl
@[simp] theorem State.writeScratch_warps (s : State) (a : W64) (bs : List Byte) : (s.writeScratch a bs).warps = s.warps := rfl
@[simp] theorem State.writeScratch_teams (s : State) (a : W64) (bs : List Byte) : (s.writeScratch a bs).teams = s.teams := rfl
@[simp] theorem State.writeScratch_cores (s : State) (a : W64) (bs : List Byte) : (s.writeScratch a bs).cores = s.cores := rfl
@[simp] theorem State.writeScratch_ctxs (s : State) (a : W64) (bs : List Byte) : (s.writeScratch a bs).ctxs = s.ctxs := rfl
@[simp] theorem State.writeScratch_events (s : State) (a : W64) (bs : List Byte) : (s.writeScratch a bs).events = s.events := rfl
@[simp] theorem State.writeScratch_held (s : State) (a : W64) (bs : List Byte) : (s.writeScratch a bs).held = s.held := rfl
@[simp] theorem State.writeScratch_parked (s : State) (a : W64) (bs : List Byte) : (s.writeScratch a bs).parked = s.parked := rfl
@[simp] theorem State.writeScratch_again (s : State) (a : W64) (bs : List Byte) : (s.writeScratch a bs).again = s.again := rfl
@[simp] theorem State.writeScratch_turns (s : State) (a : W64) (bs : List Byte) : (s.writeScratch a bs).turns = s.turns := rfl
@[simp] theorem State.writeScratch_plan (s : State) (a : W64) (bs : List Byte) : (s.writeScratch a bs).plan = s.plan := rfl

end Sys2Proof.Machine
end

