-- ==== Sys2Proof/Laws/Store.lean ====
section
/-!
SUPPORT. The sparse store: what a read gives after a write, and that every operation on it keeps the canonical form.
-/

namespace Sys2Proof.Store

variable {w : Nat}

/-- The form of a store that begins with an entry. -/
theorem wfAbove_cons (o : Option Nat) (k : Nat) (v : BitVec w) (rest : Store w) :
    wfAbove o ((k, v) :: rest) = true ↔ (∀ n, o = some n → n < k) ∧ v ≠ 0#w ∧ wfAbove (some k) rest = true := by
  cases o <;> simp [wfAbove, and_assoc]

theorem wfAbove_nil (o : Option Nat) : wfAbove o ([] : Store w) = true := by cases o <;> rfl

/-! ### Reading after writing -/

/-- A read after a write, of any store, in canonical form or not. -/
@[simp] theorem get_set (m : Store w) (a b : Nat) (x : BitVec w) : (m.set a x).get b = if b = a then x else m.get b := by
  induction m with
  | nil => by_cases hx : x = 0#w <;> simp [set, get, hx]
  | cons e rest ih =>
    obtain ⟨k, v⟩ := e
    simp only [set]
    split
    · rename_i h
      subst h
      rw [ih]
      by_cases hab : b = a <;> simp [get, hab]
    · split
      · simp only [get]
      · simp only [get, ih]
        by_cases hab : b = a
        · subst hab; simp_all
        · simp [hab]

/-! ### The canonical form -/

theorem wfAbove_mono (m : Store w) {o : Option Nat} {n : Nat} (h : wfAbove (some n) m = true)
    (ho : ∀ k, o = some k → k ≤ n) : wfAbove o m = true := by
  cases m with
  | nil => exact wfAbove_nil o
  | cons e rest =>
    obtain ⟨k, v⟩ := e
    obtain ⟨hk, hv, hr⟩ := (wfAbove_cons _ _ _ _).mp h
    exact (wfAbove_cons _ _ _ _).mpr ⟨fun j hj => Nat.lt_of_le_of_lt (ho j hj) (hk n rfl), hv, hr⟩

theorem wfAbove_set (m : Store w) (o : Option Nat) (a : Nat) (x : BitVec w) (h : wfAbove o m = true)
    (ha : ∀ k, o = some k → k < a) : wfAbove o (m.set a x) = true := by
  induction m generalizing o with
  | nil =>
    by_cases hx : x = 0#w
    · simp [set, hx, wfAbove_nil]
    · simpa [set, hx, wfAbove_cons, wfAbove_nil] using ha
  | cons e rest ih =>
    obtain ⟨k, v⟩ := e
    obtain ⟨hk, hv, hr⟩ := (wfAbove_cons _ _ _ _).mp h
    simp only [set]
    split
    · rename_i h1
      exact ih o (wfAbove_mono rest hr (fun j hj => Nat.le_of_lt (hk j hj))) ha
    · split
      · rename_i h1 h2
        simp only [wfAbove_cons]
        exact ⟨ha, h2.1, fun n hn => by cases hn; exact h2.2, hv, hr⟩
      · rename_i h1 h2
        simp only [wfAbove_cons]
        refine ⟨hk, hv, ?_⟩
        by_cases hx : x = 0#w
        · subst hx
          clear ih ha h2 h1 hk h hv
          induction rest generalizing k with
          | nil => simp [set, wfAbove_nil]
          | cons e rest ih2 =>
            obtain ⟨j, u⟩ := e
            obtain ⟨hj, hu, hr2⟩ := (wfAbove_cons _ _ _ _).mp hr
            have hj := hj k rfl
            simp only [set, ne_eq, not_true, false_and, if_false]
            split
            · exact wfAbove_mono _ (ih2 j hr2) (fun i hi => by cases hi; omega)
            · exact (wfAbove_cons _ _ _ _).mpr ⟨fun n hn => by cases hn; exact hj, hu, ih2 j hr2⟩
        · have : k < a := by
            have : ¬ a < k := fun hlt => h2 ⟨hx, hlt⟩
            omega
          exact ih (some k) hr (fun j hj => by cases hj; exact this)

theorem wf_set (m : Store w) (a : Nat) (x : BitVec w) (h : m.wf = true) : (m.set a x).wf = true :=
  wfAbove_set m none a x h (by intro k hk; cases hk)

theorem wf_setAll (es : List (Nat × BitVec w)) (m : Store w) (h : m.wf = true) : (m.setAll es).wf = true := by
  induction es generalizing m with
  | nil => exact h
  | cons e rest ih => exact ih _ (wf_set m e.1 e.2 h)

theorem wf_nil : wf ([] : Store w) = true := rfl

theorem wfAbove_filter (p : Nat × BitVec w → Bool) (m : Store w) (o : Option Nat) (h : wfAbove o m = true) :
    wfAbove o (m.filter p) = true := by
  induction m generalizing o with
  | nil => exact h
  | cons e rest ih =>
    obtain ⟨k, v⟩ := e
    obtain ⟨hk, hv, hr⟩ := (wfAbove_cons _ _ _ _).mp h
    simp only [List.filter]
    split
    · exact (wfAbove_cons _ _ _ _).mpr ⟨hk, hv, ih (some k) hr⟩
    · exact wfAbove_mono _ (ih (some k) hr) (fun j hj => Nat.le_of_lt (hk j hj))

theorem wf_filter (p : Nat × BitVec w → Bool) (m : Store w) (h : m.wf = true) : wf (m.filter p) = true :=
  wfAbove_filter p m none h

theorem wf_foldl {α : Type} (f : Store w → α → Store w) (hf : ∀ m x, m.wf = true → (f m x).wf = true) (xs : List α)
    (m : Store w) (h : m.wf = true) : (xs.foldl f m).wf = true := by
  induction xs generalizing m with
  | nil => exact h
  | cons x rest ih => exact ih _ (hf m x h)

/-! ### Several entries at once -/

theorem get_setAll_notin (es : List (Nat × BitVec w)) (m : Store w) (b : Nat) (hb : ∀ e ∈ es, e.1 ≠ b) :
    (m.setAll es).get b = m.get b := by
  induction es generalizing m with
  | nil => rfl
  | cons e rest ih =>
    rw [setAll, ih _ (fun x hx => hb x (List.mem_cons_of_mem e hx)), get_set,
      if_neg (fun hh => hb e List.mem_cons_self hh.symm)]

/-- Entries with different keys: each key reads as its entry. -/
theorem get_setAll_mem (es : List (Nat × BitVec w)) (m : Store w) (e : Nat × BitVec w) (he : e ∈ es)
    (hd : (es.map Prod.fst).Nodup) : (m.setAll es).get e.1 = e.2 := by
  induction es generalizing m with
  | nil => cases he
  | cons x rest ih =>
    simp only [List.map_cons, List.nodup_cons, List.mem_map, not_exists, not_and] at hd
    rw [setAll]
    rcases List.mem_cons.mp he with rfl | hr
    · rw [get_setAll_notin rest _ _ (fun y hy => hd.1 y hy), get_set, if_pos rfl]
    · exact ih _ hr hd.2

end Sys2Proof.Store

namespace Sys2Proof.Machine

open Sys2Proof

/-! ### Bytes of memory -/

theorem wf_writeBytes (m : Store 8) (a : Nat) (bs : List Byte) (h : m.wf = true) : (writeBytes m a bs).wf = true :=
  Store.wf_setAll _ m h

theorem wf_writeD (m : Store 8) (a : Nat) (x : W64) (h : m.wf = true) : (writeD m a x).wf = true :=
  wf_writeBytes m a _ h

theorem writeBytes_entries (a : Nat) (bs : List Byte) :
    ∀ e ∈ (List.range bs.length).zipWith (fun k b => (a + k, b)) bs, a ≤ e.1 ∧ e.1 < a + bs.length := by
  intro e he
  obtain ⟨k, hk, rfl⟩ := List.mem_iff_getElem.mp he
  simp only [List.length_zipWith, List.length_range, Nat.min_self] at hk
  simp only [List.getElem_zipWith, List.getElem_range]
  omega

/-- A write leaves every byte outside it alone. -/
theorem get_writeBytes_out (m : Store 8) (a : Nat) (bs : List Byte) (b : Nat)
    (hb : b < a ∨ a + bs.length ≤ b) : (writeBytes m a bs).get b = m.get b := by
  refine Store.get_setAll_notin _ m b ?_
  intro e he
  have := writeBytes_entries a bs e he
  omega

/-- A byte read after a write that covers it. -/
theorem get_writeBytes_in (m : Store 8) (a : Nat) (bs : List Byte) (k : Nat) (hk : k < bs.length) :
    (writeBytes m a bs).get (a + k) = bs[k] := by
  have hm : (a + k, bs[k]) ∈ (List.range bs.length).zipWith (fun k b => (a + k, b)) bs := by
    rw [List.mem_iff_getElem]
    exact ⟨k, by simpa using hk, by simp⟩
  refine Store.get_setAll_mem _ m (a + k, bs[k]) hm ?_
  have : ((List.range bs.length).zipWith (fun k b => (a + k, b)) bs).map Prod.fst = (List.range bs.length).map (a + ·) := by
    apply List.ext_getElem
    · simp
    · intro i h1 h2; simp
  rw [this]
  exact List.Nodup.map (fun x y hxy => by simpa using hxy) List.nodup_range

theorem length_readBytes (m : Store 8) (a n : Nat) : (readBytes m a n).length = n := by simp [readBytes]

/-- The bytes just written are read back. -/
theorem readBytes_writeBytes (m : Store 8) (a : Nat) (bs : List Byte) :
    readBytes (writeBytes m a bs) a bs.length = bs := by
  apply List.ext_getElem
  · simp [readBytes]
  · intro k h1 h2
    simp only [readBytes, List.getElem_map, List.getElem_range]
    exact get_writeBytes_in m a bs k h2

end Sys2Proof.Machine
end

