-- ==== Sys2Proof/Laws/Lane.lean ====
section
/-!
SUPPORT. The lane registers and predicates: what a read gives after a write, and how a lane instruction runs when its checks
let it through, make it wait, or trap.
-/

namespace Sys2Proof.Machine

open Sys2Proof

/-! ### Lane registers -/

theorem has_lanes (m : Mask) (l : Nat) : l ∈ m.lanes ↔ l < 32 ∧ m.has l = true := by
  simp [Mask.lanes, Mask.has]

theorem nodup_lanes (m : Mask) (n : Nat) (x : LaneVec) :
    ((m.lanes.map (fun l => (32 * n + l, x l))).map Prod.fst).Nodup := by
  rw [List.map_map]
  refine List.Nodup.map (fun a b h => ?_) (List.Nodup.filter _ List.nodup_range)
  simp only [Function.comp_apply] at h
  omega

/-- A register read after a write: the lanes of the mask have the new values, every other register and lane the old ones. -/
theorem vreg_writeV (s : State) (n k : Nat) (m : Mask) (x : LaneVec) (l : Nat) (hl : l < 32) :
    (s.writeV n m x).vreg k l = if k = n ∧ m.has l = true then x l else s.vreg k l := by
  have hv : (s.writeV n m x).vreg k l = (Store.setAll s.warp.v (m.lanes.map (fun l => (32 * n + l, x l)))).get (32 * k + l) := by
    unfold State.writeV State.vreg State.onWarp
    by_cases h : m = 0 <;> simp [h]
  rw [hv]
  split
  · next h =>
    obtain ⟨rfl, hm⟩ := h
    exact Store.get_setAll_mem (m.lanes.map (fun l => (32 * k + l, x l))) s.warp.v (32 * k + l, x l)
      (List.mem_map.2 ⟨l, (has_lanes m l).2 ⟨hl, hm⟩, rfl⟩) (nodup_lanes m k x)
  · next h =>
    refine Store.get_setAll_notin _ _ _ (fun e he => ?_)
    obtain ⟨j, hj, rfl⟩ := List.mem_map.1 he
    have hj' := (has_lanes m j).1 hj
    intro hc
    have hkn : k = n := by omega
    have hlj : l = j := by omega
    exact h ⟨hkn, hlj ▸ hj'.2⟩

/-- With no active lane a write leaves the whole state as it is. -/
theorem writeV_none (s : State) (n : Nat) (x : LaneVec) : s.writeV n 0 x = s := by
  simp [State.writeV, State.onWarp, Mask.lanes, Store.setAll]

/-! ### What a write of a register leaves -/

@[simp] theorem writeV_preds (s : State) (n : Nat) (m : Mask) (x : LaneVec) : (s.writeV n m x).warp.preds = s.warp.preds := by
  show (if m = 0 then s.warp else s.warp.fillDone n).preds = _
  split <;> rfl
@[simp] theorem writeV_em (s : State) (n : Nat) (m : Mask) (x : LaneVec) : (s.writeV n m x).warp.em = s.warp.em := by
  show (if m = 0 then s.warp else s.warp.fillDone n).em = _
  split <;> rfl
@[simp] theorem writeV_s (s : State) (n : Nat) (m : Mask) (x : LaneVec) : (s.writeV n m x).warp.s = s.warp.s := by
  show (if m = 0 then s.warp else s.warp.fillDone n).s = _
  split <;> rfl
@[simp] theorem writeV_fpstat (s : State) (n : Nat) (m : Mask) (x : LaneVec) : (s.writeV n m x).warp.fpstat = s.warp.fpstat := by
  show (if m = 0 then s.warp else s.warp.fillDone n).fpstat = _
  split <;> rfl
@[simp] theorem writeV_dev (s : State) (n : Nat) (m : Mask) (x : LaneVec) : (s.writeV n m x).dev = s.dev := rfl
@[simp] theorem writeV_team (s : State) (n : Nat) (m : Mask) (x : LaneVec) : (s.writeV n m x).team = s.team := rfl

/-! ### Predicates -/

/-- A write to p0 is discarded; p0 is true in every lane. -/
@[simp] theorem writeP_zero (s : State) (m : Mask) (b : Nat → Bool) : s.writeP 0 m b = s := rfl
@[simp] theorem predBit_zero (w : Warp) (l : Nat) : predBit w 0 l = true := rfl

/-- A predicate keeps the lanes outside the mask; the other predicates stay. -/
theorem preds_writeP_other (s : State) (k : Pred) (m : Mask) (b : Nat → Bool) (n : Nat) (h : n ≠ k.toNat) :
    (s.writeP k m b).warp.preds.get n = s.warp.preds.get n := by
  unfold State.writeP State.onWarp
  split
  · rfl
  · simp [Store.get_set, h]
theorem preds_writeP_same (s : State) (k : Pred) (m : Mask) (b : Nat → Bool) (h : k ≠ 0) :
    (s.writeP k m b).warp.preds.get k.toNat = (s.warp.preds.get k.toNat &&& ~~~m) ||| (Mask.of b &&& m) := by
  unfold State.writeP State.onWarp
  rw [if_neg h]
  simp [Store.get_set]
@[simp] theorem writeP_dev (s : State) (k : Pred) (m : Mask) (b : Nat → Bool) : (s.writeP k m b).dev = s.dev := by
  unfold State.writeP; split <;> rfl
@[simp] theorem vreg_writeP (s : State) (k : Pred) (m : Mask) (b : Nat → Bool) (n l : Nat) : (s.writeP k m b).vreg n l = s.vreg n l := by
  unfold State.writeP; split <;> rfl

/-! ### Sources: everything but a pop leaves the state as it is -/

@[simp] theorem readSrc_reg (s : State) (any : Bool) (n : VReg) (t : Bool) : s.readSrc any (.reg n t) = (s, s.vreg n.toNat) := rfl
@[simp] theorem readSrc_uni (s : State) (any : Bool) (n : SReg) : s.readSrc any (.uni n) = (s, fun _ => lo32 (s.src64 n)) := rfl
@[simp] theorem readSrc_con (s : State) (any : Bool) (k : ConstSrc) : s.readSrc any (.con k) = (s, s.constant k) := rfl
@[simp] theorem writeDest_reg (s : State) (n : VReg) (m : Mask) (x : LaneVec) : s.writeDest (.reg n) m x = s.writeV n.toNat m x := rfl

/-! ### Running -/

/-- A word that passes its checks is its body, and retires. -/
theorem laneRun_go (s : State) (u : LaneUse) (body : State → State) (h : u.gate s = .go) :
    s.laneRun u .single body = (body s).retireLane := by simp [State.laneRun, h]
theorem laneRun_wait (s : State) (u : LaneUse) (body : State → State) (n : Nat) (h : u.gate s = .wait n) :
    s.laneRun u .single body = s.waitLane n := by simp [State.laneRun, h]
theorem laneRun_trap (s : State) (u : LaneUse) (body : State → State) (t : MemTrap) (h : u.gate s = .trap t ∨ u.gate s = .late t) :
    s.laneRun u .single body = s.laneTrap false t := by rcases h with h | h <;> simp [State.laneRun, h]
/-- The halves of a pair run after the checks of the pair. -/
theorem laneRun_x (s : State) (u : LaneUse) (body : State → State) : s.laneRun u .x body = body s := rfl
theorem laneRun_y (s : State) (u : LaneUse) (body : State → State) : s.laneRun u .y body = (body s).retireLane := rfl

theorem parkedLane_none (s : State) (h : s.warp.parkL = none) : s.parkedLane = none := by simp [State.parkedLane, h]

/-- With no access of the warp in the reorder buffer the operands are those that the registers hold. -/
theorem laneArgs_fresh (s : State) (u : LaneUse) (h : s.warp.rob = []) : s.laneArgs u = s.readArgs u := by
  simp [State.laneArgs, Warp.headEntry, h]
/-- A word that uses no operand log never waits for room in it. -/
theorem logFull_none (s : State) (u : LaneUse) (h : u.log = none) : s.logFull u = false := by simp [State.logFull, h]

/-- An access that passes its checks is its body: done, it retires; else it waits or traps. -/
theorem laneAccess_ok (s t : State) (u : LaneUse) (body : LaneArgs → State → Res Unit) (hp : s.warp.parkL = none)
    (h : u.gate s = .go) (hf : s.logFull u = false) (hb : body (s.laneArgs u) s = .ok t ()) :
    s.laneAccess u body = t.retireLane := by
  simp [State.laneAccess, parkedLane_none s hp, h, hf, hb]
theorem laneAccess_wait (s t : State) (u : LaneUse) (body : LaneArgs → State → Res Unit) (n : Nat) (hp : s.warp.parkL = none)
    (h : u.gate s = .go) (hf : s.logFull u = false) (hb : body (s.laneArgs u) s = .wait t n) :
    s.laneAccess u body = (t.logWord (s.laneArgs u)).waitLane n := by
  simp [State.laneAccess, parkedLane_none s hp, h, hf, hb]
theorem laneAccess_full (s : State) (u : LaneUse) (body : LaneArgs → State → Res Unit) (hp : s.warp.parkL = none)
    (h : u.gate s = .go) (hf : s.logFull u = true) : s.laneAccess u body = s.waitLane 7 := by
  simp [State.laneAccess, parkedLane_none s hp, h, hf]
theorem laneAccess_trap (s t : State) (u : LaneUse) (body : LaneArgs → State → Res Unit) (e : MemTrap) (hp : s.warp.parkL = none)
    (h : u.gate s = .go) (hf : s.logFull u = false) (hb : body (s.laneArgs u) s = .trap t e) :
    s.laneAccess u body = t.laneTrap false e := by
  simp [State.laneAccess, parkedLane_none s hp, h, hf, hb]

/-- A word none of whose registers, channels or feature bits stand in the way goes on. -/
theorem gate_go (s : State) (u : LaneUse) (he : u.early s = none) (hr : u.rest s = .go) : u.gate s = .go := by
  simp [LaneUse.gate, he, hr]

@[simp] theorem vreg_retireLane (s : State) (n l : Nat) : s.retireLane.vreg n l = s.vreg n l := by
  unfold State.retireLane State.vreg State.onWarp Warp.retireWord
  cases h : s.warp.queue <;> simp
@[simp] theorem preds_retireLane (s : State) : s.retireLane.warp.preds = s.warp.preds := by
  unfold State.retireLane State.onWarp Warp.retireWord
  cases h : s.warp.queue <;> simp
@[simp] theorem dev_retireLane (s : State) : s.retireLane.dev = s.dev := rfl
@[simp] theorem team_retireLane (s : State) : s.retireLane.team = s.team := rfl

end Sys2Proof.Machine
end

