-- ==== Sys2Proof/Laws/Memory.lean ====
section
/-!
SUPPORT. Every named operation that writes memory keeps its canonical form, and the reset memory has it (assumption 1).
-/

namespace Sys2Proof.Machine

open Sys2Proof

/-- The form that every step keeps: addresses strictly rising, no zero byte listed. -/
abbrev State.memOk (s : State) : Prop := s.dev.mem.wf = true

theorem reset_memOk : State.reset.memOk := by unfold State.memOk; decide

theorem memOk_of_dev {s t : State} (h : t.dev = s.dev) (hs : s.memOk) : t.memOk := by
  unfold State.memOk; rw [h]; exact hs

theorem memOk_onWarp (s : State) (f : Warp → Warp) (h : s.memOk) : (s.onWarp f).memOk := h
theorem memOk_post (s : State) (es : List Instr) (h : s.memOk) : (s.post es).memOk := h
theorem memOk_hold (s : State) (e : Instr) (h : s.memOk) : (s.hold e).memOk := h
theorem memOk_setWarp (s : State) (w : Warp) (h : s.memOk) : (s.setWarp w).memOk := h
theorem memOk_setTeam (s : State) (t : Team) (h : s.memOk) : (s.setTeam t).memOk := h
theorem memOk_setCtx (s : State) (c : Context) (h : s.memOk) : (s.setCtx c).memOk := h
theorem memOk_setLaunch (s : State) (l : Launch) (h : s.memOk) : (s.setLaunch l).memOk := h
theorem memOk_setCore (s : State) (c : Core) (h : s.memOk) : (s.setCore c).memOk := by
  unfold State.setCore State.memOk
  split <;> [exact h; (split <;> exact h)]

/-- A fold of operations that keep the form keeps it. -/
theorem memOk_foldl {α : Type} (f : State → α → State) (hf : ∀ s x, s.memOk → (f s x).memOk) (xs : List α) (s : State)
    (h : s.memOk) : (xs.foldl f s).memOk := by
  induction xs generalizing s with
  | nil => exact h
  | cons x xs ih => exact ih _ (hf s x h)

/-! ### Operations that leave memory as it is -/

@[simp] theorem mem_setCore (s : State) (c : Core) : (s.setCore c).dev.mem = s.dev.mem := by
  unfold State.setCore
  split <;> [rfl; (split <;> rfl)]
@[simp] theorem mem_setLaunch (s : State) (l : Launch) : (s.setLaunch l).dev.mem = s.dev.mem := rfl
@[simp] theorem mem_dropChecks (s : State) (k : WarpKey) : (s.dropChecks k).dev.mem = s.dev.mem := rfl
@[simp] theorem mem_releaseBars (s : State) : s.releaseBars.dev.mem = s.dev.mem := rfl
@[simp] theorem mem_refreshAllowance (s : State) (core : Nat) : (s.refreshAllowance core).dev.mem = s.dev.mem := by
  unfold State.refreshAllowance
  split
  · rfl
  · exact mem_setCore _ _

theorem mem_foldl {α : Type} (f : State → α → State) (hf : ∀ s x, (f s x).dev.mem = s.dev.mem) (xs : List α) (s : State) :
    (xs.foldl f s).dev.mem = s.dev.mem := by
  induction xs generalizing s with
  | nil => rfl
  | cons x xs ih => exact (ih _).trans (hf s x)

theorem mem_cancelStores (s : State) (cn : Nat) (k : TeamKey) : (s.cancelStores cn k).dev.mem = s.dev.mem := by
  unfold State.cancelStores
  dsimp only
  split <;> rfl

/-- The end of a team writes no byte of memory. -/
theorem mem_endTeam (s : State) (t : Team) (r : Store 64) : (s.endTeam t r).dev.mem = s.dev.mem := by
  unfold State.endTeam
  rw [State.post_dev, mem_releaseBars, mem_refreshAllowance]
  split <;> split <;> exact (mem_foldl State.dropChecks mem_dropChecks _ _).trans (mem_cancelStores s _ _)

/-- Killing a team writes no byte of memory. -/
theorem mem_killTeam (s : State) (k : TeamKey) (r : Store 64) : (s.killTeam k r).dev.mem = s.dev.mem := by
  unfold State.killTeam
  split
  · rfl
  · split
    · rfl
    · split
      · rfl
      · exact mem_endTeam _ _ _

/-- Taking a trap writes no byte of memory (01:R33). -/
theorem mem_takeTrap (s : State) (lane half : Bool) (t : MemTrap) : (s.takeTrap lane half t).dev.mem = s.dev.mem := by
  unfold State.takeTrap
  split
  · rfl
  · split
    · rfl
    · unfold State.deliver
      cases lane <;>
      · simp only [Bool.false_eq_true, if_false, if_true]
        split
        · exact mem_killTeam _ _ _
        · split
          · exact mem_killTeam _ _ _
          · rfl

/-- Returning from the handler writes none either. -/
@[simp] theorem mem_returnFromHandler (s : State) (skip : Bool) : (s.returnFromHandler skip).dev.mem = s.dev.mem := rfl
@[simp] theorem mem_writeS (s : State) (n : SReg) (x : W64) : (s.writeS n x).dev.mem = s.dev.mem := by
  unfold State.writeS; split <;> rfl
@[simp] theorem mem_retireLane (s : State) : s.retireLane.dev.mem = s.dev.mem := rfl

/-! ### Operations that write memory -/

theorem wf_putPage (d : Device) (p : Page) (f : W64 → W64) (h : d.mem.wf = true) : (d.putPage p f).mem.wf = true := by
  unfold Device.putPage
  split
  · generalize List.range 32 = xs
    exact Store.wf_foldl _ (fun m x hm => wf_writeD m _ _ hm) xs _ h
  · exact wf_writeD _ _ _ h

theorem wf_markDirty (d : Device) (p : Page) (h : d.mem.wf = true) : (d.markDirty p).mem.wf = true := by
  unfold Device.markDirty
  split
  · exact h
  · exact wf_putPage d p _ h

theorem wf_writePhys (d : Device) (pa : Nat) (bs : List Byte) (h : d.mem.wf = true) : (d.writePhys pa bs).mem.wf = true :=
  wf_writeBytes _ _ _ h

theorem wf_copyFrame (d : Device) (old new : Nat) (h : d.mem.wf = true) : (d.copyFrame old new).mem.wf = true :=
  Store.wf_setAll _ _ (Store.wf_filter _ _ h)

theorem memOk_storeLine (s : State) (line : Nat) (data : LineData) (poison : Bool) (h : s.memOk) :
    (s.storeLine line data poison).memOk := by
  unfold State.storeLine
  dsimp only
  split
  · exact h
  · split
    · exact wf_markDirty _ _ (wf_writePhys _ _ _ h)
    · exact h
    · exact h

theorem memOk_newEntry (s : State) (place : Nat) (large : Bool) (entry : W64) (h : s.memOk) :
    (s.newEntry place large entry).memOk := by
  unfold State.newEntry
  dsimp only
  split
  · generalize List.range 32 = xs
    exact Store.wf_foldl _ (fun m x hm => wf_writeD m _ _ hm) xs _ h
  · exact wf_writeD _ _ _ h

theorem memOk_zeroFrame (s : State) (frame : Nat) (h : s.memOk) : (s.zeroFrame frame).memOk := Store.wf_filter _ _ h

theorem memOk_enterAppend (s : State) (place frame : Nat) (h : s.memOk) : (s.enterAppend place frame).memOk :=
  wf_writeD _ _ _ (memOk_zeroFrame s frame h)

@[simp] theorem mem_bumpHeld (s : State) (p : Nat → Bool) : (s.bumpHeld p).dev.mem = s.dev.mem := by
  unfold State.bumpHeld
  dsimp only
  generalize ((List.filter p _).eraseDups : List Nat) = xs
  generalize s.dev = d
  induction xs generalizing d with
  | nil => rfl
  | cons x xs ih => exact (ih _).trans rfl
@[simp] theorem mem_endShare (s : State) (cn page : Nat) : (s.endShare cn page).dev.mem = s.dev.mem := by
  unfold State.endShare
  split
  · rfl
  · dsimp only
    split <;> rfl

/-- Bringing a core's own copy up to date, and bounding the copies under way to it, write no byte of memory. -/
@[simp] theorem mem_updateCopy (s : State) (core line : Nat) (bs : List (Nat × Byte)) :
    (s.updateCopy core line bs).dev.mem = s.dev.mem := by
  unfold State.updateCopy
  split
  · rfl
  · split
    · exact mem_setCore _ _
    · rfl
@[simp] theorem mem_raiseFloor (s : State) (core line : Nat) (ver : W64) :
    (s.raiseFloor core line ver).dev.mem = s.dev.mem := by
  unfold State.raiseFloor
  dsimp only
  split
  · exact mem_setCore _ _
  · rfl

theorem memOk_zeroArray (s : State) (c : Context) (core : Nat) (g : Region) (h : s.memOk) : (s.zeroArray c core g).memOk := by
  unfold State.zeroArray
  refine memOk_foldl _ (fun t part ht => ?_) _ _
    (memOk_foldl _ (fun t line ht => by rwa [State.memOk, mem_raiseFloor, mem_updateCopy]) _ _
      (by rwa [State.memOk, mem_bumpHeld]))
  dsimp only
  split
  · exact ht
  · exact ht
  · rw [State.memOk, mem_endShare]
    exact wf_markDirty _ _ (Store.wf_filter _ _ ht)

/-- The helper that puts code where a fetch reads it keeps the form too. -/
theorem memOk_placeCode (s t : State) (a : W64) (bs : List Byte) (h : s.memOk) (e : s.placeCode a bs = some t) : t.memOk := by
  unfold State.placeCode at e
  dsimp only at e
  split at e
  · cases e; exact Store.wf_setAll _ _ h
  · cases e

end Sys2Proof.Machine
end

