-- ==== Sys2Proof/Laws/Scalar.lean ====
section
/-!
SUPPORT. The scalar registers and the frame of a scalar instruction: what a write, a retirement and a wait do, and how an
instruction that may wait or trap runs when nothing stands in its way.
-/

namespace Sys2Proof.Machine

open Sys2Proof

/-! ### Registers -/

/-- s0 reads as zero whatever the state. -/
@[simp] theorem S_zero (s : State) : s.S 0 = 0 := rfl

theorem S_of_warp {s t : State} (h : t.warp.s = s.warp.s) (n : SReg) : t.S n = s.S n := by simp [State.S, h]

/-- A read after a write: the register written, s0 apart, has the value; every other one is unchanged. -/
@[simp] theorem S_writeS (s : State) (n m : SReg) (x : W64) : (s.writeS n x).S m = if m = n ∧ m ≠ 0 then x else s.S m := by
  unfold State.writeS State.S
  by_cases hn : n = 0
  · subst hn
    by_cases hm : m = 0 <;> simp [hm]
  · by_cases hm : m = 0
    · subst hm; simp
    · have : m.toNat = n.toNat ↔ m = n := BitVec.toNat_inj
      by_cases h : m = n <;> simp_all

@[simp] theorem S_retireTo (s : State) (pc : W64) (k : Nat) (m : SReg) : (s.retireTo pc k).S m = s.S m := rfl
@[simp] theorem S_retire (s : State) (k : Nat) (m : SReg) : (s.retire k).S m = s.S m := rfl
@[simp] theorem S_waitScalar (s : State) (k : Nat) (m : SReg) : (s.waitScalar k).S m = s.S m := rfl
@[simp] theorem S_post (s : State) (es : List Instr) (m : SReg) : (s.post es).S m = s.S m := rfl

/-- What a retirement leaves: SPC at the given address, and only the stream's own marks changed beside it. -/
theorem retire_spc (s : State) (k : Nat) : (s.retire k).warp.spc = s.warp.spc + 4 := rfl

/-! ### The frame of an instruction that may wait or trap -/

theorem parkedScalar_none (s : State) (h : s.warp.parkS = none) : s.parkedScalar = none := by simp [State.parkedScalar, h]

/-- Nothing stands before the access: the instruction is its body. -/
theorem scalarRun_free (s : State) (body : State → Res Unit) (h : s.warp.parkS = none) :
    s.scalarRun body = finish (body s) := by simp [State.scalarRun, parkedScalar_none s h]

theorem finish_ok (s : State) (x : Unit) : finish (.ok s x) = .next s.retire := rfl
theorem finish_wait (s : State) (n : Nat) : finish (.wait s n) = .next (s.waitScalar n) := rfl
theorem finish_trap (s : State) (t : MemTrap) : finish (.trap s t) = .next (s.takeTrap false false t) := rfl

@[simp] theorem bind_ok {α β : Type} (s : State) (x : α) (f : State → α → Res β) : (Res.ok s x).bind f = f s x := rfl
@[simp] theorem bind_wait {α β : Type} (s : State) (n : Nat) (f : State → α → Res β) :
    (Res.wait s n : Res α).bind f = .wait s n := rfl
@[simp] theorem bind_trap {α β : Type} (s : State) (t : MemTrap) (f : State → α → Res β) :
    (Res.trap s t : Res α).bind f = .trap s t := rfl

/-- A scalar instruction in its frame always answers a next state. -/
theorem scalarRun_next (s : State) (body : State → Res Unit) : ∃ t, s.scalarRun body = .next t := by
  unfold State.scalarRun
  split
  · exact ⟨_, rfl⟩
  · cases body s <;> exact ⟨_, rfl⟩

@[simp] theorem lanesRetired_empty (s : State) (n : Nat) (h : s.warp.queue = []) : s.lanesRetired n = .ok s () := by
  simp [State.lanesRetired, h]
@[simp] theorem takeReport_none (s : State) (h : s.warp.report = none) : s.takeReport = .ok s () := by
  simp [State.takeReport, h]

end Sys2Proof.Machine
end

