-- ==== Sys2Proof/Tests/Slice0.lean ====
section
/-!
SUPPORT. Tests: ill-formed terms that each check refuses, words written out bit by bit from the spec's encodings, single steps
whose results the spec gives, and, for every statement of Certificates/Slice0/Obligations.lean that has hypotheses, states and
operands that meet them (the theorems test_hyps_…; a statement of several clauses has a witness for each).
-/

namespace Sys2Proof.Tests

-- One proof at a time: the kernel evaluations below are not to run side by side.
set_option Elab.async false

open Sys2Proof Sys2Proof.Machine

/-! ## States to test on -/

/-- A result that is there and of which p holds. -/
def gives {α : Type} (r : Res α) (p : State → α → Bool) : Bool :=
  match r with
  | .ok s x => p s x
  | .wait _ _ => false
  | .trap _ _ => false

theorem gives_ok {α : Type} {r : Res α} {p : State → α → Bool} (h : gives r p = true) : ∃ s x, r = .ok s x ∧ p s x = true := by
  cases r with
  | ok s x => exact ⟨s, x, rfl, h⟩
  | wait s n => cases h
  | trap s t => cases h

/-- An access that the memory side admits. -/
def admits {α : Type} (r : Adm α) (p : State → α → Bool) : Bool :=
  match r with
  | .ok s x => p s x
  | .absent _ => false
  | .hold _ => false

theorem admits_ok {α : Type} {r : Adm α} {p : State → α → Bool} (h : admits r p = true) : ∃ s x, r = .ok s x ∧ p s x = true := by
  cases r with
  | ok s x => exact ⟨s, x, rfl, h⟩
  | absent n => cases h
  | hold s => cases h

/-- A loaded machine with one warp. -/
def desk : State := State.reset.bench

/-- One scalar register of the warp set by hand. -/
def setS (s : State) (r : Nat) (x : W64) : State := { s with warp := { s.warp with s := s.warp.s.set r x } }

/-- A scratchpad of 4 KiB that holds the bytes 0x81, 0x92, 0xA3 and 0xB4 at 16, with s4 at its byte 16. -/
def withScratch : State :=
  setS { desk with team := { desk.team with
    hdr := { desk.team.hdr with scratch := 4096 }, scratch := [(16, 0x81), (17, 0x92), (18, 0xA3), (19, 0xB4)] } } 4 0x00FFFF0000000010

/-- The code page as data: s4 at its byte 256. -/
def withPage : State := setS desk 4 0x10100

/-- The core holds the line of that byte. -/
def withLine (st : LState) : State :=
  { withPage with core := { withPage.core with l1 := [⟨tagged 1 0x10100, st, 0x11223344, false, 0, false⟩] } }

/-- The same machine in deterministic mode, with the warp's turn in the clearing. -/
def det (s : State) : State := { s with team := { s.team with det := true }, warp := { s.warp with clearS := .granted, clearL := .granted } }

/-- Blocks waiting in the lane queue. -/
def withQueue (s : State) (n : Nat) : State :=
  { s with warp := { s.warp with queue := List.replicate n ⟨0x10000, 1, [], 0, 1⟩ } }

/-- A store that a VSYNC has put before what follows is still under way. -/
def fenced (s : State) : State :=
  { s with warp := { s.warp with wbuf := [⟨0, tagged 1 0x10180, [⟨0, 0x10180, 0x10180, [1]⟩], none, .sent, true, false, 0, false, false⟩] } }

/-- The checks of the scalar access at s4 have passed before. -/
def rechecked (s : State) : State := { s with warp := { s.warp with scalIa := some (s.S 4, 0x10100) } }

/-! ## Witnesses: the scalar stream -/

theorem test_hyps_RegisterArithmetic :
    (∃ f, Claims.aluFn (.div true 5 6 0) = some (true, 5, 6, 0, f)) ∧ (∃ f, Claims.aluFn (.sra false 0 4 31) = some (false, 0, 4, 31, f)) :=
  ⟨⟨_, rfl⟩, ⟨_, rfl⟩⟩

theorem test_hyps_BitCounts : ∃ P, Claims.countOf (.sClz true 6 0) = some (true, 6, 0, P) := ⟨_, rfl⟩

theorem test_hyps_ImmediateForms :
    (Instr.srai true 5 6 31).wf = true ∧ (∃ x, Claims.immValue desk (.srai true 5 6 31) = some (5, x)) ∧
    (Instr.slli false 5 6 63).wf = true ∧ (∃ x, Claims.immValue desk (.slli false 0 6 63) = some (0, x)) :=
  ⟨rfl, ⟨_, rfl⟩, rfl, ⟨_, rfl⟩⟩

theorem test_hyps_BranchesAndJumps :
    (∃ c, Claims.branchOf desk (.bltu 4 5 0x8000) = some (c, -32768, false)) ∧
    (∃ c, Claims.branchOf desk (.jal 0x3FFFFFF) = some (c, -1, true)) ∧
    (BitVec.ofInt 64 (((setS desk 4 0x10004).S 4).toInt + (0xFFFC : BitVec 16).toInt)).toNat % 4 = 0 ∧
    (BitVec.ofInt 64 (((setS desk 4 0x10004).S 4).toInt + (0xFFFD : BitVec 16).toInt)).toNat % 4 ≠ 0 :=
  ⟨⟨_, rfl⟩, ⟨_, rfl⟩, by decide, by decide⟩

/-- The last four bytes of the scratchpad. -/
theorem test_hyps_ScratchpadAccesses :
    Claims.loadOf (.ldw 5 4 0xFEC) = some (4, true, 5, 4, 0xFEC) ∧ Claims.storeOf (.stw 0 4 0xFEC) = some (4, 0, 4, 0xFEC) ∧
    withScratch.warp.parkS = none ∧ Claims.InScratch withScratch 4 (Claims.addrOf withScratch 4 0xFEC) ∧
    Claims.SoundScratch withScratch 4 (Claims.addrOf withScratch 4 0xFEC) ∧
    Claims.ScalarUnwatched withScratch [.r] 4 (Claims.addrOf withScratch 4 0xFEC) ∧
    Claims.ScalarUnwatched withScratch [.w] 4 (Claims.addrOf withScratch 4 0xFEC) ∧ withScratch.fenceBusy = false ∧
    (fenced withScratch).warp.parkS = none ∧ (fenced withScratch).fenceBusy = true ∧
    Claims.InScratch (fenced withScratch) 4 (Claims.addrOf (fenced withScratch) 4 0xFEC) ∧
    Claims.ScalarUnwatched (fenced withScratch) [.r] 4 (Claims.addrOf (fenced withScratch) 4 0xFEC) ∧
    Claims.ScalarUnwatched (fenced withScratch) [.w] 4 (Claims.addrOf (fenced withScratch) 4 0xFEC) := by
  unfold Claims.InScratch Claims.ScalarUnwatched Claims.Unwatched Claims.SoundScratch; decide

/-- The doubleword at byte 16 of the scratchpad holds an uncorrectable error. -/
def withBadScratch : State := { withScratch with team := { withScratch.team with badScratch := [2] } }

theorem test_hyps_ScratchpadErrors :
    withBadScratch.warp.parkS = none ∧ Claims.InScratch withBadScratch 4 (Claims.addrOf withBadScratch 4 0) ∧
    ¬ Claims.SoundScratch withBadScratch 4 (Claims.addrOf withBadScratch 4 0) ∧
    Claims.ScalarUnwatched withBadScratch [.r] 4 (Claims.addrOf withBadScratch 4 0) ∧ withBadScratch.fenceBusy = false := by
  unfold Claims.InScratch Claims.ScalarUnwatched Claims.Unwatched Claims.SoundScratch; decide

/-- A halfword at an odd address, and a word past the allocation. -/
theorem test_hyps_ScalarAccessesThatDoNotFit :
    withScratch.warp.parkS = none ∧ withScratch.warp.scalIa = none ∧ (Claims.addrOf withScratch 4 1).toNat % 2 ≠ 0 ∧
    Claims.loadOf (.ldh 5 4 1) = some (2, true, 5, 4, 1) ∧ Claims.storeOf (.sth 5 4 1) = some (2, 5, 4, 1) ∧
    (Claims.addrOf withScratch 4 0xFF0).toNat % 4 = 0 ∧ 0x00FFFF0000000000 ≤ (Claims.addrOf withScratch 4 0xFF0).toNat ∧
    (Claims.addrOf withScratch 4 0xFF0).toNat < 0x00FFFF0000100000 ∧
    withScratch.team.hdr.scratch < (Claims.addrOf withScratch 4 0xFF0).toNat - 0x00FFFF0000000000 + 4 ∧
    Claims.loadOf (.ldw 5 4 0xFF0) = some (4, true, 5, 4, 0xFF0) := by
  refine ⟨rfl, rfl, ?_, rfl, rfl, ?_, ?_, ?_, ?_, rfl⟩ <;> decide

theorem test_hyps_ScalarLoadsOfHeldLines :
    Claims.Checked (withLine .sc) [.r] 4 (Claims.addrOf (withLine .sc) 4 0) 0x10100 ∧
    Claims.ScalarUnwatched (withLine .sc) [.r] 4 (Claims.addrOf (withLine .sc) 4 0) ∧
    (Claims.heldLine (withLine .sc) 0x10100).map (fun l => (l.poison, l.parity, ((withLine .sc).coreOf 0).stale l)) = some (false, false, false) ∧
    (withLine .sc).team.core = 0 ∧ (withLine .sc).fenceBusy = false ∧ (withLine .sc).scalarBusy 0x10100 = false ∧
    Claims.Checked (rechecked (withLine .sc)) [.r] 4 (Claims.addrOf (rechecked (withLine .sc)) 4 0) 0x10100 ∧
    Claims.ScalarUnwatched (rechecked (withLine .sc)) [.r] 4 (Claims.addrOf (rechecked (withLine .sc)) 4 0) :=
  ⟨by unfold Claims.Checked; decide, by unfold Claims.ScalarUnwatched Claims.Unwatched; decide, by decide, by decide, by decide, by decide,
    by unfold Claims.Checked; decide, .inl rfl⟩

theorem test_hyps_ScalarLoadsOfOtherLines :
    Claims.Checked withPage [.r] 4 (Claims.addrOf withPage 4 0) 0x10100 ∧ Claims.ScalarUnwatched withPage [.r] 4 (Claims.addrOf withPage 4 0) ∧
    Claims.heldLine withPage 0x10100 = none ∧ missingKind withPage.dev withPage.ctx 0x10100 = none ∧ Claims.Unheld withPage 0x10100 ∧
    admits ((Claims.issued withPage .r (Claims.addrOf withPage 4 0)).readLine withPage.ctx withPage.team.core 0x10100) (fun _ x => x.2 == false) = true :=
  ⟨by unfold Claims.Checked; decide, by unfold Claims.ScalarUnwatched Claims.Unwatched; decide, by decide, by decide,
    by unfold Claims.Unheld; decide, by decide⟩

/-- The home accepts the warp's next scalar store and performs it later. -/
def lateStore : State := { withPage with warp := { withPage.warp with late := true } }

theorem test_hyps_ScalarStoresReachTheirHome :
    Claims.Checked withPage [.w] 4 (Claims.addrOf withPage 4 0) 0x10100 ∧ Claims.ScalarUnwatched withPage [.w] 4 (Claims.addrOf withPage 4 0) ∧
    withPage.team.det = false ∧ (∃ p₀, walk withPage.dev withPage.ctx 0x10100 = .page p₀) ∧
    writeVerdict withPage.dev withPage.ctx 0x10100 4 = none ∧ Claims.heldLine withPage 0x10100 = none ∧ Claims.Unheld withPage 0x10100 ∧
    withPage.warp.late = false ∧
    admits ((Claims.issued withPage .w (Claims.addrOf withPage 4 0)).letIn withPage.ctx (.core withPage.team.core) true false false 0x10100)
      (fun _ _ => true) = true ∧
    Claims.Checked lateStore [.w] 4 (Claims.addrOf lateStore 4 0) 0x10100 ∧ Claims.Unheld lateStore 0x10100 ∧ lateStore.warp.late = true ∧
    (∃ p₀, walk lateStore.dev lateStore.ctx 0x10100 = .page p₀) ∧ lateStore.core.holdsPrivate (tagged lateStore.ctx.num 0x10100) = false :=
  ⟨by unfold Claims.Checked; decide, by unfold Claims.ScalarUnwatched Claims.Unwatched; decide, rfl, ⟨_, rfl⟩, by decide, by decide,
    by unfold Claims.Unheld; decide, rfl, by decide, by unfold Claims.Checked; decide, by unfold Claims.Unheld; decide, rfl, ⟨_, rfl⟩, by decide⟩

theorem test_hyps_DeterministicScalarStores :
    Claims.Checked (det withPage) [.w] 4 (Claims.addrOf (det withPage) 4 0) 0x10100 ∧
    Claims.ScalarUnwatched (det withPage) [.w] 4 (Claims.addrOf (det withPage) 4 0) ∧ (det withPage).team.det = true ∧
    missingKind (det withPage).dev (det withPage).ctx 0x10100 = none ∧ writeVerdict (det withPage).dev (det withPage).ctx 0x10100 4 = none ∧
    Claims.Unheld (det withPage) 0x10100 :=
  ⟨by unfold Claims.Checked; decide, by unfold Claims.ScalarUnwatched Claims.Unwatched; decide, rfl, by decide, by decide,
    by unfold Claims.Unheld; decide⟩

theorem test_hyps_ScalarAtomicsOfTheScratchpad :
    Claims.amoOf (.acas true .quad .ar 5 4 6) = some (none, true, .quad, .ar, 5, 4, 6) ∧ Claims.Ended withScratch ∧
    Claims.InScratch withScratch 4 (withScratch.S 4) ∧ Claims.ScalarUnwatched withScratch [.r, .w] 4 (withScratch.S 4) ∧
    Claims.SoundScratch withScratch 4 (withScratch.S 4) ∧ withScratch.fenceBusy = false ∧ withScratch.team.det = false ∧
    (withQueue withScratch 1).warp.parkS = none ∧ (withQueue withScratch 1).warp.report = none ∧ ¬ Claims.Ended (withQueue withScratch 1) ∧
    Claims.InScratch (withQueue withScratch 1) 4 ((withQueue withScratch 1).S 4) ∧
    Claims.ScalarUnwatched (withQueue withScratch 1) [.r, .w] 4 ((withQueue withScratch 1).S 4) ∧
    (let s : State := { withScratch with team := { withScratch.team with det := true } };
      s.warp.parkS = none ∧ Claims.Ended s ∧ Claims.InScratch s 4 (s.S 4) ∧ Claims.ScalarUnwatched s [.r, .w] 4 (s.S 4) ∧
      s.fenceBusy = false ∧ s.team.det = true ∧ s.warp.clearS ≠ .granted) :=
  ⟨rfl, by unfold Claims.Ended; decide, by unfold Claims.InScratch; decide, by unfold Claims.ScalarUnwatched Claims.Unwatched; decide,
    by unfold Claims.SoundScratch; decide, by decide, rfl, rfl, rfl, by unfold Claims.Ended; decide, by unfold Claims.InScratch; decide,
    by unfold Claims.ScalarUnwatched Claims.Unwatched; decide,
    by unfold Claims.Ended Claims.InScratch Claims.ScalarUnwatched Claims.Unwatched; decide⟩

theorem test_hyps_ScalarAtomicsOfDeviceMemory :
    Claims.amoOf (.aadd false .die .rel 5 4 6) = some (some .add, false, .die, .rel, 5, 4, 6) ∧ Claims.Ended withPage ∧
    Claims.Checked withPage [.r, .w] 8 (withPage.S 4) 0x10100 ∧ Claims.ScalarUnwatched withPage [.r, .w] 8 (withPage.S 4) ∧
    iaOf withPage.ctx .w (withPage.S 4) = 0x10100 ∧ missingKind withPage.dev withPage.ctx 0x10100 = none ∧
    writeVerdict withPage.dev withPage.ctx 0x10100 8 = none ∧ Claims.Unheld withPage 0x10100 ∧
    admits ((Claims.issued withPage .w (withPage.S 4)).letIn withPage.ctx (.core withPage.team.core) true false true 0x10100)
      (fun u p => !u.dev.bad.contains (p.phys 0x10100 / 128)) = true ∧
    admits ((Claims.issued withPage .w (withPage.S 4)).placeAtomic .die (some .add) true 0x10100 (withPage.S 6) (withPage.S 5)) (fun _ x => x.2 == false) = true :=
  ⟨rfl, by unfold Claims.Ended; decide, by unfold Claims.Checked; decide, by unfold Claims.ScalarUnwatched Claims.Unwatched; decide, by decide, by decide,
    by decide, by unfold Claims.Unheld; decide, by decide, by decide⟩

/-- An earlier store is still buffered: END waits; an earlier block is there: BEGIN waits. -/
theorem test_hyps_ScopedAccessesAndPhases :
    Claims.InScratch withScratch 8 (withScratch.S 4) ∧ Claims.ScalarUnwatched withScratch [.r] 8 (withScratch.S 4) ∧
    Claims.ScalarUnwatched withScratch [.w] 8 (withScratch.S 4) ∧ Claims.SoundScratch withScratch 8 (withScratch.S 4) ∧ Claims.Ended withScratch ∧
    withScratch.fenceBusy = false ∧ (fenced withScratch).warp.parkS = none ∧ (fenced withScratch).fenceBusy = true ∧
    Claims.InScratch (fenced withScratch) 8 ((fenced withScratch).S 4) ∧ Claims.ScalarUnwatched (fenced withScratch) [.r] 8 ((fenced withScratch).S 4) ∧
    (withQueue desk 1).warp.parkS = none ∧ (withQueue desk 1).warp.report = none ∧ ¬ Claims.Ended (withQueue desk 1) ∧
    (withQueue desk 1).warp.queue ≠ [] ∧ desk.warp.queue = [] := by
  unfold Claims.InScratch Claims.ScalarUnwatched Claims.Unwatched Claims.SoundScratch Claims.Ended; decide

/-- Seven blocks leave room for one more, eight do not. -/
theorem test_hyps_BlocksAreEnqueued :
    (withQueue desk 7).warp.queue.length < 8 ∧ 8 ≤ (withQueue desk 8).warp.queue.length ∧
    ((setS desk 4 0x10002).S 4).toNat % 4 ≠ 0 ∧
    ((setS desk 4 0x0100000000000000).S 4).toNat % 4 = 0 ∧ 2 ^ 56 ≤ ((setS desk 4 0x0100000000000000).S 4).toNat ∧
    ((setS desk 4 0x00FFFFFFFFFFFFFC).S 4).toNat % 4 = 0 ∧ ((setS desk 4 0x00FFFFFFFFFFFFFC).S 4).toNat < 2 ^ 56 := by decide

/-- An entry in the SRQ. -/
def withSrq : State := { desk with warp := { desk.warp with srq := [7] } }

theorem test_hyps_WaitsPausesAndExits :
    desk.warp.parkS = none ∧ desk.warp.queue = [] ∧ (withQueue desk 1).warp.queue ≠ [] ∧ withSrq.warp.srq = 7 :: [] ∧ desk.warp.srq = [] ∧
    ((setS desk 4 0x100000000).S 4).toNat % 2 ^ 32 = 0 ∧ ((setS desk 4 1).S 4).toNat % 2 ^ 32 ≠ 0 ∧ desk.team.det = false ∧
    (det desk).team.det = true ∧ Claims.Ended desk ∧ (∀ f ∈ desk.warp.fills, f.arrived = f.lanes) := by
  unfold Claims.Ended; decide

/-- The warp owns four blocks of a pipe that has 28. -/
def withBlocks (n : Nat) : State := { desk with warp := { desk.warp with blocks := n } }

/-- Another warp of the pipe owns nearly all of it. -/
def withNeighbour : State :=
  { withBlocks 4 with warps := [{ desk.warp with key := ⟨1, 0, 4⟩, blocks := 1000 }] }

theorem test_hyps_RegisterBlocks :
    (8 : BitVec 4) ≠ 0 ∧ (withBlocks 4).warp.blocks + (8 : BitVec 4).toNat ≤ 12 ∧ Claims.CanGrow (withBlocks 4) (8 : BitVec 4).toNat ∧
    12 < (withBlocks 4).warp.blocks + (9 : BitVec 4).toNat ∧ ¬ Claims.CanGrow withNeighbour 8 ∧ withNeighbour.warp.blocks + 8 ≤ 12 ∧
    (withBlocks 4).warp.blocks ≤ (4 : BitVec 4).toNat ∧ (3 : BitVec 4).toNat < (withBlocks 4).warp.blocks ∧
    (withBlocks 4).warp.check = .idle ∧ (withBlocks 4).warp.parkL = none ∧ (withBlocks 4).warp.fills = [] ∧
    (withBlocks 4).warp.rob = [] := by
  unfold Claims.CanGrow; decide

/-- An ACCZ of one unit in s8 to s11. -/
def withTask : State := setS (setS withScratch 8 0x0000000100000003) 9 0

theorem test_hyps_TasksJoinTheRing :
    withTask.warp.parkS = none ∧ withTask.warp.report = none ∧ withTask.warp.queue = [] ∧ withTask.team.ring.length < 256 ∧
    (withTask.recordAt 8).reasonAgainst withTask.ctx.feat withTask.scrsize (withTask.team.loadFmt (withTask.recordAt 8).wsMma) = none ∧
    (withTask.recordAt 8).beyond withTask.scrsize (((withTask.team.loadFmt (withTask.recordAt 8).wsMma).map BitVec.toNat).getD 0) = none ∧
    withTask.team.ring.length ≤ (0 : BitVec 16).toNat := by decide

/-- The same task in the ring. -/
def withRing : State := { withTask with team := { withTask.team with ring := [withTask.recordAt 8] } }

/-- A report of a failed task is pending. -/
def withReport : State := { desk with warp := { desk.warp with report := some ⟨0, 3, 1, 0, 0⟩ } }

theorem test_hyps_TasksReport :
    (0 : BitVec 16).toNat < withRing.team.ring.length ∧ withReport.warp.parkS = none ∧
    withReport.warp.report = some ⟨0, 3, 1, 0, 0⟩ ∧ withReport.warp.queue = [] := by decide

/-- Doublewords of device memory set by hand. -/
def put (s : State) (a : Nat) (ws : List W64) : State :=
  { s with dev := { s.dev with mem := writeBytes s.dev.mem a (ws.flatMap (toBytes 8)) } }

/-! ## Witnesses: regions, extents, launches, channels, barriers, special registers -/

/-- A descriptor at 0x10200 of an array of four elements at 0x10400, and s4 at it. -/
def withDesc (kind : W64) : State :=
  put (setS { desk with ctx := { desk.ctx with pool := 3 } } 4 0x10200) 0x200200 [0x10400, 0x10002 + 0x100 * kind, 0, 0]

theorem test_hyps_RegionsAreDeclared :
    Claims.Ready (withDesc 0) 7 ∧ Claims.Ended (withDesc 0) ∧
    Claims.PassesIssue (withDesc 0) [.r] true 32 8 ((withDesc 0).S 4) ∧
    gives ((Claims.issued (withDesc 0) .r ((withDesc 0).S 4)).readDesc ((withDesc 0).S 4)) (fun t d => t.aggStatus d t.team.core == 0 && t.aggMissing d == none &&
      freeHandle t.ctx == some 1 && t.aggMoves d == []) = true ∧
    Claims.Ready (withDesc 6) 7 ∧ Claims.Ended (withDesc 6) ∧
    Claims.PassesIssue (withDesc 6) [.r] true 32 8 ((withDesc 6).S 4) ∧
    gives ((Claims.issued (withDesc 6) .r ((withDesc 6).S 4)).readDesc ((withDesc 6).S 4)) (fun t d => t.aggStatus d t.team.core == 1) = true ∧
    (Claims.Ready withScratch 7 ∧ Claims.Ended withScratch ∧ Claims.InScratch (setS withScratch 4 0x00FFFF0000000000) 32 0x00FFFF0000000000) :=
  ⟨by unfold Claims.Ready; decide, by unfold Claims.Ended; decide, by unfold Claims.PassesIssue; decide +kernel, by decide +kernel,
    by unfold Claims.Ready; decide, by unfold Claims.Ended; decide, by unfold Claims.PassesIssue; decide +kernel, by decide +kernel,
    by unfold Claims.Ready; decide, by unfold Claims.Ended; decide, by unfold Claims.InScratch; decide⟩

/-- The same descriptor on a page of the CXL tier, with a frame of the HBM tier in the pool. -/
def withFarDesc : State :=
  let s := setS { desk with ctx := { desk.ctx with pool := 3, frames := [70] }, dev := { desk.dev with tierPages := 4 } } 4 0x10200
  put (put s (frameAt true 0 + 0x200) [0x10400, 0x10002, 0, 0]) 0x110008 [0x8300000000000000]

theorem test_hyps_RegionsMoveUp :
    Claims.Ready withFarDesc 7 ∧ Claims.Ended withFarDesc ∧ Claims.PassesIssue withFarDesc [.r] true 32 8 (withFarDesc.S 4) ∧
    gives ((Claims.issued withFarDesc .r (withFarDesc.S 4)).readDesc (withFarDesc.S 4)) (fun t d => t.aggStatus d t.team.core == 0 &&
      t.aggMissing d == none && freeHandle t.ctx == some 1 && t.aggMoves d != []) = true :=
  ⟨by unfold Claims.Ready; decide, by unfold Claims.Ended; decide, by unfold Claims.PassesIssue; decide +kernel, by decide +kernel⟩

/-- A standing region of four elements at 0x10400, under handle 3, with s4 naming it. -/
def withRegion (kind : Nat) : State :=
  setS { desk with ctx := { desk.ctx with regions := [⟨3, 0x10400, [(0, 16, 0x10400)], 2, kind, []⟩] } } 4 3

theorem test_hyps_RegionsAreDropped :
    Claims.Ready (withRegion 0) 7 ∧ (∃ g ∈ (withRegion 0).ctx.regions, g.handle = ((withRegion 0).S 4).toNat) ∧
    Claims.Ready desk 7 ∧ (∀ g ∈ desk.ctx.regions, g.handle ≠ (desk.S 4).toNat) :=
  ⟨by unfold Claims.Ready; decide, by decide, by unfold Claims.Ready; decide, by decide⟩

/-- An append extent at 0x10000 with s4 inside it. -/
def withExtent (committed reserved : Nat) (closed sealed : Bool) : State :=
  setS { desk with ctx := { desk.ctx with extents := [⟨0x10000, 1, reserved, committed, closed, sealed, false, false⟩] } } 4 0x10100

/-- An EXTFREE of it has told package 5 to drop its page. -/
def withFreeing : State :=
  { withExtent 8 8 true true with
    ctx := { (withExtent 8 8 true true).ctx with extents := [⟨0x10000, 1, 8, 8, true, true, true, false⟩], pkgs := [5] }
    dev := { desk.dev with drops := [(pageKey 1 1, 5)] } }

theorem test_hyps_ExtentsEnd :
    (Claims.Ready (setS desk 4 0x00FFFF0000000000) 8 ∧ (setS desk 4 0x00FFFF0000000000).warp.sealing = false ∧
      inAperture ((setS desk 4 0x00FFFF0000000000).S 4) = true) ∧
    (Claims.Ready withPage 8 ∧ withPage.warp.sealing = false ∧ inAperture (withPage.S 4) = false ∧
      Claims.PassesIssue withPage [.w] false 1 1 (withPage.S 4) ∧ extentAt withPage.ctx (withPage.S 4) = none) ∧
    (Claims.Ready (withExtent 8 8 true true) 8 ∧ (withExtent 8 8 true true).warp.sealing = false ∧
      Claims.PassesIssue (withExtent 8 8 true true) [.w] false 1 1 ((withExtent 8 8 true true).S 4) ∧
      inAperture ((withExtent 8 8 true true).S 4) = false ∧
      extentAt (withExtent 8 8 true true).ctx ((withExtent 8 8 true true).S 4) = some ⟨0x10000, 1, 8, 8, true, true, false, false⟩ ∧
      (withExtent 8 8 true true).ctx.pkgs = [] ∧ (withExtent 8 8 true true).dev.drops = []) ∧
    (Claims.Ready withFreeing 8 ∧ Claims.PassesIssue withFreeing [.w] false 1 1 (withFreeing.S 4) ∧
      extentAt withFreeing.ctx (withFreeing.S 4) = some ⟨0x10000, 1, 8, 8, true, true, true, false⟩ ∧
      withFreeing.dropsOpen ((withFreeing.extentPages ⟨0x10000, 1, 8, 8, true, true, true, false⟩).map (pageKey 1)) = true) ∧
    (Claims.Ready (withExtent 8 8 false false) 8 ∧ Claims.PassesIssue (withExtent 8 8 false false) [.w] false 1 1 ((withExtent 8 8 false false).S 4) ∧
      extentAt (withExtent 8 8 false false).ctx ((withExtent 8 8 false false).S 4) = some ⟨0x10000, 1, 8, 8, false, false, false, false⟩) := by
  unfold Claims.Ready Claims.PassesIssue
  exact ⟨⟨by decide, by decide, by decide⟩, ⟨by decide, by decide, by decide, by decide, by decide⟩,
    ⟨by decide, by decide, by decide, by decide, by decide, by decide, by decide⟩, ⟨by decide, by decide, by decide, by decide⟩,
    ⟨by decide, by decide, by decide⟩⟩

/-- A shape record at 0x10200 of one byte at 0x10000, and s4 at it. -/
def withShape (flags : W64) : State := put (setS desk 4 0x10200) 0x200200 [0x10000, flags, 1, 0, 0, 0, 0, 0]

/-- An open escrow of the warp for the page at 0x10000. -/
def withEscrow : State := { withShape 0x10000 with ctx := { (withShape 0x10000).ctx with escrows := [⟨⟨1, 0, 0⟩, 1, 9⟩] } }

theorem test_hyps_EscrowsEnd :
    (Claims.Ready (withShape 0) 9 ∧ Claims.PassesIssue (withShape 0) [.r] false 64 8 ((withShape 0).S 4) ∧
      gives (State.loadWords ((withShape 0).S 4) 8 (Claims.issued (withShape 0) .r ((withShape 0).S 4)) []) (fun _ bs => !(shapeOf bs).escrow) = true) ∧
    gives (State.loadWords ((withShape 0x10000).S 4) 8 (Claims.issued (withShape 0x10000) .r ((withShape 0x10000).S 4)) [])
      (fun t bs => (shapeOf bs).escrow && bufferEscrow t.ctx (shapeOf bs) == [] && !t.escrowBusy (shapeOf bs)) = true ∧
    (Claims.Ready withEscrow 9 ∧ Claims.PassesIssue withEscrow [.r] false 64 8 (withEscrow.S 4) ∧
      gives (State.loadWords (withEscrow.S 4) 8 (Claims.issued withEscrow .r (withEscrow.S 4)) [])
        (fun t bs => (shapeOf bs).escrow && bufferEscrow t.ctx (shapeOf bs) != [] && !t.escrowBusy (shapeOf bs)) = true) := by
  unfold Claims.Ready Claims.PassesIssue
  exact ⟨⟨by decide +kernel, by decide +kernel, by decide +kernel⟩, by decide +kernel, by decide +kernel, by decide +kernel, by decide +kernel⟩

/-- An access of the memory side that is performed. -/
def reaches {α : Type} (r : Reach α) (p : State → α → Bool) : Bool :=
  match r with
  | .ok s x => p s x
  | .missing _ _ => false
  | .fault _ => false
  | .refused _ _ => false

theorem reaches_ok {α : Type} {r : Reach α} {p : State → α → Bool} (h : reaches r p = true) : ∃ s x, r = .ok s x ∧ p s x = true := by
  cases r with
  | ok s x => exact ⟨s, x, rfl, h⟩
  | missing k ia => cases h
  | fault n => cases h
  | refused c n => cases h

/-- A queue of two slots at 0x10400 under handle 1, its slots at 0x10800; a packet at 0x10200 with s4 at it, s5 the handle. -/
def withQueueBlock : State :=
  put (setS (setS { desk with ctx := { desk.ctx with queues := [(1, 0x10400)] } } 4 0x10200) 5 1) 0x200400 [0x10800, 1, 0, 0]

theorem test_hyps_LaunchOperations :
    Claims.Ready withQueueBlock 11 ∧ withQueueBlock.warp.packet = none ∧
    Claims.PassesIssue withQueueBlock [.r] true 64 8 (withQueueBlock.S 4) ∧
    gives (State.loadWords (withQueueBlock.S 4) 8 (Claims.issued withQueueBlock .r (withQueueBlock.S 4)) []) (fun t bs =>
      t.endDone && t.warp.report == none && !t.team.det &&
      t.ctx.queueAt (t.S 6) == none && t.ctx.queueAt (t.S 5) == some 0x10400 &&
      reaches ((t.onWarp (fun w => { w with packet := some bs })).appendPacket 0x10400 (t.childPacket bs)) (fun _ n => n == 0)) = true ∧
    (Claims.Ready withScratch 11 ∧ Claims.Ended (Claims.issued withScratch .r (withScratch.S 4)) ∧
      Claims.InScratch (setS withScratch 4 0x00FFFF0000000000) 64 0x00FFFF0000000000) := by
  unfold Claims.Ready Claims.PassesIssue Claims.Ended Claims.InScratch
  exact ⟨by decide +kernel, by decide +kernel, by decide +kernel, by decide +kernel, by decide +kernel, by decide +kernel, by decide +kernel⟩

/-- A descriptor of CHBIND: entry 2 to receive from entry 3 of warp 0 of team 0; and the same with a reserved bit. -/
theorem test_hyps_ChannelOperations :
    Claims.Ready desk 5 ∧ desk.warp.chans.length = 15 ∧ ((setS desk 4 0x30012).S 4).toNat / 2 ^ 32 < desk.team.teamCnt ∧
    ((setS desk 4 0x30012).S 4).toNat / 2 ^ 8 % 32 < (desk.team.hdr.lanes + 31) / 32 ∧ desk.team.teamCnt ≤ ((setS desk 4 0x100030012).S 4).toNat / 2 ^ 32 ∧
    ((setS desk 4 0x1030012).S 4).toNat / 2 ^ 20 % 4096 ≠ 0 ∧ ((setS desk 4 14).S 4).toNat ≤ 14 ∧ 14 < ((setS desk 4 15).S 4).toNat := by
  unfold Claims.Ready; exact ⟨by decide, by decide, by decide, by decide, by decide, by decide, by decide, by decide⟩

/-- The warp waits at barrier 5 of its team, or has been released. -/
def withBar (released : Bool) : State :=
  { desk with
    warp := { desk.warp with bar := [⟨0, 5, released⟩] }
    dev := { desk.dev with bars := [⟨1, 0, 5, 0, if released then [(0, 0)] else []⟩] } }

theorem test_hyps_Barriers :
    (∀ b ∈ desk.warp.bar, ¬(b.level = 0 ∧ b.id = 5)) ∧ desk.warp.parkS = none ∧ Claims.Ended desk ∧ desk.warp.report = none ∧
    desk.team.cores = false ∧ desk.team.det = false ∧
    (withBar true).warp.bar = [] ++ [⟨0, 5, true⟩] ++ [] ∧
    (withBar false).warpOf ⟨1, 0, 0⟩ = some (withBar false).warp ∧ (withBar false).teamOf ⟨1, 0⟩ = some (withBar false).team ∧
    (∃ b ∈ (withBar false).warp.bar, b.level = 0 ∧ b.id = 5 ∧ b.released = false) ∧
    (withBar true).dev.bars.find? (fun b => b.launch == 1 && b.level == 0 && b.id == 5 && b.unit == 0) = some ⟨1, 0, 5, 0, [(0, 0)]⟩ ∧
    (withBar true).barMissing ⟨1, 0, 5, 0, [(0, 0)]⟩ = false ∧ (withBar false).barMissing ⟨1, 0, 5, 0, []⟩ = true ∧
    (∀ b ∈ (withQueue desk 1).warp.bar, ¬(b.level = 0 ∧ b.id = 5)) ∧ ¬ Claims.Ended (withQueue desk 1) ∧
    (withBar false).warp.bar.find? (fun b => b.level == 0 && b.id == 5) = some ⟨0, 5, false⟩ := by
  refine ⟨by decide, by decide, by unfold Claims.Ended; decide, by decide, by decide, by decide, rfl, rfl, rfl, by decide, by decide, by decide,
    by decide, by decide, by unfold Claims.Ended; decide, by decide⟩

theorem test_hyps_SpecialRegisters :
    (∃ x, Claims.specialOf desk (0 : BitVec 6).toNat = some x) ∧ (∃ x, Claims.specialOf desk (23 : BitVec 6).toNat = some x) ∧
    ((setS desk 4 0x10).S 4).toNat % 16 = 0 ∧ ((setS desk 4 0x11).S 4).toNat % 16 ≠ 0 ∧ desk.warp.inHandler = false :=
  ⟨⟨_, rfl⟩, ⟨_, rfl⟩, by decide, by decide, rfl⟩

/-- A debugger holds every right on the context. -/
def debugged (s : State) : State := { s with dev := { s.dev with caps := [⟨7, 1, 0x3F, some 3⟩] } }

theorem test_hyps_TrapAndBrk : desk.debugHeld = false ∧ (debugged desk).debugHeld = true := by decide

/-! ## Witnesses: steps, traps, lane checks -/

/-- ADDI s5, s0, 1 at SPC, the scalar stream named next; a lane NOP, the lane stream named next; no line held. -/
theorem test_hyps_Steps :
    Claims.ScalarTurn { desk with plan := [.scalar] } desk ∧ desk.breakHit false desk.warp.spc = false ∧
    gives (desk.fetch false desk.warp.spc 4) (fun _ bs => bs.length == 4) = true ∧
    Claims.LaneTurn { withQueue desk 1 with plan := [.lane] } (withQueue desk 1) ∧
    (withQueue desk 1).breakHit true ((withQueue desk 1).warp.LPC.zeroExtend 64) = false ∧
    gives ((withQueue desk 1).fetch true ((withQueue desk 1).warp.LPC.zeroExtend 64) 12) (fun _ bs => bs.length == 12) = true ∧
    Claims.EventTurn { desk with events := [.bankSwap 0] } desk (.bankSwap 0) ∧ isMessage (.bankSwap 0) = true ∧
    (∃ t ia p, Claims.Fetches desk t 0x10000 4 ia p) :=
  ⟨⟨by decide, by decide, rfl, .inl ⟨[], rfl, rfl⟩⟩, by decide, by decide, ⟨by decide, by decide, .inl rfl, .inl ⟨[], rfl, rfl⟩⟩, by decide, by decide,
    .inl ⟨rfl, 0, rfl, by decide, by decide, rfl⟩, rfl, _, _, _, by decide, rfl, rfl, rfl, rfl, by decide⟩

/-- A step by turns, with nothing named next and nothing under way. -/
theorem test_hyps_StepsByTurns :
    let s : State := { withQueue desk 1 with warp := { (withQueue desk 1).warp with scalStalled := true } };
    Claims.ScalarTurn desk desk ∧ Claims.LaneTurn s s :=
  ⟨⟨by decide, by decide, rfl, .inr ⟨rfl, by intro n h; exact absurd h (by decide +revert), rfl, by decide, by decide, by decide⟩⟩,
    ⟨by decide, by decide, .inl rfl, .inr ⟨rfl, by intro n h; exact absurd h (by decide +revert), rfl, by decide, by decide, .inl (by decide)⟩⟩⟩

/-- The team has a trap handler. -/
def withHandler (s : State) : State := { s with team := { s.team with hdr := { s.team.hdr with handler := 0x10100 } } }

theorem test_hyps_Traps :
    Claims.Delivered (withHandler desk) ⟨0x0E, 0, 0, 63, 0⟩ ∧
    ((0x0E : BitVec 8) ≠ 0 ∧ desk.ctx.trapStop = false ∧ desk.team.hdr.handler = 0 ∧ desk.warp.status = .running ∧
      desk.team.key = desk.warp.key.teamKey ∧ desk.team.status = .running) ∧ Claims.Kills ⟨0x05, 0, 0, 0, 0⟩ ∧ Claims.Kills ⟨0x09, 0, 0, 3, 0⟩ :=
  ⟨by unfold Claims.Delivered Claims.Kills; decide, by decide, by unfold Claims.Kills; decide, by unfold Claims.Kills; decide⟩

/-- Another warp of the team has a lane word that is half gone. -/
theorem test_hyps_TrapsThatWait :
    let s : State := { desk with warps := [{ desk.warp with key := ⟨1, 0, 1⟩, done := [(0, 0)] }] };
    s.warp.status = .running ∧ s.warp.done = [] ∧ s.team.key = s.warp.key.teamKey ∧ s.team.status = .running ∧ s.team.dying = none ∧
    (∃ w ∈ s.warps, w.key.teamKey = s.team.key ∧ w.status = .running ∧ w.done ≠ []) ∧ (∀ w ∈ desk.warps, w.done = []) :=
  ⟨rfl, rfl, rfl, rfl, rfl, ⟨_, List.mem_singleton.mpr rfl, rfl, rfl, by decide⟩, by decide⟩

/-- A handler with a lane block under way, and a warp with two blocks that traps. -/
theorem test_hyps_Resume :
    ({ withQueue desk 1 with warp := { (withQueue desk 1).warp with inHandler := true } } : State).warp.queue ≠ [] ∧
    Claims.Delivered (withHandler (withQueue desk 2)) ⟨0x06, 0, 0, 0, 0⟩ ∧ (withHandler (withQueue desk 2)).warp.queue.length ≤ 8 ∧
    (∀ b ∈ (withHandler (withQueue desk 2)).warp.queue, Claims.SoundBlock b) := by
  refine ⟨by decide, by unfold Claims.Delivered Claims.Kills; decide, by decide, ?_⟩
  intro b hb
  have e : b = ⟨0x10000, 1, [], 0, 1⟩ := by
    simp only [withHandler, withQueue, List.mem_replicate] at hb; exact hb.2
  subst e
  exact ⟨by decide, by decide, by decide, fun k _ => rfl⟩

/-- FDOT8 with one feature missing, with a register beyond the file, with an unbound channel, with an empty register in each
mode, and with none of these. -/
theorem test_hyps_LaneChecks :
    let i (b : Value) : Instr := .fdot8 Claims.noGuard false false .rn (.reg 4) (Claims.v 2) b (Claims.v 3)
    let few : State := { desk with ctx := { desk.ctx with featMask := 0x1FFD } }
    let low : State := { desk with warp := { desk.warp with blocks := 1 } }
    let bare : State := { desk with warp := { desk.warp with empty := 1 <<< 5 } }
    Claims.LaneSingle (i (Claims.v 5)) ∧ Claims.LaneSingle (i (.chan 2 false)) ∧ Claims.LaneSingle (i (.reg 5 true)) ∧ Claims.LaneSingle (i (Claims.v 191)) ∧
    (1 ∈ (Instr.use (i (Claims.v 5))).feats ∧ few.ctx.feat.getLsbD 1 = false ∧ few.ctx.feat.getLsbD 0 = true) ∧
    ((Instr.use (i (Claims.v 191))).missing low.ctx.feat = none ∧ (∃ x ∈ (Instr.use (i (Claims.v 191))).named, 16 * low.warp.blocks < x.1 + x.2)) ∧
    ((Instr.use (i (.chan 2 false))).missing desk.ctx.feat = none ∧ (Instr.use (i (.chan 2 false))).beyondB 12 = false ∧ (desk.warp.chan 2).st = .unbound) ∧
    ((Instr.use (i (.reg 5 true))).missing bare.ctx.feat = none ∧ (5, true) ∈ (Instr.use (i (.reg 5 true))).reads ∧ bare.warp.empty.getLsbD 5 = true) ∧
    ((5, false) ∈ (Instr.use (i (Claims.v 5))).reads) ∧
    ((∀ r ∈ (Instr.use (i (Claims.v 5))).reads, desk.warp.empty.getLsbD r.1 = false ∧ desk.warp.poison.getLsbD r.1 = false) ∧ desk.warp.fills = []) := by
  unfold Claims.LaneSingle
  exact ⟨by decide, by decide, by decide, by decide, by decide, by decide, by decide, by decide, by decide, by decide⟩

/-! ## Witnesses: lane words -/

/-- A lane block under way with the warp's scalars as its snapshot, and lanes 0 and 1 active. -/
def laned (s : State) : State :=
  { s with warp := { s.warp with em := 3, queue := [⟨0x10000, 1, s.warp.s, 0, 1⟩] } }

theorem test_hyps_LaneInteger :
    (∃ F, Claims.intForm (laned desk) (.imad Claims.noGuard (.reg 4) (Claims.v 2) (.uni 5) (.con .lane)) = some F ∧ F.h = .single ∧
      (Instr.use (.imad Claims.noGuard (.reg 4) (Claims.v 2) (.uni 5) (.con .lane))).gate (laned desk) = .go) ∧
    (∃ F, Claims.intForm (laned desk) (.sel Claims.noGuard .y false 2 (.reg 4) (Claims.v 2) (Claims.v 3)) = some F ∧ F.h = .y) :=
  ⟨⟨_, rfl, rfl, rfl⟩, ⟨_, rfl, rfl⟩⟩

theorem test_hyps_ComparesPredicatesAndMasks :
    ((∃ x, Claims.predForm (laned desk) (.fcmp Claims.noGuard .lt 3 (Claims.v 2) (Claims.v 3)) = some x) ∧
      (Instr.use (.fcmp Claims.noGuard .lt 3 (Claims.v 2) (Claims.v 3))).gate (laned desk) = .go) ∧
    (Instr.use (.iaddc Claims.noGuard (.reg 4) (Claims.v 2) (Claims.v 3) 1 true 2)).gate (laned desk) = .go ∧
    ((∃ m, Claims.maskForm (laned desk) (.mnot (.uni 5)) = some m) ∧ (Instr.use (.mnot (.uni 5))).gate (laned desk) = .go) :=
  ⟨⟨⟨_, rfl⟩, rfl⟩, rfl, ⟨_, rfl⟩, rfl⟩

theorem test_hyps_CrossLane :
    ((∃ x, Claims.crossForm (laned desk) (.vote Claims.noGuard .bal (.reg 4) 2) = some x) ∧
      (Instr.use (.vote Claims.noGuard .bal (.reg 4) 2)).gate (laned desk) = .go) ∧
    ((Instr.use (.shfl Claims.noGuard .up 5 (.reg 4) (Claims.v 2) (.con .one) 1)).gate (laned desk) = .go ∧ (5 : BitVec 3).toNat ≤ 5) ∧
    ((∃ fe, Claims.combineOf (.max false) = some fe) ∧ (Instr.use (.lred Claims.noGuard (.max false) (.reg 4) (Claims.v 2))).gate (laned desk) = .go) ∧
    (Instr.use (.lscan Claims.noGuard (.fadd .rn) true (.reg 4) (Claims.v 2))).gate (laned desk) = .go :=
  ⟨⟨⟨_, rfl⟩, rfl⟩, ⟨rfl, by decide⟩, ⟨⟨_, rfl⟩, rfl⟩, rfl⟩

theorem test_hyps_Floats :
    (∃ F, Claims.floatForm (laned desk) (.fdot8 Claims.noGuard true true .rd (.reg 4) (Claims.v 2) (Claims.v 3) (Claims.v 5)) = some F ∧
      (Instr.use (.fdot8 Claims.noGuard true true .rd (.reg 4) (Claims.v 2) (Claims.v 3) (Claims.v 5))).gate (laned desk) = .go) ∧
    (Instr.use (.cvtif Claims.noGuard .f16 .i64 .rz true (.reg 4) (Claims.v 2))).gate (laned desk) = .go ∧
    (Instr.use (.cvtfi Claims.noGuard .i64 .f32 .ru (.reg 190) (Claims.v 2))).gate (laned desk) = .go :=
  ⟨⟨_, rfl, rfl⟩, rfl, rfl⟩

/-- One and one. -/
theorem test_hyps_SumsAndProducts :
    Claims.FiniteIn .f32 0x3F800000 ∧
    |Claims.valueIn .f32 0x3F800000 + Claims.valueIn .f32 0x3F800000| ≤ Claims.valueIn .f32 (fmtMax .f32) := by
  refine ⟨by unfold Claims.FiniteIn; decide, ?_⟩
  norm_num [Claims.valueIn, fmtMant, fmtWidth, fmtBias, fmtMax]

/-- Two words of the scratchpad, one for each active lane. -/
def lanedScratch : State := laned withScratch
/-- Two words of the page. -/
def lanedPage : State := laned withPage

theorem test_hyps_LaneLoadsOfTheScratchpad :
    Claims.LanesInScratch lanedScratch 3 [.r] 2 (Claims.laneAddr lanedScratch 4 (fun l => BitVec.ofNat 32 l) 2 0) ∧
    (Instr.use (.ld Claims.noGuard .h .x2 .l1 true 5 4 (.con .lane) 0)).gate lanedScratch = .go ∧
    (Instr.use (.ldx Claims.noGuard .h .x2 .l1 true 5 4 (.con .lane) 0)).gate lanedScratch = .go ∧ lanedScratch.fenceBusy = false := by
  refine ⟨⟨rfl, rfl, rfl, by decide, ?_⟩, rfl, rfl, by decide⟩
  unfold Claims.InScratch Claims.Unwatched Claims.SoundScratch; decide +kernel

/-- A load, a store and an atomic of the scratchpad behind a store that a VSYNC orders before them. -/
theorem test_hyps_FencedLanes :
    let s := fenced lanedScratch;
    Claims.LanesInScratch s 3 [.r, .w] 4 (Claims.laneAddr s 4 (fun l => BitVec.ofNat 32 l) 4 0) ∧ s.active Claims.noGuard = 3 ∧ s.fenceBusy = true ∧
    (Instr.use (.ld Claims.noGuard .w .x4 .l1 false 5 4 (.con .lane) 0)).gate s = .go ∧
    (Instr.use (.ldx Claims.noGuard .w .x4 .l1 false 5 4 (.con .lane) 0)).gate s = .go ∧
    (Instr.use (.st Claims.noGuard .w .x4 .l1 4 (.con .lane) 0 (Claims.v 5))).gate s = .go ∧
    (Instr.use (.atom Claims.noGuard .add .die .rlx false .x4 6 4 (.con .lane) 0 (Claims.v 8))).gate s = .go := by
  refine ⟨⟨rfl, rfl, rfl, by decide, ?_⟩, by decide, by decide, rfl, rfl, rfl, rfl⟩
  unfold Claims.InScratch Claims.Unwatched Claims.SoundScratch; decide +kernel

/-- Under DET an atomic that returns a value waits for the clearing, on the scratchpad too. -/
theorem test_hyps_DeterministicLaneAtomics :
    let s : State := { lanedScratch with team := { lanedScratch.team with det := true } };
    Claims.LanesInScratch s 3 [.r, .w] 4 (Claims.laneAddr s 4 (fun l => BitVec.ofNat 32 l) 4 0) ∧ s.active Claims.noGuard = 3 ∧
    s.fenceBusy = false ∧ s.team.det = true ∧ s.warp.clearL ≠ .granted ∧
    (Instr.use (.atom Claims.noGuard .add .die .rlx false .x4 6 4 (.con .lane) 0 (Claims.v 8))).gate s = .go := by
  refine ⟨⟨rfl, rfl, rfl, by decide, ?_⟩, by decide, by decide, rfl, by decide, rfl⟩
  unfold Claims.InScratch Claims.Unwatched Claims.SoundScratch; decide +kernel

theorem test_hyps_LaneLoadsOfThePage :
    let u := Instr.use (.ld Claims.noGuard .w .x4 .l1 false 5 4 (.con .lane) 0);
    Claims.AccessRuns lanedPage u ∧
    gives (lanedPage.issueAccess [.r] true 4 4 ((lanedPage.laneArgs u).addrs 4 0)) (fun v _ =>
      gives (v.laneLoad 4 false false ((lanedPage.laneArgs u).addrs 4 0)) (fun _ _ => true)) = true :=
  ⟨⟨rfl, rfl, by decide⟩, by decide +kernel⟩

/-- A detached load of v5 and v6 whose data have not come. -/
def withFill : State :=
  { desk with warp := { desk.warp with empty := 3 <<< 5, fills := [⟨9, 5, 0, 3, 0, 0, []⟩, ⟨9, 6, 1, 3, 0, 0, []⟩] } }

theorem test_hyps_FillsOfTheKilled :
    let s : State := { withFill with warp := { withFill.warp with status := .killed } };
    s.warp.status = .killed ∧ (s.warp.fills.map (fun f => f.reg)).Nodup ∧ s.warp.fills ≠ [] ∧ (∀ f ∈ s.warp.fills, f.id = 9 ∧ f.arrived = 0 ∧
      ∀ l < 32, f.lanes.has l = true → l ∈ [(0, (7 : BitVec 128)), (1, 8)].map Prod.fst) := by decide

theorem test_hyps_Fills :
    withFill.warp.status ≠ .absent ∧ withFill.warp.status ≠ .killed ∧ ([(0, (7 : BitVec 128)), (1, 8)].map Prod.fst).Nodup ∧ (withFill.warp.fills.map (fun f => f.reg)).Nodup ∧
    (∀ x ∈ [(0, (7 : BitVec 128)), (1, 8)], x.1 < 32) ∧ (∃ f ∈ withFill.warp.fills, f.id = 9 ∧ f.reg < 192 ∧ f.arrived = 0 ∧
      ∀ l < 32, f.lanes.has l = true → l ∈ [(0, (7 : BitVec 128)), (1, 8)].map Prod.fst) := by decide

/-- The class check of a store has been asked for, or has passed. -/
def checked (c : CheckSt) : State := { lanedPage with warp := { lanedPage.warp with check := c } }

theorem test_hyps_LaneStores :
    ((Instr.use (.st Claims.noGuard .w .x4 .l1 4 (.con .lane) 0 (Claims.v 5))).gate lanedScratch = .go ∧
      Claims.LanesInScratch lanedScratch 3 [.w] 4 (Claims.laneAddr lanedScratch 4 (fun l => BitVec.ofNat 32 l) 4 0) ∧ lanedScratch.warp.done = [] ∧ lanedScratch.fenceBusy = false ∧
      (Instr.st Claims.noGuard .w .x4 .l1 4 (.con .lane) 0 (Claims.v 5)).wf = true) ∧
    ((Instr.use (.push Claims.noGuard .w .x4 6 4 (.con .lane) 0 (Claims.v 5))).gate lanedPage = .go ∧
      lanedPage.warp.parkL = none ∧ lanedPage.logFull (Instr.use (.push Claims.noGuard .w .x4 6 4 (.con .lane) 0 (Claims.v 5))) = false ∧
      lanedPage.warp.headEntry = none ∧
      gives (lanedPage.issueLane [.w] false 4 4 [(0, 0x10100), (1, 0x10104)]) (fun u _ => decide (u = lanedPage)) = true ∧
      lanedPage.scratchBusy true 4 [(0, 0x10100), (1, 0x10104)] = false ∧ lanedPage.apertureFenced [(0, 0x10100), (1, 0x10104)] = false ∧
      lanedPage.warp.check = .idle ∧ inAperture 0x10100 = false ∧
      lanedPage.homeHolds (lanedPage.home (iaOf lanedPage.ctx .w 0x10100)) true = false) ∧
    (let u := Instr.use (.st Claims.noGuard .w .x4 .l1 4 (.con .lane) 0 (Claims.v 5));
      Claims.AccessRuns (checked .passed) u ∧
      (checked .passed).scratchBusy true 4 (((checked .passed).laneArgs u).addrs 4 0) = false ∧
      (checked .passed).apertureFenced (((checked .passed).laneArgs u).addrs 4 0) = false ∧ (checked .passed).warp.check = .passed ∧
      gives ((checked .passed).issueAccess [.w] true 4 4 (((checked .passed).laneArgs u).addrs 4 0)) (fun v _ =>
        (v.storeLanes none (storeData 4 (((checked .passed).laneArgs u).addrs 4 0) ((checked .passed).laneArgs u).data)).2) = true) := by
  refine ⟨⟨rfl, ⟨rfl, rfl, rfl, by decide, ?_⟩, rfl, by decide, by decide⟩,
    ⟨rfl, rfl, by decide, rfl, by decide +kernel, by decide, by decide, by decide, by decide, by decide⟩,
    ⟨rfl, rfl, by decide⟩, by decide, by decide, rfl, by decide +kernel⟩
  unfold Claims.InScratch Claims.Unwatched Claims.SoundScratch; decide +kernel

theorem test_hyps_DiscardsAndPrefetches :
    lanedPage.warp.parkL = none ∧ lanedPage.warp.headEntry = none ∧ lanedPage.logUsed < 16 ∧
    (Instr.use (.disc Claims.noGuard .x4 4 (.con .lane) 0)).gate lanedPage = .go ∧
    (∀ x ∈ [(0, (0x10100 : W64)), (1, 0x10104)], inAperture x.2 = false ∧ check lanedPage.ctx x.2 .w = .ok x.2.toNat) ∧ lanedPage.warp.wbuf = [] ∧
    (Instr.use (.pref Claims.noGuard .x4 true 4 (.con .lane) 0)).gate lanedPage = .go :=
  ⟨rfl, rfl, by decide, rfl, by decide, rfl, rfl⟩

theorem test_hyps_LaneAtomics :
    ((∃ x, Claims.laneAtomOf (.laneAcas Claims.noGuard .team .ar true .x8 6 4 (.con .lane) 0 (Claims.v 8)) = some x) ∧
      (Instr.use (.laneAcas Claims.noGuard .team .ar true .x8 6 4 (.con .lane) 0 (Claims.v 8))).gate lanedScratch = .go ∧ lanedScratch.warp.wbuf = [] ∧
      Claims.LanesInScratch lanedScratch 3 [.r, .w] 8 (Claims.laneAddr lanedScratch 4 (fun l => BitVec.ofNat 32 l) 8 0) ∧ lanedScratch.warp.done = [] ∧ lanedScratch.fenceBusy = false ∧
      lanedScratch.team.det = false) ∧
    (let u := Instr.use (.atom Claims.noGuard .add .die .rlx false .x4 6 4 (.con .lane) 0 (Claims.v 8));
      let s := checked .passed; let lanes := (s.laneArgs u).addrs 4 0;
      Claims.AccessRuns s u ∧ gives (s.atomFront .rlx false lanes) (fun v _ => !v.team.det &&
        gives (v.performAtoms true .die (some .add) false (laneAtoms lanes (s.laneArgs u).data (s.readGroup true (.reg 6 false) 1).2))
          (fun _ _ => true)) = true) ∧
    (let u := Instr.use (.atomn Claims.noGuard .add .die .rlx false .x4 4 (.con .lane) 0 (Claims.v 8));
      let s := checked .passed; let lanes := (s.laneArgs u).addrs 4 0;
      Claims.AccessRuns s u ∧ gives (s.atomFront .rlx false lanes) (fun v _ => !v.team.det &&
        gives (v.performAtoms false .die (some .add) false (laneAtoms lanes (s.laneArgs u).data (fun _ => []))) (fun _ _ => true)) = true) := by
  refine ⟨⟨⟨_, rfl⟩, rfl, rfl, ⟨rfl, rfl, rfl, by decide, ?_⟩, rfl, by decide, rfl⟩, ⟨⟨rfl, rfl, by decide⟩, by decide +kernel⟩, ⟨rfl, rfl, by decide⟩, by decide +kernel⟩
  unfold Claims.InScratch Claims.Unwatched Claims.SoundScratch; decide +kernel

/-- An open append extent whose page has its class. -/
def lanedExtent (reserved : Nat) : State :=
  laned (put (withExtent reserved reserved false false) 0x110008 [0x8500000000040000])

theorem test_hyps_Appends :
    ((lanedExtent 10).warp.parkL = none ∧ (lanedExtent 10).warp.headEntry = none ∧ (lanedExtent 10).logUsed < 16) ∧
    ((Instr.use (.append Claims.noGuard .w 2 5 4 0 (Claims.v 6))).gate (lanedExtent 10) = .go ∧
      gives ((lanedExtent 10).extentFront 3 true 4 0x10100) (fun v x => !x.closed && decide (x.reserved = 10) &&
        decide ((v.appendSpan v.ctx.num (v.home (iaOf v.ctx .w (BitVec.ofNat 64 x.base))) x 4 [1, 0, 0, 0, 2, 0, 0, 0]).2 =
          .at ((10 + 4 - 1) / 4 * 4) false)) = true ∧
      (Instr.append Claims.noGuard .w 2 5 4 0 (Claims.v 6)).wf = true ∧ (lanedExtent 10).team.det = false ∧
      (∃ c', (lanedExtent 10).ctxOf (lanedExtent 10).ctx.num = some c')) ∧
    (gives ((lanedExtent 65532).extentFront 3 true 4 0x10100) (fun _ x => !x.closed && decide (x.pages = 1) && decide (x.reserved = 65532)) = true ∧
      65536 * 1 < (65532 + 4 - 1) / 4 * 4 + 4 * Claims.rankOf 3 32) ∧
    ((Instr.use (.tailq Claims.noGuard 5 4 0)).gate (lanedExtent 10) = .go ∧
      gives ((lanedExtent 10).extentFront 3 false 4 0x10100) (fun _ x => !x.bad) = true) ∧
    (let s : State := { lanedExtent 10 with ctx := { (lanedExtent 10).ctx with extents := [⟨0x10000, 1, 10, 10, false, false, false, true⟩] } };
      gives (s.extentFront 3 false 4 0x10100) (fun _ x => x.bad) = true) :=
  ⟨by decide, ⟨rfl, by decide +kernel, by decide, rfl, _, rfl⟩, ⟨by decide +kernel, by decide⟩, ⟨rfl, by decide +kernel⟩, by decide +kernel⟩

theorem test_hyps_RangeLoads :
    (lanedPage.warp.parkL = none ∧ (Claims.useOf lanedPage (.find Claims.noGuard 2 6 4 (.uni 5))).gate lanedPage = .go ∧
      lanedPage.warp.headEntry = none ∧ lanedPage.logUsed < 16 ∧ lanedPage.warp.check = .idle ∧
      regionOf lanedPage.ctx (lanedPage.src64 4).toNat = none) ∧
    ((laned (withRegion 0)).warp.parkL = none ∧ (laned (withRegion 0)).warp.headEntry = none ∧ (laned (withRegion 0)).logUsed < 16 ∧
      (laned (withRegion 0)).warp.check = .idle ∧ (laned (withRegion 0)).homeHolds ((laned (withRegion 0)).home 0x10400) true = false ∧
      (Claims.useOf (laned (withRegion 0)) (.lda Claims.noGuard 2 6 4 (.con .lane) (.con .zero))).gate (laned (withRegion 0)) = .go ∧
      (∃ t x y, Claims.readAll (laned (withRegion 0)) true [.con .lane, .con .zero] = (t, [x, y]) ∧
        ((laned (withRegion 0)).active Claims.noGuard).has 1 = true ∧ (y 1).toNat < (x 1).toNat)) ∧
    (∃ r, regionOf (laned (withRegion 0)).ctx ((laned (withRegion 0)).src64 4).toNat = some r ∧ (laned (withRegion 0)).homeBusy r.ia = false ∧
      (Claims.useOf (laned (withRegion 0)) (.lda Claims.noGuard 2 6 4 (.con .lane) (.con .one))).gate (laned (withRegion 0)) = .go ∧
      (Claims.useOf (laned (withRegion 0)) (.lda Claims.noGuard 2 7 4 (.con .lane) (.con .one))).gate (laned (withRegion 0)) = .go ∧
      ¬(r.kind = 0 ∧ (6 : VReg).toNat % 2 = 1) ∧ (r.kind = 0 ∧ (7 : VReg).toNat % 2 = 1) ∧
      (∀ l < 2, l ≤ 1 ∧ 1 ≤ r.n ∧ ldaBad (laned (withRegion 0)).dev (laned (withRegion 0)).ctx r l 1 = false) ∧
      searchBad (laned (withRegion 0)).dev (laned (withRegion 0)).ctx r (findAnswer (laned (withRegion 0)).dev (laned (withRegion 0)).ctx r 1) = false ∧
      searchBad (laned (withRegion 0)).dev (laned (withRegion 0)).ctx r (pickAnswer (laned (withRegion 0)).dev (laned (withRegion 0)).ctx r 1) = false ∧
      r.kind < 2) ∧
    (∃ r, regionOf (laned (withRegion 2)).ctx ((laned (withRegion 2)).src64 4).toNat = some r ∧ 2 ≤ r.kind ∧
      (Instr.use (.pick Claims.noGuard 2 6 4 (.uni 5))).gate (laned (withRegion 2)) = .go) :=
  ⟨⟨rfl, rfl, rfl, by decide, rfl, rfl⟩, ⟨rfl, rfl, by decide, rfl, by decide, rfl, _, _, _, rfl, by decide, by decide⟩,
    ⟨_, rfl, by decide, rfl, rfl, by decide, by decide, by decide +kernel, by decide +kernel, by decide +kernel, by decide⟩,
    _, rfl, by decide, rfl⟩

/-- Entry 2 receives and has one message; entry 3 sends and has none waiting for a clearing. -/
def withChannels : State :=
  laned { desk with warp := { desk.warp with chans := (desk.warp.chans.set 2 ⟨.recv, 0, 0, 3, [[(0, 9)]]⟩).set 3 ⟨.send, 0, 0, 2, []⟩ } }

theorem test_hyps_LaneSystem :
    ((Instr.use (.nop Claims.noGuard)).gate (laned desk) = .go ∧ (Instr.use (.waitf Claims.noGuard 5 false)).gate (laned desk) = .go ∧
      (Instr.use (.chst Claims.noGuard (.reg 4) 2)).gate withChannels = .go ∧ (Instr.use (.rnext Claims.noGuard 4 6 false)).gate (laned desk) = .go ∧
      (Instr.use (.rjump Claims.noGuard 4 6 true (.con .one) (.con .zero))).gate (laned desk) = .go ∧
      (Instr.use (.runi Claims.noGuard true (.reg 4) 6 false)).gate (laned desk) = .go ∧ (Instr.use (.rdith Claims.noGuard (.reg 4) 5 (Claims.v 6))).gate (laned desk) = .go ∧
      (Instr.use (.ltrap ⟨true, 2⟩ 7)).gate (laned desk) = .go ∧ (Instr.use (.lbrk Claims.noGuard)).gate (laned (debugged desk)) = .go) ∧
    ((Instr.use (.chwait Claims.noGuard 2 1)).gate withChannels = .go ∧ (withChannels.warp.chan 2).st = .recv ∧ (1 : BitVec 3).toNat ≤ (withChannels.warp.chan 2).queue.length ∧
      (withChannels.warp.chan 2).queue.length < (2 : BitVec 3).toNat ∧ (withChannels.warp.chan 3).st = .send ∧ withChannels.warp.comms = [] ∧
      (withChannels.warp.chan 4).st = .unbound) ∧
    ((laned desk).active ⟨false, 2⟩ = 0 ∧ (laned desk).active Claims.noGuard ≠ 0 ∧ (laned desk).debugHeld = false ∧ (laned (debugged desk)).debugHeld = true) :=
  ⟨⟨rfl, rfl, rfl, rfl, rfl, rfl, rfl, rfl, rfl⟩, ⟨rfl, by decide⟩, by decide⟩

/-- An entry of the reorder buffer of the n-th unretired word. -/
def robAt (n : Nat) : RobEntry := ⟨n, 0x10000, 3, 0x10100, List.replicate 32 0, [], [], 0, 0, [], 0, none, true⟩

/-- A word that has executed before, and one whose pipe has no entry of the operand log free. -/
theorem test_hyps_LaneOperands :
    (let s : State := { lanedPage with warp := { lanedPage.warp with rob := [robAt 0] } };
      s.warp.headEntry = some (robAt 0) ∧ (robAt 0).offs ≠ []) ∧
    (let u := Instr.use (.ld Claims.noGuard .w .x4 .l1 false 5 4 (.con .lane) 0);
      let s : State := { lanedPage with warp := { lanedPage.warp with rob := (List.range 16).map (fun n => robAt (n + 1)) } };
      s.warp.parkL = none ∧ u.gate s = .go ∧ u.log ≠ none ∧ s.warp.headEntry = none ∧ 16 ≤ s.logUsed) ∧
    (∃ msg rest, (withChannels.warp.chan (2 : BitVec 4).toNat).queue = msg :: rest) ∧ withChannels.warp.chans.length = 15 ∧
    (∃ b c rest, (withQueue desk 2).warp.queue = b :: c :: rest ∧ b.count = 1) :=
  ⟨⟨rfl, by decide⟩, ⟨rfl, rfl, by decide, by decide, by decide⟩, ⟨_, _, rfl⟩, rfl, _, _, _, rfl, rfl⟩

/-! ## Witnesses: messages -/

/-- The line of byte 0x10100 of context 1. -/
def theLine : Nat := tagged 1 0x10100

/-- An L1 that holds it, and the page private to core 0. -/
def withPrivate (st : LState) : State := put (withLine st) 0x110008 [0x8080000000040000]

theorem test_hyps_LinesMove :
    (desk.teamOf ⟨1, 0⟩ = some desk.team ∧ desk.ctxOf desk.team.ctx = some desk.ctx ∧
      admits (desk.letIn desk.ctx (.core 0) false false false 0x10100) (fun u _ => (u.fetchLine desk.ctx 0x10100).isSome) = true) ∧
    (Claims.InTime desk none ∧ Claims.l1At desk 0 theLine = none ∧ Claims.AtHome desk theLine 0) ∧
    (Claims.l1At (withLine .pd) 0 theLine ≠ none ∧ ¬ Claims.InTime desk (some (⟨1, 0, 0⟩, 1))) ∧
    ((desk.coreOf 0).pushedLines < (desk.coreOf 0).allowance ∧ (∃ l, Claims.l1At (withLine .pu) 0 theLine = some l ∧ l.st = .pu)) ∧
    (let s : State := { desk with core := { desk.core with floors := desk.core.floors.set theLine 3 } };
      (2 : W64) < (s.coreOf 0).floors.get theLine ∧ (s.coreOf 0).floors.get theLine ≤ 3) ∧
    ((∃ l, Claims.l1At (withLine .ts) 0 theLine = some l ∧ l.st = .ts) ∧ ((withLine .ts).coreOf 0).floors.get theLine ≤ 0 ∧
      ((withLine .ts).coreOf 0).pushedLines < ((withLine .ts).coreOf 0).allowance) ∧
    (let s : State := { desk with core := { desk.core with allowance := 0 } };
      Claims.l1At s 0 theLine = none ∧ (s.coreOf 0).allowance ≤ (s.coreOf 0).pushedLines) ∧
    (∃ l, Claims.l1At (withPrivate .pd) 0 theLine = some l ∧ l.st = .pd) ∧
    ((withPrivate .pd).ctxOf (untag theLine).1 = some (withPrivate .pd).ctx ∧
      (∃ p, walk (withPrivate .pd).dev (withPrivate .pd).ctx (untag theLine).2 = .page p)) ∧
    (∃ p, walk (withPrivate .pc).dev (withPrivate .pc).ctx (1 * 65536) = .page p ∧ p.share = 1 ∧ p.large = false ∧
      ∀ l ∈ ((withPrivate .pc).coreOf p.owner).l1, l.st ≠ .pd) := by
  refine ⟨⟨rfl, rfl, by decide +kernel⟩, ⟨trivial, by decide, desk.ctx, false, rfl, by decide +kernel⟩, ⟨by decide, ?_⟩, ⟨by decide, _, rfl, rfl⟩, by decide, ⟨⟨_, rfl, rfl⟩, by decide, by decide⟩,
    ⟨by decide, by decide⟩, ⟨_, rfl, rfl⟩, ⟨rfl, _, rfl⟩, ⟨_, rfl, by decide, by decide, by decide⟩⟩
  rintro ⟨w, h, e⟩
  have : w = desk.warp := by
    have h' : desk.warpOf ⟨1, 0, 0⟩ = some desk.warp := rfl
    exact Option.some.inj (h.symm.trans h')
  subst this
  exact absurd e (by decide)

/-- A lane access whose class check, or translation, is asked for. -/
def asking (write : Bool) : State :=
  { desk with warp := { desk.warp with ask := some ⟨[(0, 0x10100, 0x10100)], 4, write, false⟩, check := .asked } }

/-- An entry of the write buffer: a word at 0x10100. -/
def anEntry (id : Nat) (st : WStage) (elems : Bool) : WEntry :=
  ⟨id, theLine, [⟨0, 0x10100, 0x10100, [9, 0, 0, 0]⟩], none, st, false, false, 0, elems, false⟩

/-- It is in the buffer, alone or behind another of its line. -/
def buffered (st : WStage) (s : State) : State := { s with warp := { s.warp with wbuf := [anEntry 0 st false] } }
def behind (st : WStage) (elems : Bool) (s : State) : State :=
  { s with warp := { s.warp with wbuf := [anEntry 0 .sent elems, anEntry 1 st elems] } }

/-- A scalar access is parked at the entry's home. -/
def parkedThere (s : State) : State := { s with warp := { s.warp with parkS := some ⟨5, 0, [s.homeFor 0 0x10100], 0x10100, false, false, false⟩ } }

/-- The queue of the slice of that line is full: eight requests wait there. -/
def crowded (s : State) : State :=
  { s with dev := { s.dev with dirHeld := List.replicate 8 (DirAt.home, theLine, .gets .home theLine (.core 1)) } }

theorem test_hyps_LaneChecksAreAnswered :
    ((asking true).warp.status ≠ .absent ∧ (asking true).warp.ask = some ⟨[(0, 0x10100, 0x10100)], 4, true, false⟩ ∧
      missingKind (asking true).dev (asking true).ctx 0x10100 = none) ∧ (asking false).warp.status ≠ .absent ∧
    missingKind (asking false).dev (asking false).ctx 0x10100 = none := ⟨⟨by decide, rfl, by decide +kernel⟩, by decide, by decide +kernel⟩

/-- An entry leaves for its home from a core without the line and from one that shares it; on a private page it is performed, or waits
behind an older one. -/
theorem test_hyps_EntriesLeave :
    ((∃ e, Claims.MayLeave (buffered .buffered desk) 0 e) ∧ Claims.l1At (buffered .buffered desk) 0 theLine = none) ∧
    (∃ e, Claims.MayLeave (buffered .buffered (withLine .sc)) 0 e ∧
      ∃ l, Claims.l1At (buffered .buffered (withLine .sc)) ((buffered .buffered (withLine .sc)).coreOfWarp ⟨1, 0, 0⟩) e.line = some l ∧ l.st = .sc) ∧
    (let s := behind .buffered false (withPrivate .pc);
      ∃ e, Claims.MayLeave s 1 e ∧ e.push = none ∧ s.olderEntry s.warp (s.coreOfWarp s.warp.key) e = true ∧
        ∃ l, Claims.l1At s (s.coreOfWarp s.warp.key) e.line = some l ∧ l.st = .pc) ∧
    (let s := buffered .buffered (withPrivate .pc);
      ∃ e, Claims.MayLeave s 0 e ∧ e.push = none ∧ s.olderEntry s.warp (s.coreOfWarp s.warp.key) e = false ∧
        ∃ l, Claims.l1At s (s.coreOfWarp s.warp.key) e.line = some l ∧ l.st = .pc ∧ l.parity = false) :=
  ⟨⟨⟨_, by decide, rfl, rfl⟩, by decide⟩, ⟨_, ⟨by decide, rfl, rfl⟩, _, rfl, rfl⟩,
    ⟨_, ⟨by decide, rfl, rfl⟩, rfl, by decide +kernel, _, rfl, rfl⟩, _, ⟨by decide, rfl, rfl⟩, rfl, by decide +kernel, _, rfl, rfl, rfl⟩

/-- At its home an entry waits behind an older one and behind a parked scalar access. -/
theorem test_hyps_EntriesWaitAtTheirHome :
    (let s := behind .sent false desk;
      ∃ e, s.warp.entry 1 = some e ∧ e.stage = .sent ∧ s.ctxOf (untag e.line).1 = some s.ctx ∧
        s.olderEntry s.warp (s.coreOfWarp s.warp.key) e = true) ∧
    (let s := parkedThere (buffered .sent desk);
      ∃ e, s.warp.entry 0 = some e ∧ e.stage = .sent ∧ s.heldByPark s.warp (s.coreOfWarp s.warp.key) e = true) ∧
    (let s := behind .buffered true desk;
      ∃ e, s.warp.entry 0 = some e ∧ e.stage = .sent ∧ s.olderEntry s.warp (s.coreOfWarp s.warp.key) e = false ∧
        s.heldByPark s.warp (s.coreOfWarp s.warp.key) e = false ∧ missingKind s.dev s.ctx e.first.1 = none ∧ s.entryVerdict s.ctx e = none ∧
        s.batchWaits s.ctx (s.batchOf s.warp (s.coreOfWarp s.warp.key) e) = true) :=
  ⟨⟨_, rfl, rfl, rfl, by decide +kernel⟩, ⟨_, rfl, rfl, by decide +kernel⟩,
    _, rfl, rfl, by decide +kernel, by decide +kernel, by decide +kernel, by decide +kernel, by decide +kernel⟩

/-- A page that is missing, with a ticket of the execution or without, one whose entry is malformed, and one that takes no
stores. -/
theorem test_hyps_EntriesFaultAtTheirHome :
    (let s := buffered .sent (put desk 0x110008 [0]);
      ∃ e, s.warp.entry 0 = some e ∧ e.stage = .sent ∧ s.olderEntry s.warp (s.coreOfWarp s.warp.key) e = false ∧
        s.heldByPark s.warp (s.coreOfWarp s.warp.key) e = false ∧ missingKind s.dev s.ctx e.first.1 = some 1 ∧ s.joinTicket s.warp e = none ∧
        ({ s with parked := [(5, .storeRequest s.warp.key 0)] } : State).joinTicket s.warp e = some 5) ∧
    (let s := buffered .sent (put desk 0x110008 [0x8000000000040001]);
      ∃ e, s.warp.entry 0 = some e ∧ missingKind s.dev s.ctx e.first.1 = some 3 ∧ s.warp.pendTrap = none) ∧
    (let s := buffered .sent (put desk 0x110008 [0x8500000000040000]);
      ∃ e, s.warp.entry 0 = some e ∧ missingKind s.dev s.ctx e.first.1 = none ∧ (s.entryVerdict s.ctx e).isSome = true ∧
        s.warp.pendTrap = none) :=
  ⟨⟨_, rfl, rfl, by decide +kernel, by decide +kernel, by decide +kernel, rfl, by decide +kernel⟩,
    ⟨_, rfl, by decide +kernel, rfl⟩, _, rfl, by decide +kernel, by decide +kernel, rfl⟩

theorem test_hyps_BufferedStores :
    (let s := buffered .sent desk;
      ∃ e, s.warp.entry 0 = some e ∧ e.stage = .sent ∧ s.ctxOf (untag e.line).1 = some s.ctx ∧
        s.olderEntry s.warp (s.coreOfWarp s.warp.key) e = false ∧ s.heldByPark s.warp (s.coreOfWarp s.warp.key) e = false ∧
        missingKind s.dev s.ctx e.first.1 = none ∧ s.entryVerdict s.ctx e = none ∧ s.batchOf s.warp (s.coreOfWarp s.warp.key) e = [e] ∧
        s.batchWaits s.ctx [e] = false ∧ (s.letInAll s.ctx (s.coreOfWarp s.warp.key) e.push.isSome [e.line]).2 = true ∧
        e.push = none ∧ e.elems = false ∧ runsOf e.cells = [(0x10100, [9, 0, 0, 0])] ∧
        ∃ p, walk (s.letInAll s.ctx (s.coreOfWarp s.warp.key) e.push.isSome [e.line]).1.dev s.ctx 0x10100 = .page p) ∧
    (∃ e, (buffered .performed desk).warp.entry 0 = some e ∧ e.push = none) :=
  ⟨⟨_, rfl, rfl, rfl, by decide +kernel, by decide +kernel, by decide +kernel, by decide +kernel, rfl, by decide +kernel, by decide +kernel,
    rfl, rfl, by decide, _, rfl⟩, _, rfl, rfl⟩

/-- The directory entry of the line at its home. -/
def withEntry (e : W64) (s : State) : State := { s with dev := { s.dev with dir := s.dev.dir.set theLine e } }

/-- Eight other lines of its set at its slice have entries. -/
def withSet : State :=
  let others := ((List.range 512).filter (fun k => k != 0 && desk.sliceOf .home (theLine + 512 * k) == desk.sliceOf .home theLine)).take 8
  { desk with dev := { desk.dev with dir := others.foldl (fun d k => d.set (theLine + 512 * k) (onlyNode DirE.shr (.core 5))) desk.dev.dir } }

theorem test_hyps_Directory :
    (DirE.state (desk.dirGet .home theLine) = DirE.unc ∧ desk.queuedFor .home theLine = false ∧ desk.hasWay .home theLine = true ∧
      (crowded desk).queuedFor .home theLine = true ∧ 8 ≤ (crowded desk).queuedAt ((crowded desk).sliceOf .home theLine) ∧
      desk.queuedAt (desk.sliceOf .home theLine) < 8 ∧ withSet.hasWay .home theLine = false) ∧
    (let i : Instr := .gets .home theLine (.core 1); let s : State := { desk with dev := { desk.dev with dirHeld := [(.home, theLine, i)] } };
      s.queuedFor .home theLine = true ∧ s.servable .home theLine (.core 1) = true) ∧
    (let s := withEntry (onlyNode DirE.shr (.core 5)) desk;
      DirE.state (s.dirGet .home theLine) = DirE.shr ∧ s.queuedFor .home theLine = false ∧ Claims.NodeOk s theLine (.core 6) ∧
      (s.sharers .home theLine (s.dirGet .home theLine)).filter (fun x => x != .core 6) ≠ [] ∧
      (s.sharers .home theLine (s.dirGet .home theLine)).filter (fun x => x != .core 5) = [] ∧
      DirE.coarse (s.dirGet .home theLine) = false ∧ DirE.npt (s.dirGet .home theLine) ≤ 4) ∧
    (let s := withEntry (onlyNode DirE.own (.core 5)) desk;
      DirE.state (s.dirGet .home theLine) = DirE.own ∧ s.ownerOf .home theLine (s.dirGet .home theLine) = some (.core 5) ∧
      Claims.NodeOk s theLine (.core 31) ∧ Claims.NodeOk s theLine (.die 23)) ∧
    (let s := withEntry (DirE.setAcks (DirE.setReq (DirE.empty DirE.s2o) (.core 6)) 2) desk;
      3 ≤ DirE.state (s.dirGet .home theLine) ∧ DirE.state (s.dirGet .home theLine) = DirE.s2o ∧ 2 ≤ DirE.acks (s.dirGet .home theLine)) ∧
    (let s := withEntry (DirE.setAcks (DirE.setReq (DirE.empty DirE.s2o) (.core 6)) 1) desk;
      DirE.state (s.dirGet .home theLine) = DirE.s2o ∧ DirE.acks (s.dirGet .home theLine) = 1) ∧
    (let s := withEntry (DirE.setReq (DirE.setState (onlyNode DirE.own (.core 5)) DirE.o2s) (.core 6)) desk;
      s.ownerOf .home theLine (s.dirGet .home theLine) = some (.core 5) ∧ DirE.state (s.dirGet .home theLine) = DirE.o2s) ∧
    (let s := withEntry (DirE.setReq (DirE.setState (onlyNode DirE.own (.core 5)) DirE.o2o) (.core 6)) desk;
      s.ownerOf .home theLine (s.dirGet .home theLine) = some (.core 5) ∧ DirE.state (s.dirGet .home theLine) = DirE.o2o) ∧
    ((withLine .ox).justGranted 0 theLine = false ∧ (withLine .ox).events = [] ∧ (withLine .ox).held = [] ∧
      grantFor .home theLine (.core 0) (.grant .home theLine (.core 0) true (some 5)) = some true ∧
      (∃ l, Claims.l1At (withLine .ox) 0 theLine = some l ∧ l.st = .ox ∧ l.parity = false)) := by
  refine ⟨⟨by decide, by decide, by decide +kernel, by decide, by decide +kernel, by decide +kernel, by decide +kernel⟩, ⟨by decide, by decide +kernel⟩,
    ⟨by decide, by decide, by unfold Claims.NodeOk; decide, by decide, by decide, by decide, by decide⟩,
    ⟨by decide, by decide, by unfold Claims.NodeOk; decide, by unfold Claims.NodeOk; decide⟩, ⟨by decide, by decide, by decide⟩, ⟨by decide, by decide⟩,
    ⟨by decide, by decide⟩, ⟨by decide, by decide⟩, ⟨by decide, rfl, rfl, by decide, _, rfl, rfl, rfl⟩⟩

/-! ## Witnesses: tasks and collectives -/

/-- A launch of the machine changed by hand. -/
def relaunched (f : Launch → Launch) (s : State) : State := { s with dev := { s.dev with launches := [f benchLaunch] } }

/-- A part of a task that is done. -/
def steps {α : Type} (r : TStep α) (p : State → α → Bool) : Bool :=
  match r with
  | .ok s x => p s x
  | .fail _ _ _ => false
  | .fatal _ _ _ => false
  | .park _ _ _ _ _ => false
  | .later _ => false

theorem steps_ok {α : Type} {r : TStep α} {p : State → α → Bool} (h : steps r p = true) : ∃ s x, r = .ok s x ∧ p s x = true := by
  cases r with
  | ok s x => exact ⟨s, x, rfl, h⟩
  | fail s n a => cases h
  | fatal s a t => cases h
  | park s k ia va w => cases h
  | later s => cases h

/-- A record of the four doublewords. -/
def aTask (a b c d : W64) : TaskRec := ⟨0, 0, 0, 0, a, b, c, d, false, [], none, none, [], none, none⟩

/-- Its page of another range register is not there. -/
def widened (s : State) : State := { s with ctx := { s.ctx with ranges := [⟨0x1000F, 0x30000, 0, 0x30000⟩] } }

/-- One record in the ring, with a loaded set of weights under handle 0. -/
def ringed (r : TaskRec) (s : State) : State :=
  { s with team := { s.team with ring := [r], wsets := [(0, ⟨5, 0, false, 1, List.replicate 128 0x38, [], 0, false⟩)] } }

/-- A shape record at 0x10200 of 16 E4M3 elements at 0x10300; the flags and the rank as given. -/
def withTensor (w1 : W64) : State := put withScratch 0x200200 [0x10300, 5 + w1, 0x100000010, 0x100000001, 16, 16, 16, 0x0001000100010010]

theorem ready (r : TaskRec) (s : State) (kind : Nat) (h : r.kind = kind ∧ r.fatal = none ∧ r.reads = none ∧ r.parks = [] ∧ r.out = none)
    (h₁ : (ringed r s).teamOf (ringed r s).team.key = some (ringed r s).team) (h₂ : (ringed r s).ctxOf (ringed r s).team.ctx = some s.ctx)
    (h₃ : (ringed r s).team.status = .running) (h₄ : (ringed r s).taskMay (ringed r s).team r = true)
    (h₅ : (ringed r s).team.det = false) :
    Claims.TaskReady (ringed r s) (ringed r s).team s.ctx r kind :=
  ⟨h₁, by simp [ringed], h₂, h.1, h.2.1, h.2.2.2.2, h.2.2.1, h.2.2.2.1, h₃, .inr h₄, .inl h₅⟩

/-- WLOAD, MMA, ACCZ and a FILL of the scratchpad. -/
theorem test_hyps_TasksOfTheArrays :
    (let r := aTask 0x5001 0 0 0; let s := ringed r withScratch;
      Claims.TaskReady s s.team withScratch.ctx r 1 ∧ s.team.anyScratchBad (r.scratchRanges 0).1 = false ∧
      s.granulesUsed 0 0 ⟨1, 0⟩ 0 + Claims.setGranules 5 1 0 ≤ 384) ∧
    (let r := aTask 0x5002 0 128 0; let s := ringed r withScratch;
      Claims.TaskReady s s.team withScratch.ctx r 2 ∧ (∃ h w, s.team.wsets.find? (fun e => e.1 == r.wsMma) = some (h, w) ∧ w.bad = false ∧
        s.team.anyScratchBad (r.mmaReads w) = false) ∧ s.team.accBad r.accRanges.1 = false) ∧
    Claims.TaskReady (ringed (aTask 0x100000003 0 0 0) withScratch) (ringed (aTask 0x100000003 0 0 0) withScratch).team withScratch.ctx (aTask 0x100000003 0 0 0) 3 ∧
    (Claims.TaskReady (ringed (aTask 8 1 0 0) withScratch) (ringed (aTask 8 1 0 0) withScratch).team withScratch.ctx (aTask 8 1 0 0) 8 ∧ (aTask 8 1 0 0).dir = false) :=
  ⟨⟨ready _ _ _ (by decide) rfl rfl rfl (by decide) rfl, by decide, by decide⟩,
    ⟨ready _ _ _ (by decide) rfl rfl rfl (by decide) rfl, ⟨_, _, rfl, rfl, by decide⟩, by decide⟩,
    ready _ _ _ (by decide) rfl rfl rfl (by decide) rfl, ready _ _ _ (by decide) rfl rfl rfl (by decide) rfl, by decide⟩

/-- COPYIN and a loading GATHER. -/
theorem test_hyps_TasksThatLoad :
    (let r := aTask 0x1001000000005 0x10200 0 0; let s := ringed r (withTensor 0);
      Claims.TaskReady s s.team (withTensor 0).ctx r 5 ∧ steps ((Claims.issue s s.team r).taskShape s.ctx s.team r) (fun u sh =>
        !layoutBad r sh && !boxOutside r sh && sh.fmt != 12 &&
        let v := u.zeroTails s.team.key r sh (boxRows r sh)
        steps (State.taskReads s.ctx s.team ((v.recordOf s.team.key r.seq).getD r) ((boxRows r sh).flatMap (rowReads r sh)) v [])
          (fun _ left => left.isEmpty)) = true) ∧
    (let r := aTask 0x1001000000007 0x10200 0 0; let s := ringed r (withTensor 0x100);
      Claims.TaskReady s s.team (withTensor 0x100).ctx r 7 ∧ r.dir = false ∧ s.team.scratchBad r.ioff (4 * r.cnt) = false ∧
      steps ((Claims.issue s s.team r).taskShape s.ctx s.team r) (fun u sh =>
        !layoutBad r sh && decide (sh.box 0 ≤ sh.dim 0) && (List.range r.cnt).all (fun j => decide ((readW s.team.scratch (r.ioff + 4 * j)).toNat < sh.dim 1)) &&
        let rows := (List.range r.cnt).map (gatherRow r sh s.team.scratch)
        let v := u.zeroTails s.team.key r sh rows
        steps (State.taskReads s.ctx s.team ((v.recordOf s.team.key r.seq).getD r) (rows.flatMap (rowReads r sh)) v []) (fun _ left => left.isEmpty)) = true) ∧
    (let r := { aTask 0x1001000000005 0x10200 0 0 with issued := true }; let s := ringed r (withTensor 0);
      s.pageParked s.ctx s.team r.seq .r 0x10300 = false ∧ reaches (s.taskRead s.ctx s.team r 0x10300 16) (fun v x => !x.2 &&
        (v.teamOf s.team.key).isSome) = true) :=
  ⟨⟨ready _ _ _ (by decide) rfl rfl rfl (by decide) rfl, by decide +kernel⟩,
    ⟨ready _ _ _ (by decide) rfl rfl rfl (by decide) rfl, by decide, by decide, by decide +kernel⟩, by decide, by decide +kernel⟩

/-- A COPYIN that has found what it has to read: it reads it, or its page is missing. In a clearing it waits. -/
theorem test_hyps_TasksThatRead :
    (let r := { aTask 0x1001000000005 0x10200 0 0 with issued := true, reads := some [⟨0x10300, 16, 0⟩] }; let s := ringed r (withTensor 0);
      let far := { aTask 0x1001000000005 0x10200 0 0 with issued := true, reads := some [⟨0x20300, 16, 0⟩] }; let w := widened (ringed far (withTensor 0));
      s.teamOf s.team.key = some s.team ∧ s.team.ring.find? (fun x => x.seq == r.seq) = some r ∧ s.ctxOf s.team.ctx = some s.ctx ∧ r.kind = 5 ∧
      r.fatal = none ∧ r.out = none ∧ s.team.det = false ∧
      steps (State.taskReads s.ctx s.team r [⟨0x10300, 16, 0⟩] s []) (fun _ left => left.isEmpty) = true ∧
      steps (State.taskReads w.ctx w.team far [⟨0x20300, 16, 0⟩] w []) (fun _ left => !left.isEmpty) = true) ∧
    (let r := aTask 0x1001000000005 0x10200 0 0;
      let s := relaunched (fun l => { l with clearing := some [] }) (ringed r { withTensor 0 with team := { (withTensor 0).team with det := true } });
      Claims.InClearing s s.team s.ctx r 5) :=
  ⟨⟨rfl, by decide, rfl, by decide, rfl, rfl, rfl, by decide +kernel, by decide +kernel⟩,
    rfl, by decide, rfl, by decide, rfl, rfl, rfl, by decide +kernel⟩

/-- DRAIN, COPYOUT, a storing GATHER and a global FILL. -/
theorem test_hyps_TasksThatStore :
    (let r := aTask 0x404 0x10200 0 0; let s := ringed r (withTensor 0);
      Claims.TaskReady s s.team (withTensor 0).ctx r 4 ∧ s.team.accBad r.accRanges.1 = false ∧
      steps ((Claims.issue s s.team r).taskShape s.ctx s.team r) (fun u sh =>
        !boxOutside r sh && (floatFmt sh.fmt).isSome && steps (u.escrowFor s.team r sh) (fun _ _ => true)) = true) ∧
    (let r := aTask 0x1001000005006 0x10200 0 0; let s := ringed r (withTensor 0);
      Claims.TaskReady s s.team (withTensor 0).ctx r 6 ∧ steps ((Claims.issue s s.team r).taskShape s.ctx s.team r) (fun u sh =>
        !layoutBad r sh && !boxOutside r sh && !s.team.anyScratchBad (copyoutPlan s.team r sh).2 &&
          steps (u.escrowFor s.team r sh) (fun _ _ => true)) = true) ∧
    (let r := aTask 0x1001000000107 0x10200 0 0; let s := ringed r (withTensor 0x100);
      Claims.TaskReady s s.team (withTensor 0x100).ctx r 7 ∧ r.dir = true ∧ s.team.scratchBad r.ioff (4 * r.cnt) = false ∧
      steps ((Claims.issue s s.team r).taskShape s.ctx s.team r) (fun _ sh =>
        !layoutBad r sh && decide (sh.box 0 ≤ sh.dim 0) &&
          (List.range r.cnt).all (fun j => decide ((readW s.team.scratch (r.ioff + 4 * j)).toNat < sh.dim 1)) &&
          !s.team.anyScratchBad (((List.range r.cnt).map (gatherRow r sh s.team.scratch)).map
            (fun row => (r.rowAt row.row, r.rowAt row.row + sh.bytes row.count)))) = true) ∧
    (let r := aTask 0x108 0x10200 0 0; let s := ringed r (withTensor 0);
      Claims.TaskReady s s.team (withTensor 0).ctx r 8 ∧ r.dir = true ∧ steps ((Claims.issue s s.team r).taskShape s.ctx s.team r) (fun _ sh =>
        !boxOutside r sh) = true) :=
  ⟨⟨ready _ _ _ (by decide) rfl rfl rfl (by decide) rfl, by decide, by decide +kernel⟩, ⟨ready _ _ _ (by decide) rfl rfl rfl (by decide) rfl, by decide +kernel⟩,
    ⟨ready _ _ _ (by decide) rfl rfl rfl (by decide) rfl, by decide, by decide, by decide +kernel⟩,
    ready _ _ _ (by decide) rfl rfl rfl (by decide) rfl, by decide, by decide +kernel⟩

/-- A COPYOUT that has a write left. -/
def withWrite : TaskRec := { aTask 0x1001000005006 0x10200 0 0 with issued := true, out := some [⟨0x10300, [7, 8], false, false⟩] }

/-- A write that can be performed, and one whose page is missing, which is left. -/
theorem test_hyps_TasksThatWrite :
    let s := ringed withWrite withScratch; let far : TaskWrite := ⟨0x20300, [7, 8], false, false⟩;
    s.teamOf s.team.key = some s.team ∧ s.ctxOf s.team.ctx = some s.ctx ∧ withWrite.kind = 6 ∧ withWrite.fatal = none ∧ withWrite.parks = [] ∧
    s.team.status = .running ∧ s.team.det = false ∧ (det s).team.det = true ∧
    steps (State.taskWrites s s.ctx s.team withWrite s.team.place [⟨0x10300, [7, 8], false, false⟩]) (fun _ x => x == []) = true ∧
    steps (State.taskWrites (widened s) (widened s).ctx s.team withWrite s.team.place [far]) (fun _ x => x == [far]) = true ∧
    inAperture 0x10300 = false ∧ check s.ctx 0x10300 .w = .ok 0x10300 ∧ missingKind s.dev s.ctx 0x10300 = none ∧ writeVerdict s.dev s.ctx 0x10300 0 = none ∧
    splitsElement s.ctx 0x10300 (lineOf [⟨0x10300, [7, 8], false, false⟩]) = none ∧
    admits (s.admitNow s.ctx s.team.place.1 s.team.place.2 true 0x10300) (fun _ _ => true) = true :=
  ⟨rfl, rfl, by decide, rfl, rfl, rfl, rfl, rfl, by decide +kernel, by decide +kernel, by decide, by decide, by decide +kernel, by decide +kernel,
    by decide, by decide +kernel⟩

/-- A group of teams 0 and 1 of this package, registered under handle 5. -/
def theGroup (waitms : Nat) : Group := ⟨5, 0x10600, [(0, 0), (0, 1)], waitms, 0, 0, false, 0, none, [0, 0]⟩
def withGroup (s : State) (waitms : Nat) : State := { s with ctx := { s.ctx with groups := [theGroup waitms] } }

/-- An ALLREDUCE of four I32 elements. -/
def aColl : TaskRec := aTask 0x500000009 0x10300 0x10400 4

/-- The collective that member 0 has joined: not folded yet, or done with its one chunk. -/
def withColl (accs : List (Nat × Nat × List W32)) (s : State) : State :=
  { s with dev := { s.dev with colls := [⟨1, 5, 0, [(0, ⟨1, 0⟩, { aColl with issued := true })], [], accs, [], [], [], 0, none⟩] } }

theorem test_hyps_CollectivesJoin :
    let s := ringed aColl (withGroup withScratch 0);
    Claims.TaskReady s s.team (withGroup withScratch 0).ctx aColl 9 ∧ aColl.issued = false ∧ s.ctx.groupOf aColl.collGroup = some (theGroup 0) ∧
    (theGroup 0).indexOf s.dev.pkgNum s.team.key.team = some 0 ∧ s.groupHolder (theGroup 0) = none ∧ s.collOf 1 5 ((theGroup 0).countAt 0) = none ∧
    s.slotFor (dieOf s.team.core) 1 5 ((theGroup 0).countAt 0) = true ∧ aColl.badBuffers (theGroup 0).m = false ∧ s.collDead (theGroup 0) = false :=
  ⟨ready _ _ _ (by decide) rfl rfl rfl (by decide) rfl, rfl, by decide, by decide, rfl, rfl, by decide, by decide, by decide⟩

theorem test_hyps_CollectivesGoOn :
    let r := { aColl with issued := true };
    let s := withColl [(0, 2, [1, 2, 3, 4])] (ringed r (withGroup withScratch 0));
    (s.teamOf s.team.key = some s.team ∧ s.ctxOf s.team.ctx = some s.ctx ∧ r.kind = 9 ∧ (∃ cl, s.collFor s.team.key r.seq = some (cl, 0) ∧
        s.collKilled cl = false ∧ s.collDead (theGroup 0) = false ∧ s.ctx.groupOf cl.group = some (theGroup 0) ∧
        cl.due r 2 0 ≠ [] ∧ (let cl := { cl with read := [(0, 0)] };
          let x := State.writeChunks s.ctx (theGroup 0) s.team r 0 (cl.due r 2 0) s cl; x.2.2 = 0 ∧ x.2.1.due r 2 0 = [] ∧ x.2.1.readAll r 2 0 = true))) ∧
    (let s := withColl [] (ringed r (withGroup withScratch 0));
      (∃ cl, s.collOf 1 5 0 = some cl ∧ cl.failed = none ∧ cl.joined.find? (fun x => x.1 == 0) = some (0, ⟨1, 0⟩, r) ∧
        cl.joined.head? = some (0, ⟨1, 0⟩, r) ∧ s.collKilled cl = false ∧
        s.ownsChunk (theGroup 0) r 0 = true ∧ s.stagingRoom (theGroup 0) cl r s.team 0 0 = true ∧
        s.ownerPlace (theGroup 0) cl r 0 s.team false = s.team.place) ∧
      (∃ now, s.recordOf s.team.key r.seq = some now ∧ now.fatal = none) ∧ s.runParked s.ctx s.team r.seq .r (r.sendAt 0) 16 = false ∧
      r.collKey ≠ { r with t3 := 8 }.collKey ∧
      reaches (s.getBytes s.ctx s.team.place.1 s.team.place.2 (r.sendAt 0) (r.esize * r.chunkLen 0)) (fun u x => !x.2 && (u.taskOwn s.team r).isEmpty &&
        decide (x.1.length = r.esize * r.chunkLen 0)) = true) ∧
    (let g : Group := { theGroup 0 with members := [(3, 0), (0, 0)] };
      ({ withColl [] (ringed r withScratch) with ctx := { withScratch.ctx with groups := [g] } } : State).ownsChunk g r 0 = false) ∧
    (let s := withColl [] (ringed r (withGroup withScratch 9)); (theGroup 9).waitms ≠ 0 ∧ (∃ cl, s.collOf 1 5 0 = some cl ∧ cl.failed = none ∧
      s.awaits (theGroup 9) cl 1 = true) ∧ (theGroup 9).holder = none) :=
  ⟨⟨rfl, rfl, by decide, _, rfl, by decide, by decide, by decide, by decide +kernel, by decide +kernel, by decide +kernel, by decide +kernel⟩,
    ⟨⟨_, rfl, rfl, rfl, rfl, by decide, by decide, by decide +kernel, by decide⟩, ⟨_, rfl, rfl⟩, by decide, by decide, by decide +kernel⟩, by decide,
    by decide, ⟨_, rfl, rfl, by decide +kernel⟩, rfl⟩

/-- A piece that comes in its turn, and one that comes early. -/
theorem test_hyps_CollectivesFold :
    let cl : Coll := ⟨1, 5, 0, [], [], [(0, 1, [1, 2, 3, 4])], [], [], [], 0, none⟩;
    aColl.collOp < 2 ∧ cl.pieces = [] ∧ cl.accs.find? (fun a => a.1 == 0) = some (0, 1, [1, 2, 3, 4]) ∧ (∀ a ∈ cl.accs, a.1 = 0 → a.2.1 = 1) ∧
    1 + 1 < 3 ∧ 1 < 2 ∧ aColl.collType = 0 ∧ aColl.collRed = 0 := by decide

/-! ## Witnesses: requests, launches, teams, clearings -/

/-- Entry 2 has a full queue of four messages. -/
def withFullQueue : State :=
  { withChannels with warp := { withChannels.warp with chans := withChannels.warp.chans.set 2 ⟨.recv, 0, 0, 3, List.replicate 4 [(0, 9)]⟩ } }

/-- An access of the scalar stream is parked under ticket 5. -/
def withTicket : State :=
  { desk with
    warp := { desk.warp with parkS := some ⟨5, 0, [], 0x10100, false, false, false⟩ }
    ctx := { desk.ctx with tickets := [⟨5, some ⟨1, 0, 0⟩, false, none, 1⟩] } }

/-- An extent of two pages, the second of which is not there, four bytes before the end of the first. -/
def lanedFar : State :=
  let s := lanedExtent 8
  { s with ctx := { s.ctx with
    ranges := [⟨0x1000F, 0x30000, 0, 0x30000⟩], extents := [⟨0x10000, 2, 65532, 65532, false, false, false, false⟩] } }

theorem test_hyps_Requests :
    (desk.ctxOf 1 = some desk.ctx ∧ writeVerdict desk.dev desk.ctx 0x10100 8 = none ∧
      admits ((desk.quiesce 1 0x10100).letIn desk.ctx (.other 0 0) true false true 0x10100) (fun u p => !u.dev.bad.contains (p.phys 0x10100 / 128)) = true) ∧
    (∃ x, (lanedExtent 8).extentFor (lanedExtent 8).ctx (iaOf (lanedExtent 8).ctx .w 0x10100) 0x10100 = .found x ∧ x.closed = false ∧ x.pages = 1 ∧
      x.reserved = 8 ∧ spanMissing (lanedExtent 8).dev (lanedExtent 8).ctx (x.base + x.reserved) 4 = none ∧
      gives (match (lanedExtent 8).writeSpan (lanedExtent 8).ctx (homeOf (lanedExtent 8).dev 0x10000) (x.base + x.reserved) [1, 2, 3, 4] with
        | (v, b) => .ok v b) (fun v b => !b && (v.ctxOf 1).isSome) = true) ∧
    (let s := lanedFar;
      (∃ x, s.extentFor s.ctx (iaOf s.ctx .w 0x1FF00) 0x1FF00 = .found x ∧ x.closed = false ∧ x.pages = 2 ∧ x.reserved = 65532 ∧
        (spanMissing s.dev s.ctx (x.base + x.reserved) 8).isSome = true)) ∧
    (∃ x, (lanedExtent 8).extentFor (lanedExtent 8).ctx (iaOf (lanedExtent 8).ctx .r 0x10100) 0x10100 = .found x ∧ x.bad = false) ∧
    ((lanedExtent 8).warp.status ≠ .absent ∧ ∃ x, extentAt (lanedExtent 8).ctx 0x10100 = some x ∧ x.sealed = false ∧ inAperture 0x10100 = false) ∧
    (∃ g, regionOf (withRegion 0).ctx 3 = some g) ∧ regionOf desk.ctx 3 = none ∧
    (withChannels.warpOf ⟨1, 0, 0⟩ = some withChannels.warp ∧ withChannels.peer ⟨1, 0, 0⟩ 3 (withChannels.warp.chan 3) = .accepts ∧
      withFullQueue.peer ⟨1, 0, 0⟩ 3 (withFullQueue.warp.chan 3) = .waits) ∧
    (∃ r p, withTicket.ticketRec 5 = some (withTicket.ctx, r) ∧ withTicket.ctxOf withTicket.ctx.num = some withTicket.ctx ∧
      r.warp = some withTicket.warp.key ∧ withTicket.warp.parkS = some p ∧ p.ticket = 5) ∧
    (∃ p, walk desk.dev desk.ctx 0x10100 = .page p ∧ p.cls ≠ 2 ∧ p.large = false ∧ bitsOf64 (desk.dev.pageRecord desk.ctx 1) 63 62 = 0 ∧
      (let v := ((desk.joinPackage 1 5).sharePage 1 1).recallRange 1 65536 65536 false
        let w := v.putRecordOf desk.ctx 1 (BitVec.ofNat 64 (2 ^ 62 + 2 ^ 58 + 5))
        ((w.quiesceRead 1 0x10100).fetchLine desk.ctx 0x10100).map Prod.snd) = some false ∧ desk.dev.oldStamp ⟨5, 0, 0⟩ = false) ∧
    ({ desk with dev := { desk.dev with deadPkgs := [5] } } : State).dev.deadPkgs.contains (5 : BitVec 12) = true :=
  ⟨⟨rfl, by decide +kernel, by decide +kernel⟩, ⟨_, rfl, rfl, rfl, rfl, by decide +kernel, by decide +kernel⟩,
    ⟨_, rfl, rfl, rfl, rfl, by decide +kernel⟩, ⟨_, rfl, rfl⟩, ⟨by decide, _, rfl, rfl, by decide⟩, ⟨_, rfl⟩, rfl,
    ⟨rfl, by decide +kernel, by decide +kernel⟩, ⟨_, _, rfl, rfl, rfl, rfl, rfl⟩,
    ⟨_, rfl, by decide, by decide, by decide, by decide +kernel, by decide⟩, by decide⟩

/-- A packet in the first slot of the queue. -/
def withPacket : State := put withQueueBlock 0x200800 [0x10000, 1, 0, 0x10400, 0, 0, 0, 1]

/-- The launch bound to a slot of die 0 that takes teams on core 3. -/
def withSlot : State :=
  { desk with dev := { desk.dev with launches := [{ benchLaunch with teams := 2 }], bindTab := [⟨0, 0, 1, 1, 8, 0, false, false, true, false, 1, 1, 0⟩] } }

theorem test_hyps_Launches :
    (withPacket.ctxOf 1 = some withPacket.ctx ∧ withPacket.ctx.queueAt (BitVec.ofNat 64 1) = some 0x10400 ∧
      reaches (withQueueBlock.peekPacket withQueueBlock.ctx 0x10400) (fun _ x => x.isNone) = true ∧
      reaches (withPacket.peekPacket withPacket.ctx 0x10400) (fun u x => x.any (fun y =>
        reaches (u.popPacket withPacket.ctx 0x10400 y.1) (fun _ _ => true))) = true ∧
      (withPacket.nextQueue.map (fun x => (x.1.num, x.2.1))) = some (1, 1) ∧
      (let s : State := { withPacket with ctx := { withPacket.ctx with queues := [(1, 0x10400), (2, 0x10400)] } };
        (s.nextQueue.map (fun x => (x.1.num, x.2.1))) = some (1, 1) ∧ s.ctx.queueAt (BitVec.ofNat 64 2) = some 0x10400)) ∧
    (let l := { benchLaunch with afterParent := true, bound := false, parent := 0x10400 }; let s := put (relaunched (fun _ => l) desk) 0x200400 [1];
      Claims.LaunchIs s l ∧ s.ctxOf l.ctx = some s.ctx ∧ l.status = 0 ∧ l.ticket = 0 ∧
      reaches (s.welhalGet s.ctx l.parent.toNat 8) (fun _ x => !x.2 && wordAt x.1 0 == 1) = true) ∧
    (∃ b, withSlot.dev.deadDies.contains 0 = false ∧ withSlot.slotOrder 0 = [b] ∧ withSlot.slotNow b = b ∧ b.launch = 1 ∧
      Claims.LaunchIs withSlot { benchLaunch with teams := 2 } ∧ withSlot.nextTeam b = .fresh 1 ∧
      benchLaunch.cancelled = false ∧ benchLaunch.det = false ∧ benchLaunch.cores = false ∧ benchLaunch.latency = false ∧
      withSlot.findCore b (fun c => withSlot.fitsCore benchHeader.scratch benchHeader.load c (fun _ => false)) = some 3 ∧
      Claims.FrontOf withSlot ⟨1, 1⟩) ∧
    (let l := { benchLaunch with status := 1, done := 0x10400 }; let s := relaunched (fun _ => l) desk;
      Claims.LaunchIs s l ∧ s.ctxOf l.ctx = some s.ctx ∧ l.done.toNat % 128 = 0 ∧ l.recorded = false ∧ l.ticket = 0 ∧
      reaches (s.welhalPut s.ctx (l.done.toNat + 8) (bytesOf ([BitVec.ofNat 64 (l.kills % 2 ^ 32 * 2 ^ 32 + l.exited % 2 ^ 32),
        BitVec.ofNat 64 (l.retries % 256), BitVec.ofNat 64 (l.kteam % 2 ^ 32), 0, 0, 0, 0] ++ (List.range 8).map (fun k => l.killRec.get k))))
        (fun u _ => reaches (u.welhalPut s.ctx l.done.toNat (toBytes 8 (BitVec.ofNat 64 l.status))) (fun _ _ => true)) = true) :=
  ⟨⟨rfl, rfl, by decide +kernel, by decide +kernel, by decide +kernel, by decide +kernel, rfl⟩, ⟨rfl, rfl, rfl, rfl, by decide +kernel⟩,
    ⟨⟨0, 0, 1, 1, 8, 0, false, false, true, false, 1, 1, 0⟩, by decide, by decide +kernel, by decide, rfl, rfl, rfl, rfl, rfl, rfl, rfl,
      by decide +kernel, fun h => absurd h (by decide)⟩, rfl, rfl, by decide, rfl, rfl, by decide +kernel⟩

/-- A team that has been killed and is drained. -/
def withKilled : State :=
  { relaunched (fun l => { l with hdr := { l.hdr with idem := true }, retry := 2 }) desk with
    team := { desk.team with status := .killed }, warp := { desk.warp with status := .killed } }

/-- A context with a save pool of 16 MiB. -/
def pooled : State := { desk with ctx := { desk.ctx with save := 0x1000000 } }

theorem test_hyps_TeamsLeave :
    (pooled.team.status = .running ∧ pooled.team.core = 0 ∧ pooled.mayVacate (pooled.vacating (fun _ => true) [0]) = true ∧
      pooled.mayVacate (pooled.vacating (fun t => !t.det) [0]) = true ∧ pooled.team.det = false ∧
      (let s : State := { pooled with warp := { pooled.warp with done := [(0, 0)] } };
        s.team.status = .running ∧ s.mayBegin (s.vacating (fun _ => true) [0]) = false)) ∧
    (desk.leaving desk.team.key = false ∧
      ({ desk with warp := { desk.warp with done := [(0, 0)] } } : State).leaving desk.team.key = true ∧ desk.team.dying = none) ∧
    (let s : State := { desk with core := { desk.core with switch := .begun } }; (s.coreOf 0).switch = .begun) ∧
    (let s : State := { desk with core := { desk.core with switch := .spilling }, team := { desk.team with status := .saved } };
      (s.coreOf 0).switch = .spilling ∧ ∀ t ∈ s.allTeams, t.core = 0 → t.status = .saved ∧ s.spilled t = true) ∧
    (∃ l tm, withKilled.teamOf ⟨1, 0⟩ = some tm ∧ tm.status = .killed ∧ l.num = 1 ∧ Claims.LaunchIs withKilled l ∧ l.hdr.idem = true ∧
      l.retries < l.retry ∧ l.cancelled = false ∧ withKilled.drained tm = true ∧ Claims.FrontOf withKilled ⟨1, 0⟩) ∧
    (Claims.LaunchIs desk benchLaunch ∧ benchLaunch.status = 0 ∧ benchLaunch.bound = true ∧ desk.team.key.launch = benchLaunch.num) ∧
    (let l := { benchLaunch with bound := false }; Claims.LaunchIs (relaunched (fun _ => l) desk) l) ∧
    popCount (0xFF : Mask) ≤ 8 ∧ 8 < popCount (0x1FF : Mask) := by
  refine ⟨by decide +kernel, ⟨by decide, by decide, rfl⟩, rfl, ⟨rfl, by decide +kernel⟩,
    ⟨{ benchLaunch with hdr := { benchLaunch.hdr with idem := true }, retry := 2 }, _, rfl, rfl, rfl, rfl, rfl, by decide, rfl, by decide, fun _ => by decide⟩,
    ⟨rfl, rfl, rfl, rfl⟩, rfl, by decide, by decide⟩

/-- A clearing of the launch in which the warp comes next. -/
def inClearing (rest : List WarpKey) (comms : List (Nat × Comm)) : State :=
  { relaunched (fun l => { l with clearing := some rest }) desk with warp := { desk.warp with comms := comms } }

/-- A core whose sampler has started, with the sample block at 0x10200 and a buffer at 0x10800; its warp waits. -/
def withSampler : State :=
  put { desk with
    ctx := { desk.ctx with samples := 0x10200 }
    warp := { desk.warp with scalStalled := true, scalReason := 1 }
    core := { desk.core with sampler := ⟨some 0x10200, 1, 0, 0, 0, 0⟩ } } 0x200200 [0x10800, 0x100, 0x2000000000100, 1, 0, 0, 0, 0]

theorem test_hyps_Clearings :
    (let l := { benchLaunch with clearing := some [⟨1, 0, 0⟩] };
      Claims.LaunchIs (inClearing [⟨1, 0, 0⟩] []) l ∧ l.clearing = some ((inClearing [⟨1, 0, 0⟩] []).warp.key :: []) ∧
      (inClearing [⟨1, 0, 0⟩] []).warp.status = .running ∧ (inClearing [⟨1, 0, 0⟩] []).warp.clearL = .none ∧
      (inClearing [⟨1, 0, 0⟩] []).warp.clearS = .none ∧ (inClearing [⟨1, 0, 0⟩] []).warp.parkS = none ∧ (inClearing [⟨1, 0, 0⟩] []).warp.comms = [] ∧
      (let ws : List LaneStore := [⟨0, 0x10101, 0x10101, [7]⟩]; let s := inClearing [⟨1, 0, 0⟩] [(0, .store ws none)];
        (ws.map (fun x => x.ia / 128 * 128)).eraseDups = [0x10100] ∧ (∀ x ∈ ws, ∀ b ∈ x.cells, regionAt s.ctx b.1 = none) ∧
        runsOf ((List.range 128).filterMap (fun k => (ws.flatMap LaneStore.cells).reverse.find? (fun y => y.1 == 0x10100 + k))) = [(0x10101, [7])] ∧
        admits (State.admitNow { s with warp := { s.warp with comms := [] } } s.ctx s.team.place.1 s.team.place.2 true 0x10100)
          (fun v _ => decide (v.warp = { s.warp with comms := [] }) && v.dev.launches == s.dev.launches &&
            (match walk v.dev s.ctx 0x10101 with | .page _ => true | .absent => false | .malformed => false)) = true)) ∧
    (Claims.LaunchIs (inClearing [] []) { benchLaunch with clearing := some [] } ∧ (inClearing [] []).warp.key.launch = 1 ∧
      (inClearing [] []).detCores benchLaunch.binds = benchLaunch.remap ∧ (∀ t ∈ (inClearing [] []).allTeams, t.status ≠ .saved)) ∧
    (∃ c b w tm, withSampler.samplingOn 0 = some (c, b) ∧ (withSampler.coreOf 0).sampler.block = some b.at' ∧
      withSampler.issuerAt 0 0 (withSampler.coreOf 0).cycle = none ∧ withSampler.chooseWarp 0 0 0 none = some w ∧
      withSampler.teamOf w.key.teamKey = some tm ∧ tm.det = false) :=
  ⟨⟨rfl, rfl, rfl, rfl, rfl, rfl, rfl, by decide, by decide, by decide +kernel, by decide +kernel⟩, ⟨rfl, rfl, by decide +kernel, by decide⟩,
    _, _, _, _, rfl, rfl, by
      have h : (withSampler.coreWarps 0).filter (fun w => w.pipe == 0 && (withSampler.stallReason w).isNone) = [] := by decide +kernel
      unfold State.issuerAt; rw [h]; rfl, rfl, rfl, rfl⟩

/-- The record of a sample has room in that buffer: shown for open words of 0, as the room does not depend on them. -/
theorem test_hyps_SampleRecord :
    (withSampler.samplingOn 0).any (fun y => reaches (withSampler.putRecord y.1 0 0 0 y.2 [0, 0, 0, 0]) (fun _ z => z)) = true := by decide +kernel

/-! ## Witnesses: the driver, the fabric, the debugger -/

/-- The management core runs an image. -/
def booted (s : State) : State := { s with dev := { s.dev with boot := .running ⟨9, 0, 1⟩ } }

/-- A page of a context in which package 5 takes part, on a device with three pages of CXL memory: not withdrawn, or held with
some notices open. -/
def unheld : State := { desk with ctx := { desk.ctx with pkgs := [5] }, dev := { desk.dev with tierPages := 3 } }
def holding (open' : List (Nat × BitVec 12)) : State :=
  { unheld with dev := { unheld.dev with pagesHeld := [pageKey 1 1], drops := open' } }

theorem test_hyps_Driver :
    (Claims.Serves (booted desk) ∧ ¬ Claims.Serves desk ∧ (∀ c, (booted desk).ctxOf 2 = some c → c.numerics = 0) ∧
      (∃ c, desk.ctxOf 1 = some c ∧ c.numerics ≠ 0) ∧ (∀ c ∈ (booted State.reset).allCtxs, c.numerics = 0) ∧ (∃ c ∈ (booted desk).allCtxs, c.numerics ≠ 0)) ∧
    (let s := relaunched (fun l => { l with status := 1, recorded := true }) desk;
      s.ctxOf 1 = some s.ctx ∧ s.ctx.numerics ≠ 0 ∧ ∀ l ∈ (s.closeContext s.ctx).dev.launches, l.ctx = 1 → l.recorded = true) ∧
    ((RangeReg.mk 0x2000F 0x30000 0 0x30000).legal = true ∧ (RangeReg.mk 0x2000F 0x20000 0 0x20000).legal = false) ∧
    ((0x100000 : W64).toNat % 32768 = 0 ∧ (0x100000 : W64).toNat < 2 ^ 48 ∧ (0x100001 : W64).toNat % 32768 ≠ 0) ∧
    (∀ s, s = unheld ∨ s = holding [] ∨ s = holding [(pageKey 1 1, 5)] →
      s.dev.away s.ctx 65536 = false ∧ (∃ place, entryPlace s.dev s.ctx 65536 = some place ∧ (readD s.dev.mem place).getLsbD 61 = false) ∧
      (let u := (s.recallPages s.ctx [1] true).recallRange 1 65536 65536 true
       (∃ p, walkEntry s.dev s.ctx 65536 = .page p ∧ p.large = false ∧ p.cls ≠ 1 ∧ p.cls ≠ 2 ∧ p.cls ≠ 4 ∧ (2 : Nat) < s.dev.tierPages) ∧
       (∃ q, walkEntry u.dev s.ctx 65536 = .page q ∧ q.large = false) ∧ u.dev.mem.wf = true ∧ u.ctxOf 1 = some s.ctx)) ∧
    (pageKey 1 1 ∉ unheld.dev.pagesHeld ∧ pageKey 1 1 ∈ (holding []).dev.pagesHeld ∧ (holding []).dev.drops = [] ∧
      (∃ x ∈ (holding [(pageKey 1 1, 5)]).dev.drops, x.1 = pageKey 1 1) ∧ (5 : BitVec 12) ∈ unheld.ctx.pkgs) ∧
    (extentLegal desk.ctx 0x10000 1 = true ∧ extentLegal desk.ctx 0x10001 1 = false ∧
      (let c := { desk.ctx with root := 0 }; appendMissing desk.dev c [0x10000] = some (1, 0x10000) ∧ extentLegal c 0x10000 1 = true) ∧
      (let s := put desk 0x110008 [0];
        appendMissing s.dev s.ctx [0x10000] = none ∧ s.ctx.hbmFrames.length < framesNeeded s.dev s.ctx [0x10000] ∧
        presentPages s.dev s.ctx [0x10000] = []) ∧
      (∀ s, s = unheld ∨ s = holding [] → appendMissing s.dev s.ctx [0x10000] = none ∧ presentPages s.dev s.ctx [0x10000] = [1] ∧
        framesNeeded s.dev s.ctx [0x10000] ≤ s.ctx.hbmFrames.length ∧ s.splitPage s.ctx 1 = s ∧ s.dev.away s.ctx 65536 = false ∧
        (∃ c', ([0x10000].foldl (State.appendPage 1) (s.recallPages s.ctx [1] true)).ctxOf 1 = some c'))) ∧
    (desk.ctx.queues = [] ∧ desk.ctx.groupOf 5 = none ∧ desk.ctx.keys = [] ∧
      (let s := put desk 0x200600 [2, 0, 0, 0, 0, 0, 0, 0, 0, 1]
       reaches (s.readGroupRecord s.ctx 5 0x10600) (fun u x => x.isSome && decide (u.ctxOf 1 = some s.ctx))) = true) := by
  refine ⟨⟨⟨_, rfl⟩, ?_, ?_, ⟨_, rfl, by decide⟩, by decide, by decide⟩, ⟨rfl, by decide, by decide +kernel⟩, by decide, by decide,
    ?_, by decide +kernel, ⟨by decide, by decide, ⟨by decide +kernel, by decide⟩, ⟨by decide +kernel, by decide +kernel, by decide +kernel⟩, ?_⟩,
    rfl, rfl, rfl, by decide +kernel⟩
  · rintro ⟨i, h⟩
    have e : desk.dev.boot = .off := rfl
    exact absurd (e.symm.trans h) (by simp)
  · intro c h
    have e : (booted desk).ctxOf 2 = none := rfl
    exact absurd (e.symm.trans h) (by simp)
  · rintro s (rfl | rfl | rfl) <;>
      exact ⟨by decide +kernel, ⟨_, rfl, by decide +kernel⟩, ⟨_, rfl, by decide, by decide, by decide, by decide, by decide⟩, ⟨_, rfl, by decide⟩,
        by decide +kernel, by decide +kernel⟩
  · rintro s (rfl | rfl) <;>
      exact ⟨by decide +kernel, by decide +kernel, by decide +kernel, rfl, by decide +kernel, _, rfl⟩

/-- A key of 64 bytes at 0x10100. -/
def keyed : State := { desk with ctx := { desk.ctx with keys := [⟨3, 0x10100, 64, true, true⟩] } }

/-- The page has gone to package 9. -/
def withAway : State := { desk with dev := { desk.dev with pageRecs := desk.dev.pageRecs.set (pageKey 1 1) (pageRecordOf 2 false [9]) } }

theorem test_hyps_Fabric :
    (desk.dev.deadDies.contains 23 = false ∧ (9 : BitVec 12) ≠ desk.dev.pkgNum ∧ desk.dev.deadPkgs.contains (9 : BitVec 12) = false) ∧
    (let e : Instr := .bankSwap 0; let s : State := { desk with
        events := [.grant .home theLine (.core 0) false none, .grant .home theLine (.core 0) true none], plan := [.event 1] };
      s.events[1]? = some (.grant .home theLine (.core 0) true none) ∧
      s.inOrder (.grant .home theLine (.core 0) false none) (.grant .home theLine (.core 0) true none) = true ∧
      s.inOrder e e = false) ∧
    (Claims.Serves (booted desk) ∧ (linkEnds 0).isSome = true ∧ (desk.dev.linkFails.get 0 + 1).toNat < 3 ∧
      (let s : State := { desk with dev := { desk.dev with linkFails := desk.dev.linkFails.set 0 2 } }; 3 ≤ (s.dev.linkFails.get 0 + 1).toNat) ∧
      Device.cutOff { desk.dev with badLinks := [0, 1] } = [0] ∧
      (∃ tm, withScratch.teamOf ⟨1, 0⟩ = some tm ∧ 16 < tm.hdr.scratch)) ∧
    (∀ s, s = desk ∨ s = holding [] ∨ s = holding [(pageKey 1 1, 9)] →
      (∃ p, s.dev.away s.ctx (1 * 65536) = false ∧ walkEntry s.dev s.ctx (1 * 65536) = .page p ∧ p.large = false ∧ p.cls = 0 ∧
        escrowAt s.ctx (1 * 65536) = none) ∧
      (let v := (((s.recallPages s.ctx [1] false).sharePage 1 1).dropPushed 1 1).joinPackage 1 9
       ∃ p, walkEntry v.dev s.ctx (1 * 65536) = .page p ∧ p.large = false)) ∧
    (desk.dev.away desk.ctx (1 * 65536) = false ∧ desk.dev.oldStamp ⟨9, 0, 0⟩ = false ∧
      ({ desk.dev with deadPkgs := [9] } : Device).oldStamp ⟨9, 0, 0⟩ = true) ∧
    (withAway.dev.away withAway.ctx (1 * 65536) = true ∧ withAway.dev.recordKey withAway.ctx 1 = pageKey 1 1 ∧
      (withAway.dev.pageRecs.get (pageKey 1 1)).truncate 12 = (9 : BitVec 12) ∧ withAway.dev.oldStamp ⟨9, 0, 0⟩ = false ∧
      ∃ p, walk { withAway.dev with pageRecs := withAway.dev.pageRecs.set (pageKey 1 1) 0 } withAway.ctx (1 * 65536) = .page p) ∧
    (keyed.keyCtx 3 (0x10138 : W64).toNat 8 true true = some keyed.ctx ∧ keyed.keyCtx 3 (0x10139 : W64).toNat 8 true true = none ∧
      reaches (keyed.welhalPut keyed.ctx 0x10138 [1, 2, 3, 4, 5, 6, 7, 8]) (fun _ _ => true) = true ∧
      reaches (keyed.welhalGet keyed.ctx 0x10138 8) (fun _ x => !x.2) = true) ∧
    (checkAll keyed.ctx 0x10138 [.r, .w] = .ok 0x10138 ∧ missingKind keyed.dev keyed.ctx 0x10138 = none ∧ writeVerdict keyed.dev keyed.ctx 0x10138 8 = none ∧
      admits ((keyed.quiesce 1 0x10138).letIn keyed.ctx (.other keyed.dev.hostPlace.1 keyed.dev.hostPlace.2) true false true 0x10138) (fun u p => !u.dev.bad.contains (p.phys 0x10138 / 128)) = true) ∧
    (State.reset.dev.boot = .off ∧ ({ State.reset.dev with boot := .recovery } : Device).boot = .recovery ∧ (booted desk).dev.boot = .running ⟨9, 0, 1⟩) ∧
    (∃ ws, desk.readback (.rangeRegister 1 15) = some ws) :=
  ⟨by decide, by decide, ⟨⟨_, rfl⟩, by decide, by decide, by decide, by decide +kernel, _, rfl, by decide⟩, by
      rintro s (rfl | rfl | rfl) <;> exact ⟨⟨_, by decide, rfl, by decide, by decide, rfl⟩, _, rfl, by decide⟩,
    ⟨by decide, by decide, by decide⟩, ⟨by decide +kernel, by decide +kernel, by decide, by decide, _, rfl⟩, ⟨rfl, rfl, by decide +kernel, by decide +kernel⟩,
    ⟨by decide, by decide +kernel, by decide +kernel, by decide +kernel⟩, ⟨rfl, rfl, rfl⟩, _, rfl⟩

/-- The signature check is open, so an image is accepted or not as that check answers; each answer's other premises hold. -/
theorem test_hyps_Images (i : FirmwareImage) :
    (Config.signatureOk i = true → Claims.Accepted State.reset i) ∧ (Config.signatureOk i = false → ¬ Claims.Accepted State.reset i) := by
  refine ⟨fun h => ⟨h, by simp [State.reset, Device.reset], by simp [State.reset, Device.reset]⟩, fun h a => ?_⟩
  exact absurd (h.symm.trans a.1) (by decide)

/-- The debugger holds every right; the warp is stopped or runs. -/
def held (st : WStatus) : State := { debugged desk with warp := { desk.warp with status := st } }

/-- Welhal has taken a STOP and a MEMREAD of the context that it has not completed. -/
def taking : State :=
  { held .running with dev := { (held .running).dev with taken := [(1, .stop 7 (.warp ⟨1, 0, 0⟩)), (1, .memread 7 0x10100 4)] } }

theorem test_hyps_Commands :
    Claims.NoCommand (held .running) 1 ∧ ¬ Claims.NoCommand taking 1 ∧ Claims.Carried taking (.stop 7 (.warp ⟨1, 0, 0⟩)) 7 1 2 ∧
    Claims.Carried (held .running) (.memread 7 0x10100 4) 7 1 0 ∧ Claims.Carried (held .running) (.memwrite 7 0x10100 [1]) 7 1 1 ∧
    (let s : State := { held .running with warp := { (held .running).warp with done := [(0, 0)] } };
      Claims.FrontOnce s ∧ Claims.Carried s (.stop 7 (.warp ⟨1, 0, 0⟩)) 7 1 2 ∧ s.warp.done ≠ []) ∧
    (let s := put (held .running) 0x110008 [0];
      (match s.welhalGet s.ctx 0x10100 4 with | .missing k _ => k == 1 | .ok _ _ => false | .fault _ => false | .refused _ _ => false) = true) := by
  have none' : Claims.NoCommand (held .running) 1 := fun y h => absurd h (by decide +revert)
  have holds : ∀ n < 6, Claims.Holds (held .running) 7 1 n := by
    intro n h; exact ⟨rfl, _, rfl, rfl, by revert n; decide⟩
  refine ⟨none', fun h => h (1, .stop 7 (.warp ⟨1, 0, 0⟩)) (by decide) rfl, .inl (by decide), .inr ⟨none', holds 0 (by decide)⟩,
    .inr ⟨none', holds 1 (by decide)⟩, ⟨⟨by decide, by decide⟩, .inr ⟨fun y h => absurd h (by decide +revert), rfl, _, rfl, rfl, rfl⟩, by decide⟩,
    by decide +kernel⟩

/-- A capability delegated from it, and a group a member of which is held. -/
def delegated : State :=
  let s := withColl [] (withGroup (held .stopped) 0)
  { s with
    ctx := { s.ctx with groups := [{ theGroup 0 with holder := some 1 }] }
    dev := { s.dev with caps := [⟨7, 1, 0x3F, none⟩, ⟨8, 1, 0x01, some 7⟩] } }

theorem test_hyps_Debugger :
    ((held .running).teamOf (held .running).warp.key.teamKey = some desk.team ∧ ¬ Claims.Holds desk 7 1 0 ∧
      Claims.Holds (held .running) 7 desk.team.ctx 0 ∧ Claims.Holds (held .running) 7 desk.team.ctx 1 ∧ Claims.Holds (held .running) 7 desk.team.ctx 2 ∧
      Claims.Holds (held .running) 7 desk.team.ctx 3 ∧ (held .running).warp.status ≠ .stopped ∧ (held .stopped).warp.status = .stopped ∧
      ({ (held .running).dev with revoked := [7] } : Device).revoked.contains (7 : BitVec 32) = true) ∧
    (Claims.FrontOnce (held .running) ∧ (held .running).warp.status = .running ∧ (held .running).warp.done = [] ∧
      Claims.FrontOnce (held .stopped) ∧ (held .stopped).warp.pendTrap = none ∧ desk.team.status = .running ∧ (withQueue (held .stopped) 1).warp.queue ≠ []) ∧
    (reaches ((held .running).welhalGet desk.ctx 0x10100 4) (fun _ x => !x.2) = true ∧
      reaches ((held .running).welhalPut desk.ctx 0x10100 [1, 2, 3, 4]) (fun _ _ => true) = true) ∧
    (2 ≤ 20 ∧ (0x00FFFFFFFFF00000 : W64).toNat % 2 ^ 20 = 0 ∧ (0x00FFFFFFFFF00000 : W64).toNat < 2 ^ 56) ∧
    (∃ g cl, delegated.ctx.groupOf 5 = some g ∧ delegated.anyHeld g = true ∧ delegated.collOf 1 5 0 = some cl ∧ cl.failed = none ∧ Claims.Holds delegated 7 1 4) ∧
    (∃ x y, delegated.dev.revoked.contains (7 : BitVec 32) = false ∧ delegated.dev.caps.find? (fun z => z.handle == 7) = some x ∧ x.rights.getLsbD 5 = true ∧
      ((0x1F : BitVec 8) &&& ~~~x.rights) = 0 ∧ ((0x40 : BitVec 8) &&& ~~~x.rights) ≠ 0 ∧ y ∈ delegated.dev.caps ∧ y.parent = some 7 ∧ y.handle ≠ 7 ∧
      delegated.dev.revoked.contains y.handle = false) := by
  refine ⟨⟨rfl, ?_, ⟨rfl, _, rfl, rfl, rfl⟩, ⟨rfl, _, rfl, rfl, rfl⟩, ⟨rfl, _, rfl, rfl, rfl⟩, ⟨rfl, _, rfl, rfl, rfl⟩, by decide, rfl, by decide⟩,
    ⟨⟨by decide, by decide⟩, rfl, rfl, ⟨by decide, by decide⟩, rfl, rfl, by decide⟩, ⟨by decide +kernel, by decide +kernel⟩, by decide,
    ⟨_, _, rfl, by decide, rfl, rfl, rfl, _, rfl, rfl, rfl⟩, ⟨7, 1, 0x3F, none⟩, ⟨8, 1, 0x01, some 7⟩, by decide, rfl, by decide, by decide, by decide, by decide, rfl, by decide, by decide⟩
  rintro ⟨-, c, h, -⟩
  have e : desk.dev.caps.find? (fun x => x.handle == 7) = none := rfl
  exact absurd (e.symm.trans h) (by simp)


/-! ## Ill-formed terms: one for each check of WellFormed.lean -/

/-- No guard, v0 and v1 as operands. -/
def g0 : Guard := ⟨false, 0⟩
def v (n : VReg) : Value := .reg n false
def dv (n : VReg) : Dest := .reg n

theorem test_ill_guard : (Instr.nop ⟨true, 0⟩).wf = false := by decide
theorem test_ill_register_source : (Instr.iabs g0 (dv 0) (v 192)).wf = false := by decide
theorem test_ill_channel_source : (Instr.iabs g0 (dv 0) (.chan 15 true)).wf = false := by decide
theorem test_ill_destination : (Instr.iabs g0 (dv 192) (v 0)).wf = false := by decide
theorem test_ill_load_group : (Instr.ld g0 .d .x1 .l1 false 3 0 (v 0) 0).wf = false := by decide
theorem test_ill_store_group : (Instr.st g0 .q .x1 .l1 0 (v 0) 0 (v 6)).wf = false := by decide
theorem test_ill_uniform_group : (Instr.st g0 .d .x1 .l1 0 (v 0) 0 (.uni 4)).wf = false := by decide
theorem test_ill_channel_group : (Instr.push g0 .d .x1 0 0 (v 0) 0 (.chan 3 false)).wf = false := by decide
theorem test_ill_destination_group : (Instr.cvtfi g0 .i64 .f32 .rn (dv 5) (v 0)).wf = false := by decide
theorem test_ill_channel_destination_group : (Instr.cvtfi g0 .i64 .f32 .rn (.chan 2) (v 0)).wf = false := by decide
theorem test_ill_cross_lane_channel :
    (Instr.shfl g0 .idx 5 (dv 0) (.chan 1 false) (v 0) 0).wf = false ∧ (Instr.lred g0 .add (dv 0) (.chan 1 false)).wf = false ∧
      (Instr.lscan g0 .add false (dv 0) (.chan 1 false)).wf = false ∧ (Instr.bcast g0 (dv 0) (.chan 1 false) none).wf = false := by
  decide
theorem test_ill_mask_operands : (Instr.mrst (v 0)).wf = false ∧ (Instr.mnot (.chan 0 false)).wf = false := by decide
theorem test_ill_sign_extension : (Instr.ld g0 .w .x1 .l1 true 3 0 (v 0) 0).wf = false := by decide
theorem test_ill_float_doubleword :
    (Instr.atom g0 .fadd .die .rlx true .x1 2 0 (v 0) 0 (v 4)).wf = false ∧
      (Instr.atomn g0 .fadd .die .rlx true .x1 0 (v 0) 0 (v 4)).wf = false := by decide
theorem test_ill_stochastic_reduction :
    (Instr.lred g0 (.fadd .sr) (dv 0) (v 0)).wf = false ∧ (Instr.lscan g0 (.fadd .sr) false (dv 0) (v 0)).wf = false := by decide
theorem test_ill_word_shift :
    (Instr.slli true 5 5 32).wf = false ∧ (Instr.srli true 5 5 32).wf = false ∧ (Instr.srai true 5 5 63).wf = false := by decide
theorem test_ill_block_counts :
    (Instr.vgrow 0).wf = false ∧ (Instr.vgrowTry 5 0).wf = false ∧ (Instr.vshrink 0).wf = false := by decide
theorem test_ill_task_registers : (Instr.task 0).wf = false ∧ (Instr.task 29).wf = false := by decide
theorem test_ill_special_registers :
    (Instr.mfs 5 24).wf = false ∧ (Instr.mfs 5 14).wf = false ∧ (Instr.mts 5 0).wf = false := by decide
theorem test_ill_waitf : (Instr.waitf g0 192 false).wf = false := by decide
theorem test_ill_conversion_formats :
    (Instr.cvtif g0 .e4m3 .i32 .rn false (dv 0) (v 0)).wf = false ∧ (Instr.cvtfi g0 .i32 .e4m3 .rn (dv 0) (v 0)).wf = false := by
  decide
theorem test_ill_pack :
    (Instr.pack g0 .e4m3 .rn false (dv 0) (v 0) (v 1) .none).wf = false ∧
      (Instr.pack g0 .f16 .rn false (dv 0) (v 0) (v 1) (.fp8 (v 2) false)).wf = false := by decide
theorem test_ill_unpack :
    (Instr.unpk g0 .f32 (dv 0) (v 0) 0).wf = false ∧ (Instr.unpk g0 .f16 (dv 0) (v 0) 2).wf = false := by decide
theorem test_ill_select : (Instr.sel g0 .x true 1 (dv 0) (v 0) (v 1)).wf = false := by decide
theorem test_ill_shuffle_width :
    (Instr.shfl g0 .idx 0 (dv 0) (v 0) (v 1) 0).wf = false ∧ (Instr.shfl g0 .idx 6 (dv 0) (v 0) (v 1) 0).wf = false := by decide
theorem test_ill_append :
    (Instr.append g0 .b 0 3 4 0 (v 0)).wf = false ∧ (Instr.append g0 .h 0 3 4 0 (v 0)).wf = false ∧
      (Instr.append g0 .w 0 192 4 0 (v 0)).wf = false := by decide
theorem test_ill_plain_destinations :
    (Instr.tailq g0 192 4 0).wf = false ∧ (Instr.lda g0 0 192 4 (v 0) (v 1)).wf = false ∧
      (Instr.find g0 0 192 4 (v 0)).wf = false ∧ (Instr.pick g0 0 192 4 (v 0)).wf = false := by decide
theorem test_ill_channel_waits :
    (Instr.chst g0 (dv 0) 15).wf = false ∧ (Instr.chwait g0 15 1).wf = false ∧ (Instr.chwait g0 3 0).wf = false ∧
      (Instr.chwait g0 3 5).wf = false := by decide
theorem test_ill_random_pairs :
    (Instr.rnext g0 3 4 false).wf = false ∧ (Instr.rjump g0 2 5 false (v 0) (v 1)).wf = false ∧
      (Instr.runi g0 false (dv 0) 7 false).wf = false := by decide

/-- IADD of two values into a register, as a half of a pair. -/
def addX (d : VReg) (a b : Value) : Instr := .iadd g0 .x (dv d) a b
def addY (d : VReg) (a b : Value) : Instr := .iadd g0 .y (dv d) a b

theorem test_pair_is_well_formed : (LaneWord.pair (addX 8 (v 1) (v 2)) (addY 9 (v 3) (.uni 4))).wf = true := by decide
theorem test_ill_pair_bank : (LaneWord.pair (addX 8 (v 0) (v 4)) (addY 9 (v 12) (.uni 4))).wf = false := by decide
theorem test_ill_pair_registers : (LaneWord.pair (addX 8 (v 1) (v 2)) (addY 9 (v 3) (v 4))).wf = false := by decide
theorem test_ill_pair_channels :
    (LaneWord.pair (addX 8 (.chan 1 false) (v 2)) (addY 9 (.chan 2 false) (v 2))).wf = false := by decide
theorem test_ill_pair_reads : (LaneWord.pair (addX 8 (v 1) (v 2)) (addY 9 (v 8) (v 1))).wf = false := by decide
theorem test_ill_pair_writes : (LaneWord.pair (addX 8 (v 1) (v 2)) (addY 8 (v 3) (v 1))).wf = false := by decide
theorem test_ill_pair_halves :
    (LaneWord.single (addX 8 (v 1) (v 2))).wf = false ∧
      (LaneWord.pair (addX 8 (v 1) (v 2)) (addX 9 (v 3) (v 2))).wf = false ∧
      (LaneWord.pair (addX 8 (v 1) (v 2)) (.imul g0 (dv 9) (v 3) (v 2))).wf = false := by decide

/-! ## Words, bit by bit from the tables of 03 and 04 -/

/-- A scalar word of the format S-R: OP, SD, SA, SB and F (03:R66). -/
def rWord (op : BitVec 6) (d a b : BitVec 5) (f : BitVec 11) : W32 := op ++ d ++ a ++ b ++ f

/-- A scalar word of the formats S-I and S-B: OP, two registers and sixteen bits. -/
def iWord (op : BitVec 6) (d a : BitVec 5) (imm : BitVec 16) : W32 := op ++ d ++ a ++ imm

/-- A single lane word without guard: P, OP, G, D, A, B, C, M and I (03:R68). -/
def laneOf (op : BitVec 8) (d : BitVec 9) (a b c : BitVec 10) (m : BitVec 12) (i : BitVec 32) : BitVec 96 :=
  0#1 ++ op ++ 0#4 ++ d ++ a ++ b ++ c ++ m ++ i

/-- The word decodes to the scalar instruction. -/
def reads (w : W32) (i : Instr) : Bool := match decodeScalar w with | .ok j => j == i | .error _ => false
/-- The word decodes to the single lane instruction. -/
def readsL (w : BitVec 96) (i : Instr) : Bool := match decodeLane w with | .ok j => j == .single i | .error _ => false
/-- The word is refused with the reason. -/
def refuses (w : W32) (r : Nat) : Bool := match decodeScalar w with | .ok _ => false | .error n => n == r
def refusesL (w : BitVec 96) (half : Bool) (r : Nat) : Bool :=
  match decodeLane w with | .ok _ => false | .error (h, n) => h == half && n == r

/-- SRA.W, CLZ.W and the two ways an ALU word goes wrong (04:R78). -/
theorem test_decode_alu :
    (reads (rWord 0x01 5 6 7 0x110) (.sra true 5 6 7) && reads 0x04C602D0 (.sClz true 6 6) &&
      refuses (rWord 0x01 5 6 7 0x320) 6 && refuses (rWord 0x01 5 6 7 0x001) 2) = true := by decide
/-- Words of 02 and SRAI.W by 1 (04:R79). -/
theorem test_decode_immediates :
    (reads 0x10A5FF00 (.ori 5 5 0xFF00) && reads 0x20A50020 (.slli false 5 5 32) && reads (iWord 0x08 5 5 0x0181) (.srai true 5 5 1) &&
      reads 0x24A000FF (.lui 5 0xFF) && refuses (iWord 0x08 5 5 0x0120) 6 && refuses (iWord 0x08 5 5 0x00C0) 6) = true := by decide
theorem test_decode_scalar_memory :
    (reads 0x50C50010 (.ldw 6 5 16) && reads (iWord 0x1A 6 5 0xFFFC) (.stw 6 5 0xFFFC) && reads 0x7404341C (.aswp false .quad .ar 0 4 6) &&
      reads 0x78000240 (.phaseBegin .quad) && reads (rWord 0x1E 0 0 0 0x500) (.phaseFull .sys)) = true := by decide
/-- The variants of AADD.PKG.REL that 04 works out. -/
theorem test_decode_reasons :
    (refuses 0x74C42DB8 6 && refuses 0x74C42839 2 && refuses 0x74C42DB9 2 && refuses 0 1 && refuses (iWord 0x0C 0 0 0) 1 &&
      refuses (rWord 0x3E 5 0 0 24) 6 && refuses (rWord 0x3E 0 5 0 0x058) 6) = true := by decide
theorem test_decode_branches :
    (reads 0x80C00001 (.beq 6 0 1) && reads (iWord 0x25 6 7 0xFFFE) (.bgeu 6 7 0xFFFE) && reads 0x9BFFFFFF (.jmp 0x3FFFFFF) &&
      reads 0xA01F0000 (.jalr 0 31 0)) = true := by decide
theorem test_decode_blocks_and_tasks :
    (reads (rWord 0x31 0 5 6 0) (.vexr 5 6) && reads (rWord 0x33 5 0 0 0) (.srqpop 5) && reads 0xD4000004 (.vshrink 4) &&
      reads 0xDC000000 (.twait 0) && reads 0xE8D00000 (.seal 6 16) && reads 0xEC160000 (.settle 22) &&
      reads 0xE1CD0000 (.agdecl 14 13) && reads 0xE40E0000 (.agdrop 14)) = true := by decide
theorem test_decode_system :
    (reads 0xF8000085 (.trap 5) && reads 0xF80000C0 .brk && reads 0xF8E60140 (.chbind 7 6) && reads 0xF8060180 (.chfree 6) &&
      reads 0xF80001C0 .yieldTurn && reads 0xF8050200 (.nap 5) && reads 0xF8D00240 (.extfree 6 16)) = true := by decide
theorem test_decode_special_registers :
    (reads (rWord 0x3E 5 0 0 14) (.mfsTrapinfo 5) && reads (rWord 0x3E 0 5 0 0x4E) (.mtsTrapinfo 5) &&
      reads (rWord 0x3E 0 5 0 0x4C) (.mtsLbr 5) && reads 0xF8000050 (.mtsFpstat 0) && reads (rWord 0x3E 0 5 0 0x4D) (.mtsAllowance 5) &&
      reads (rWord 0x3E 0 5 0 0x49) (.mts 5 9)) = true := by decide

theorem test_decode_moves :
    (readsL (Claims.words 0 0 0x00800000) (.nop g0) && readsL (laneOf 0x03 6 0 0 0 0 0xFFFF0001) (.movi g0 (dv 6) 0xFFFF0001) &&
      readsL (laneOf 0x04 0 0x104 0 0 0 0) (.waitf g0 4 true) &&
      readsL (Claims.words 0x000E0000 0x38000000 0x02801804) (.bswz g0 (dv 6) (v 4) (.con .zero) (.imm 0xE0000)) &&
      readsL (laneOf 0x05 6 4 5 7 1 0) (.bswz g0 (dv 6) (v 4) (v 5) (.val (v 7)))) = true := by decide
theorem test_decode_lane_integer :
    (readsL (laneOf 0x12 6 4 5 0 0x100 0) (.iadds g0 true (dv 6) (v 4) (v 5)) &&
      readsL (laneOf 0x17 6 4 5 7 0 0) (.imad g0 (dv 6) (v 4) (v 5) (v 7)) && readsL (laneOf 0x2B 6 4 5 0 0 0) (.bfx g0 false (dv 6) (v 4) (v 5)) &&
      readsL (Claims.words 0xB3 0x01400000 0x17802C03) (.iaddc g0 (dv 11) (v 3) (v 5) 3 true 3)) = true := by decide
theorem test_decode_compares :
    (readsL (Claims.words 0 0x02400002 0x18000404) (.icmp g0 .lt 1 (v 4) (v 9)) && readsL (laneOf 0x31 1 4 5 0 0x206 0) (.fcmp g0 .un 1 (v 4) (v 5)) &&
      readsL (laneOf 0x34 1 2 3 0 2 0) (.pxor g0 false true 1 2 3) && readsL (laneOf 0x35 1 2 0 0 0 0) (.pnot g0 1 2) &&
      readsL (laneOf 0x36 1 4 0 0 0 31) (.pmov g0 1 (v 4) 31) && readsL (laneOf 0x37 6 0 0 0 0 0) (.pget g0 (dv 6)) &&
      readsL (laneOf 0x38 6 4 5 0 0xB 0) (.sel g0 .single true 3 (dv 6) (v 4) (v 5))) = true := by decide
theorem test_decode_masks :
    (readsL (laneOf 0x40 0 1 0 0 1 0) (.mset true 1) && readsL (laneOf 0x41 0 0xC5 0 0 0 0) (.mrst (.uni 5)) &&
      readsL (laneOf 0x42 6 0 0 0 0 0) (.mget (dv 6)) && readsL (laneOf 0x43 0 0 0 0 0 0) .mall &&
      readsL (laneOf 0x44 0 0xE6 0 0 0 0) (.mnot (.con .live)) && refusesL (laneOf 0x41 0 5 0 0 0 0) false 6) = true := by decide
theorem test_decode_cross_lane :
    (readsL (laneOf 0x49 6 1 0 0 2 0) (.vote g0 .bal (dv 6) 1) && readsL (laneOf 0x4A 6 4 0 0 0x226 0) (.lred g0 (.fadd .rz) (dv 6) (v 4)) &&
      readsL (laneOf 0x4B 6 4 0 0 0x112 0) (.lscan g0 (.max true) true (dv 6) (v 4)) && readsL (laneOf 0x4C 6 1 0 0 0 0) (.lfirst g0 (dv 6) 1) &&
      readsL (laneOf 0x4D 6 4 0 0 0 7) (.bcast g0 (dv 6) (v 4) (some 7)) && readsL (laneOf 0x4D 6 4 0 0 0 32) (.bcast g0 (dv 6) (v 4) none) &&
      refusesL (laneOf 0x4A 6 0x201 0 0 0 0) false 3) = true := by decide
theorem test_decode_conversions :
    (readsL (laneOf 0x58 6 4 0 0 0x319 0) (.cvtif g0 .f16 .u8 .rn true (dv 6) (v 4)) &&
      readsL (laneOf 0x59 6 4 0 0 0xD22 0) (.cvtfi g0 .i64 .f32 .rz (dv 6) (v 4)) &&
      readsL (laneOf 0x5A 6 4 0 0 0x582 0) (.cvtff g0 .e4m3 .f32 .sr false (dv 6) (v 4)) &&
      readsL (laneOf 0x5B 6 4 5 7 0x502 1) (.pack g0 .e4m3 .rn false (dv 6) (v 4) (v 5) (.fp8 (v 7) true)) &&
      readsL (laneOf 0x5C 6 4 0 0 0x207 7) (.unpk g0 .e2m1 (dv 6) (v 4) 7) &&
      readsL (laneOf 0x5D 6 4 5 0 0xC00 0) (.qbpi g0 .rn (dv 6) (v 4) (v 5))) = true := by decide
theorem test_decode_lane_float :
    (readsL (Claims.words 0 0x01406280 0x31802004) (.ffma g0 .sr (dv 8) (v 4) (v 5) (v 6)) &&
      readsL (laneOf 0x75 6 4 5 7 0x460 0) (.hfma2 g0 true .ru (dv 6) (v 4) (v 5) (v 7)) &&
      readsL (laneOf 0x78 6 4 5 7 0x501 0) (.fdot8 g0 false true .rn (dv 6) (v 4) (v 5) (v 7)) &&
      readsL (laneOf 0x6C 6 4 0 0 0x200 0) (.fexp2 g0 (dv 6) (v 4)) && refusesL (laneOf 0x6C 6 4 0 0 0x220 0) false 6) = true := by decide
theorem test_decode_lane_memory :
    (readsL (laneOf 0x81 6 0xC5 4 0 0x251 0x10) (.ldx g0 .h .x2 .h true 6 5 (v 4) 0x10) &&
      readsL (laneOf 0x85 0 0xC5 4 6 0x176 0) (.atomn g0 .and .pkg .rel true .x8 5 (v 4) 0 (v 6)) &&
      readsL (laneOf 0x86 6 0xC5 4 8 0x018 0) (.laneAcas g0 .team .ar false .x1 6 5 (v 4) 0 (v 8)) &&
      readsL (laneOf 0x87 0 0xC5 4 0 0x080 0) (.disc g0 .x4 5 (v 4) 0) && readsL (laneOf 0x88 0 0xC5 4 0 0x010 0) (.pref g0 .x1 true 5 (v 4) 0) &&
      readsL (laneOf 0x8A 6 0xC5 0xE0 0 0x400 0xFFFFFFFC) (.tailq g0 6 5 0xFFFFFFFC) && refusesL (laneOf 0x80 6 5 4 0 0x400 0) false 15) =
      true := by decide
theorem test_decode_regions_and_channels :
    (readsL (laneOf 0x8C 6 0xCE 4 0 3 0) (.find g0 3 6 14 (v 4)) && readsL (laneOf 0x8D 6 0xCE 4 0 0 0) (.pick g0 0 6 14 (v 4)) &&
      readsL (laneOf 0xA0 6 0x203 0 0 0 0) (.chst g0 (dv 6) 3) && readsL (laneOf 0xA1 0 0x203 0 0 0 4) (.chwait g0 3 4) &&
      refusesL (laneOf 0xA1 0 0x203 0 0 0 5) false 6) = true := by decide
theorem test_decode_random_and_stops :
    (readsL (laneOf 0xA9 6 4 8 9 0 0) (.rjump g0 6 4 false (v 8) (v 9)) && readsL (laneOf 0xAA 6 4 0 0 0x100 0) (.runi g0 false (dv 6) 4 false) &&
      readsL (laneOf 0xAB 6 0xC5 7 0 0 0) (.rdith g0 (dv 6) 5 (v 7)) && readsL (laneOf 0xF1 0 0 0 0 0 0) (.lbrk g0)) = true := by decide
/-- Pairs that 03 and 04 call illegal: four sources, Y reading what X writes, and an opcode that is no half. -/
theorem test_decode_pair_reasons :
    (refusesL (1#1 ++ 0x10#8 ++ 0#4 ++ 8#9 ++ 9#10 ++ 10#10 ++ 0#6 ++ 0x62#8 ++ 0#4 ++ 12#9 ++ 13#10 ++ 14#10 ++ 0#6 ++ 0#1) false 11 &&
      refusesL (1#1 ++ 0x10#8 ++ 0#4 ++ 8#9 ++ 9#10 ++ 10#10 ++ 0#6 ++ 0x62#8 ++ 0#4 ++ 12#9 ++ 8#10 ++ 9#10 ++ 0#6 ++ 0#1) false 13 &&
      refusesL (1#1 ++ 0x10#8 ++ 0#4 ++ 8#9 ++ 9#10 ++ 10#10 ++ 0#6 ++ 0x39#8 ++ 0#4 ++ 12#9 ++ 9#10 ++ 10#10 ++ 0#6 ++ 0#1) true 9 &&
      refusesL (laneOf 0x39 0 0 0 0 0 0) false 1) = true := by decide

/-- The ALU functions 0 to 24 of 04:R78, in the order of the table. -/
theorem test_decode_alu_table :
    ([Instr.add false 5 6 7, .sub false 5 6 7, .sAnd false 5 6 7, .sOr false 5 6 7, .sXor false 5 6 7, .sAndn false 5 6 7, .sll false 5 6 7,
      .srl false 5 6 7, .sra false 5 6 7, .mul false 5 6 7, .mulh false 5 6 7, .mulhu false 5 6 7, .div false 5 6 7, .divu false 5 6 7,
      .rem false 5 6 7, .remu false 5 6 7, .sMin false 5 6 7, .sMax false 5 6 7, .minu false 5 6 7, .maxu false 5 6 7, .slt false 5 6 7,
      .sltu false 5 6 7].zipIdx.all (fun x => reads (rWord 0x01 5 6 7 (BitVec.ofNat 11 (32 * x.2))) x.1) &&
      reads (rWord 0x01 5 6 0 (BitVec.ofNat 11 (32 * 23))) (.sCtz false 5 6) &&
      reads (rWord 0x01 5 6 0 (BitVec.ofNat 11 (32 * 24))) (.sPopc false 5 6)) = true := by decide +kernel
/-- The operations 0 to 9 of AMO (04:R79). -/
theorem test_decode_amo_table :
    ([Instr.aadd true .die .acq 5 6 7, .aand true .die .acq 5 6 7, .aor true .die .acq 5 6 7, .axor true .die .acq 5 6 7,
      .amin true .die .acq 5 6 7, .amax true .die .acq 5 6 7, .aminu true .die .acq 5 6 7, .amaxu true .die .acq 5 6 7,
      .aswp true .die .acq 5 6 7, .acas true .die .acq 5 6 7].zipIdx.all
        (fun x => reads (rWord 0x1D 5 6 7 (BitVec.ofNat 11 (128 * x.2 + 0x26))) x.1)) = true := by decide +kernel
/-- The rows 0x0_, 0x1_ and 0x2_ of 04:R77. -/
theorem test_decode_opcode_rows :
    ([(0x02, Instr.addi 5 6 0x8001), (0x03, .andi 5 6 0x8001), (0x05, .xori 5 6 0x8001), (0x06, .slti 5 6 0x8001), (0x07, .sltiu 5 6 0x8001),
      (0x0A, .addhi 5 6 0x8001), (0x10, .ldb 5 6 0x8001), (0x11, .ldbu 5 6 0x8001), (0x12, .ldh 5 6 0x8001), (0x13, .ldhu 5 6 0x8001),
      (0x15, .ldwu 5 6 0x8001), (0x16, .ldd 5 6 0x8001), (0x18, .stb 5 6 0x8001), (0x19, .sth 5 6 0x8001), (0x1B, .std 5 6 0x8001),
      (0x21, .bne 5 6 0x8001), (0x22, .blt 5 6 0x8001), (0x23, .bge 5 6 0x8001), (0x24, .bltu 5 6 0x8001)].all
        (fun x => reads (iWord x.1 5 6 0x8001) x.2) &&
      reads (iWord 0x27 0 0 2) (.jal 2) && reads (iWord 0x34 0 0 3) (.vgrow 3) && reads (iWord 0x08 5 6 0x0044) (.srli false 5 6 4)) = true := by
  decide +kernel
/-- The integer opcodes of 06:R120 with one or two sources, and MOV. -/
theorem test_decode_integer_rows :
    ([(0x11, Instr.isub g0 .single (dv 6) (v 4) (v 5)), (0x13, .isubs g0 false (dv 6) (v 4) (v 5)), (0x14, .imul g0 (dv 6) (v 4) (v 5)),
      (0x15, .imulh g0 (dv 6) (v 4) (v 5)), (0x16, .imulhu g0 (dv 6) (v 4) (v 5)), (0x18, .imin g0 .single (dv 6) (v 4) (v 5)),
      (0x19, .imax g0 .single (dv 6) (v 4) (v 5)), (0x1A, .iminu g0 (dv 6) (v 4) (v 5)), (0x1B, .imaxu g0 (dv 6) (v 4) (v 5)),
      (0x1E, .laneAnd g0 .single (dv 6) (v 4) (v 5)), (0x1F, .laneOr g0 .single (dv 6) (v 4) (v 5)),
      (0x20, .laneXor g0 .single (dv 6) (v 4) (v 5)), (0x21, .laneAndn g0 (dv 6) (v 4) (v 5)), (0x23, .shl g0 .single (dv 6) (v 4) (v 5)),
      (0x24, .shr g0 .single (dv 6) (v 4) (v 5)), (0x25, .sar g0 .single (dv 6) (v 4) (v 5)), (0x26, .rol g0 (dv 6) (v 4) (v 5)),
      (0x27, .ror g0 (dv 6) (v 4) (v 5)), (0x2D, .idivu g0 (dv 6) (v 4) (v 5)), (0x2E, .iremu g0 (dv 6) (v 4) (v 5))].all
        (fun x => readsL (laneOf x.1 6 4 5 0 0 0) x.2) &&
      [(0x02, Instr.mov g0 .single (dv 6) (v 4)), (0x1C, .iabs g0 (dv 6) (v 4)), (0x1D, .ineg g0 (dv 6) (v 4)), (0x22, .laneNot g0 (dv 6) (v 4)),
        (0x28, .laneClz g0 (dv 6) (v 4)), (0x29, .lanePopc g0 (dv 6) (v 4)), (0x2A, .brev g0 (dv 6) (v 4))].all
        (fun x => readsL (laneOf x.1 6 4 0 0 0 0) x.2) &&
      readsL (laneOf 0x2C 6 4 5 7 0 0) (.bfi g0 (dv 6) (v 4) (v 5) (v 7)) && readsL (laneOf 0x32 1 2 3 0 1 0) (.pand g0 true false 1 2 3) &&
      readsL (laneOf 0x33 1 2 3 0 0 0) (.por g0 false false 1 2 3)) = true := by decide +kernel
/-- The floating-point opcodes of 08:R155: type 2 in M, rounding up (3) where the opcode rounds. -/
theorem test_decode_float_rows :
    ([(0x60, Instr.fadd g0 .single .ru (dv 6) (v 4) (v 5)), (0x61, .fsub g0 .ru (dv 6) (v 4) (v 5)), (0x62, .fmul g0 .single .ru (dv 6) (v 4) (v 5)),
      (0x6B, .fdiv g0 .ru (dv 6) (v 4) (v 5)), (0x72, .fscale g0 .ru (dv 6) (v 4) (v 5))].all (fun x => readsL (laneOf x.1 6 4 5 0 0x260 0) x.2) &&
      [(0x64, Instr.fmin g0 .single (dv 6) (v 4) (v 5)), (0x65, .fmax g0 .single (dv 6) (v 4) (v 5))].all
        (fun x => readsL (laneOf x.1 6 4 5 0 0x200 0) x.2) &&
      [(0x68, Instr.frcp g0 .ru (dv 6) (v 4)), (0x69, .frsq g0 .ru (dv 6) (v 4)), (0x6A, .fsqrt g0 .ru (dv 6) (v 4))].all
        (fun x => readsL (laneOf x.1 6 4 0 0 0x260 0) x.2) &&
      [(0x66, Instr.fabs g0 (dv 6) (v 4)), (0x67, .fneg g0 (dv 6) (v 4)), (0x6D, .flog2 g0 (dv 6) (v 4)), (0x6E, .fsin g0 (dv 6) (v 4)),
        (0x6F, .fcos g0 (dv 6) (v 4)), (0x70, .ftanh g0 (dv 6) (v 4)), (0x71, .fclass g0 (dv 6) (v 4))].all
        (fun x => readsL (laneOf x.1 6 4 0 0 0x200 0) x.2) &&
      [(0x73, Instr.hadd2 g0 true .ru (dv 6) (v 4) (v 5)), (0x74, .hmul2 g0 true .ru (dv 6) (v 4) (v 5))].all
        (fun x => readsL (laneOf x.1 6 4 5 0 0x460 0) x.2) &&
      [(0x76, Instr.hmin2 g0 false (dv 6) (v 4) (v 5)), (0x77, .hmax2 g0 false (dv 6) (v 4) (v 5))].all
        (fun x => readsL (laneOf x.1 6 4 5 0 0x300 0) x.2)) = true := by decide +kernel

/-! ## Single steps: results that the spec gives -/

/-- A step of the scalar word on the loaded machine, changed by hand, ends in a state of which p holds. -/
def ranS (w : W32) (f : State → State) (p : State → Bool) : Bool :=
  match step (f (desk.benchScalar w)) with
  | .next t => p t
  | .fault _ => false
  | .refused _ => false

/-- The same of a lane word. -/
def ranL (w : BitVec 96) (f : State → State) (p : State → Bool) : Bool :=
  match step (f (desk.benchLane w)) with
  | .next t => p t
  | .fault _ => false
  | .refused _ => false

/-- A lane register of one lane set by hand, and read. -/
def setV (s : State) (n l : Nat) (x : W32) : State := { s with warp := { s.warp with v := s.warp.v.set (32 * n + l) x } }
def getV (s : State) (n l : Nat) : W32 := s.warp.v.get (32 * n + l)
/-- A predicate as a mask of lanes, and the set of lanes that take part. -/
def setP (s : State) (k : Nat) (m : W32) : State := { s with warp := { s.warp with preds := s.warp.preds.set k m } }
def setEM (s : State) (m : Mask) : State := { s with warp := { s.warp with em := m } }

/-- 05:R92: the most negative dividend by −1 gives itself; SRA.W sign-extends its 32 bits; a write to s0 is discarded. -/
theorem test_step_div : ranS (rWord 0x01 5 6 7 0x180) (fun s => setS (setS s 6 0x8000000000000000) 7 0xFFFFFFFFFFFFFFFF)
    (fun t => t.warp.s.get 5 == 0x8000000000000000) = true := by decide +kernel
theorem test_step_sra_w : ranS (rWord 0x01 5 6 7 0x110) (fun s => setS (setS s 6 0x80000000) 7 0x24)
    (fun t => t.warp.s.get 5 == 0xFFFFFFFFF8000000) = true := by decide +kernel
theorem test_step_s0 : ranS (rWord 0x01 0 6 6 0) (fun s => setS s 6 1) (fun t => t.S 0 == 0 && t.warp.spc == 0x10004) = true := by
  decide +kernel
/-- 05:R96, R98: a branch counts words from the next instruction; JALR reads its base before it writes its link. -/
theorem test_step_branch : ranS (iWord 0x22 6 7 0xFFFE) (fun s => setS (setS s 6 0xFFFFFFFFFFFFFFFF) 7 1)
    (fun t => t.warp.spc == 0xFFFC) = true := by decide +kernel
theorem test_step_jalr : ranS (iWord 0x28 5 5 4) (fun s => setS s 5 0x10100) (fun t => t.warp.spc == 0x10104 && t.warp.s.get 5 == 0x10004) =
    true := by decide +kernel
/-- 05:R101, R102: little-endian, sign-extended, in the scratchpad. -/
theorem test_step_ldh : ranS (iWord 0x12 5 4 2) (fun s => { s with team := withScratch.team, warp := withScratch.warp })
    (fun t => t.warp.s.get 5 == 0xFFFFFFFFFFFFB4A3) = true := by decide +kernel
/-- 10:R208: the old value comes back, the sum is stored. -/
theorem test_step_aadd_w : ranS (rWord 0x1D 5 4 6 0x002) (fun s => setS { s with team := withScratch.team, warp := withScratch.warp } 6 1)
    (fun t => t.warp.s.get 5 == 0xFFFFFFFFB4A39281 && t.team.scratch.contains (16, 0x82)) = true := by decide +kernel
/-- 14:R276, R281: TRAP kills a team without a handler; with one it goes to the handler. -/
theorem test_step_trap : ranS 0xF8000085 withHandler (fun t => t.warp.spc == 0x10100 && t.warp.inHandler) = true := by decide +kernel
theorem test_step_illegal : ranS 0 withHandler (fun t => t.warp.spc == 0x10100 && t.warp.trapRec.get 5 == 1) = true := by decide +kernel
/-- 05:R110: VGROW of two blocks. -/
theorem test_step_vgrow : ranS (iWord 0x34 0 0 2) (fun s => { s with warp := { s.warp with blocks := 4 } }) (fun t => t.warp.blocks == 6) = true := by decide +kernel

/-- The selectors that 06:R119 lists, on a = 0x44332281 and b = 0x88776655: a's byte 0 sign-extended, and 4, 3, 4, 5. -/
theorem test_step_bswz_sign : ranL (laneOf 0x05 6 4 5 0 0 0x000E0000) (fun s => setV (setV s 4 3 0x44332281) 5 3 0x88776655)
    (fun t => getV t 6 3 == 0xFFFFFF81) = true := by decide +kernel
theorem test_step_bswz_mix : ranL (laneOf 0x05 6 4 5 0 0 0x00000B1C) (fun s => setV (setV s 4 3 0x44332281) 5 3 0x88776655)
    (fun t => getV t 6 3 == 0x66554455) = true := by decide +kernel
/-- The examples of 06:R122, in one lane; the other lanes, outside EM, keep their register. -/
theorem test_step_bfx : ranL (laneOf 0x2B 6 4 5 0 0 0) (fun s => setEM (setV (setV (setV s 4 3 0xA0000000) 5 3 0xC1C) 6 2 9) 8)
    (fun t => getV t 6 3 == 0xFFFFFFFA && getV t 6 2 == 9) = true := by decide +kernel
theorem test_step_bfi : ranL (laneOf 0x2C 6 4 5 7 0 0) (fun s => setV (setV (setV s 4 3 0xA0000000) 5 3 0xC1C) 7 3 5)
    (fun t => getV t 6 3 == 0x50000000) = true := by decide +kernel
/-- 06:R121: carry out, and saturation of 06:R120. -/
theorem test_step_iaddc : ranL (Claims.words 3 0x01000000 0x17802802) (fun s => setV (setV s 2 0 0xFFFFFFFF) 4 0 1)
    (fun t => getV t 10 0 == 0 && (t.warp.preds.get 3).getLsbD 0) = true := by decide +kernel
theorem test_step_iadds : ranL (laneOf 0x12 6 4 5 0 0 0) (fun s => setV (setV s 4 0 0x7FFFFFFF) 5 0 1) (fun t => getV t 6 0 == 0x7FFFFFFF) =
    true := by decide +kernel
theorem test_step_idivu : ranL (laneOf 0x2D 6 4 5 0 0 0) (fun s => setV s 4 0 7) (fun t => getV t 6 0 == 0xFFFFFFFF) = true := by decide +kernel
/-- 06:R123, R128: ICMP.LT is signed; MSET narrows EM. -/
theorem test_step_icmp : ranL (Claims.words 0 0x02400002 0x18000404) (fun s => setV s 4 5 0xFFFFFFFF)
    (fun t => t.warp.preds.get 1 == 0x20) = true := by decide +kernel
theorem test_step_mset : ranL (laneOf 0x40 0 1 0 0 1 0) (fun s => setEM (setP s 1 0xF) 0x3C) (fun t => t.warp.em == 0x30) = true := by
  decide +kernel
/-- 06:R132, R134: a ballot, an inclusive sum. -/
theorem test_step_vote : ranL (laneOf 0x49 6 1 0 0 2 0) (fun s => setEM (setP s 1 0xF) 0x3C) (fun t => getV t 6 5 == 0xC) = true := by
  decide +kernel
theorem test_step_lscan : ranL (laneOf 0x4B 6 4 0 0 0 0) (fun s => setV (setV (setV s 4 0 1) 4 1 2) 4 2 4)
    (fun t => getV t 6 1 == 3 && getV t 6 31 == 7) = true := by decide +kernel
/-- 08:R160: 1.5 + 2.5 = 4.0; the tie 1 + 2⁻²⁴ goes to the even neighbour and sets inexact. -/
theorem test_step_fadd : ranL (laneOf 0x60 6 4 5 0 0x200 0) (fun s => setV (setV s 4 0 0x3FC00000) 5 0 0x40200000)
    (fun t => getV t 6 0 == 0x40800000 && t.warp.fpstat == 0) = true := by decide +kernel
theorem test_step_fadd_tie : ranL (laneOf 0x60 6 4 5 0 0x200 0) (fun s => setV (setV s 4 0 0x3F800000) 5 0 0x33800000)
    (fun t => getV t 6 0 == 0x3F800000 && t.warp.fpstat == 0x10) = true := by decide +kernel
/-- 08:R165, R169: 1/0 is infinite and sets divide-by-zero; −1.5 toward zero is −1 and inexact. -/
theorem test_step_frcp : ranL (laneOf 0x68 6 4 0 0 0x200 0) (fun s => setEM s 1) (fun t => getV t 6 0 == 0x7F800000 && t.warp.fpstat == 2) =
    true := by decide +kernel
theorem test_step_cvtfi : ranL (laneOf 0x59 6 4 0 0 0x022 0) (fun s => setEM (setV s 4 0 0xBFC00000) 1)
    (fun t => getV t 6 0 == 0xFFFFFFFF && t.warp.fpstat == 0x10) = true := by decide +kernel
/-- 10:R196: a byte of the scratchpad, widened by its sign, through the base s4. -/
theorem test_step_ld_sx : ranL (laneOf 0x80 6 0xC4 0xE0 0 1 1) (fun s => { lanedScratch with dev := s.dev, warp := { lanedScratch.warp with queue := [⟨0x10000, 1, [(4, 0x00FFFF0000000010)], 0, 1⟩] } })
    (fun t => getV t 6 0 == 0xFFFFFF92) = true := by decide +kernel
/-- 14:R273: the stream state takes the step of 07:R149 and the old half is read before the new one is written. -/
theorem test_step_runi : ranL (Claims.words 0 0x200 0x55001804) (fun s => setEM s 1) (fun t => (getV t 6 0).toNat < 0x3F800000) = true := by
  decide +kernel
/-- 03:R75: both halves read before either writes. -/
theorem test_step_pair : ranL (1#1 ++ 0x02#8 ++ 0#4 ++ 8#9 ++ 9#10 ++ 0#10 ++ 0#6 ++ 0x02#8 ++ 0#4 ++ 9#9 ++ 10#10 ++ 0#10 ++ 0#6 ++ 0#1)
    (fun s => setV (setV s 9 0 1) 10 0 2) (fun t => getV t 8 0 == 1 && getV t 9 0 == 2 && t.warp.retired == 1) = true := by decide +kernel

end Sys2Proof.Tests
end

section
/-!
PROOFS. Every instruction, message and command answers a next state, and so does a step while messages and commands alone are
under way (00:R1).
-/

namespace Sys2Proof.Machine

open Sys2Proof

/-! ### Frames that several meanings share -/

theorem finish_next (r : Res Unit) : ∃ t, finish r = .next t := by cases r <;> exact ⟨_, rfl⟩

theorem loadS_next (s : State) (n : Nat) (ext : List Byte → W64) (d a : SReg) (imm : BitVec 16) :
    ∃ t, s.loadS n ext d a imm = .next t := scalarRun_next s _
theorem storeS_next (s : State) (n : Nat) (d a : SReg) (imm : BitVec 16) : ∃ t, s.storeS n d a imm = .next t := scalarRun_next s _
theorem amo_next (s : State) (op : Option AtomOp) (w : Bool) (sc : Scope) (o : Order) (d a b : SReg) :
    ∃ t, s.amo op w sc o d a b = .next t := scalarRun_next s _

theorem stepTask_next (s : State) (k : TeamKey) (seq : BitVec 16) (kind : Nat)
    (body : Context → Team → TaskRec → State → TStep Plan) : ∃ t, s.stepTask k seq kind body = .next t := by
  unfold State.stepTask
  repeat' split
  all_goals exact ⟨_, rfl⟩

theorem enqueue_next (s : State) (start : BitVec 56) (n : Nat) : ∃ t, s.enqueue start n = .next t := by
  unfold State.enqueue
  split <;> exact ⟨_, rfl⟩

theorem andThen_next {r : Result} {f : State → Result} (hr : ∃ t, r = .next t) (hf : ∀ s, ∃ t, f s = .next t) :
    ∃ t, andThen r f = .next t := by
  obtain ⟨u, rfl⟩ := hr
  exact hf u

theorem permitted_next (s : State) (h : BitVec 32) (ctx right : Nat) (f : State → Result) (hf : ∀ s, ∃ t, f s = .next t) :
    ∃ t, s.permitted h ctx right f = .next t := by
  unfold State.permitted
  repeat' split
  · exact ⟨_, rfl⟩
  · exact hf s
  · exact ⟨_, rfl⟩

theorem command_next (s : State) (x : Command) (h : BitVec 32) (ctx right : Nat) (f : State → Result) (hf : ∀ s, ∃ t, f s = .next t) :
    ∃ t, s.command x h ctx right f = .next t := by
  have run : ∃ t, andThen (f s) (fun s => .next (s.keepCommand ctx x)) = .next t := andThen_next (hf s) (fun _ => ⟨_, rfl⟩)
  unfold State.command
  repeat' split
  · exact run
  · exact ⟨_, rfl⟩
  · exact run
  · exact ⟨_, rfl⟩

theorem debugMissing_next (s : State) (ctx kind ia : Nat) (write : Bool) : ∃ t, s.debugMissing ctx kind ia write = .next t := by
  unfold State.debugMissing
  split <;> exact ⟨_, rfl⟩

/-- Every instruction, message and command answers a next state: its frame does, or every branch of its meaning. -/
theorem exec_next (i : Instr) (s : State) : ∃ t, exec i s = .next t := by
  cases i <;> dsimp only [exec]
  -- the frame of scalar instructions
  case ldb | ldbu | ldh | ldhu | ldw | ldwu | ldd => exact loadS_next s _ _ _ _ _
  case stb | sth | stw | std => exact storeS_next s _ _ _ _
  case aadd | aand | aor | axor | amin | amax | aminu | amaxu | aswp | acas => exact amo_next s _ _ _ _ _ _ _
  case ldacq | strel | phaseEnd | phaseBegin | phaseFull | srqpop | twait | agdrop | settle | launch | chbind | chfree |
    extfree | vsync | exit => exact scalarRun_next s _
  -- SEAL, whose constructor has the name of a keyword
  case _ : ∃ t, execSeal _ _ s = .next t => exact scalarRun_next s _
  case task =>
    unfold execTask
    split
    · exact ⟨_, rfl⟩
    · exact scalarRun_next s _
  case agdecl =>
    unfold execAgdecl
    dsimp only
    split
    · exact ⟨_, rfl⟩
    · exact finish_next _
  case bar =>
    unfold execBar
    dsimp only
    split
    · split <;> exact ⟨_, rfl⟩
    · exact scalarRun_next s _
  case vex => exact enqueue_next s _ _
  case vexr =>
    unfold execVexr
    dsimp only
    split
    · exact ⟨_, rfl⟩
    · split
      · exact ⟨_, rfl⟩
      · exact enqueue_next s _ _
  -- the messages of tile tasks
  case wload | mma | accz | drain | copyin | copyout | gather | fill => exact stepTask_next s _ _ _ _
  -- the commands of a debugger
  case resume =>
    unfold execResume
    split
    · exact ⟨_, rfl⟩
    · exact permitted_next s _ _ _ _ (fun _ => ⟨_, rfl⟩)
  case step | read | write =>
    simp only [execStep, execRead, execWrite]
    split
    · refine permitted_next s _ _ _ _ (fun u => ?_)
      repeat' split
      all_goals exact ⟨_, rfl⟩
    · exact ⟨_, rfl⟩
  case breakpoint | trapstop | abandon =>
    refine permitted_next s _ _ _ _ (fun u => ?_)
    repeat' split
    all_goals exact ⟨_, rfl⟩
  case watch =>
    refine permitted_next s _ _ _ _ (fun u => ?_)
    dsimp only
    repeat' split
    all_goals exact ⟨_, rfl⟩
  case stop =>
    unfold execStop
    split
    · exact ⟨_, rfl⟩
    · refine command_next s _ _ _ _ _ (fun u => ?_)
      split <;> exact ⟨_, rfl⟩
  case memread =>
    refine command_next s _ _ _ _ _ (fun u => ?_)
    split
    · exact ⟨_, rfl⟩
    · split
      · split <;> exact ⟨_, rfl⟩
      · exact debugMissing_next u _ _ _ _
      · exact ⟨_, rfl⟩
      · exact ⟨_, rfl⟩
  case memwrite =>
    refine command_next s _ _ _ _ _ (fun u => ?_)
    split
    · exact ⟨_, rfl⟩
    · split
      · exact ⟨_, rfl⟩
      · exact debugMissing_next u _ _ _ _
      · exact ⟨_, rfl⟩
      · exact ⟨_, rfl⟩
  -- meanings with branches of their own, each of them a next state
  case jalr | vgrow | vgrowTry | vshrink | mfs | mts | mtsLbr | mtsResume | nap | ldxFill | dataReply | writeBufferDrain |
    loadRequest | inv | rclDowngrade | rclInvalidate | barArrival | barRelease | coll | collPiece | storeAcknowledgement |
    tierMove | atomicRequest | appendRequest | tailqRequest | sealRequest | rangeLoadRequest | channelMessage | waitNotice |
    takePacket | afterParent | completionRecord | preempt | relaunch | clearing | sampleTick | rangeRegisterWrite | withdraw |
    extentCreate | queueRegister | groupRegister | memoryKeyRegister | contextCreate | contextDestroy | launchCancel |
    collectiveCancel | latencyReserveSet | packageNumberAssign | declareDead | pageHandover | pageReturn | hostRmaWrite |
    hostRmaRead | linkCrcError | cxlPortFail | thermalShutdown | boot | recoveryImage | spdmRequest | managementReadback |
    delegate | revoke | pageTableRootWrite | coreTakenOffline | agentReturn | loadRequestRemote =>
    simp only [execJalr, execVgrow, execVgrowTry, execVshrink, execMfs, execMts, execMtsLbr, execMtsResume, execNap,
      execLdxFill, execDataReply, execWriteBufferDrain, execLoadRequest, execInv, execRclDowngrade, execRclInvalidate,
      execBarArrival, execBarRelease, execColl, execCollPiece, execStoreAcknowledgement, execTierMove, execAtomicRequest,
      execAppendRequest, execTailqRequest, execSealRequest, execRangeLoadRequest, execChannelMessage, execWaitNotice,
      execTakePacket, execAfterParent, execCompletionRecord, execPreempt, execRelaunch, execClearing, execSampleTick,
      execRangeRegisterWrite, execWithdraw, execExtentCreate, execQueueRegister, execGroupRegister, execMemoryKeyRegister,
      execContextCreate, execContextDestroy, execLaunchCancel, execCollectiveCancel, execLatencyReserveSet,
      execPackageNumberAssign, execDeclareDead, execPageHandover, execPageReturn, execHostRmaWrite, execHostRmaRead,
      execLinkCrcError, execCxlPortFail, execThermalShutdown, execBoot, execRecoveryImage, execSpdmRequest,
      execManagementReadback, execDelegate, execRevoke, execPageTableRootWrite, execCoreTakenOffline, execAgentReturn,
      execLoadRequestRemote]
    repeat' split
    all_goals exact ⟨_, rfl⟩
  -- the others are one next state
  all_goals exact ⟨_, rfl⟩

/-! ### Turns and steps -/

theorem runTurn_next (lane : Bool) (n : Next) : ∃ t, runTurn exec lane n = .next t := by
  cases n with
  | done s => exact ⟨_, rfl⟩
  | run i s => exact andThen_next (exec_next i s) (fun _ => ⟨_, rfl⟩)
  | pair x y s => exact andThen_next (exec_next x s) (fun u => andThen_next (exec_next y u) (fun _ => ⟨_, rfl⟩))
  | half x t s => exact andThen_next (exec_next x s) (fun _ => ⟨_, rfl⟩)

theorem takeTurn_next (lane : Bool) (s : State) : ∃ t, takeTurn exec lane s = .next t := by
  unfold takeTurn
  split
  · exact ⟨_, rfl⟩
  · exact runTurn_next lane _

theorem takeBoth_next (s : State) : ∃ t, takeBoth exec s = .next t := by
  obtain ⟨t, ht⟩ := takeTurn_next true s
  obtain ⟨u, hu⟩ := takeTurn_next false s
  simp only [takeBoth, ht, hu]
  repeat' split
  all_goals exact ⟨_, rfl⟩

theorem runWarp_next (s : State) : ∃ t, runWarp exec s = .next t := by
  unfold runWarp
  split
  · exact ⟨_, rfl⟩
  · split
    · split
      · exact takeBoth_next s
      · exact takeTurn_next true s
    · split
      · exact takeTurn_next false s
      · split <;> exact ⟨_, rfl⟩

theorem runMessage_next (e : Instr) (s : State) (he : isMessage e = true) : ∃ t, runMessage exec e s = .next t := by
  rw [runMessage, if_pos he]
  exact andThen_next (exec_next e s) (fun _ => ⟨_, rfl⟩)

theorem runPlanned_next (p : Turn) (s : State) (hs : ∀ e ∈ s.events, isMessage e = true) :
    ∃ t, runPlanned exec p s = .next t := by
  cases p with
  | event n =>
    dsimp only [runPlanned]
    split
    · next e he =>
      split
      · exact runMessage_next e _ (hs e (List.mem_of_getElem? he))
      · exact ⟨_, rfl⟩
    · exact ⟨_, rfl⟩
  | lane =>
    dsimp only [runPlanned]
    split
    · exact takeTurn_next true s
    · exact ⟨_, rfl⟩
  | scalar =>
    dsimp only [runPlanned]
    split
    · exact takeTurn_next false s
    · exact ⟨_, rfl⟩
  | ahead | late | upset | switch | cycle | ioDie => exact ⟨_, rfl⟩

/-- The first message that may arrive is one of those under way. -/
theorem firstArrival_mem {s t : State} {e : Instr} (h : s.firstArrival = some (e, t)) : e ∈ s.events := by
  unfold State.firstArrival at h
  split at h
  · cases h
  · obtain ⟨x, hx, hxe⟩ := Option.map_eq_some_iff.mp h
    cases hxe
    exact List.mem_of_getElem? hx

theorem runChosen_next (s : State) (hs : ∀ e ∈ s.events, isMessage e = true) : ∃ t, runChosen exec s = .next t := by
  unfold runChosen
  split
  · exact runPlanned_next _ _ hs
  · split
    · next e u h => exact runMessage_next e u (hs e (firstArrival_mem h))
    · exact runWarp_next s

theorem step_next (s : State) (hs : ∀ e ∈ s.events, isMessage e = true) : ∃ t, step s = .next t :=
  andThen_next (runChosen_next s hs) (fun _ => ⟨_, rfl⟩)

/-- Settles O28: every meaning answers a next state, and so does every turn made of them. -/
theorem nothingStopsTheMachine : Obligations.NothingStopsTheMachine := ⟨exec_next, step_next⟩

end Sys2Proof.Machine
end

section
/-!
PROOFS. The scalar stream's own frame, the lane queue as VEX and VEXR reach it, and the special registers (01:R10, R11, R30 to
R32, R35; 05:R105, R106; 14:R279, R280).
-/

namespace Sys2Proof.Machine

open Sys2Proof

/-! ### The frame of a scalar instruction that retires -/

/-- A retirement changes nothing but what `ScalarOnly` names. -/
theorem scalarOnly_retireTo (s : State) (pc : W64) (k : Nat) : Claims.ScalarOnly s (s.retireTo pc k) := ⟨rfl, fun _ => rfl⟩

/-- A register write before it adds the scalar registers. -/
theorem scalarOnly_writeS_retire (s : State) (d : SReg) (x : W64) (k : Nat) : Claims.ScalarOnly s ((s.writeS d x).retire k) := by
  by_cases hd : d = 0 <;> simp only [State.writeS, hd, if_true, if_false] <;> exact ⟨rfl, fun _ => rfl⟩

@[simp] theorem retire_dev (s : State) (k : Nat) : (s.retire k).dev = s.dev := rfl
@[simp] theorem retire_team (s : State) (k : Nat) : (s.retire k).team = s.team := rfl

theorem wrote_writeS_retire (s : State) (d : SReg) (x : W64) (k : Nat) : Claims.Wrote s ((s.writeS d x).retire k) d x := by
  intro r
  simp

theorem retire_writeS_spc (s : State) (d : SReg) (x : W64) (k : Nat) :
    ((s.writeS d x).retire k).warp.spc = s.warp.spc + 4 := by rw [retire_spc, State.writeS_warp]

/-! ### Enqueueing a block (01:R11; 05:R105, R106) -/

theorem enqueue_full (s : State) (start : BitVec 56) (n : Nat) (h : 8 ≤ s.warp.queue.length) :
    s.enqueue start n = .next (s.waitScalar 0) := if_pos h

/-- An enqueue with the count field `cnt` is the one of `Claims.Enqueues`. -/
theorem enqueues_of_exec {i : Instr} {s : State} {start : BitVec 56} {cnt : BitVec 10}
    (h : exec i s = s.enqueue start (blockCount cnt)) : Claims.Enqueues i s start cnt.toNat := by
  have hc : (if cnt.toNat = 0 then 1024 else cnt.toNat) = blockCount cnt := by
    simp only [blockCount, ← BitVec.toNat_inj]
    rfl
  refine ⟨fun hroom => ?_, fun hfull => h.trans (enqueue_full s start _ hfull)⟩
  refine ⟨_, h.trans (if_neg (Nat.not_le.mpr hroom)), ⟨rfl, fun _ => rfl⟩, rfl, ?_, fun _ => rfl⟩
  rw [Claims.blockOf, hc]
  rfl

/-- LBR + 12 × LOFF, the sum of 05:R105 as an integer. -/
theorem vexStart_eq (lbr : BitVec 56) (loff : BitVec 16) :
    lbr + loff.signExtend 56 * 12 = BitVec.ofInt 56 (lbr.toInt + 12 * loff.toInt) := by
  rw [BitVec.ofInt_add, BitVec.ofInt_mul, BitVec.ofInt_toInt, BitVec.mul_comm]
  rfl

/-- Settles O13: both forms are one enqueue, VEXR behind its two checks. -/
theorem blocksAreEnqueuedWithTheirSnapshots : Obligations.BlocksAreEnqueuedWithTheirSnapshots := by
  intro s
  refine ⟨fun cnt loff => ?_, fun a b => ⟨fun h => if_pos h, fun h h56 => ?_, fun h h56 => ?_⟩⟩
  · rw [← vexStart_eq]
    exact enqueues_of_exec rfl
  · exact (if_neg (not_not.mpr h)).trans (if_pos h56)
  · have hb : (s.S b).toNat % 1024 = ((s.S b).truncate 10 : BitVec 10).toNat := by simp
    have ha : BitVec.ofNat 56 (s.S a).toNat = (s.S a).truncate 56 := by simp
    rw [hb, ha]
    exact enqueues_of_exec ((if_neg (not_not.mpr h)).trans (if_neg (Nat.not_le.mpr h56)))

/-! ### Special registers (01:R30 to R32, R35; 14:R279, R280) -/

theorem exec_mfs {n : BitVec 6} (d : SReg) (s : State) (h : n ≠ 6) :
    exec (.mfs d n) s = .next ((s.writeS d (s.special n.toNat)).retire) := if_neg h

/-- CHSTATE packs the codes of the entries two bits each. -/
theorem chState_eq (s : State) :
    s.warp.chState = BitVec.ofNat 64 ((List.range 15).map (fun e => Claims.entryCode s e * 4 ^ e)).sum := by
  have hcode (e : Nat) : (s.warp.chan e).st.code = Claims.entryCode s e := by
    unfold Claims.entryCode; cases (s.warp.chan e).st <;> rfl
  simp only [Warp.chState, hcode]
  rw [List.sum_eq_foldl, List.foldl_map]

/-- ISAVER with the numerics number in bits [31:24] (04:R86). -/
theorem isaver_eq (n : Nat) : Config.isaverBase + (BitVec.ofNat 64 n <<< 24) = BitVec.ofNat 64 (0x00030003 + n * 2 ^ 24) := by
  rw [BitVec.ofNat_add, BitVec.ofNat_mul, BitVec.shiftLeft_eq_mul_twoPow]
  rfl

/-- What MFS reads is what the rules say of each special register. -/
theorem special_of_specialOf {s : State} {n : Nat} {x : W64} (h : Claims.specialOf s n = some x) : s.special n = x := by
  unfold Claims.specialOf at h
  split at h
  case h_23 => exact nomatch h
  all_goals rw [← Option.some.inj h]
  -- ISAVER; LBR, FPSTAT and TASKSEQ, which are narrower than 64 bits; CHSTATE; the others are fields as they stand
  case h_11 => exact isaver_eq _
  case h_12 | h_15 | h_22 => exact (BitVec.ofNat_toNat 64 _).symm
  case h_21 => exact chState_eq s
  all_goals rfl

/-- Settles O21: MFS writes `State.special`, and CYCLE the core's open value. -/
theorem specialRegistersRead : Obligations.SpecialRegistersRead := by
  intro d s
  refine ⟨fun n x h => ?_, ?_⟩
  · have hn : n ≠ 6 := by rintro rfl; exact nomatch h
    rw [← special_of_specialOf h]
    exact ⟨_, exec_mfs d s hn, scalarOnly_writeS_retire s d _ 1, retire_writeS_spc s d _ 1, wrote_writeS_retire s d _ 1⟩
  · refine ⟨_, rfl, ?_, ?_, ?_, fun r => ?_⟩
    · rw [retire_writeS_spc, State.setCore_warp]
    · rw [retire_dev, State.writeS_dev, State.setCore_dev]
    · rw [retire_team, State.writeS_team, State.setCore_team]
    · rw [S_retire, S_writeS, S_of_warp (congrArg Warp.s (State.setCore_warp s _))]

/-! ### Cores under their numbers -/

theorem coreOf_id (s : State) (n : Nat) : (s.coreOf n).id = n := by
  unfold State.coreOf
  split
  · assumption
  · cases h : s.cores.find? (fun c => c.id == n) with
    | none => rfl
    | some c => simpa using List.find?_some h

/-- A core put back is found under its number. -/
theorem coreOf_setCore {s : State} {c : Core} {n : Nat} (hn : c.id = n) : (s.setCore c).coreOf n = c := by
  subst hn
  unfold State.setCore
  split
  · exact if_pos rfl
  · next hfront =>
    split
    · next hany =>
      have hfind : (s.cores.map (fun x => if x.id = c.id then c else x)).find? (fun x => x.id == c.id) = some c := by
        have hp : (fun x => x.id == c.id) ∘ (fun x => if x.id = c.id then c else x) = fun x => x.id == c.id := by
          funext x
          by_cases hx : x.id = c.id <;> simp [hx]
        obtain ⟨x, hx⟩ := Option.isSome_iff_exists.mp (List.find?_isSome.trans List.any_eq_true.symm |>.mpr hany)
        have hid : x.id = c.id := by simpa using List.find?_some hx
        rw [List.find?_map, hp, hx, Option.map_some, if_pos hid]
      simp [State.coreOf, hfront, hfind]
    · next hnone =>
      have hold : s.cores.find? (fun x => x.id == c.id) = none := by simpa using hnone
      simp [State.coreOf, hfront, hold]

/-! ### MTS -/

theorem trapWord_eq (w : Warp) : w.trapWord = Claims.recordWord w w.trapSel.toNat := rfl

/-- The selector rises, and returns to 0 after the last word of the record (01:R35). -/
theorem nextSel_toNat (x : BitVec 9) : (nextSel x).toNat = if x.toNat = 279 ∨ x.toNat = 511 then 0 else x.toNat + 1 := by
  unfold nextSel
  have hx := x.isLt
  by_cases h : x = 279
  · subst h; rfl
  · have h' : x.toNat ≠ 279 := fun hc => h (BitVec.eq_of_toNat_eq hc)
    rw [if_neg h, BitVec.toNat_add]
    split <;> simp <;> omega

/-- Settles O22: each MTS is one field of the warp or of its core set, and a retirement. -/
theorem specialRegistersWrite : Obligations.SpecialRegistersWrite := by
  intro a s
  refine ⟨?dseed, ?trapinfo, fun h => ?lbr, fun h => ?misaligned, ?fpstat, ?allowance, fun h => ?resume, fun d => ?read⟩
  case dseed => exact ⟨_, rfl, rfl, rfl, ⟨rfl, fun _ => rfl⟩, fun _ => rfl⟩
  case trapinfo => exact ⟨_, rfl, rfl, BitVec.toNat_setWidth 9 _, ⟨rfl, fun _ => rfl⟩, fun _ => rfl⟩
  case lbr =>
    exact ⟨_, if_neg (not_not.mpr h), rfl, BitVec.toNat_setWidth 56 _, ⟨rfl, fun _ => rfl⟩, fun _ => rfl⟩
  case misaligned => exact if_pos h
  case fpstat => exact ⟨_, rfl, rfl, BitVec.toNat_setWidth 5 _, ⟨rfl, fun _ => rfl⟩, fun _ => rfl⟩
  case allowance =>
    have hcore : (s.setCore { s.coreOf s.team.core with allowance := min (s.S a).toNat 512 }).coreOf s.team.core = _ :=
      coreOf_setCore (coreOf_id s _)
    refine ⟨_, rfl, ?_, ?_, ?_, ?_, ?_, fun r => ?_⟩
    · rw [retire_spc, State.setCore_warp]
    · exact congrArg Core.allowance hcore
    · exact (congrArg Core.l1 hcore :)
    · rw [retire_dev, State.setCore_dev]
    · rw [retire_team, State.setCore_team]
    · rw [S_retire, S_of_warp (congrArg Warp.s (State.setCore_warp s _))]
  case resume =>
    refine ⟨s.retire, ?_, scalarOnly_retireTo s _ 1, rfl, fun _ => rfl⟩
    show execMtsResume a s = _
    simp [execMtsResume, h]
  case read =>
    refine ⟨_, rfl, ?_, ?_, ?_, ?_⟩
    · rw [retire_spc, State.onWarp_warp, State.writeS_warp]
    · intro r
      rw [S_retire, trapWord_eq]
      exact S_writeS s d r _
    · exact (congrArg (fun w : Warp => (nextSel w.trapSel).toNat) (State.writeS_warp s d _)).trans (nextSel_toNat _)
    · by_cases hd : d = 0 <;> simp only [State.writeS, hd, if_true, if_false] <;> exact ⟨rfl, fun _ => rfl⟩

end Sys2Proof.Machine
end

section
/-!
PROOFS. The words of a trap record, and delivery to the handler (01:R33, R36, R38; 14:R281).
-/

namespace Sys2Proof.Machine

open Sys2Proof

/-! ### Reading a list that stands in a store or in equal pieces -/

/-- A list put at the keys from 0 on reads as its elements, and as zero beyond them. -/
theorem get_setAll_range_zip {w : Nat} (ws : List (BitVec w)) (n : Nat) :
    (Store.setAll [] ((List.range ws.length).zip ws)).get n = ws.getD n 0#w := by
  have hkeys : ((List.range ws.length).zip ws).map Prod.fst = List.range ws.length :=
    List.map_fst_zip (by simp)
  by_cases hn : n < ws.length
  · have hmem : (n, ws[n]) ∈ (List.range ws.length).zip ws :=
      List.mem_iff_getElem.mpr ⟨n, by simpa using hn, by simp⟩
    have hnodup : (((List.range ws.length).zip ws).map Prod.fst).Nodup := hkeys.symm ▸ List.nodup_range
    rw [Store.get_setAll_mem _ _ _ hmem hnodup, List.getD_eq_getElem _ _ hn]
  · have hout : ∀ e ∈ (List.range ws.length).zip ws, e.1 ≠ n := by
      intro e he hen
      have : e.1 ∈ List.range ws.length := hkeys ▸ List.mem_map_of_mem he
      exact hn (hen ▸ List.mem_range.mp this)
    rw [Store.get_setAll_notin _ _ _ hout, List.getD_eq_default _ _ (Nat.le_of_not_lt hn)]
    rfl

/-- Element k of pieces of m elements each: element k mod m of piece k / m. -/
theorem getElem?_flatMap_of_length {α β : Type} {f : α → List β} {m : Nat} (hm : 0 < m) (hf : ∀ a, (f a).length = m)
    (xs : List α) (k : Nat) : (xs.flatMap f)[k]? = (xs[k / m]?).bind (fun a => (f a)[k % m]?) := by
  induction xs generalizing k with
  | nil => simp
  | cons x xs ih =>
    rw [List.flatMap_cons]
    by_cases hk : k < m
    · rw [List.getElem?_append_left (by rwa [hf]), Nat.div_eq_of_lt hk, Nat.mod_eq_of_lt hk]
      rfl
    · have hdiv : k / m = (k - m) / m + 1 := Nat.div_eq_sub_div hm (Nat.le_of_not_lt hk)
      have hmod : k % m = (k - m) % m := Nat.mod_eq_sub_mod (Nat.le_of_not_lt hk)
      rw [List.getElem?_append_right (by rw [hf]; omega), ih, hf, hdiv, hmod]
      rfl

/-! ### The words of a trap record (01:R36, R38) -/

/-- Fields that do not overlap add up. -/
theorem toNat_or_of_dvd {x y : W64} (i : Nat) (hx : 2 ^ i ∣ x.toNat) (hy : y.toNat < 2 ^ i) : (x ||| y).toNat = x.toNat + y.toNat := by
  obtain ⟨a, ha⟩ := hx
  rw [BitVec.toNat_or, ha, Nat.two_pow_add_eq_or_of_lt hy]

/-- A field shifted to its place. -/
theorem toNat_zeroExtend_shiftLeft {n : Nat} (x : BitVec n) (i : Nat) (h : n + i ≤ 64) :
    ((x.zeroExtend 64 : W64) <<< i).toNat = x.toNat * 2 ^ i := by
  have hx : x.toNat * 2 ^ i < 2 ^ (n + i) := by
    rw [Nat.pow_add]
    exact Nat.mul_lt_mul_of_pos_right x.isLt (Nat.two_pow_pos i)
  have h64 : 2 ^ (n + i) ≤ 2 ^ 64 := Nat.pow_le_pow_right (by decide) h
  have hn : x.toNat < 2 ^ 64 := Nat.lt_of_lt_of_le x.isLt (Nat.pow_le_pow_right (by decide) (by omega))
  rw [BitVec.toNat_shiftLeft, Nat.shiftLeft_eq, BitVec.toNat_setWidth, Nat.mod_eq_of_lt hn, Nat.mod_eq_of_lt (by omega)]

/-- Word 0 of a record as a sum of its fields: lanes, held blocks, half, stream, code. -/
theorem toNat_recordFields (lanes : Mask) (held : BitVec 8) (half lane : Bool) (code : BitVec 8) :
    ((lanes.zeroExtend 64 <<< 32) ||| (held.zeroExtend 64 <<< 24) ||| ((BitVec.ofBool half).zeroExtend 64 <<< 16) |||
      ((BitVec.ofBool lane).zeroExtend 64 <<< 8) ||| code.zeroExtend 64 : W64).toNat =
    lanes.toNat * 2 ^ 32 + held.toNat * 2 ^ 24 + half.toNat * 2 ^ 16 + lane.toNat * 2 ^ 8 + code.toNat := by
  have h1 := toNat_zeroExtend_shiftLeft lanes 32 (by decide)
  have h2 := toNat_zeroExtend_shiftLeft held 24 (by decide)
  have h3 := toNat_zeroExtend_shiftLeft (BitVec.ofBool half) 16 (by decide)
  have h4 := toNat_zeroExtend_shiftLeft (BitVec.ofBool lane) 8 (by decide)
  have h5 : (code.zeroExtend 64 : W64).toNat = code.toNat := BitVec.toNat_setWidth_of_le (by decide)
  rw [BitVec.toNat_ofBool] at h3 h4
  have hheld := held.isLt
  have hhalf := Bool.toNat_le half
  have hlane := Bool.toNat_le lane
  have hcode := code.isLt
  have s1 := toNat_or_of_dvd (x := lanes.zeroExtend 64 <<< 32) (y := held.zeroExtend 64 <<< 24) 32 (by omega) (by omega)
  have s2 := toNat_or_of_dvd (y := (BitVec.ofBool half).zeroExtend 64 <<< 16) 24 (by rw [s1]; omega) (by omega)
  have s3 := toNat_or_of_dvd (y := (BitVec.ofBool lane).zeroExtend 64 <<< 8) 16 (by rw [s2, s1]; omega) (by omega)
  rw [toNat_or_of_dvd 8 (by rw [s3, s2, s1]; omega) (by omega), s3, s2, s1, h1, h2, h3, h4, h5]

theorem zeroExtend_ofBool (b : Bool) : ((BitVec.ofBool b).zeroExtend 64 : W64) = if b then 1 else 0 := by cases b <;> rfl

theorem LPC_toNat (w : Warp) : w.LPC.toNat = Claims.oldestWord w := by
  unfold Warp.LPC Claims.oldestWord
  cases w.queue <;> rfl

/-- The first word packs its fields (01:R36). -/
theorem recordHead_zero (w : Warp) (lane half : Bool) (t : MemTrap) :
    (w.recordHead lane half t)[0]? = some (BitVec.ofNat 64 (Claims.recNat w lane half t 0)) := by
  have hself (x : W64) : x = BitVec.ofNat 64 x.toNat := by simp
  have hheld : (BitVec.ofNat 64 (min w.queue.length 8) : W64) = (BitVec.ofNat 8 (min w.queue.length 8)).zeroExtend 64 :=
    BitVec.eq_of_toNat_eq (by simp)
  have hheldNat : (BitVec.ofNat 8 (min w.queue.length 8)).toNat = min w.queue.length 8 := by
    rw [BitVec.toNat_ofNat, Nat.mod_eq_of_lt (by omega)]
  have hbit (b : Bool) (n : Nat) : b.toNat * n = if b then n else 0 := by cases b <;> simp
  simp only [Warp.recordHead, List.getElem?_cons_zero, hheld, ← zeroExtend_ofBool]
  refine congrArg some ((hself _).trans (congrArg (BitVec.ofNat 64) ?_))
  rw [toNat_recordFields, hheldNat, hbit, hbit, Claims.recNat]
  omega

/-- Each word of the head is the number that the rules give. -/
theorem getElem?_recordHead (w : Warp) (lane half : Bool) (t : MemTrap) (n : Nat) (hn : n < 8) :
    (w.recordHead lane half t)[n]? = some (BitVec.ofNat 64 (Claims.recNat w lane half t n)) := by
  match n, hn with
  | 0, _ => exact recordHead_zero w lane half t
  | 1, _ => simp [Warp.recordHead, Claims.recNat, ← LPC_toNat]
  | 2, _ =>
    refine congrArg some (BitVec.eq_of_toNat_eq ?_)
    simp [Claims.recNat]
  | 3, _ =>
    refine congrArg some (BitVec.eq_of_toNat_eq ?_)
    have hlive := toNat_zeroExtend_shiftLeft w.live 32 (by decide)
    have hem : (w.em.zeroExtend 64 : W64).toNat = w.em.toNat := BitVec.toNat_setWidth_of_le (by decide)
    have := w.live.isLt
    have := w.em.isLt
    rw [toNat_or_of_dvd 32 (by omega) (by omega), hlive, hem, BitVec.toNat_ofNat, Claims.recNat, Nat.mod_eq_of_lt (by omega)]
    omega
  | 4, _ => simp [Warp.recordHead, Claims.recNat]
  | 5, _ => simp [Warp.recordHead, Claims.recNat]
  | 6, _ => simp [Warp.recordHead, Claims.recNat]
  | 7, _ => rfl

theorem length_recordHead (w : Warp) (lane half : Bool) (t : MemTrap) : (w.recordHead lane half t).length = 8 := rfl
theorem length_blockWords (b : Block) : b.words.length = 34 := by simp [Block.words]

/-- Word j of a held block as a number: its start, its count, its seed, and the snapshot of s1 to s31 (01:R38). -/
def blockNat (b : Block) : Nat → Nat
  | 0 => b.start.toNat
  | 1 => b.count
  | 2 => b.dseed.toNat
  | j + 3 => (b.snap.get (j + 1)).toNat

theorem getElem?_blockWords (b : Block) (j : Nat) (hj : j < 34) : b.words[j]? = some (BitVec.ofNat 64 (blockNat b j)) := by
  match j, hj with
  | 0, _ => simp [Block.words, blockNat]
  | 1, _ => simp [Block.words, blockNat]
  | 2, _ => simp [Block.words, blockNat]
  | j + 3, h =>
    have hj : j < 31 := by omega
    simp [Block.words, blockNat, hj]

/-- The record of a trap holds the numbers of the rules, word by word. -/
theorem get_record (w : Warp) (lane half : Bool) (t : MemTrap) (n : Nat) :
    (w.record lane half t).get n = BitVec.ofNat 64 (Claims.recNat w lane half t n) := by
  unfold Warp.record
  rw [get_setAll_range_zip, List.getD_eq_getElem?_getD]
  by_cases hn : n < 8
  · rw [List.getElem?_append_left (by rwa [length_recordHead]), getElem?_recordHead w lane half t n hn]
    rfl
  · obtain ⟨k, rfl⟩ : ∃ k, n = k + 8 := ⟨n - 8, by omega⟩
    rw [List.getElem?_append_right (by rw [length_recordHead]; omega), length_recordHead, Nat.add_sub_cancel,
      getElem?_flatMap_of_length (by decide) length_blockWords, List.getElem?_take]
    by_cases hk : 272 ≤ k
    · rw [if_neg (by omega), Claims.recNat, if_pos hk]
      rfl
    · rw [if_pos (by omega), Claims.recNat, if_neg hk]
      cases w.queue[k / 34]? with
      | none => rfl
      | some b =>
        rw [Option.bind_some, getElem?_blockWords b _ (Nat.mod_lt k (by decide))]
        rfl

/-! ### Delivery to the handler (01:R33; 14:R281) -/

theorem killsTeam_iff (t : MemTrap) : killsTeam t = true ↔ Claims.Kills t := by
  simp [killsTeam, Claims.Kills, Code.pageFatal, Code.eccFatal, Code.writeAfterSeal, Code.aggFault, or_assoc]

/-- The warp at the handler's first instruction, with the record that it finds there. -/
def Warp.atHandler (w : Warp) (handler : BitVec 56) (half : Bool) (record : Store 64) : Warp :=
  { w.precise with
    trapRec := record, trapSel := 0, inHandler := true, queue := [], spc := handler.zeroExtend 64,
    pass := Pass.none, xDone := false, trapX := half && w.xDone, trapNums := w.queue.map (fun b => b.num) }

/-- A trap that no debugger stops is delivered. -/
theorem takeTrap_deliver {s : State} {t : MemTrap} (lane half : Bool) (hcode : t.code ≠ 0) (hstop : s.ctx.trapStop = false) :
    s.takeTrap lane half t = s.deliver lane half t := by
  rw [State.takeTrap, if_neg hcode, if_neg (by simp [hstop])]

/-- A delivery to the handler changes the warp in front alone, and drops its class checks that are under way. -/
theorem deliver_handler {s : State} {t : MemTrap} (lane half : Bool) (hin : s.warp.inHandler = false)
    (hhandler : s.team.hdr.handler ≠ 0) (hkills : ¬ Claims.Kills t) :
    s.deliver lane half t =
      (s.dropChecks s.warp.key).onWarp (fun w => w.atHandler s.team.hdr.handler half (s.warp.record lane half t)) := by
  have hk : killsTeam t = false := Bool.eq_false_iff.mpr (mt (killsTeam_iff t).mp hkills)
  have hin' : ¬ s.warp.inHandler = true := by simp [hin]
  have hstays : ¬ (killsTeam t || decide (s.team.hdr.handler = 0)) = true := by simpa [hk] using hhandler
  unfold State.deliver
  cases lane <;> exact (if_neg hin').trans (if_neg hstays)

/-- Settles O31: the record is read word by word, and the rest of a delivery is what `Warp.atHandler` sets. -/
theorem trapsWriteTheRecordAndEnterTheHandler : Obligations.TrapsWriteTheRecordAndEnterTheHandler := by
  intro lane half t r s
  refine ⟨rfl, fun h => ?_⟩
  obtain ⟨hin, hcode, hstop, hhandler, hkills⟩ := h
  rw [takeTrap_deliver lane half hcode hstop, deliver_handler lane half hin hhandler hkills]
  refine ⟨get_record s.warp lane half t, BitVec.toNat_setWidth_of_le (by decide), rfl, rfl, rfl, ?_⟩
  and_intros <;> rfl

end Sys2Proof.Machine
end

section
/-!
PROOFS. Lane operands: masks and active lanes, sources, destinations, retirement, logged operands (01:R19 to R29).
-/

namespace Sys2Proof.Machine

open Sys2Proof

/-! ### Masks and lanes -/

/-- Bit l of the mask built from the lanes below n. -/
theorem getLsbD_foldl_lanes (p : Nat → Bool) (n l : Nat) (hn : n ≤ 32) :
    ((List.range n).foldl (fun m k => if p k then m ||| (1#32 <<< k) else m) 0#32).getLsbD l = (decide (l < n) && p l) := by
  induction n with
  | zero => simp
  | succ n ih =>
    rw [List.range_succ, List.foldl_append, List.foldl_cons, List.foldl_nil]
    have ih := ih (by omega)
    by_cases hp : p n
    · rw [if_pos hp, BitVec.getLsbD_or, ih]
      by_cases hl : l = n
      · subst hl; simp [hp]; omega
      · have : (1#32 <<< n).getLsbD l = false := by simp; omega
        rw [this]
        have : (l < n + 1) ↔ l < n := by omega
        simp [this]
    · rw [if_neg hp, ih]
      by_cases hl : l = n
      · subst hl; simp [hp]
      · have : (l < n + 1) ↔ l < n := by omega
        simp [this]

@[simp] theorem has_of (p : Nat → Bool) (l : Nat) : (Mask.of p).has l = (decide (l < 32) && p l) :=
  getLsbD_foldl_lanes p 32 l (Nat.le_refl 32)

/-- A mask that is not empty has a lane. -/
theorem exists_has {m : Mask} (h : m ≠ 0) : ∃ l < 32, m.has l = true := by
  by_contra hnone
  push Not at hnone
  refine h (BitVec.eq_of_getLsbD_eq (fun l hl => ?_))
  simpa [Mask.has] using hnone l hl

/-- The first of the lanes of a mask is its lowest one. -/
theorem head_lanes {m : Mask} (h : m ≠ 0) : m.lanes.head?.getD 0 = Claims.lowest m.has := by
  obtain ⟨l, hl, hm⟩ := exists_has h
  have hfound : ((List.range 32).find? m.has).isSome = true := List.find?_isSome.mpr ⟨l, List.mem_range.mpr hl, hm⟩
  obtain ⟨k, hk⟩ := Option.isSome_iff_exists.mp hfound
  have hhead : m.lanes.head? = (List.range 32).find? m.has := List.head?_filter
  rw [Claims.lowest, hhead, hk]
  rfl

/-! ### Active lanes (01:R19, R40) -/

theorem predBit_eq_predOf (w : Warp) (p : Pred) (l : Nat) : predBit w p.toNat l = Claims.predOf w p l := by
  have : p.toNat = 0 ↔ p = 0 := BitVec.toNat_inj (y := 0)
  simp only [predBit, Claims.predOf, this]

/-- A lane is active where EM is set and the guard holds. -/
theorem active_has_iff (s : State) (g : Guard) (l : Nat) (hl : l < 32) :
    (s.active g).has l = true ↔ s.warp.em.has l = true ∧ (Claims.predOf s.warp g.p l ≠ g.neg ∨ g = ⟨false, 0⟩) := by
  simp only [State.active, has_of, hl, decide_true, Bool.true_and, Bool.and_eq_true, guardTrue, predBit_eq_predOf]
  by_cases hg : g = ⟨false, 0⟩
  · simp [hg]
  · rw [if_neg hg]
    exact and_congr_right fun _ => bne_iff_ne.trans (or_iff_left hg).symm

/-! ### Sources (01:R22 to R25) -/

theorem lo32_src64 (s : State) (n : SReg) : lo32 (s.src64 n) = BitVec.ofNat 32 (if n = 0 then 0
    else ((match s.warp.queue.head? with | some b => b.snap | none => s.warp.s).get n.toNat).toNat) := by
  have hsnap : s.snap = match s.warp.queue.head? with | some b => b.snap | none => s.warp.s := by
    unfold State.snap
    cases s.warp.queue <;> rfl
  rw [← hsnap, State.src64, lo32]
  split <;> simp

/-- A pop or a peek gives the oldest message; with no active lane nothing is taken. -/
theorem readSrc_chan_cons {s : State} {n : BitVec 4} {msg : Store 32} {rest : List (Store 32)}
    (h : (s.warp.chan n.toNat).queue = msg :: rest) (peek : Bool) :
    s.readSrc true (.chan n peek) = (if peek then s
      else s.onWarp (fun w => w.setChan n.toNat { s.warp.chan n.toNat with queue := rest }), fun l => msg.get l) := by
  simp only [State.readSrc, h]
theorem readSrc_chan_none (s : State) (n : BitVec 4) (peek : Bool) : s.readSrc false (.chan n peek) = (s, fun _ => 0) := by
  simp only [State.readSrc]
  split <;> trivial

theorem chan_setChan_same {w : Warp} {n : Nat} (c : Chan) (h : n < w.chans.length) : (w.setChan n c).chan n = c := by
  simp [Warp.setChan, Warp.chan, listPut, h]

/-! ### Destinations (01:R18, R24 to R26) -/

/-- The full and the poison bit of a register after a write of register n. -/
theorem getLsbD_fillDone (x : BitVec 192) (n r : Nat) (hr : r < 192) :
    (x &&& ~~~((1 : BitVec 192) <<< n)).getLsbD r = (x.getLsbD r && !decide (r = n)) := by
  have hbit : ((1 : BitVec 192) <<< n).getLsbD r = decide (r = n) := by
    rw [BitVec.getLsbD_shiftLeft]
    by_cases hrn : r = n
    · subst hrn
      simp [hr]
    · simp [hr, hrn]
      omega
  rw [BitVec.getLsbD_and, BitVec.getLsbD_not, hbit]
  simp [hr]

theorem empty_writeV (s : State) (n : Nat) (m : Mask) (x : LaneVec) (r : Nat) (hr : r < 192) :
    (s.writeV n m x).warp.empty.getLsbD r = (s.warp.empty.getLsbD r && !(decide (r = n) && decide (m ≠ 0))) := by
  rw [State.writeV_warp]
  by_cases hm : m = 0
  · simp [hm]
  · rw [if_neg hm]
    exact (getLsbD_fillDone _ n r hr).trans (by rw [decide_eq_true hm, Bool.and_true])

theorem poison_writeV (s : State) (n : Nat) (m : Mask) (x : LaneVec) (r : Nat) (hr : r < 192) :
    (s.writeV n m x).warp.poison.getLsbD r = (s.warp.poison.getLsbD r && !(decide (r = n) && decide (m ≠ 0))) := by
  rw [State.writeV_warp]
  by_cases hm : m = 0
  · simp [hm]
  · rw [if_neg hm]
    exact (getLsbD_fillDone _ n r hr).trans (by rw [decide_eq_true hm, Bool.and_true])

/-- A write of a register changes the register file and the marks of its registers alone. -/
theorem writeV_frame (s : State) (n : Nat) (m : Mask) (x : LaneVec) :
    s.writeV n m x = { s with warp := { s.warp with
      v := (s.writeV n m x).warp.v, empty := (s.writeV n m x).warp.empty
      poison := (s.writeV n m x).warp.poison, fills := (s.writeV n m x).warp.fills } } := by
  unfold State.writeV State.onWarp
  by_cases hm : m = 0
  · simp only [hm, if_true]
  · simp only [hm, if_false]
    rfl

theorem writeDest_chan_none (s : State) (n : BitVec 4) (x : LaneVec) : s.writeDest (.chan n) 0 x = s := rfl

/-- The SRQ takes the value of the lowest active lane (01:R26). -/
theorem writeDest_srq (s : State) {m : Mask} (x : LaneVec) (h : m ≠ 0) :
    s.writeDest (.chan 15) m x = { s with warp := { s.warp with srq := s.warp.srq ++ [x (Claims.lowest m.has)] } } := by
  rw [← head_lanes h]
  exact if_neg h

/-- A message holds the values of the active lanes and zeros (01:R25). -/
theorem get_message (m : Mask) (x : LaneVec) (l : Nat) (hl : l < 32) : (message m x).get l = if m.has l then x l else 0 := by
  have hkeys : ((m.lanes.map (fun l => (l, x l))).map Prod.fst).Nodup := by
    rw [List.map_map]
    exact List.Nodup.map (fun _ _ h => h) (List.nodup_range.filter _)
  by_cases hm : m.has l = true
  · rw [if_pos hm]
    exact Store.get_setAll_mem _ [] (l, x l) (List.mem_map.mpr ⟨l, (has_lanes m l).mpr ⟨hl, hm⟩, rfl⟩) hkeys
  · rw [if_neg hm]
    refine Store.get_setAll_notin _ [] l (fun e he hel => ?_)
    obtain ⟨k, hk, rfl⟩ := List.mem_map.mp he
    exact hm (hel ▸ ((has_lanes m k).mp hk).2)

/-! ### Retirement (01:R11, R12) -/

/-- The oldest word retires: what is left of the queue, and LPC. -/
theorem retireWord_cons {w : Warp} {b : Block} {rest : List Block} (h : w.queue = b :: rest) :
    w.retireWord.queue = (if 1 < b.count then { b with start := b.start + 12, count := b.count - 1 } :: rest else rest) ∧
    w.retireWord.lpc = b.start + 12 ∧ w.retireWord.retired = w.retired + 1 ∧ w.retireWord.v = w.v := by
  unfold Warp.retireWord
  rw [h]
  refine ⟨?_, rfl, rfl, rfl⟩
  by_cases hc : 1 < b.count
  · rw [if_pos hc]
    exact if_neg (Nat.not_le.mpr hc)
  · rw [if_neg hc]
    exact if_pos (Nat.le_of_not_lt hc)

theorem LPC_retireWord {w : Warp} {b : Block} {rest : List Block} (h : w.queue = b :: rest) :
    w.retireWord.LPC = if 1 < b.count then b.start + 12
      else match rest.head? with | some c => c.start | none => b.start + 12 := by
  obtain ⟨hq, hlpc, -, -⟩ := retireWord_cons h
  rw [Warp.LPC, hq, hlpc]
  by_cases hc : 1 < b.count
  · rw [if_pos hc, if_pos hc]
  · rw [if_neg hc, if_neg hc]
    cases rest <;> rfl

/-! ### Logged operands (01:R28, R29) -/

/-- A word that has executed before takes the operands of its entry. -/
theorem laneArgs_logged {s : State} {e : RobEntry} (u : LaneUse) (he : s.warp.headEntry = some e) (ho : e.offs ≠ []) :
    (s.laneArgs u).m = e.active ∧ (s.laneArgs u).base = e.base ∧ ∀ l, (s.laneArgs u).offs l = e.offs.getD l 0 := by
  have hne : ¬ e.offs.isEmpty = true := by simpa using ho
  unfold State.laneArgs
  rw [he]
  dsimp only
  rw [if_neg hne]
  exact ⟨rfl, rfl, fun _ => rfl⟩

/-- An access that has not issued finds the 16 entries of its pipe taken. -/
theorem logFull_of_used {s : State} {u : LaneUse} (hlog : u.log ≠ none) (hnew : s.warp.headEntry = none) (hused : 16 ≤ s.logUsed) :
    s.logFull u = true := by
  have : Config.operandLog ≤ s.logUsed := hused
  simp [State.logFull, Option.isSome_iff_ne_none.mpr hlog, hnew, this]

/-- Settles O35, clause by clause, each by the lemma on its operation. -/
theorem laneOperandsReadAndWrite : Obligations.LaneOperandsReadAndWrite := by
  intro s
  refine ⟨fun g l hl => active_has_iff s g l hl, fun _ _ _ => rfl, fun _ n l => ⟨rfl, lo32_src64 s n⟩, fun _ k l => ?con,
    fun n peek msg rest l h => ⟨?value, readSrc_chan_none s n peek, fun hchans hn => ?taken⟩,
    fun n m x => ⟨fun r l hl => vreg_writeV s n.toNat r m x l hl, fun r hr => ⟨empty_writeV s _ m x r hr, poison_writeV s _ m x r hr⟩,
      writeV_frame s _ m x⟩,
    fun n m x => ⟨fun h => h ▸ rfl, fun h => writeDest_srq s x h, fun l hl => get_message m x l hl⟩,
    fun b rest h => ?retire, fun u e he ho => laneArgs_logged u he ho,
    fun u body hp hg hlog hnew hused => laneAccess_full s u body hp hg (logFull_of_used hlog hnew hused)⟩
  case con => cases k <;> rfl
  case value => rw [readSrc_chan_cons h]
  case taken =>
    rw [readSrc_chan_cons h]
    cases peek with
    | true => exact h
    | false =>
      have hlt : n.toNat < s.warp.chans.length := by
        have := n.isLt
        have : n.toNat ≠ 15 := fun hc => hn (BitVec.eq_of_toNat_eq hc)
        omega
      exact congrArg Chan.queue (chan_setChan_same _ hlt)
  case retire =>
    obtain ⟨hq, -, hretired, hv⟩ := retireWord_cons h
    exact ⟨LPC_retireWord h, hretired, hv, rfl, hq⟩

end Sys2Proof.Machine
end

section
/-!
PROOFS. Which turn a step takes, and what that turn runs (01:R8, R12; 17:R300).
-/

namespace Sys2Proof.Machine

open Sys2Proof

/-! ### What a step chooses (assumption 3) -/

theorem andThen_assoc (r : Result) (f g : State → Result) : andThen (andThen r f) g = andThen r (fun s => andThen (f s) g) := by
  cases r <;> rfl

theorem andThen_of_next (s : State) (f : State → Result) : andThen (.next s) f = f s := rfl

/-- A step is the turn that it chooses, and the service of held requests. -/
theorem step_of_runChosen {s : State} {r : Result} (h : runChosen exec s = r) : step s = andThen r (fun u => .next u.serveHeld) :=
  congrArg (fun r => andThen r (fun u => .next u.serveHeld)) h

theorem firstArrival_none {s : State} (h : Claims.NothingArrives s) : s.firstArrival = none := by
  have hnone : (List.range s.events.length).find? s.mayArrive = none :=
    List.find?_eq_none.mpr (fun n hn => by simp [h n (List.mem_range.mp hn)])
  rw [State.firstArrival, hnone]

/-- The first message that may arrive arrives. -/
theorem firstArrival_first {s : State} {e : Instr} {n : Nat} (he : s.events[n]? = some e) (hn : s.mayArrive n = true)
    (hfirst : ∀ m < n, s.mayArrive m = false) :
    s.firstArrival = some (e, { s with events := s.events.eraseIdx n }) := by
  have hlt : n < s.events.length := (List.getElem?_eq_some_iff.mp he).1
  have hfind : (List.range s.events.length).find? s.mayArrive = some n := by
    rw [List.find?_range_eq_some]
    exact ⟨hn, List.mem_range.mpr hlt, fun m hm => by simp [hfirst m hm]⟩
  rw [State.firstArrival, hfind]
  simp only [he, Option.map_some]

theorem runChosen_planned {s : State} {p : Turn} {rest : List Turn} (h : s.plan = p :: rest) :
    runChosen exec s = runPlanned exec p { s with plan := rest } := by
  rw [runChosen, h]

theorem runChosen_quiet {s : State} (h : s.plan = []) (ha : Claims.NothingArrives s) : runChosen exec s = runWarp exec s := by
  rw [runChosen, h, firstArrival_none ha]

theorem runChosen_arrival {s u : State} {e : Instr} (h : s.plan = []) (ha : s.firstArrival = some (e, u)) :
    runChosen exec s = runMessage exec e u := by
  rw [runChosen, h, ha]

/-- The lane stream's turn stands where both streams could go and it does not trap (01:R34). -/
theorem takeBoth_lane {s : State} (h : ∀ u, takeTurn exec true s = .next u → s.trapped u = false) :
    takeBoth exec s = takeTurn exec true s := by
  unfold takeBoth
  cases ht : takeTurn exec true s with
  | next u => simp [h u ht]
  | fault x => rfl
  | refused x => rfl

theorem runChosen_scalar {s₀ s : State} (h : Claims.ScalarTurn s₀ s) : runChosen exec s₀ = takeTurn exec false s := by
  obtain ⟨hmay, hissues, -, ⟨rest, hplan, rfl⟩ | ⟨hplan, harrives, rfl, hover, hstalled, hlane⟩⟩ := h
  · rw [runChosen_planned hplan]
    exact if_pos (by simp [hmay, hissues])
  · have hl : s.laneGoes = false := by rcases hlane with h | h <;> simp [State.laneGoes, h]
    have hs : s.scalarGoes = true := by simp [State.scalarGoes, hmay, hissues, hstalled]
    rw [runChosen_quiet hplan harrives, runWarp, hover, hl, hs]
    rfl

theorem runChosen_lane {s₀ s : State} (h : Claims.LaneTurn s₀ s) : runChosen exec s₀ = takeTurn exec true s := by
  obtain ⟨hmay, hissues, -, ⟨rest, hplan, rfl⟩ | ⟨hplan, harrives, rfl, hover, hstalled, hboth⟩⟩ := h
  · rw [runChosen_planned hplan]
    exact if_pos (by simp [hmay, hissues])
  · have hl : s.laneGoes = true := by simp [State.laneGoes, hmay, hissues, hstalled]
    rw [runChosen_quiet hplan harrives, runWarp, hover, hl]
    rcases hboth with hs | htraps
    · rw [hs]; rfl
    · rw [takeBoth_lane htraps]
      cases s.scalarGoes <;> rfl

theorem runChosen_event {s₀ s : State} {e : Instr} (h : Claims.EventTurn s₀ s e) : runChosen exec s₀ = runMessage exec e s := by
  obtain ⟨hplan, n, he, hn, hfirst, rfl⟩ | ⟨n, rest, hplan, he, hn, rfl⟩ := h
  · exact runChosen_arrival hplan (firstArrival_first he hn hfirst)
  · rw [runChosen_planned hplan, runPlanned]
    simp only [he]
    exact if_pos hn

/-! ### What a stream's turn runs -/

theorem takeLate_none {s : State} (lane : Bool) (h : s.warp.pendTrap = none ∨ s.warp.done ≠ []) : s.takeLate lane = none := by
  unfold State.takeLate
  rcases h with h | h
  · rw [h]; rfl
  · have : s.warp.done.isEmpty = false := by simpa using h
    rw [this]
    cases s.warp.pendTrap <;> rfl

/-- A turn of the scalar stream: the word that has been fetched at SPC. -/
theorem takeTurn_scalar {s t : State} {bs : List Byte} (hlate : s.takeLate false = none) (hbreak : s.breakHit false s.warp.spc = false)
    (hfetch : s.fetch false s.warp.spc 4 = .ok t bs) :
    takeTurn exec false s = andThen (exec (scalarOfBytes bs) t) (fun u => .next (u.afterTurn false)) := by
  have hnext : s.nextScalar = .run (scalarOfBytes bs) t := by rw [State.nextScalar, hbreak, hfetch]; rfl
  rw [takeTurn, hlate]
  exact congrArg (runTurn exec false) hnext

/-- What the lane word that has been fetched does. -/
def laneNextOf (t : State) (w : LaneWord) : Next :=
  match w with
  | .single i => .run i t
  | .pair x y => t.pairNext x y

/-- A turn of the lane stream: the word that has been fetched at LPC. -/
theorem takeTurn_lane {s t : State} {bs : List Byte} (hlate : s.takeLate true = none)
    (hbreak : s.breakHit true (s.warp.LPC.zeroExtend 64) = false ∨ s.warp.done ≠ [])
    (hfetch : s.fetch true (s.warp.LPC.zeroExtend 64) 12 = .ok t bs) :
    takeTurn exec true s = runTurn exec true (laneNextOf t (laneOfBytes bs)) := by
  have hstop : (s.breakHit true (s.warp.LPC.zeroExtend 64) && s.warp.done.isEmpty) = false := by
    rcases hbreak with h | h <;> simp [h]
  have hnext : s.nextLane = laneNextOf t (laneOfBytes bs) := by rw [State.nextLane, hstop, hfetch]; rfl
  rw [takeTurn, hlate]
  exact congrArg (runTurn exec true) hnext

theorem early_of_go {u : LaneUse} {s : State} (h : u.gate s = .go) : u.early s = none := by
  unfold LaneUse.gate at h
  split at h
  · cases h
  · assumption

theorem rest_of_go {u : LaneUse} {s : State} (h : u.gate s = .go) : u.rest s = .go := by
  rwa [LaneUse.gate, early_of_go h] at h

/-- A pair whose halves both pass issues whole. -/
theorem pairNext_both {s : State} {x y : Instr} (hdone : s.warp.xDone = false) (hx : (Instr.use x).gate s = .go)
    (hy : (Instr.use y).gate s = .go) : s.pairNext x y = .pair x y s := by
  rw [State.pairNext, hdone, early_of_go hx, early_of_go hy, rest_of_go hx, rest_of_go hy]
  rfl

/-- A pair whose X half has completed runs its Y half alone (01:R12, R33). -/
theorem pairNext_y {s : State} {x y : Instr} (hdone : s.warp.xDone = true) (hy : (Instr.use y).gate s = .go) :
    s.pairNext x y = .run y s := by
  rw [State.pairNext, hdone, hy]
  rfl

/-! ### A fetch that answers (01:R8) -/

theorem check_ok_iaOf {c : Context} {p : Perm} {a : W64} {ia : Nat} (h : check c a p = .ok ia) : iaOf c p a = ia := by
  rw [iaOf, h]

/-- A word inside one line that the core does not hold comes from the bytes of its page's place. -/
theorem fetch_of_fetches {s t : State} {a : W64} {n ia : Nat} {p : Page} (lane : Bool) (h : Claims.Fetches s t a n ia p) :
    s.fetch lane a n = .ok t ((List.range n).map (fun k => Claims.byteAt t (p.phys ia + k))) := by
  obtain ⟨hline, hcheck, hheld, hpage, hin, hsound⟩ := h
  have hparts : fetchParts a n = [(a, n)] := if_pos (by omega)
  have hia := check_ok_iaOf hcheck
  have hfault : fetchFault s.ctx [(a, n)] = none := by simp [fetchFault, hcheck]
  have hmissing : s.fetchMissing [(a, n)] = none := by
    have hfind : (s.coreOf s.team.core).find (tagged s.ctx.num ia) = none := hheld
    simp [State.fetchMissing, hia, hfind, hpage]
  have hpart : s.fetchPart a n = .ok t (t.homeRead p ia n) := by
    have hfind : (s.coreOf s.team.core).find (tagged s.ctx.num ia) = none := hheld
    simp [State.fetchPart, hia, hfind, hin]
  have hall : State.fetchAll [(a, n)] s [] false = .ok t ((List.range n).map (fun k => Claims.byteAt t (p.phys ia + k)), false) := by
    simp only [State.fetchAll, hpart, State.homeRead, hsound]
    rfl
  simp [State.fetch, hparts, hfault, hmissing, hall, hcheck]

/-- Settles O27: the turn that is chosen runs what its bytes decode to, and a fetch answers the bytes of the page's place. -/
theorem stepRunsTheDecodedInstruction : Obligations.StepRunsTheDecodedInstruction := by
  intro s₀ s t bs
  refine ⟨fun hturn hbreak hfetch => ?scalar, fun hturn hbreak hfetch => ?lane, fun e hturn he => ?message,
    fun lane a n ia p h => fetch_of_fetches lane h⟩
  case scalar =>
    have ⟨_, _, hpend, _⟩ := hturn
    have hlate := takeLate_none false (Or.inl hpend)
    have hstep := step_of_runChosen ((runChosen_scalar hturn).trans (takeTurn_scalar hlate hbreak hfetch))
    rw [andThen_assoc] at hstep
    refine ⟨fun i hi => ?_, fun r hr => ?_⟩
    · rwa [scalarOfBytes, hi] at hstep
    · rwa [scalarOfBytes, hr] at hstep
  case lane =>
    have ⟨_, _, hpend, _⟩ := hturn
    have hlate := takeLate_none true hpend
    have hstep := step_of_runChosen ((runChosen_lane hturn).trans (takeTurn_lane hlate hbreak hfetch))
    refine ⟨fun i hi => ?_, fun x y hxy hdone hx hy => ?_, fun x y hxy hdone hy => ?_, fun h r hr => ?_⟩
    · rwa [laneOfBytes, hi, laneNextOf, runTurn, andThen_assoc] at hstep
    · rw [laneOfBytes, hxy, laneNextOf, pairNext_both hdone hx hy, runTurn, andThen_assoc] at hstep
      simpa only [andThen_assoc, andThen_of_next] using hstep
    · rwa [laneOfBytes, hxy, laneNextOf, pairNext_y hdone hy, runTurn, andThen_assoc] at hstep
    · rwa [laneOfBytes, hr, laneNextOf, runTurn, andThen_assoc] at hstep
  case message =>
    have hstep := step_of_runChosen (runChosen_event hturn)
    rwa [runMessage, if_pos he, andThen_assoc] at hstep

end Sys2Proof.Machine
end

section
/-!
PROOFS. Bits of a word and the reasons against it: what both decoders share (03:R66, R68, R76).
-/

namespace Sys2Proof

/-! ### Bits of a word -/

theorem append_eq_iff {n m : Nat} (x : BitVec n) (y : BitVec m) (z : BitVec (n + m)) :
    x ++ y = z ↔ x = z.extractLsb' m n ∧ y = z.extractLsb' 0 m := by
  constructor
  · rintro rfl
    rw [BitVec.extractLsb'_append_eq_of_le (Nat.le_refl m), BitVec.extractLsb'_append_eq_of_add_le (by omega)]
    simp
  · rintro ⟨rfl, rfl⟩
    rw [BitVec.extractLsb'_append_extractLsb'_eq_extractLsb' (by omega), BitVec.extractLsb'_eq_self]

theorem extractLsb'_extractLsb' {n a b k m : Nat} (z : BitVec n) (h : b + m ≤ k) :
    (z.extractLsb' a k).extractLsb' b m = z.extractLsb' (a + b) m := by
  ext i hi
  simp only [BitVec.getElem_extractLsb', BitVec.getLsbD_extractLsb']
  have hk : b + i < k := by omega
  simp [hk, Nat.add_assoc]

theorem ofBool_eq_extractLsb' {n k : Nat} (b : Bool) (z : BitVec n) :
    BitVec.ofBool b = z.extractLsb' k 1 ↔ b = z.getLsbD k := by
  constructor
  · intro h
    simpa [BitVec.getLsbD_ofBool] using congrArg (BitVec.getLsbD · 0) h
  · rintro rfl
    ext i hi
    obtain rfl : i = 0 := by omega
    simp

theorem zero_eq_extractLsb'_one {n : Nat} (z : BitVec n) (k : Nat) : 0#1 = z.extractLsb' k 1 ↔ false = z.getLsbD k :=
  ofBool_eq_extractLsb' false z

theorem ushiftRight_eq_zero_iff {n : Nat} (x : BitVec n) (k : Nat) : x >>> k = 0#n ↔ 0#(n - k) = x.extractLsb' k (n - k) := by
  constructor
  · intro h
    ext i hi
    have hbit := congrArg (BitVec.getLsbD · i) h
    simpa using hbit
  · intro h
    ext i hi
    rcases Nat.lt_or_ge (k + i) n with hki | hki
    · have hbit := congrArg (BitVec.getLsbD · i) h
      simpa [show i < n - k by omega] using hbit
    · simp [hki]

theorem eq_ofNat_of_toNat_eq {n k : Nat} {x : BitVec n} (h : x.toNat = k) : x = BitVec.ofNat n k := by
  rw [← h, BitVec.ofNat_toNat, BitVec.setWidth_eq]

/-! ### Reasons against a word -/

theorem smallest_eq_none_iff (rs : List Nat) : smallest rs = none ↔ rs = [] := by
  cases rs with
  | nil => simp [smallest]
  | cons r rest => cases h : smallest rest <;> simp [smallest, h]

theorem req_eq_nil_iff (b : Bool) (r : Nat) : req b r = [] ↔ b = true := by cases b <;> simp [req]

/-- A word decodes exactly if there is no reason against it. -/
theorem verdict_eq_ok_iff (rs : List Nat) (i j : Instr) : verdict rs i = .ok j ↔ rs = [] ∧ i = j := by
  unfold verdict
  cases h : smallest rs with
  | none => simp [(smallest_eq_none_iff rs).mp h]
  | some r =>
    have hne : rs ≠ [] := fun hrs => by simp [(smallest_eq_none_iff rs).mpr hrs] at h
    simp [hne]

/-! ### Coded fields that both streams have -/

@[simp] theorem Scope.ofBits_bits (sc : Scope) : Scope.ofBits sc.bits = sc := by cases sc <;> rfl
theorem Scope.bits_lt (sc : Scope) : sc.bits < 5#3 := by cases sc <;> decide
theorem Scope.bits_ofBits {x : BitVec 3} (h : x < 5#3) : (Scope.ofBits x).bits = x := by
  revert h x; decide
@[simp] theorem Order.ofBits_bits (o : Order) : Order.ofBits o.bits = o := by cases o <;> rfl
@[simp] theorem Order.bits_ofBits (x : BitVec 2) : (Order.ofBits x).bits = x := by
  revert x; decide

end Sys2Proof
end

section
/-!
PROOFS. Scalar words and scalar instructions (03:R66, R67; 04:R77 to R80).
-/

namespace Sys2Proof

/-! ### The formats of a scalar word -/

theorem sR_eq_iff (op : BitVec 6) (d a b : SReg) (f : BitVec 11) (w : W32) :
    sR op d a b f = w ↔ op = (unpackScalar w).op ∧ d = (unpackScalar w).d ∧ a = (unpackScalar w).a ∧ b = (unpackScalar w).b ∧
      f = (unpackScalar w).f := by
  rw [sR, append_eq_iff (n := 21), append_eq_iff (n := 16), append_eq_iff (n := 11), append_eq_iff (n := 6)]
  simp [extractLsb'_extractLsb', unpackScalar, and_assoc]

theorem sI_eq_iff (op : BitVec 6) (d a : SReg) (imm : BitVec 16) (w : W32) :
    sI op d a imm = w ↔ op = (unpackScalar w).op ∧ d = (unpackScalar w).d ∧ a = (unpackScalar w).a ∧
      imm = (unpackScalar w).imm := by
  rw [sI, append_eq_iff (n := 16), append_eq_iff (n := 11), append_eq_iff (n := 6)]
  simp [extractLsb'_extractLsb', unpackScalar, and_assoc]

theorem jumpW_eq_iff (op : BitVec 6) (off : BitVec 26) (w : W32) :
    op ++ off = w ↔ op = (unpackScalar w).op ∧ off = (unpackScalar w).off := append_eq_iff op off w

theorem vexW_eq_iff (op : BitVec 6) (cnt : BitVec 10) (loff : BitVec 16) (w : W32) :
    op ++ cnt ++ loff = w ↔
      op = (unpackScalar w).op ∧ cnt = (unpackScalar w).off.extractLsb' 16 10 ∧ loff = (unpackScalar w).imm := by
  rw [append_eq_iff (n := 16), append_eq_iff (n := 6)]
  simp [extractLsb'_extractLsb', unpackScalar, and_assoc]

theorem unpackScalar_w (x : W32) : (unpackScalar x).w = (unpackScalar x).f.getLsbD 4 := by simp [unpackScalar]

/-- The decoder reads a word of format S-R through its fields. -/
theorem decodeScalar_sR (op : BitVec 6) (d a b : SReg) (f : BitVec 11) :
    ∃ imm off, decodeScalar (sR op d a b f) = decodeScalarFields ⟨op, d, a, b, f, imm, off, f.getLsbD 4⟩ := by
  obtain ⟨hop, hd, ha, hb, hf⟩ := (sR_eq_iff op d a b f _).mp rfl
  generalize sR op d a b f = w at *
  subst hop hd ha hb hf
  exact ⟨_, _, by rw [← unpackScalar_w]; rfl⟩

/-- The same of formats S-I and S-B. -/
theorem decodeScalar_sI (op : BitVec 6) (d a : SReg) (imm : BitVec 16) :
    ∃ b f off w, decodeScalar (sI op d a imm) = decodeScalarFields ⟨op, d, a, b, f, imm, off, w⟩ := by
  obtain ⟨hop, hd, ha, himm⟩ := (sI_eq_iff op d a imm _).mp rfl
  generalize sI op d a imm = w at *
  subst hop hd ha himm
  exact ⟨_, _, _, _, rfl⟩

/-- The same of the jumps. -/
theorem decodeScalar_jumpW (op : BitVec 6) (off : BitVec 26) :
    ∃ d a b f imm w, decodeScalar (op ++ off) = decodeScalarFields ⟨op, d, a, b, f, imm, off, w⟩ := by
  obtain ⟨hop, hoff⟩ := (jumpW_eq_iff op off _).mp rfl
  generalize op ++ off = w at *
  subst hop hoff
  exact ⟨_, _, _, _, _, _, rfl⟩

/-- The same of VEX, whose count stands above its offset. -/
theorem decodeScalar_vexW (op : BitVec 6) (cnt : BitVec 10) (loff : BitVec 16) :
    ∃ d a b f off w, decodeScalar (op ++ cnt ++ loff) = decodeScalarFields ⟨op, d, a, b, f, loff, off, w⟩ ∧
      off.extractLsb' 16 10 = cnt := by
  obtain ⟨hop, hcnt, hloff⟩ := (vexW_eq_iff op cnt loff _).mp rfl
  generalize op ++ cnt ++ loff = w at *
  subst hop hcnt hloff
  exact ⟨_, _, _, _, _, _, rfl, rfl⟩

/-! ### The layouts of F and of the immediate -/

theorem aluF_eq_iff (k : BitVec 6) (b : Bool) (f : BitVec 11) :
    k ++ BitVec.ofBool b ++ 0#4 = f ↔ k = f.extractLsb' 5 6 ∧ b = f.getLsbD 4 ∧ 0 = f.extractLsb' 0 4 := by
  rw [append_eq_iff (n := 7), append_eq_iff (n := 6)]
  simp [extractLsb'_extractLsb', ofBool_eq_extractLsb', and_assoc]

theorem syncF_eq_iff (k sc : BitVec 3) (b : Bool) (f : BitVec 11) :
    k ++ sc ++ BitVec.ofBool b ++ 0#4 = f ↔
      k = f.extractLsb' 8 3 ∧ sc = f.extractLsb' 5 3 ∧ b = f.getLsbD 4 ∧ 0 = f.extractLsb' 0 4 := by
  rw [append_eq_iff (n := 7), append_eq_iff (n := 6), append_eq_iff (n := 3)]
  simp [extractLsb'_extractLsb', ofBool_eq_extractLsb', and_assoc]

theorem amoF_eq_iff (k : BitVec 4) (sc : BitVec 3) (o : BitVec 2) (b : Bool) (f : BitVec 11) :
    k ++ sc ++ o ++ BitVec.ofBool b ++ 0#1 = f ↔
      k = f.extractLsb' 7 4 ∧ sc = f.extractLsb' 4 3 ∧ o = f.extractLsb' 2 2 ∧ b = f.getLsbD 1 ∧ false = f.getLsbD 0 := by
  rw [append_eq_iff (n := 10), append_eq_iff (n := 9), append_eq_iff (n := 7), append_eq_iff (n := 4)]
  simp only [extractLsb'_extractLsb', ofBool_eq_extractLsb', zero_eq_extractLsb'_one, and_assoc, Nat.reduceAdd, Nat.reduceLeDiff]

theorem phaseF_eq_iff (k : BitVec 2) (sc : BitVec 3) (f : BitVec 11) :
    k ++ sc ++ 0#6 = f ↔ k = f.extractLsb' 9 2 ∧ sc = f.extractLsb' 6 3 ∧ 0 = f.extractLsb' 0 6 := by
  rw [append_eq_iff (n := 5), append_eq_iff (n := 2)]
  simp [extractLsb'_extractLsb', and_assoc]

theorem sysF_eq_iff (k : BitVec 5) (n : BitVec 6) (f : BitVec 11) :
    k ++ n = f ↔ k = f.extractLsb' 6 5 ∧ n = f.extractLsb' 0 6 := append_eq_iff k n f

theorem shiftI_eq_iff (b : Bool) (k : BitVec 2) (n : BitVec 6) (imm : BitVec 16) :
    0#7 ++ BitVec.ofBool b ++ k ++ n = imm ↔
      0 = imm.extractLsb' 9 7 ∧ b = imm.getLsbD 8 ∧ k = imm.extractLsb' 6 2 ∧ n = imm.extractLsb' 0 6 := by
  rw [append_eq_iff (n := 10), append_eq_iff (n := 8), append_eq_iff (n := 7)]
  simp [extractLsb'_extractLsb', ofBool_eq_extractLsb', and_assoc]

theorem growI_eq_iff (t : Bool) (n : BitVec 4) (imm : BitVec 16) :
    0#11 ++ BitVec.ofBool t ++ n = imm ↔ imm >>> 5 = 0 ∧ t = imm.getLsbD 4 ∧ n = imm.extractLsb' 0 4 := by
  rw [append_eq_iff (n := 12), append_eq_iff (n := 11)]
  simp [extractLsb'_extractLsb', ofBool_eq_extractLsb', ushiftRight_eq_zero_iff, and_assoc]

theorem vgrowI_eq_iff (n : BitVec 4) (imm : BitVec 16) :
    0#12 ++ n = imm ↔ imm >>> 5 = 0 ∧ false = imm.getLsbD 4 ∧ n = imm.extractLsb' 0 4 :=
  (show 0#12 = 0#11 ++ BitVec.ofBool false by decide) ▸ growI_eq_iff false n imm

theorem vgrowTryI_eq_iff (n : BitVec 4) (imm : BitVec 16) :
    0#11 ++ 1#1 ++ n = imm ↔ imm >>> 5 = 0 ∧ true = imm.getLsbD 4 ∧ n = imm.extractLsb' 0 4 := growI_eq_iff true n imm

theorem shrinkI_eq_iff (n : BitVec 4) (imm : BitVec 16) :
    0#12 ++ n = imm ↔ imm >>> 4 = 0 ∧ n = imm.extractLsb' 0 4 := by
  rw [append_eq_iff (n := 12)]
  simp [ushiftRight_eq_zero_iff]

theorem barI_eq_iff (id : BitVec 13) (level : BitVec 2) (imm : BitVec 16) :
    id ++ 0#1 ++ level = imm ↔ id = imm.extractLsb' 3 13 ∧ false = imm.getLsbD 2 ∧ level = imm.extractLsb' 0 2 := by
  rw [append_eq_iff (n := 14), append_eq_iff (n := 13)]
  simp [extractLsb'_extractLsb', zero_eq_extractLsb'_one, and_assoc]

/-! ### An instruction's word decodes to it -/

/-- By the form of the instruction: its fields are read back from the word, and the decoder's checks on them hold. -/
theorem decodeScalar_encodeScalar {i : Instr} {w : W32} (hwf : i.wf = true) (h : encodeScalar i = some w) :
    decodeScalar w = .ok i := by
  cases i
  case add | sub | sAnd | sOr | sXor | sAndn | sll | srl | sra | mul | mulh | mulhu | div | divu | rem | remu | sMin | sMax
      | minu | maxu | slt | sltu | sClz | sCtz | sPopc =>
    cases h
    obtain ⟨hk, hw, hz⟩ := (aluF_eq_iff _ _ _).mp rfl
    obtain ⟨imm, off, hu⟩ := decodeScalar_sR _ _ _ _ _
    rw [hu]
    change decodeAlu _ = _
    dsimp only [decodeAlu]
    rw [← hk, ← hw, ← hz]
    rfl
  case addi | andi | ori | xori | slti | sltiu | addhi | ldb | ldbu | ldh | ldhu | ldw | ldwu | ldd | stb | sth | stw | std
      | jalr | beq | bne | blt | bge | bltu | bgeu | lui | addpc | twait =>
    cases h
    obtain ⟨b, f, off, bit, hu⟩ := decodeScalar_sI _ _ _ _
    rw [hu]
    rfl
  case slli w _ _ n | srli w _ _ n | srai w _ _ n =>
    cases h
    obtain ⟨hz, hw, hk, hn⟩ := (shiftI_eq_iff w _ n _).mp rfl
    obtain ⟨b, f, off, bit, hu⟩ := decodeScalar_sI _ _ _ _
    rw [hu]
    change decodeShift _ = _
    dsimp only [decodeShift]
    rw [← hz, ← hw, ← hk, ← hn, show (!(w && n.getLsbD 5)) = true from hwf]
    rfl
  case ldacq | strel =>
    cases h
    obtain ⟨hk, hsc, hw, hz⟩ := (syncF_eq_iff _ _ _ _).mp rfl
    obtain ⟨imm, off, hu⟩ := decodeScalar_sR _ _ _ _ _
    rw [hu]
    change decodeSyncm _ = _
    dsimp only [decodeSyncm]
    rw [← hk, ← hsc, ← hw, ← hz, Scope.ofBits_bits]
    exact (verdict_eq_ok_iff ..).mpr ⟨by simp [req, zero5, Scope.bits_lt], rfl⟩
  case aadd | aand | aor | axor | amin | amax | aminu | amaxu | aswp | acas =>
    cases h
    obtain ⟨hk, hsc, ho, hw, hz⟩ := (amoF_eq_iff _ _ _ _ _).mp rfl
    obtain ⟨imm, off, hu⟩ := decodeScalar_sR _ _ _ _ _
    rw [hu]
    change decodeAmo _ = _
    dsimp only [decodeAmo]
    rw [← hk, ← hsc, ← ho, ← hw, ← hz, Scope.ofBits_bits, Order.ofBits_bits]
    exact (verdict_eq_ok_iff ..).mpr ⟨by simp [req, Scope.bits_lt], rfl⟩
  case phaseEnd | phaseBegin | phaseFull =>
    cases h
    obtain ⟨hk, hsc, hz⟩ := (phaseF_eq_iff _ _ _).mp rfl
    obtain ⟨imm, off, hu⟩ := decodeScalar_sR _ _ _ _ _
    rw [hu]
    change decodePhase _ = _
    dsimp only [decodePhase]
    rw [← hk, ← hsc, ← hz, Scope.ofBits_bits]
    exact (verdict_eq_ok_iff ..).mpr ⟨by simp [req, zero5, Scope.bits_lt], rfl⟩
  case jmp | jal =>
    cases h
    obtain ⟨d, a, b, f, imm, w, hu⟩ := decodeScalar_jumpW _ _
    rw [hu]
    rfl
  case vex cnt loff =>
    cases h
    obtain ⟨d, a, b, f, off, w, hu, hcnt⟩ := decodeScalar_vexW 0x30#6 cnt loff
    rw [hu, ← hcnt]
    rfl
  case vexr | vsync | srqpop | task | agdecl | agdrop | settle | launch =>
    cases h
    obtain ⟨imm, off, hu⟩ := decodeScalar_sR _ _ _ _ _
    rw [hu]
    rfl
  case vgrow n =>
    cases h
    obtain ⟨hz, ht, hn⟩ := (vgrowI_eq_iff n _).mp rfl
    obtain ⟨b, f, off, bit, hu⟩ := decodeScalar_sI 0x34 0 0 (0#12 ++ n)
    rw [hu]
    exact (verdict_eq_ok_iff ..).mpr ⟨by simp only [hz, ← ht]; rfl, by simp only [← ht, ← hn]; rfl⟩
  case vgrowTry d n =>
    cases h
    obtain ⟨hz, ht, hn⟩ := (vgrowTryI_eq_iff n _).mp rfl
    obtain ⟨b, f, off, bit, hu⟩ := decodeScalar_sI 0x34 d 0 (0#11 ++ 1#1 ++ n)
    rw [hu]
    exact (verdict_eq_ok_iff ..).mpr ⟨by simp only [hz, ← ht]; rfl, by simp only [← ht, ← hn]; rfl⟩
  case vshrink n =>
    cases h
    obtain ⟨hz, hn⟩ := (shrinkI_eq_iff n _).mp rfl
    obtain ⟨b, f, off, bit, hu⟩ := decodeScalar_sI 0x35 0 0 (0#12 ++ n)
    rw [hu]
    exact (verdict_eq_ok_iff ..).mpr ⟨by simp [zero5, reqS, req, hz], by rw [← hn]⟩
  case bar level id =>
    cases h
    obtain ⟨hid, hz, hlevel⟩ := (barI_eq_iff id level _).mp rfl
    obtain ⟨b, f, off, bit, hu⟩ := decodeScalar_sI 0x3D 0 0 (id ++ 0#1 ++ level)
    rw [hu]
    exact (verdict_eq_ok_iff ..).mpr ⟨by simp only [zero5, reqS, ← hz]; rfl, by rw [← hid, ← hlevel]⟩
  case mfs d n =>
    cases h
    obtain ⟨hk, hn⟩ := (sysF_eq_iff _ n _).mp rfl
    obtain ⟨imm, off, hu⟩ := decodeScalar_sR _ _ _ _ _
    rw [hu]
    change decodeSys _ = _
    dsimp only [decodeSys]
    rw [← hk, ← hn]
    obtain ⟨hlt, hne⟩ : n < 24#6 ∧ n ≠ 14 := by simpa [mfsReadable] using show mfsReadable n = true from hwf
    exact (verdict_eq_ok_iff ..).mpr ⟨by simp [req, zero5, hlt], if_neg hne⟩
  case trap | mfsTrapinfo | mtsTrapinfo | mtsLbr | mtsFpstat | mtsAllowance | mtsResume | brk | exit | chbind | chfree | yieldTurn | nap
      | extfree =>
    cases h
    obtain ⟨hk, hn⟩ := (sysF_eq_iff _ _ _).mp rfl
    obtain ⟨imm, off, hu⟩ := decodeScalar_sR _ _ _ _ _
    rw [hu]
    change decodeSys _ = _
    dsimp only [decodeSys]
    rw [← hk, ← hn]
    rfl
  case mts a n =>
    cases h
    obtain rfl : n = 9 := by simpa [mtsWritable] using show mtsWritable n = true from hwf
    obtain ⟨hk, hn⟩ := (sysF_eq_iff 1#5 9 _).mp rfl
    obtain ⟨imm, off, hu⟩ := decodeScalar_sR _ _ _ _ _
    rw [hu]
    change decodeSys _ = _
    dsimp only [decodeSys]
    rw [← hk, ← hn]
    rfl
  all_goals cases h  -- no other instruction but SEAL, a keyword that `case` does not take as a name, has a scalar word
  obtain ⟨imm, off, hu⟩ := decodeScalar_sR _ _ _ _ _
  rw [hu]
  rfl

/-! ### A word that decodes is the word of its instruction -/

theorem encodeScalar_of_decodeAlu {w : W32} {i : Instr} (hop : (unpackScalar w).op = 1#6)
    (h : decodeAlu (unpackScalar w) = .ok i) : encodeScalar i = some w := by
  revert h
  fun_cases decodeAlu (unpackScalar w)
  case case26 => simp [verdict_eq_ok_iff]  -- no instruction has the function
  all_goals
    rename_i hk
    replace hk := eq_ofNat_of_toNat_eq hk
    intro h
    obtain ⟨hrs, rfl⟩ := (verdict_eq_ok_iff ..).mp h
    simp only [List.append_eq_nil_iff, zero5, req_eq_nil_iff, beq_iff_eq] at hrs
    apply congrArg some
    simp only [sR_eq_iff, aluF_eq_iff, unpackScalar_w, hop, hk, hrs, BitVec.ofNat_eq_ofNat, and_self]

theorem encodeScalar_of_decodeShift {w : W32} {i : Instr} (hop : (unpackScalar w).op = 8#6)
    (h : decodeShift (unpackScalar w) = .ok i) : encodeScalar i = some w := by
  obtain ⟨hrs, rfl⟩ := (verdict_eq_ok_iff ..).mp h
  simp only [List.append_eq_nil_iff, req_eq_nil_iff, beq_iff_eq, bne_iff_ne] at hrs
  obtain ⟨⟨hz, -⟩, hk⟩ := hrs
  split_ifs with h0 h1
  case neg =>
    have h2 : (unpackScalar w).imm.extractLsb' 6 2 = 2#2 := by bv_omega
    apply congrArg some
    simp only [sI_eq_iff, shiftI_eq_iff, hop, hz, h2, BitVec.ofNat_eq_ofNat, and_self]
  all_goals
    apply congrArg some
    simp only [sI_eq_iff, shiftI_eq_iff, *, BitVec.ofNat_eq_ofNat, and_self]

theorem encodeScalar_of_decodeSyncm {w : W32} {i : Instr} (hop : (unpackScalar w).op = 0x1C#6)
    (h : decodeSyncm (unpackScalar w) = .ok i) : encodeScalar i = some w := by
  simp only [decodeSyncm] at h
  split_ifs at h with h0 h1
  case neg => simp [verdict_eq_ok_iff] at h
  all_goals
    obtain ⟨hrs, rfl⟩ := (verdict_eq_ok_iff ..).mp h
    simp only [List.append_eq_nil_iff, zero5, req_eq_nil_iff, beq_iff_eq, decide_eq_true_eq] at hrs
    obtain ⟨⟨hz, hsc⟩, hreg⟩ := hrs
    apply congrArg some
    simp only [sR_eq_iff, syncF_eq_iff, Scope.bits_ofBits, *, BitVec.ofNat_eq_ofNat, and_self]

theorem encodeScalar_of_decodeAmo {w : W32} {i : Instr} (hop : (unpackScalar w).op = 0x1D#6)
    (h : decodeAmo (unpackScalar w) = .ok i) : encodeScalar i = some w := by
  obtain ⟨hrs, rfl⟩ := (verdict_eq_ok_iff ..).mp h
  simp only [List.append_eq_nil_iff, req_eq_nil_iff, Bool.not_eq_true', decide_eq_true_eq] at hrs
  obtain ⟨⟨hz, hsc⟩, hlt⟩ := hrs
  split_ifs
  case neg =>
    have h9 : (unpackScalar w).f.extractLsb' 7 4 = 9#4 := by bv_omega
    apply congrArg some
    simp only [sR_eq_iff, amoF_eq_iff, Scope.bits_ofBits, Order.bits_ofBits, hop, hsc, hz, h9, BitVec.ofNat_eq_ofNat, and_self]
  all_goals
    apply congrArg some
    simp only [sR_eq_iff, amoF_eq_iff, Scope.bits_ofBits, Order.bits_ofBits, *, BitVec.ofNat_eq_ofNat, and_self]

theorem encodeScalar_of_decodePhase {w : W32} {i : Instr} (hop : (unpackScalar w).op = 0x1E#6)
    (h : decodePhase (unpackScalar w) = .ok i) : encodeScalar i = some w := by
  obtain ⟨hrs, rfl⟩ := (verdict_eq_ok_iff ..).mp h
  simp only [List.append_eq_nil_iff, req_eq_nil_iff, zero5, beq_iff_eq, bne_iff_ne, decide_eq_true_eq] at hrs
  obtain ⟨⟨⟨⟨⟨hd, ha⟩, hb⟩, hz⟩, hsc⟩, hk⟩ := hrs
  split_ifs
  case neg =>
    have h2 : (unpackScalar w).f.extractLsb' 9 2 = 2#2 := by bv_omega
    apply congrArg some
    simp only [sR_eq_iff, phaseF_eq_iff, Scope.bits_ofBits, *, BitVec.ofNat_eq_ofNat, and_self]
  all_goals
    apply congrArg some
    simp only [sR_eq_iff, phaseF_eq_iff, Scope.bits_ofBits, *, BitVec.ofNat_eq_ofNat, and_self]

theorem encodeScalar_of_decodeSys {w : W32} {i : Instr} (hop : (unpackScalar w).op = 0x3E#6)
    (h : decodeSys (unpackScalar w) = .ok i) : encodeScalar i = some w := by
  revert h
  fun_cases decodeSys (unpackScalar w)
  case case11 => simp  -- no instruction has the function
  all_goals
    rename_i n hk
    replace hk := eq_ofNat_of_toNat_eq hk
    have hn : (unpackScalar w).f.extractLsb' 0 6 = n := rfl
    clear_value n
    intro h
    obtain ⟨hrs, rfl⟩ := (verdict_eq_ok_iff ..).mp h
    simp only [List.append_eq_nil_iff, zero5, req_eq_nil_iff, beq_iff_eq] at hrs
  case case1 | case2 =>  -- MFS and MTS: some registers have a row of their own
    split_ifs
    all_goals
      apply congrArg some
      simp only [sR_eq_iff, sysF_eq_iff, *, BitVec.ofNat_eq_ofNat, and_self]
  all_goals
    apply congrArg some
    simp only [sR_eq_iff, sysF_eq_iff, hop, hk, hn, hrs, BitVec.ofNat_eq_ofNat, and_self]

theorem encodeScalar_of_decodeScalar {w : W32} {i : Instr} (h : decodeScalar w = .ok i) : encodeScalar i = some w := by
  rw [decodeScalar] at h
  revert h
  fun_cases decodeScalarFields (unpackScalar w)
  case case50 => simp  -- no instruction has the opcode
  all_goals
    rename_i hop
    replace hop := eq_ofNat_of_toNat_eq hop
    intro h
  case case1 => exact encodeScalar_of_decodeAlu hop h
  case case8 => exact encodeScalar_of_decodeShift hop h
  case case23 => exact encodeScalar_of_decodeSyncm hop h
  case case24 => exact encodeScalar_of_decodeAmo hop h
  case case25 => exact encodeScalar_of_decodePhase hop h
  case case49 => exact encodeScalar_of_decodeSys hop h
  all_goals
    obtain ⟨hrs, rfl⟩ := (verdict_eq_ok_iff ..).mp h
    simp only [List.append_eq_nil_iff, zero5, zeroF, reqS, req_eq_nil_iff, beq_iff_eq] at hrs
  case case39 =>  -- VGROW: bit 4 of the immediate selects TRY
    split_ifs at hrs ⊢ with ht
    · apply congrArg some
      simp only [sI_eq_iff, vgrowTryI_eq_iff, hop, hrs, ht, BitVec.ofNat_eq_ofNat, and_self]
    · simp only [req_eq_nil_iff, beq_iff_eq] at hrs
      apply congrArg some
      simp only [sI_eq_iff, vgrowI_eq_iff, hop, hrs, ht, BitVec.ofNat_eq_ofNat, and_self]
  all_goals
    apply congrArg some
    simp only [sI_eq_iff, sR_eq_iff, jumpW_eq_iff, vexW_eq_iff, shrinkI_eq_iff, barI_eq_iff, hop, hrs, BitVec.ofNat_eq_ofNat, and_self]

/-- Settles O25: each format places its fields apart, so a word is its fields; the checks of the decoder are the conditions
under which the fields that an instruction leaves out are zero. -/
theorem scalarWordsRoundTrip : Obligations.ScalarWordsRoundTrip :=
  ⟨fun _ _ hwf h => decodeScalar_encodeScalar hwf h, fun _ _ h => encodeScalar_of_decodeScalar h⟩

end Sys2Proof
end

section
/-!
PROOFS. The words that the spec works out (03:R67, R68, R73), and a well-formed lane instruction whose word does not decode
(06:R119).
-/

namespace Sys2Proof

open Sys2Proof.Machine

/-- The scalar words of the spec are the words of their instructions. -/
theorem encodeScalar_of_mem_scalarWords :
    ∀ x ∈ Claims.scalarWords, x.2.wf = true ∧ encodeScalar x.2 = some x.1 := by decide

/-- Settles O24: a scalar word decodes because it is its instruction's word (O25); the lane words are decoded one by one. -/
theorem decodeWorkedWords : Obligations.DecodeWorkedWords := by
  refine ⟨fun x hx => ?scalar, ?lane, ⟨1, rfl⟩, ⟨false, 1, rfl⟩⟩
  case scalar =>
    obtain ⟨hwf, henc⟩ := encodeScalar_of_mem_scalarWords x hx
    exact decodeScalar_encodeScalar hwf henc
  case lane => decide

/-- Refutes O26: bit 16 of BSWZ's immediate selector is reserved and the decoder refuses it with reason 2 (06:R119), but
well-formedness admits every selector. BSWZ with the selector 0x10000 is well formed and has a word, which is refused. -/
theorem not_laneWordsRoundTrip : ¬ Obligations.LaneWordsRoundTrip := by
  intro ⟨hdecodes, _⟩
  have hok : decodeLane (Claims.words 0x10000 0 0x02800000) =
      .ok (.single (.bswz ⟨false, 0⟩ (.reg 0) (.reg 0 false) (.reg 0 false) (.imm 0x10000))) :=
    hdecodes _ _ (by decide) (by decide)
  have hrefused : decodeLane (Claims.words 0x10000 0 0x02800000) = .error (false, 2) := by decide
  exact absurd (hrefused.symm.trans hok) nofun

end Sys2Proof
end

section
/-!
PROOFS. The checks of a lane word that stands alone, in the order of 04:R85.
-/

namespace Sys2Proof.Machine

open Sys2Proof

/-! ### What each check says -/

theorem isChan_iff (v : Value) : v.isChan = true ↔ ∃ n peek, v = .chan n peek := by cases v <;> simp [Value.isChan]

theorem missing_eq_some {u : LaneUse} {feat : W64} {b : Nat} (hb : Claims.Needs u b) (hlt : b < 13) (hclear : feat.getLsbD b = false)
    (hlow : ∀ c < b, Claims.Needs u c → feat.getLsbD c = true) : u.missing feat = some b := by
  rw [LaneUse.missing, List.find?_range_eq_some]
  simp only [Bool.and_eq_true, Bool.not_eq_true', List.contains_iff_mem, List.mem_append, List.mem_range]
  refine ⟨⟨hb, hclear⟩, hlt, fun c hc => ?_⟩
  by_cases h : Claims.Needs u c
  · simp [hlow c hc h]
  · simpa [Claims.Needs] using fun hn => absurd hn h

theorem missing_none {u : LaneUse} {s : State} (h : Claims.Featured u s) : u.missing s.ctx.feat = none := by
  simp only [LaneUse.missing, List.find?_eq_none, Bool.and_eq_true, List.contains_iff_mem, List.mem_append, Bool.not_eq_true']
  rintro b - ⟨hb, hclear⟩
  simp [h b hb] at hclear

theorem beyondB_eq_false_iff (u : LaneUse) (s : State) : u.beyondB s.warp.blocks = false ↔ Claims.InFile u s := by
  simp [LaneUse.beyondB, Claims.InFile]

theorem badChannel_eq_false_iff (u : LaneUse) (s : State) : u.badChannel s.warp = false ↔ Claims.Bound u s := by
  simp only [LaneUse.badChannel, Bool.or_eq_false_iff, and_assoc]
  refine and_congr ?srcs ?rest
  case srcs =>
    rw [List.any_eq_false]
    constructor
    · intro h n peek k hx
      simpa using h _ hx
    · rintro h ⟨v, k⟩ hx
      cases v
      case chan n peek => simp [h n peek k hx]
      all_goals simp
  case rest =>
    rw [and_comm]
    refine and_congr ?dst ?chan
    case dst =>
      rcases u.dst with _ | ⟨_ | n, k⟩
      · simp
      · simp
      · simp [or_iff_not_imp_left]
    case chan => cases u.chan <;> simp

theorem emptyTraps_eq_false_iff (u : LaneUse) (s : State) :
    u.reads.any (fun r => r.2 && s.warp.empty.getLsbD r.1) = false ↔ Claims.NoTrapEmpty u s := by
  simp [Claims.NoTrapEmpty]

theorem emptyWaits_eq_false_iff (u : LaneUse) (s : State) :
    u.reads.any (fun r => s.warp.empty.getLsbD r.1) = false ↔ Claims.AllFull u s := by
  simp [Claims.AllFull]

theorem poisoned_sound {w : Warp} {n : Nat} (h : w.poison.getLsbD n = false) (m : Mask) : w.poisoned n m = 0 := by
  simp [Warp.poisoned, h]

theorem noTrapEmpty_of_allFull {u : LaneUse} {s : State} (h : Claims.AllFull u s) : Claims.NoTrapEmpty u s := fun r hr _ => h r hr

theorem bound_of_noChannels {u : LaneUse} (s : State) (h : Claims.NoChannels u) : Claims.Bound u s := by
  obtain ⟨hsrc, hdst, hchan⟩ := h
  exact ⟨fun n peek k hx => absurd hx (hsrc n peek k), fun n k hd => absurd hd (hdst n k), fun n hc => by simp [hchan] at hc⟩

/-! ### What the gate says -/

section
variable {u : LaneUse} {s : State}

theorem gate_missing {b : Nat} (h : u.missing s.ctx.feat = some b) : u.gate s = .trap ⟨0x02, 0, 0, BitVec.ofNat 64 b, 0⟩ := by
  simp [LaneUse.gate, LaneUse.early, h, trapOf, Code.missingFeature]

theorem gate_beyond (hf : Claims.Featured u s) (h : ¬ Claims.InFile u s) : u.gate s = .trap ⟨0x0C, 0, 0, 0, 0⟩ := by
  rw [← beyondB_eq_false_iff, Bool.not_eq_false] at h
  simp [LaneUse.gate, LaneUse.early, missing_none hf, h, trapOf, Code.registerBlock]

theorem gate_unbound (hf : Claims.Featured u s) (hr : Claims.InFile u s) (h : ¬ Claims.Bound u s) :
    u.gate s = .trap ⟨0x0B, 0, 0, 1, 0⟩ := by
  rw [← badChannel_eq_false_iff, Bool.not_eq_false] at h
  rw [← beyondB_eq_false_iff] at hr
  simp [LaneUse.gate, LaneUse.early, missing_none hf, hr, h, trapOf, Code.channelFault]

theorem gate_emptyRead (hf : Claims.Featured u s) (hr : Claims.InFile u s) (hb : Claims.Bound u s) (h : ¬ Claims.NoTrapEmpty u s) :
    u.gate s = .trap ⟨0x03, 0, 0, 0, 0⟩ := by
  rw [← emptyTraps_eq_false_iff, Bool.not_eq_false] at h
  rw [← beyondB_eq_false_iff] at hr
  rw [← badChannel_eq_false_iff] at hb
  simp only [LaneUse.gate, LaneUse.early, missing_none hf, hr, hb, h, trapOf, Code.emptyRead, Bool.false_eq_true, if_false, if_true]

/-- With the checks of steps 2 to 5 passed, what remains are the waits and the traps of performing. -/
theorem gate_of_passed (hf : Claims.Featured u s) (hr : Claims.InFile u s) (hb : Claims.Bound u s) (he : Claims.NoTrapEmpty u s) :
    u.gate s = u.rest s := by
  rw [← beyondB_eq_false_iff] at hr
  rw [← badChannel_eq_false_iff] at hb
  rw [← emptyTraps_eq_false_iff] at he
  simp only [LaneUse.gate, LaneUse.early, missing_none hf, hr, hb, he, Bool.false_eq_true, if_false]

theorem rest_emptyWait (h : ¬ Claims.AllFull u s) : u.rest s = .wait 2 := by
  rw [← emptyWaits_eq_false_iff, Bool.not_eq_false] at h
  simp only [LaneUse.rest, h, if_true]

theorem rest_go (hc : Claims.NoChannels u) (h : Claims.AllFull u s) (hp : Claims.NoPoison u s) (hfill : s.warp.fills = []) :
    u.rest s = .go := by
  obtain ⟨hsrc, hdst, -⟩ := hc
  have hsound : u.reads.find? (fun r => s.warp.poisoned r.1 (s.active u.g) != 0) = none := by
    rw [List.find?_eq_none]
    intro r hr
    simp [poisoned_sound (hp r hr)]
  rw [← emptyWaits_eq_false_iff] at h
  simp only [LaneUse.rest, h, hfill, hsound, List.any_nil, List.any_eq_false.mpr (fun _ _ => Bool.false_ne_true), ite_self,
    Bool.false_eq_true, if_false]
  split
  · rfl
  rw [if_neg ?nothingPopped]
  case nothingPopped =>
    rw [Bool.not_eq_true, List.any_eq_false]
    rintro ⟨v, k⟩ hx
    cases v
    case chan n peek => exact absurd hx (hsrc n peek k)
    all_goals simp
  rcases hd : u.dst with _ | ⟨_ | n, k⟩
  · rfl
  · rfl
  · exact absurd hd (hdst n k)

end

/-! ### A word that its gate stops -/

/-- The state in which a gate leaves a word that may not issue. -/
def State.stopped (s : State) : Gate → Option State
  | .go => none
  | .wait n => some (s.waitLane n)
  | .trap t => some (s.takeTrap true false t)
  | .late t => some (s.takeTrap true false t)

theorem laneRun_stopped {s v : State} {u : LaneUse} {body : State → State} (h : s.stopped (u.gate s) = some v) :
    s.laneRun u .single body = v := by
  cases hg : u.gate s <;> rw [hg] at h
  case go => cases h
  case wait n => exact (laneRun_wait s u body n hg).trans (Option.some.inj h)
  case trap t => exact (laneRun_trap s u body t (.inl hg)).trans (Option.some.inj h)
  case late t => exact (laneRun_trap s u body t (.inr hg)).trans (Option.some.inj h)

theorem laneAccess_stopped {s v : State} {u : LaneUse} {body : LaneArgs → State → Res Unit} (hpark : s.warp.parkL = none)
    (h : s.stopped (u.gate s) = some v) : s.laneAccess u body = v := by
  rw [State.laneAccess, parkedLane_none s hpark]
  cases hg : u.gate s <;> rw [hg] at h
  case go => cases h
  all_goals exact Option.some.inj h

/-- A word with no operand but its guard goes. -/
theorem gate_of_plain (s : State) (g : Guard) : (LaneUse.gate { g := g } s) = .go := by
  have hf : Claims.Featured { g := g } s := fun b hb => by simp [Claims.Needs, LaneUse.operandFeats] at hb
  have hc : Claims.NoChannels { g := g } := ⟨by simp, by simp, rfl⟩
  rw [gate_of_passed hf (by simp [Claims.InFile, LaneUse.named]) (bound_of_noChannels s hc) (by simp [Claims.NoTrapEmpty, LaneUse.reads])]
  simp [LaneUse.rest, LaneUse.reads, LaneUse.writes]

/-- A lane word that stands alone does what its gate says, unless its gate lets it go. -/
theorem exec_stopped {i : Instr} {s v : State} (hi : Claims.LaneSingle i) (hpark : s.warp.parkL = none)
    (h : s.stopped ((Claims.useOf s i).gate s) = some v) : exec i s = .next v := by
  obtain ⟨-, hlane, hx, hy⟩ := hi
  cases i
  -- the accesses
  case ld | ldx | st | push | atom | atomn | laneAcas | disc | pref | append | tailq | lda | find | pick | chwait | ltrap =>
    exact congrArg _ (laneAccess_stopped hpark h)
  -- LBRK, whose gate stops nothing
  case lbrk g => simp [Claims.useOf, Instr.use, gate_of_plain, State.stopped] at h
  -- the instructions that may be halves
  case mov half _ _ | iadd half _ _ _ | isub half _ _ _ | imin half _ _ _ | imax half _ _ _ | laneAnd half _ _ _ | laneOr half _ _ _ |
    laneXor half _ _ _ | shl half _ _ _ | shr half _ _ _ | sar half _ _ _ | sel half _ _ _ _ _ | fadd half _ _ _ _ |
    fmul half _ _ _ _ | fmin half _ _ _ | fmax half _ _ _ =>
    cases half
    case x => exact absurd rfl hx
    case y => exact absurd rfl hy
    case single => exact congrArg _ (laneRun_stopped h)
  -- the others
  case nop | movi | waitf | bswz | iadds | isubs | imul | imulh | imulhu | imad | iminu | imaxu | iabs | ineg | laneAndn | laneNot |
    rol | ror | laneClz | lanePopc | brev | bfx | bfi | idivu | iremu | iaddc | icmp | fcmp | pand | por | pxor | pnot | pmov |
    pget | mset | mrst | mget | mall | mnot | shfl | vote | lred | lscan | lfirst | bcast | cvtif | cvtfi | cvtff | pack | unpk |
    qbpi | fsub | ffma | fabs | fneg | frcp | frsq | fsqrt | fdiv | fexp2 | flog2 | fsin | fcos | ftanh | fclass | fscale | hadd2 |
    hmul2 | hfma2 | hmin2 | hmax2 | fdot8 | chst | rnext | rjump | runi | rdith =>
    exact congrArg _ (laneRun_stopped h)
  -- no other instruction has a lane word
  all_goals exact absurd hlane Bool.false_ne_true

/-! ### The feature bits -/

theorem rangeUse_feats (s : State) (u : LaneUse) (isLda : Bool) (h : SReg) (d : VReg) : (s.rangeUse u isLda h d).feats = u.feats := by
  unfold State.rangeUse
  repeat' split
  all_goals rfl

theorem fmtFeats_lt {fs : List FFmt} {b : Nat} (h : b ∈ fmtFeats fs) : b < 13 := by
  obtain ⟨f, -, hf⟩ := List.mem_flatMap.mp h
  cases f <;> simp at hf <;> omega

theorem operandFeats_lt {u : LaneUse} {b : Nat} (h : b ∈ u.operandFeats) : b < 13 := by
  rw [LaneUse.operandFeats] at h
  split_ifs at h <;> simp at h <;> omega

theorem useFeats_lt (i : Instr) : ∀ b ∈ (Instr.use i).feats, b < 13 := by
  cases i
  case cvtif | cvtfi | cvtff | unpk => exact fun b hb => fmtFeats_lt hb
  case pack rest => cases rest <;> exact fun b hb => fmtFeats_lt hb
  case bswz sel => cases sel <;> exact nofun
  case waitf | qbpi | fdot8 | ldx | push | append | tailq | lda | find | pick | chst | chwait | rnext | rjump | runi | rdith =>
    simp [Instr.use]
  all_goals exact nofun

theorem needs_lt {s : State} {i : Instr} {b : Nat} (h : Claims.Needs (Claims.useOf s i) b) : b < 13 := by
  rcases h with h | h
  · unfold Claims.useOf at h
    split at h
    · rw [rangeUse_feats] at h
      exact useFeats_lt _ b h
    · exact useFeats_lt _ b h
  · exact operandFeats_lt h

end Sys2Proof.Machine

namespace Sys2Proof

open Sys2Proof.Machine

/-- Settles O34: each check says what its word of the statement says, in the gate's order, and a word that the gate stops is left
where the gate says. -/
theorem laneChecksComeInOrder : Obligations.LaneChecksComeInOrder := by
  intro i s hi hpark
  have hstop (g : Gate) (v : State) (hg : (Claims.useOf s i).gate s = g) (hv : s.stopped g = some v) : exec i s = .next v :=
    exec_stopped hi hpark (hg ▸ hv)
  refine ⟨fun b hb hclear hlow => ?missing, fun hf hr => ?beyond, fun hf hr hb => ?channel, fun hf hr hb he => ?emptyTrap,
    fun hf hr hb he hfull => ?emptyWait, fun hf hr hc hfull hp hfill => ?go⟩
  case missing => exact hstop _ _ (gate_missing (missing_eq_some hb (needs_lt hb) hclear hlow)) rfl
  case beyond => exact hstop _ _ (gate_beyond hf hr) rfl
  case channel => exact hstop _ _ (gate_unbound hf hr hb) rfl
  case emptyTrap => exact hstop _ _ (gate_emptyRead hf hr hb he) rfl
  case emptyWait => exact hstop _ _ ((gate_of_passed hf hr hb he).trans (rest_emptyWait hfull)) rfl
  case go =>
    rw [gate_of_passed hf hr (bound_of_noChannels s hc) (noTrapEmpty_of_allFull hfull)]
    exact rest_go hc hfull hp hfill

end Sys2Proof
end

section
/-!
SUPPORT. Entries and bytes of memory, contexts and cores under their numbers, the lines that a recall leaves, and the frame of a
ticket's answer.
-/

namespace Sys2Proof.Store

variable {w : Nat}

/-! ### Entries of a store in canonical form -/

theorem keys_of_wfAbove {m : Store w} {o : Option Nat} (h : wfAbove o m = true) :
    (m.map Prod.fst).Pairwise (· < ·) ∧ ∀ n, o = some n → ∀ a ∈ m.map Prod.fst, n < a := by
  induction m generalizing o with
  | nil => simp
  | cons e rest ih =>
    obtain ⟨k, v⟩ := e
    obtain ⟨hk, -, hr⟩ := (wfAbove_cons _ _ _ _).mp h
    obtain ⟨hrest, habove⟩ := ih hr
    simp only [List.map_cons, List.pairwise_cons, List.mem_cons]
    refine ⟨⟨habove k rfl, hrest⟩, fun n hn a ha => ?_⟩
    rcases ha with rfl | ha
    · exact hk n hn
    · exact (hk n hn).trans (habove k rfl a ha)

theorem keys_nodup {m : Store w} (h : m.wf = true) : (m.map Prod.fst).Nodup :=
  (keys_of_wfAbove h).1.imp Nat.ne_of_lt

theorem get_notin {m : Store w} {a : Nat} (h : ∀ e ∈ m, e.1 ≠ a) : m.get a = 0 := by
  induction m with
  | nil => rfl
  | cons e rest ih =>
    rw [get, if_neg (h e List.mem_cons_self).symm]
    exact ih (fun x hx => h x (List.mem_cons_of_mem e hx))

theorem get_mem {m : Store w} {e : Nat × BitVec w} (h : m.wf = true) (he : e ∈ m) : m.get e.1 = e.2 := by
  have hd := keys_nodup h
  clear h
  induction m with
  | nil => cases he
  | cons x rest ih =>
    simp only [List.map_cons, List.nodup_cons] at hd
    rw [get]
    rcases List.mem_cons.mp he with rfl | hr
    · exact if_pos rfl
    · have hne : e.1 ≠ x.1 := fun heq => hd.1 (heq ▸ List.mem_map_of_mem hr)
      rw [if_neg hne, ih hr hd.2]

end Sys2Proof.Store

namespace Sys2Proof.Machine

open Sys2Proof

/-! ### Bytes and frames of memory -/

theorem toBytes_succ {v : Nat} (n : Nat) (x : BitVec v) : toBytes (n + 1) x = x.truncate 8 :: toBytes n (x >>> 8) := by
  simp [toBytes, List.range_succ_eq_map, Function.comp_def, BitVec.shiftRight_add, Nat.mul_succ, Nat.add_comm]

theorem getLsbD_ofBytes_toBytes {v : Nat} (w n i : Nat) (x : BitVec v) :
    (ofBytes w (toBytes n x)).getLsbD i = (decide (i < w) && decide (i < 8 * n) && x.getLsbD i) := by
  induction n generalizing x i with
  | zero => simp [toBytes, ofBytes]
  | succ n ih =>
    rw [toBytes_succ, ofBytes]
    simp only [BitVec.getLsbD_or, BitVec.getLsbD_setWidth, BitVec.getLsbD_shiftLeft, ih, BitVec.getLsbD_ushiftRight]
    by_cases h8 : i < 8
    · simp [h8, show i < 8 * (n + 1) by omega]
    · rw [show 8 + (i - 8) = i by omega]
      simp only [h8, decide_false, Bool.false_and, Bool.and_false, Bool.false_or, Bool.not_false, Bool.and_true]
      grind

theorem readD_writeD (m : Store 8) (a : Nat) (x : W64) : readD (writeD m a x) a = x := by
  have h := readBytes_writeBytes m a (toBytes 8 x)
  rw [show (toBytes 8 x).length = 8 by simp [toBytes]] at h
  rw [readD, writeD, h]
  apply BitVec.eq_of_getLsbD_eq
  intro i hi
  rw [getLsbD_ofBytes_toBytes]
  simp [hi]

/-- The bytes of a frame stand in the frame to which it has been copied. -/
theorem get_copyFrame {d : Device} (h : d.mem.wf = true) (old new : Nat) {k : Nat} (hk : k < 65536) :
    Store.get (d.copyFrame old new).mem (new + k) = Store.get d.mem (old + k) := by
  have hkeys : ((d.mem.filter (fun e => decide (old ≤ e.1) && decide (e.1 < old + 65536))).map
      (fun e => ((e.1 - old + new, e.2) : Nat × Byte)) |>.map Prod.fst).Nodup := by
    rw [List.map_map]
    have hfst := Store.keys_nodup (Store.wf_filter (fun e => decide (old ≤ e.1) && decide (e.1 < old + 65536)) _ h)
    refine List.Nodup.map_on (fun x hx y hy hxy => ?_) (List.Nodup.of_map _ hfst)
    have hx' : old ≤ x.1 := by have := (List.mem_filter.mp hx).2; simp at this; exact this.1
    have hy' : old ≤ y.1 := by have := (List.mem_filter.mp hy).2; simp at this; exact this.1
    exact List.inj_on_of_nodup_map hfst hx hy (by simp only [Function.comp_apply] at hxy; omega)
  dsimp only [Device.copyFrame]
  by_cases hin : ∃ e ∈ d.mem, e.1 = old + k
  · obtain ⟨e, he, hek⟩ := hin
    rw [← hek, Store.get_mem h he, show new + k = e.1 - old + new by omega]
    refine Store.get_setAll_mem _ _ ((e.1 - old + new, e.2) : Nat × Byte) ?_ hkeys
    exact List.mem_map.mpr ⟨e, List.mem_filter.mpr ⟨he, by simp; omega⟩, rfl⟩
  · rw [Store.get_notin (fun e he hek => hin ⟨e, he, hek⟩), Store.get_setAll_notin, Store.get_notin]
    · intro e he hek
      have := (List.mem_filter.mp he).2
      simp [hek] at this
      omega
    · intro e he hek
      obtain ⟨x, hx, rfl⟩ := List.mem_map.mp he
      obtain ⟨hx, hin'⟩ := List.mem_filter.mp hx
      simp only [Bool.and_eq_true, decide_eq_true_eq] at hin'
      exact hin ⟨x, hx, by dsimp only at hek; omega⟩

/-! ### Contexts under their numbers -/

theorem num_of_ctxOf {s : State} {n : Nat} {c : Context} (h : s.ctxOf n = some c) : c.num = n := by
  unfold State.ctxOf at h
  split at h
  · next hn => exact Option.some.inj h ▸ hn
  · simpa using List.find?_some h

/-- A context put back is found under its number. -/
theorem ctxOf_setCtx {s : State} {n : Nat} {c c' : Context} (h : s.ctxOf n = some c) (hn : c'.num = n) :
    (s.setCtx c').ctxOf n = some c' := by
  subst hn
  unfold State.ctxOf at h
  split at h
  · next hfront => simp [State.ctxOf, State.setCtx, hfront]
  · next hfront =>
    have hp : (fun x : Context => x.num == c'.num) ∘ (fun x => if x.num = c'.num then c' else x) = fun x => x.num == c'.num := by
      funext x
      by_cases hx : x.num = c'.num <;> simp [hx]
    have hid : c.num = c'.num := by simpa using List.find?_some h
    rw [State.ctxOf, State.setCtx]
    simp only [if_neg hfront, List.find?_map, hp, h, Option.map_some, if_pos hid]

theorem ctxOf_append {s : State} {n : Nat} {c : Context} (h : s.ctxOf n = none) (hn : c.num = n) :
    State.ctxOf { s with ctxs := s.ctxs ++ [c] } n = some c := by
  unfold State.ctxOf at h ⊢
  split at h
  · cases h
  · next hfront => simp [hfront, List.find?_append, h, hn]

/-! ### Cores and their lines -/

theorem coreOf_setCore_of_ne {s : State} {c : Core} {n : Nat} (hn : c.id ≠ n) : (s.setCore c).coreOf n = s.coreOf n := by
  unfold State.setCore
  split
  · next hfront => simp [State.coreOf, hfront, hn]
  · split
    · have hp : (fun x : Core => x.id == n) ∘ (fun x => if x.id = c.id then c else x) = fun x => x.id == n := by
        funext x
        by_cases hx : x.id = c.id <;> simp [hx]
      unfold State.coreOf
      split
      · rfl
      · rw [List.find?_map, hp]
        cases hfind : s.cores.find? (fun x => x.id == n) with
        | none => rfl
        | some x =>
          have hid : x.id = n := by simpa using List.find?_some hfind
          simp [hid ▸ hn.symm]
    · simp [State.coreOf, List.find?_append, hn]

theorem coreOf_congr {s t : State} (hc : t.core = s.core) (hcs : t.cores = s.cores) (n : Nat) : t.coreOf n = s.coreOf n := by
  simp [State.coreOf, hc, hcs]

/-- A core that has lines is one of those that have been used. -/
theorem mem_allCores_of_line {s : State} {n : Nat} {l : L1Line} (h : l ∈ (s.coreOf n).l1) : ∃ c ∈ s.allCores, c.id = n := by
  unfold State.coreOf at h
  split at h
  · next hfront => exact ⟨s.core, List.mem_cons_self, hfront⟩
  · cases hfind : s.cores.find? (fun c => c.id == n) with
    | none => simp [hfind, Core.empty] at h
    | some c => exact ⟨c, List.mem_cons_of_mem _ (List.mem_of_find?_eq_some hfind), by simpa using List.find?_some hfind⟩

/-- A core is left with the lines that `keep` admits, as a recall leaves it. -/
def Core.keepLines (keep : L1Line → Bool) (c : Core) : Core := { c with l1 := c.l1.filter keep }
def State.keepLines (keep : L1Line → Bool) (s : State) (c : Core) : State := s.setCore ((s.coreOf c.id).keepLines keep)

theorem l1_keepLines (keep : L1Line → Bool) (s : State) (c : Core) (n : Nat) :
    ((s.keepLines keep c).coreOf n).l1 = if c.id = n then (s.coreOf n).l1.filter keep else (s.coreOf n).l1 := by
  unfold State.keepLines
  have hid : ((s.coreOf c.id).keepLines keep).id = c.id := coreOf_id s c.id
  split
  · next hn =>
    subst hn
    rw [coreOf_setCore hid, Core.keepLines]
  · next hn => rw [coreOf_setCore_of_ne (fun h => hn (hid.symm.trans h))]

/-- Core after core, the lines that `keep` refuses leave. -/
theorem l1_of_foldl_keepLines (keep : L1Line → Bool) (cs : List Core) (s : State)
    (h : ∀ n, ∀ l ∈ (s.coreOf n).l1, keep l = true ∨ ∃ c ∈ cs, c.id = n) :
    ∀ n, ∀ l ∈ ((cs.foldl (State.keepLines keep) s).coreOf n).l1, keep l = true := by
  induction cs generalizing s with
  | nil => exact fun n l hl => (h n l hl).resolve_right (by simp)
  | cons c rest ih =>
    refine ih _ (fun n l hl => ?_)
    rw [l1_keepLines] at hl
    split at hl
    · exact .inl (List.mem_filter.mp hl).2
    · next hn =>
      refine (h n l hl).imp_right (fun ⟨x, hx, hid⟩ => ?_)
      rcases List.mem_cons.mp hx with rfl | hx
      · exact absurd hid hn
      · exact ⟨x, hx, hid⟩

/-- A recall of every copy leaves none of the lines in any L1 (20:R323). -/
theorem noLine_recallLines (s : State) (p : Nat → Bool) (n : Nat) : ∀ l ∈ ((s.recallLines p true).coreOf n).l1, p l.line = false := by
  unfold State.recallLines
  extract_lets gone u v w z
  intro l hl
  have hkeep : (!gone l) = true := l1_of_foldl_keepLines (fun l => !gone l) w.allCores w
    (fun n l hl => .inr (mem_allCores_of_line hl)) n l hl
  simpa [gone] using hkeep

/-! ### Tickets that are answered, not fatally -/

/-- No core differs, and of what the package shares nothing but the launches, which wait for tickets too. -/
def LaunchesOnly (s t : State) : Prop :=
  t.core = s.core ∧ t.cores = s.cores ∧ ∃ ls, t.dev = { s.dev with launches := ls }

theorem launchesOnly_of_dev {s t : State} (hc : t.core = s.core) (hcs : t.cores = s.cores) (hd : t.dev = s.dev) : LaunchesOnly s t :=
  ⟨hc, hcs, s.dev.launches, hd⟩

theorem LaunchesOnly.trans {s t u : State} (h : LaunchesOnly s t) (h' : LaunchesOnly t u) : LaunchesOnly s u := by
  obtain ⟨hc, hcs, ls, hd⟩ := h
  obtain ⟨hc', hcs', ls', hd'⟩ := h'
  exact ⟨hc'.trans hc, hcs'.trans hcs, ls', by rw [hd', hd]⟩

theorem launchesOnly_foldl {α : Type} (f : State → α → State) (hf : ∀ s x, LaunchesOnly s (f s x)) (xs : List α) (s : State) :
    LaunchesOnly s (xs.foldl f s) := by
  induction xs generalizing s with
  | nil => exact launchesOnly_of_dev rfl rfl rfl
  | cons x xs ih => exact (hf s x).trans (ih _)

theorem launchesOnly_onTask (s : State) (k : TeamKey) (seq : BitVec 16) (f : TaskRec → TaskRec) : LaunchesOnly s (s.onTask k seq f) := by
  unfold State.onTask
  split <;> exact launchesOnly_of_dev rfl rfl rfl

theorem launchesOnly_answerOther (s : State) (ticket : W64) : LaunchesOnly s (s.answerOther ticket false) := by
  unfold State.answerOther
  split <;> exact ⟨rfl, rfl, _, rfl⟩

theorem launchesOnly_answerTicket (s : State) (ticket : W64) : LaunchesOnly s (s.answerTicket ticket false) := by
  unfold State.answerTicket
  split
  · exact launchesOnly_of_dev rfl rfl rfl
  · next c r _ =>
    have hset : LaunchesOnly s (s.setCtx { c with tickets := c.tickets.filter (fun x => x.ticket != ticket) }) :=
      launchesOnly_of_dev rfl rfl rfl
    dsimp only
    split
    · exact hset.trans (launchesOnly_of_dev rfl rfl rfl)
    · exact hset.trans (launchesOnly_onTask _ _ _ _)
    · exact hset.trans (launchesOnly_answerOther _ _)

theorem launchesOnly_resolveKind2 (s : State) (cn page : Nat) : LaunchesOnly s (s.resolveKind2 cn page) := by
  unfold State.resolveKind2
  split
  · exact launchesOnly_of_dev rfl rfl rfl
  · exact launchesOnly_foldl _ (fun s (r : TicketRec) => launchesOnly_answerTicket s r.ticket) _ _

end Sys2Proof.Machine
end

section
/-!
PROOFS. Withdrawals of pages: their steps, and what WITHDRAW and TIER_MOVE write (20:R323, R324).
-/

namespace Sys2Proof.Machine

open Sys2Proof

/-- Pages are held no longer, and the accesses that wait for them walk again: nothing else of the package differs. -/
theorem releasePages_frame (s : State) (cn : Nat) (pages : List Nat) :
    LaunchesOnly { s with dev := { s.dev with
      pagesHeld := s.dev.pagesHeld.filter (fun k => !(pages.map (pageKey cn)).contains k) } } (s.releasePages cn pages) :=
  launchesOnly_foldl _ (fun s p => launchesOnly_resolveKind2 s cn p) _ _

theorem pagesHeld_releasePages (s : State) (cn page : Nat) : pageKey cn page ∉ (s.releasePages cn [page]).dev.pagesHeld := by
  obtain ⟨-, -, ls, hd⟩ := releasePages_frame s cn [page]
  simp [hd]

theorem mem_releasePages (s : State) (cn : Nat) (pages : List Nat) : (s.releasePages cn pages).dev.mem = s.dev.mem := by
  obtain ⟨-, -, ls, hd⟩ := releasePages_frame s cn pages
  rw [hd]

theorem coreOf_releasePages (s : State) (cn : Nat) (pages : List Nat) (n : Nat) : (s.releasePages cn pages).coreOf n = s.coreOf n := by
  obtain ⟨hc, hcs, -⟩ := releasePages_frame s cn pages
  exact coreOf_congr hc hcs n

/-! ### The steps of a withdrawal (20:R323) -/

/-- The first step: pages are held, and the packages that live are told to drop them. -/
theorem withdrawal_begins {s : State} {c : Context} {pages : List Nat} {k : Nat} (qs : List (BitVec 12)) (clean : Bool)
    (act : State → State) (haway : ∀ p ∈ pages, s.dev.away c (p * 65536) = false) (hk : k ∈ pages.map (pageKey c.num))
    (hheld : k ∉ s.dev.pagesHeld) :
    (s.withdrawal c pages qs clean act).again = .held ∧ k ∈ (s.withdrawal c pages qs clean act).dev.pagesHeld ∧
      (s.withdrawal c pages qs clean act).dev.mem = s.dev.mem ∧
      ∀ q ∈ qs, q ∉ s.dev.deadPkgs → (k, q) ∈ (s.withdrawal c pages qs clean act).dev.drops ∧
        Out.pageDrop k q ∈ (s.withdrawal c pages qs clean act).dev.outbox := by
  have hnone : pages.find? (fun p => s.dev.away c (p * 65536)) = none := by simpa using haway
  have hall : (!(pages.map (pageKey c.num)).all (fun k => s.dev.pagesHeld.contains k)) = true := by
    rw [Bool.not_eq_true', List.all_eq_false]
    exact ⟨k, hk, by simpa using hheld⟩
  have hnew : k ∈ (pages.map (pageKey c.num)).filter (fun k => !s.dev.pagesHeld.contains k) :=
    List.mem_filter.mpr ⟨hk, by simpa using hheld⟩
  simp only [State.withdrawal, hnone, hall, if_true]
  generalize (pages.map (pageKey c.num)).filter (fun k => !s.dev.pagesHeld.contains k) = new at hnew
  refine ⟨rfl, List.mem_append_right _ hnew, rfl, fun q hq hlive => ?_⟩
  have hdrop : (k, q) ∈ new.flatMap (fun k => (qs.filter (fun q => !s.dev.deadPkgs.contains q)).map (fun q => (k, q))) :=
    List.mem_flatMap.mpr ⟨k, hnew, List.mem_map.mpr ⟨q, List.mem_filter.mpr ⟨hq, by simpa using hlive⟩, rfl⟩⟩
  exact ⟨List.mem_append_right _ hdrop, List.mem_append_right _ (List.mem_map.mpr ⟨_, hdrop, rfl⟩)⟩

/-- The second step: a package has not answered yet. -/
theorem withdrawal_waits {s : State} {c : Context} {pages : List Nat} (qs : List (BitVec 12)) (clean : Bool) (act : State → State)
    (haway : ∀ p ∈ pages, s.dev.away c (p * 65536) = false) (hheld : ∀ p ∈ pages, pageKey c.num p ∈ s.dev.pagesHeld)
    (hopen : ∃ x ∈ s.dev.drops, x.1 ∈ pages.map (pageKey c.num)) :
    s.withdrawal c pages qs clean act = s.comeBack := by
  have hnone : pages.find? (fun p => s.dev.away c (p * 65536)) = none := by simpa using haway
  have hall : (pages.map (pageKey c.num)).all (fun k => s.dev.pagesHeld.contains k) = true := by simpa using hheld
  have hdrops : s.dropsOpen (pages.map (pageKey c.num)) = true := by
    obtain ⟨x, hx, hkey⟩ := hopen
    exact List.any_eq_true.mpr ⟨x, hx, List.contains_iff_mem.mpr hkey⟩
  simp only [State.withdrawal, hnone, hall, hdrops, Bool.not_true, Bool.false_eq_true, if_false, if_true]

/-- The last steps: every package has answered. -/
theorem withdrawal_ends {s : State} {c : Context} {pages : List Nat} (qs : List (BitVec 12)) (clean : Bool) (act : State → State)
    (haway : ∀ p ∈ pages, s.dev.away c (p * 65536) = false) (hheld : ∀ p ∈ pages, pageKey c.num p ∈ s.dev.pagesHeld)
    (hclosed : ∀ p ∈ pages, ∀ x ∈ s.dev.drops, x.1 ≠ pageKey c.num p) :
    s.withdrawal c pages qs clean act = (act (s.recallPages c pages clean)).releasePages c.num pages := by
  have hnone : pages.find? (fun p => s.dev.away c (p * 65536)) = none := by simpa using haway
  have hall : (pages.map (pageKey c.num)).all (fun k => s.dev.pagesHeld.contains k) = true := by simpa using hheld
  have hdrops : s.dropsOpen (pages.map (pageKey c.num)) = false := by
    rw [State.dropsOpen, List.any_eq_false]
    intro x hx hkey
    obtain ⟨p, hp, hpx⟩ := List.mem_map.mp (List.contains_iff_mem.mp hkey)
    exact hclosed p hp x hx hpx.symm
  simp only [State.withdrawal, hnone, hall, hdrops, Bool.not_true, Bool.false_eq_true, if_false]

/-- A command that is the withdrawal of one page goes through its steps. -/
theorem withdraws_of_exec {i : Instr} {s : State} {c : Context} {page : Nat} {qs : List (BitVec 12)} {clean : Bool}
    {act : State → State} {done : State → Prop} (hexec : exec i s = .next (s.withdrawal c [page] qs clean act))
    (haway : s.dev.away c (page * 65536) = false)
    (hdone : done ((act (s.recallPages c [page] clean)).releasePages c.num [page])) :
    Claims.Withdraws i s c.num page qs done := by
  have haway' : ∀ p ∈ [page], s.dev.away c (p * 65536) = false := by simpa using haway
  refine ⟨fun hfree => ⟨_, hexec, withdrawal_begins qs clean act haway' (by simp) hfree⟩, fun hheld hopen => ?waits,
    fun hheld hclosed => ?ends⟩
  case waits =>
    rw [hexec, withdrawal_waits qs clean act haway' (by simpa using hheld) (by simpa using hopen)]
    rfl
  case ends =>
    rw [withdrawal_ends qs clean act haway' (by simpa using hheld) (by simpa using hclosed)] at hexec
    exact ⟨_, hexec, pagesHeld_releasePages _ _ _, hdone⟩

/-! ### What a withdrawal and a tier move write -/

@[simp] theorem unhome_mem (s : State) (page : Nat) : (s.unhome page).dev.mem = s.dev.mem := by
  unfold State.unhome
  dsimp only
  split <;> rfl

theorem coreOf_unhome (s : State) (page n : Nat) : (s.unhome page).coreOf n = s.coreOf n := by
  unfold State.unhome
  dsimp only
  split <;> rfl

/-- Once a page has been recalled no L1 holds a line of it. -/
theorem noLine_recallPages (s : State) (c : Context) (page n : Nat) :
    ∀ l ∈ ((s.recallPages c [page] true).coreOf n).l1, lineIn c.num (page * 65536) 65536 l.line = false :=
  noLine_recallLines s _ n

/-- WITHDRAW of a page that is no part of a 2 MiB page, before and after. -/
theorem exec_withdraw {ctx page place : Nat} {entry : W64} {c : Context} {s : State} (hc : s.ctxOf ctx = some c)
    (hplace : entryPlace s.dev c (page * 65536) = some place)
    (hold : (readD s.dev.mem place).getLsbD 63 = false ∨ (readD s.dev.mem place).getLsbD 61 = false)
    (hnew : entry.getLsbD 61 = false) :
    exec (.withdraw ctx page entry) s =
      .next (s.withdrawal c [page] c.pkgs true (fun u => (u.newEntry place false entry).unhome page)) := by
  have hsmall : ((readD s.dev.mem place).getLsbD 63 && (readD s.dev.mem place).getLsbD 61) = false := by
    rw [Bool.and_eq_false_iff]
    exact hold
  simp only [exec, execWithdraw, hc, hplace, Page.large, hsmall, hnew, Bool.and_false, Bool.or_self, withdrawn, Bool.false_eq_true,
    if_false, List.foldl_cons, List.foldl_nil]

theorem splitPage_small {s : State} {c : Context} {page : Nat} {p : Page} (hp : walkEntry s.dev c (page * 65536) = .page p)
    (hsmall : p.large = false) : s.splitPage c page = s := by
  simp [State.splitPage, hp, hsmall]

/-- TIER_MOVE of a page that is no 2 MiB page, to a frame that its tier has. -/
theorem exec_tierMove {ctx page : Nat} {cxl : Bool} {ppn : BitVec 32} {c : Context} {p : Page} {s : State} (hc : s.ctxOf ctx = some c)
    (haway : s.dev.away c (page * 65536) = false) (hp : walkEntry s.dev c (page * 65536) = .page p) (hsmall : p.large = false)
    (htier : cxl = true → p.cls ≠ 1 ∧ p.cls ≠ 2 ∧ p.cls ≠ 4 ∧ ppn.toNat < s.dev.tierPages) :
    exec (.tierMove ctx page cxl ppn) s =
      .next (s.withdrawal c [page] c.pkgs true (fun s => s.movePage ctx page cxl ppn.toNat)) := by
  have hmay : ¬ (cxl = true ∧ (p.cls = 1 ∨ p.cls = 2 ∨ p.cls = 4 ∨ s.dev.tierPages ≤ ppn.toNat)) := by
    rintro ⟨h, hno⟩
    obtain ⟨h1, h2, h4, hlt⟩ := htier h
    omega
  simp only [exec, execTierMove, hc, haway, hp, if_neg hmay, splitPage_small hp hsmall, Bool.false_eq_true, if_false]

/-- What the move of a page leaves: its entry names the new frame, and the frame holds its bytes. -/
theorem movePage_writes {s u : State} {ctx page ppn : Nat} {cxl : Bool} {c : Context} {q : Page}
    (hu : s.recallRange ctx (page * 65536) 65536 true = u) (hc : u.ctxOf ctx = some c)
    (hq : walkEntry u.dev c (page * 65536) = .page q) (hsmall : q.large = false) (hwf : u.dev.mem.wf = true) :
    readD (s.movePage ctx page cxl ppn).dev.mem q.place = putBits (putBits q.raw 57 57 (if cxl then 1 else 0)) 44 13 ppn ∧
      ∀ k < 65536, (frameAt cxl ppn + k < q.place ∨ q.place + 8 ≤ frameAt cxl ppn + k) →
        Store.get (s.movePage ctx page cxl ppn).dev.mem (frameAt cxl ppn + k) = Store.get u.dev.mem (q.phys 0 + k) := by
  simp only [State.movePage, hu, hc, splitPage_small hq hsmall, hq]
  refine ⟨readD_writeD _ _ _, fun k hk hout => ?_⟩
  rw [writeD, get_writeBytes_out _ _ _ _ (by simpa [toBytes] using hout), get_copyFrame hwf _ _ hk]

end Sys2Proof.Machine
end

section
/-!
PROOFS. The commands of the driver (04:R87; 10:R204; 20:R315 to R328; 21:R339; 22:R365; 24:R383, R391).
-/

namespace Sys2Proof.Machine

open Sys2Proof

/-! ### Contexts come and go (04:R87; 20:R319, R328) -/

theorem serves_iff (s : State) : s.served = true ↔ Claims.Serves s := by
  unfold State.served Claims.Serves
  cases s.dev.boot <;> simp

/-- CONTEXT_CREATE of a number under which a context has been made, or with what it refuses. -/
theorem contextCreate_refuses {ctx : Nat} {mask : W64} {numerics : BitVec 8} {pool : Pools} {frames : List Nat} {samples : W64}
    {s : State} (h : ¬ Claims.Serves s ∨ 65536 ≤ ctx ∨ numerics = 0 ∨ 3 < numerics.toNat ∨
      (∃ c, s.ctxOf ctx = some c ∧ c.numerics ≠ 0)) :
    exec (.contextCreate ctx mask numerics pool frames samples) s = .next (s.send [.handle 0]) := by
  simp only [exec, execContextCreate]
  refine if_pos ?_
  simp only [Bool.or_eq_true, Bool.not_eq_true', ← Bool.not_eq_true, serves_iff, decide_eq_true_eq]
  rcases h with h | h | rfl | h | ⟨c, hc, hmade⟩
  · exact .inl (.inl (.inl h))
  · exact .inl (.inr h)
  · exact .inr (by decide)
  · exact .inr (by simp; omega)
  · exact .inl (.inl (.inr (by simpa [hc, Context.made] using hmade)))

/-- The context that CONTEXT_CREATE makes. -/
def Context.created (ctx : Nat) (mask : W64) (numerics : BitVec 8) (pool : Pools) (frames : List Nat) (samples : W64) : Context :=
  { Context.blank ctx with
    featMask := mask ||| 1, numerics := numerics.toNat, pool := pool.nodes, frames := frames, save := pool.save, samples := samples }

/-- A context takes the place of the blank one of its number, or joins the list. -/
def State.enterCtx (s : State) (c : Context) : State :=
  if (s.ctxOf c.num).isSome then s.setCtx c else { s with ctxs := s.ctxs ++ [c] }

theorem ctxOf_enterCtx (s : State) (c : Context) : (s.enterCtx c).ctxOf c.num = some c := by
  unfold State.enterCtx
  cases h : s.ctxOf c.num with
  | none => exact ctxOf_append h rfl
  | some c' => exact ctxOf_setCtx h rfl

theorem enterCtx_dev (s : State) (c : Context) : (s.enterCtx c).dev = s.dev := by
  unfold State.enterCtx
  split <;> rfl

theorem contextCreate_makes {ctx : Nat} (mask : W64) {numerics : BitVec 8} (pool : Pools) (frames : List Nat) (samples : W64)
    {s : State} (hs : Claims.Serves s) (hctx : ctx < 65536) (hnum : numerics = 1 ∨ numerics = 2 ∨ numerics = 3)
    (hfree : ∀ c, s.ctxOf ctx = some c → c.numerics = 0) :
    let u := s.enterCtx (Context.created ctx mask numerics pool frames samples)
    exec (.contextCreate ctx mask numerics pool frames samples) s = .next (({ u with dev := { u.dev with
      caps := u.dev.caps ++ [(⟨u.dev.nextCap, ctx, 0x3F, none⟩ : Cap)], nextCap := u.dev.nextCap + 1 } } : State).send
        [.handle u.dev.nextCap.toNat]) := by
  refine (if_neg ?_).trans rfl
  simp only [Bool.or_eq_true, not_or, Bool.not_eq_true]
  refine ⟨⟨⟨?served, ?free⟩, ?number⟩, ?limit⟩
  case served => simp [(serves_iff s).mpr hs]
  case free =>
    cases hc : s.ctxOf ctx with
    | none => rfl
    | some c => simp [Context.made, hfree c hc]
  case number => simpa using hctx
  case limit => rcases hnum with rfl | rfl | rfl <;> decide

/-- What CONTEXT_DESTROY leaves, once no launch of the context is pending. -/
theorem dropContext_leaves (s : State) (ctx : Nat) :
    (∀ c, (s.dropContext ctx).ctxOf ctx = some c → c.numerics = 0) ∧ (∀ x ∈ (s.dropContext ctx).dev.caps, x.ctx ≠ ctx) ∧
      ∀ l ∈ (s.dropContext ctx).dev.launches, l.ctx ≠ ctx := by
  unfold State.dropContext
  extract_lets mine page u
  refine ⟨fun c hc => ?_, fun x hx => by simpa using (List.mem_filter.mp hx).2, fun l hl => by simpa using (List.mem_filter.mp hl).2⟩
  simp only [State.ctxOf] at hc
  split at hc
  · split at hc
    · exact Option.some.inj hc ▸ rfl
    · contradiction
  · have hnum := List.find?_some hc
    have hkept := (List.mem_filter.mp (List.mem_of_find?_eq_some hc)).2
    simp only [beq_iff_eq, bne_iff_ne] at hnum hkept
    exact absurd hnum hkept

theorem contextDestroy_drops {ctx : Nat} {c : Context} {s : State} (hc : s.ctxOf ctx = some c) (hmade : c.numerics ≠ 0)
    (hrec : ∀ l ∈ (s.closeContext c).dev.launches, l.ctx = ctx → l.recorded = true) :
    exec (.contextDestroy ctx) s = .next ((s.closeContext c).dropContext ctx) := by
  have hnone : (s.closeContext c).dev.launches.any (fun l => l.ctx == ctx && !l.recorded) = false := by
    rw [List.any_eq_false]
    intro l hl
    simpa using hrec l hl
  simp [exec, execContextDestroy, hc, Context.made, hmade, hnone]

/-! ### Append extents (10:R204) -/

theorem extentCreate_illegal {ctx : Nat} {r0 r1 : W64} {c : Context} {s : State} (hc : s.ctxOf ctx = some c)
    (h : extentLegal c r0 r1 = false) : exec (.extentCreate ctx r0 r1) s = .next (s.send [.handle 0]) := by
  simp [exec, execExtentCreate, hc, h]

/-- The intermediate addresses of the pages of an extent record. -/
def extentIas (c : Context) (r0 r1 : W64) : List Nat :=
  (List.range (bitsOf64 r1 12 0)).map (fun k => iaOf c .w (BitVec.ofNat 64 (r0.toNat + 65536 * k)))

/-- The pages of a new extent are entered, and its record stands. -/
def State.enterExtent (ctx : Nat) (r0 r1 : W64) (ias : List Nat) (s : State) : State :=
  let s := ias.foldl (State.appendPage ctx) s
  match s.ctxOf ctx with
  | none => s
  | some c => (s.setCtx { c with extents := c.extents ++ [⟨r0.toNat, bitsOf64 r1 12 0, 0, 0, false, false, false, false⟩] }).send [.handle 1]

section
variable {ctx : Nat} {r0 r1 : W64} {c : Context} {s : State} (hc : s.ctxOf ctx = some c) (hlegal : extentLegal c r0 r1 = true)
include hc hlegal

theorem extentCreate_missing {ia : Nat} (h : appendMissing s.dev c (extentIas c r0 r1) = some (1, ia)) :
    exec (.extentCreate ctx r0 r1) s = .next (s.parkMessage ctx 1 ia true) := by
  unfold extentIas at h
  simp [exec, execExtentCreate, hc, hlegal, h]

theorem extentCreate_short (h : appendMissing s.dev c (extentIas c r0 r1) = none)
    (hfew : c.hbmFrames.length < framesNeeded s.dev c (extentIas c r0 r1)) :
    exec (.extentCreate ctx r0 r1) s = .next s.comeBack := by
  unfold extentIas at h hfew
  simp [exec, execExtentCreate, hc, hlegal, h, hfew]

/-- With its tables and frames there, and no 2 MiB page to split, an extent is entered by withdrawal. -/
theorem extentCreate_withdraws (h : appendMissing s.dev c (extentIas c r0 r1) = none)
    (hframes : framesNeeded s.dev c (extentIas c r0 r1) ≤ c.hbmFrames.length)
    (hsplit : (presentPages s.dev c (extentIas c r0 r1)).foldl (fun v p => v.splitPage c p) s = s) :
    exec (.extentCreate ctx r0 r1) s = .next (s.withdrawal c (presentPages s.dev c (extentIas c r0 r1)) c.pkgs true
      (State.enterExtent ctx r0 r1 (extentIas c r0 r1))) := by
  unfold extentIas at h hframes hsplit
  simp only [exec, execExtentCreate, hc, hlegal, h, if_neg (Nat.not_lt.mpr hframes), hsplit, Bool.not_true, Bool.false_eq_true, if_false]
  rfl

end

/-! ### Handles, groups and keys (21:R339; 22:R365; 24:R391) -/

/-- The lowest number from 1 to 255 that stands free is the handle of a queue. -/
theorem queueRegister_lowest {ctx h : Nat} {c : Context} {control : W64} {s : State} (hc : s.ctxOf ctx = some c) (h1 : 1 ≤ h)
    (h255 : h ≤ 255) (hfree : ∀ q ∈ c.queues, q.1 ≠ h) (hlow : ∀ k, 1 ≤ k → k < h → ∃ q ∈ c.queues, q.1 = k) :
    exec (.queueRegister ctx control) s = .next ((s.setCtx { c with queues := c.queues ++ [(h, control)] }).send [.handle h]) := by
  have hfind : ((List.range 255).map (· + 1)).find? (fun h => !c.queues.any (fun q => q.1 == h)) = some h := by
    have hrange : (List.range 255).find? ((fun h => !c.queues.any (fun q => q.1 == h)) ∘ (· + 1)) = some (h - 1) := by
      rw [List.find?_range_eq_some]
      refine ⟨by simpa [show h - 1 + 1 = h by omega] using hfree, by simp; omega, fun k hk => ?_⟩
      obtain ⟨q, hq, hqk⟩ := hlow (k + 1) (by omega) (by omega)
      simp only [Function.comp_apply, Bool.not_not, List.any_eq_true, beq_iff_eq]
      exact ⟨q, hq, hqk⟩
    rw [List.find?_map, hrange]
    simp; omega
  simp [exec, execQueueRegister, hc, hfind]

theorem joinPackage_groups (c : Context) (q : BitVec 12) : (c.joinPackage q).groups = c.groups := by
  unfold Context.joinPackage; split <;> rfl
theorem joinPackage_num (c : Context) (q : BitVec 12) : (c.joinPackage q).num = c.num := by
  unfold Context.joinPackage; split <;> rfl
theorem mem_joinPackage (c : Context) (q p : BitVec 12) : p ∈ (c.joinPackage q).pkgs ↔ p ∈ c.pkgs ∨ p = q := by
  unfold Context.joinPackage
  split
  · next h =>
    rw [List.contains_iff_mem] at h
    exact ⟨.inl, fun hp => hp.elim id (· ▸ h)⟩
  · simp

/-- Packages join a context, and nothing else of it changes here. -/
theorem foldl_joinPackage (qs : List (BitVec 12)) (c : Context) :
    (qs.foldl Context.joinPackage c).num = c.num ∧ (qs.foldl Context.joinPackage c).groups = c.groups ∧
      ∀ p, p ∈ (qs.foldl Context.joinPackage c).pkgs ↔ p ∈ c.pkgs ∨ p ∈ qs := by
  induction qs generalizing c with
  | nil => simp
  | cons q rest ih =>
    obtain ⟨hn, hg, hp⟩ := ih (c.joinPackage q)
    refine ⟨hn.trans (joinPackage_num c q), hg.trans (joinPackage_groups c q), fun p => ?_⟩
    rw [List.foldl_cons, hp, mem_joinPackage, List.mem_cons, or_assoc]

/-- The context of a group that has been registered: the packages of the other members take part in it. -/
def Context.withGroup (c : Context) (g : Group) (here : BitVec 12) : Context :=
  ((g.members.map Prod.fst).filter (fun q => q != here)).foldl Context.joinPackage { c with groups := c.groups ++ [g] }

theorem groupRegister_enters {ctx handle : Nat} {record : W64} {c : Context} {g : Group} {s u : State} (hc : s.ctxOf ctx = some c)
    (h1 : 1 ≤ handle) (hmax : handle ≤ 65535) (hfree : c.groupOf handle = none)
    (hread : s.readGroupRecord c handle record = .ok u (some g)) :
    exec (.groupRegister ctx handle record) s = .next ((u.setCtx (c.withGroup g u.dev.pkgNum)).send [.handle handle]) := by
  have hmay : ¬ (handle = 0 ∨ 65535 < handle ∨ (c.groupOf handle).isSome) := by
    rw [hfree]
    simp
    omega
  simp only [exec, execGroupRegister, hc, if_neg hmay, hread]
  rfl

theorem memoryKeyRegister_enters {ctx : Nat} {key : BitVec 32} {base len : W64} {r w : Bool} {c : Context} {s : State}
    (hc : s.ctxOf ctx = some c) (hroom : c.keys.length < Config.keysMax) (hnew : ∀ x ∈ s.allCtxs, ∀ k ∈ x.keys, k.key ≠ key) :
    exec (.memoryKeyRegister ctx key base len r w) s =
      .next ((s.setCtx { c with keys := c.keys ++ [⟨key, base.toNat, len.toNat, r, w⟩] }).send [.handle 1]) := by
  have hmay : ¬ (Config.keysMax ≤ c.keys.length ∨ s.allCtxs.any (fun x => x.keys.any (fun k => k.key == key)) = true) := by
    rintro (h | h)
    · omega
    · obtain ⟨x, hx, h⟩ := List.any_eq_true.mp h
      obtain ⟨k, hk, hkey⟩ := List.any_eq_true.mp h
      exact hnew x hx k hk (by simpa using hkey)
  simp only [exec, execMemoryKeyRegister, hc, if_neg hmay]

end Sys2Proof.Machine

namespace Sys2Proof

open Sys2Proof.Machine

/-- Settles O58: command by command, from what each of them does; WITHDRAW, TIER_MOVE and EXTENT_CREATE are withdrawals of pages
(20:R323), and what they leave is what their last step writes. -/
theorem driverCommandsTakeEffect : Obligations.DriverCommandsTakeEffect := by
  intro ctx s
  refine ⟨fun mask numerics pool frames samples => ⟨contextCreate_refuses, ?create⟩, ?destroy, ?range, ?root, ?withdraw, ?tierMove,
    ?extent, fun c control h hc => queueRegister_lowest hc, ?group, fun c key base len r w hc => memoryKeyRegister_enters hc, ?number⟩
  case create =>
    intro hs hctx hnum hfree
    refine ⟨_, Context.created ctx mask numerics pool frames samples, contextCreate_makes mask pool frames samples hs hctx hnum hfree,
      ctxOf_enterCtx s (Context.created ctx mask numerics pool frames samples), rfl, rfl, rfl, rfl, rfl, rfl, rfl, rfl, rfl, ?_, ?_⟩
    · simp only [State.send_caps, enterCtx_dev]
    · simp only [Claims.Answered, State.send_outbox, enterCtx_dev]
  case destroy =>
    rintro c u hc hmade rfl hrec
    exact ⟨_, contextDestroy_drops hc hmade hrec, dropContext_leaves _ ctx⟩
  case range =>
    intro c k w0 w1 w2 w3 hc
    constructor
    · intro hk hlegal
      simp [exec, execRangeRegisterWrite, hc, hlegal, Nat.not_le.mpr hk]
    · intro h
      have hno : 16 ≤ k ∨ (!(RangeReg.mk w0 w1 w2 w3).legal) = true := by simpa using h
      simp only [exec, execRangeRegisterWrite, hc, if_pos hno]
  case root =>
    intro c root hc
    constructor
    · intro hmul hlt
      have hok : ¬ (root.toNat % 32768 ≠ 0 ∨ 2 ^ 48 ≤ root.toNat) := by omega
      simp only [exec, execPageTableRootWrite, hc, if_neg hok]
    · intro h
      simp only [exec, execPageTableRootWrite, hc, ne_eq, if_pos h]
  case withdraw =>
    intro c page place entry hc haway hplace hold hnew
    obtain rfl := num_of_ctxOf hc
    refine withdraws_of_exec (exec_withdraw hc hplace hold hnew) haway ⟨fun core l hl => ?_, ?_⟩
    · rw [coreOf_releasePages, coreOf_unhome] at hl
      exact noLine_recallPages s c page core l hl
    · rw [mem_releasePages, unhome_mem]
      exact readD_writeD _ _ _
  case tierMove =>
    intro page cxl ppn c p q u hc haway hp hsmall htier hu huc hq hqsmall hwf
    obtain rfl := num_of_ctxOf hc
    refine withdraws_of_exec (exec_tierMove hc haway hp hsmall htier) haway ?_
    simp only [Claims.byteAt, mem_releasePages]
    exact movePage_writes hu.symm huc hq hqsmall hwf
  case extent =>
    intro c c' r0 r1 u hc
    refine ⟨extentCreate_illegal hc, ?_⟩
    intro ias here hlegal (hias : ias = extentIas c r0 r1) hhere
    subst hias hhere
    refine ⟨fun ia => extentCreate_missing hc hlegal, extentCreate_short hc hlegal, ?done, ?begins⟩
    case done =>
      intro hnone hframes hsplit haway hheld hclosed hu huc
      obtain rfl := num_of_ctxOf hc
      rw [extentCreate_withdraws hc hlegal hnone hframes hsplit, withdrawal_ends _ _ _ haway hheld hclosed, State.enterExtent]
      simp only [hu, huc]
    case begins =>
      intro p hp hnone hframes hsplit haway hfree
      obtain rfl := num_of_ctxOf hc
      obtain ⟨hagain, hheld, hmem, -⟩ := withdrawal_begins c.pkgs true (State.enterExtent c.num r0 r1 (extentIas c r0 r1)) haway
        (List.mem_map_of_mem hp) hfree
      exact ⟨_, extentCreate_withdraws hc hlegal hnone hframes hsplit, hagain, hheld, hmem⟩
  case group =>
    intro c handle record u g hc h1 hmax hfree hread
    obtain ⟨hnum, hgroups, hpkgs⟩ := foldl_joinPackage ((g.members.map Prod.fst).filter (fun q => q != u.dev.pkgNum))
      { c with groups := c.groups ++ [g] }
    refine ⟨_, c.withGroup g u.dev.pkgNum, groupRegister_enters hc h1 hmax hfree hread, rfl, fun hu => ⟨?_, hgroups, fun q hq => ?_,
      fun m hm hother => ?_⟩⟩
    · exact ctxOf_setCtx hu (hnum.trans (num_of_ctxOf hc : c.num = ctx))
    · exact (hpkgs q).mpr (.inl hq)
    · exact (hpkgs m.1).mpr (.inr (List.mem_filter.mpr ⟨List.mem_map_of_mem hm, by simpa using hother⟩))
  case number =>
    intro n
    constructor
    · intro hs hnone
      have hmay : (!s.served || s.allCtxs.any Context.made) = false := by
        simpa [(serves_iff s).mpr hs, Context.made] using hnone
      refine ⟨{ s with dev := { s.dev with pkgNum := n } }, ?_, rfl, rfl⟩
      simp only [exec, execPackageNumberAssign, hmay, Bool.false_eq_true, if_false]
    · intro h
      have hno : (!s.served || s.allCtxs.any Context.made) = true := by
        simpa [Context.made, ← serves_iff] using h
      simp only [exec, execPackageNumberAssign, hno, if_true]

end Sys2Proof
end

section
/-!
PROOFS. The scalar register arithmetic and immediates: each of the model's functions of n bits as the rules' arithmetic of naturals and
integers, and the counts of bits (05:R91 to R95).
-/

namespace Sys2Proof.Machine

open Sys2Proof

/-! ### Functions of two words (05:R91, R92) -/

section
variable {n : Nat} (x y : BitVec n)

theorem add_eq_ofNat : x + y = BitVec.ofNat n (x.toNat + y.toNat) := by
  rw [← BitVec.toNat_inj, BitVec.toNat_add, BitVec.toNat_ofNat]
theorem sub_eq_ofInt : x - y = BitVec.ofInt n ((x.toNat : Int) - y.toNat) := by
  rw [Int.sub_eq_add_neg, BitVec.ofInt_add, BitVec.ofInt_natCast, ← BitVec.neg_ofNat_eq_ofInt_neg, BitVec.ofNat_toNat,
    BitVec.ofNat_toNat, BitVec.setWidth_eq, BitVec.setWidth_eq, BitVec.sub_eq_add_neg]
theorem and_eq_ofNat : x &&& y = BitVec.ofNat n (x.toNat &&& y.toNat) := by simp [← BitVec.toNat_and]
theorem or_eq_ofNat : x ||| y = BitVec.ofNat n (x.toNat ||| y.toNat) := by simp [← BitVec.toNat_or]
theorem xor_eq_ofNat : x ^^^ y = BitVec.ofNat n (x.toNat ^^^ y.toNat) := by simp [← BitVec.toNat_xor]
theorem andn_eq_ofNat : x &&& ~~~y = BitVec.ofNat n (x.toNat &&& (2 ^ n - 1 - y.toNat)) := by
  rw [and_eq_ofNat, BitVec.toNat_not]
theorem shiftLeft_eq_ofNat (k : Nat) : x <<< k = BitVec.ofNat n (x.toNat * 2 ^ k) := by
  rw [← Nat.shiftLeft_eq]
  rfl
theorem ushiftRight_eq_ofNat (k : Nat) : x >>> k = BitVec.ofNat n (x.toNat / 2 ^ k) := by
  simp [← Nat.shiftRight_eq_div_pow, ← BitVec.toNat_ushiftRight]
theorem sshiftRight_eq_ofInt (k : Nat) : x.sshiftRight k = BitVec.ofInt n (x.toInt / 2 ^ k) := by
  rw [BitVec.sshiftRight, Int.shiftRight_eq_div_pow]
  norm_cast
theorem mul_eq_ofNat : x * y = BitVec.ofNat n (x.toNat * y.toNat) := by
  rw [← BitVec.toNat_inj, BitVec.toNat_mul, BitVec.toNat_ofNat]

/-- The upper half of the low 2n bits of an integer. -/
theorem extractLsb'_ofInt (i : Int) : (BitVec.ofInt (2 * n) i).extractLsb' n n = BitVec.ofInt n (i / 2 ^ n) := by
  have hpos : (0 : Int) < 2 ^ n := by positivity
  have hhalf : i % (2 ^ n * 2 ^ n) / 2 ^ n % 2 ^ n = i / 2 ^ n % 2 ^ n := by
    rw [Int.emod_def i, Int.sub_eq_add_neg, ← Int.mul_neg, Int.mul_assoc, Int.add_mul_ediv_left _ _ hpos.ne', Int.add_mul_emod_self_left]
  apply BitVec.eq_of_toNat_eq
  zify
  rw [BitVec.extractLsb'_toNat, Nat.shiftRight_eq_div_pow, BitVec.toNat_ofInt, BitVec.toNat_ofInt]
  push_cast
  rw [Int.toNat_of_nonneg (Int.emod_nonneg _ (by positivity)), Int.toNat_of_nonneg (Int.emod_nonneg _ (by positivity)), two_mul, pow_add, hhalf]

theorem mulHigh_eq_ofInt : mulHigh x y = BitVec.ofInt n (x.toInt * y.toInt / 2 ^ n) := by
  rw [mulHigh, BitVec.signExtend, BitVec.signExtend, ← BitVec.ofInt_mul, extractLsb'_ofInt]

theorem mulHighU_eq_ofNat : mulHighU x y = BitVec.ofNat n (x.toNat * y.toNat / 2 ^ n) := by
  have hprod : x.zeroExtend (2 * n) * y.zeroExtend (2 * n) = BitVec.ofInt (2 * n) (x.toNat * y.toNat : Nat) := by
    rw [BitVec.ofInt_natCast, BitVec.ofNat_mul, BitVec.ofNat_toNat, BitVec.ofNat_toNat]
  rw [mulHighU, hprod, extractLsb'_ofInt, ← BitVec.ofInt_natCast]
  norm_cast

/-! Division by zero, and the overflow of the most negative dividend, which wraps. -/

theorem allOnes_eq_ofInt : BitVec.allOnes n = BitVec.ofInt n (-1) := by
  rw [← BitVec.neg_one_eq_allOnes, BitVec.ofInt_neg]
  rfl
theorem divS_eq_ofInt : divS x y = if y.toNat = 0 then BitVec.ofInt n (-1) else BitVec.ofInt n (x.toInt.tdiv y.toInt) := by
  have hdiv : x.sdiv y = BitVec.ofInt n (x.toInt.tdiv y.toInt) :=
    BitVec.eq_of_toInt_eq (by rw [BitVec.toInt_sdiv, BitVec.toInt_ofInt])
  simp only [divS, hdiv, allOnes_eq_ofInt, ← BitVec.toNat_inj, BitVec.toNat_ofNat, Nat.zero_mod]
theorem divU_eq_ofNat : divU x y = if y.toNat = 0 then BitVec.ofInt n (-1) else BitVec.ofNat n (x.toNat / y.toNat) := by
  have hdiv : x / y = BitVec.ofNat n (x.toNat / y.toNat) := by simp [← BitVec.toNat_udiv]
  simp only [divU, hdiv, allOnes_eq_ofInt, ← BitVec.toNat_inj, BitVec.toNat_ofNat, Nat.zero_mod]
theorem remS_eq_ofInt : remS x y = if y.toNat = 0 then x else BitVec.ofInt n (x.toInt.tmod y.toInt) := by
  have hrem : x.srem y = BitVec.ofInt n (x.toInt.tmod y.toInt) := by rw [← BitVec.toInt_srem, BitVec.ofInt_toInt]
  simp only [remS, hrem, ← BitVec.toNat_inj, BitVec.toNat_ofNat, Nat.zero_mod]
theorem remU_eq_ofNat : remU x y = if y.toNat = 0 then x else BitVec.ofNat n (x.toNat % y.toNat) := by
  have hrem : x % y = BitVec.ofNat n (x.toNat % y.toNat) := by simp [← BitVec.toNat_umod]
  simp only [remU, hrem, ← BitVec.toNat_inj, BitVec.toNat_ofNat, Nat.zero_mod]

/-! Comparisons. -/

theorem minS_eq_ofInt : minS x y = BitVec.ofInt n (min x.toInt y.toInt) := by
  simp only [minS, BitVec.slt_iff_toInt_lt]
  split
  · rw [min_eq_right (by omega), BitVec.ofInt_toInt]
  · rw [min_eq_left (by omega), BitVec.ofInt_toInt]
theorem maxS_eq_ofInt : maxS x y = BitVec.ofInt n (max x.toInt y.toInt) := by
  simp only [maxS, BitVec.slt_iff_toInt_lt]
  split
  · rw [max_eq_right (by omega), BitVec.ofInt_toInt]
  · rw [max_eq_left (by omega), BitVec.ofInt_toInt]
theorem minU_eq_ofNat : minU x y = BitVec.ofNat n (min x.toNat y.toNat) := by
  simp only [minU, BitVec.lt_def]
  split
  · rw [min_eq_right (by omega), BitVec.ofNat_toNat, BitVec.setWidth_eq]
  · rw [min_eq_left (by omega), BitVec.ofNat_toNat, BitVec.setWidth_eq]
theorem maxU_eq_ofNat : maxU x y = BitVec.ofNat n (max x.toNat y.toNat) := by
  simp only [maxU, BitVec.lt_def]
  split
  · rw [max_eq_right (by omega), BitVec.ofNat_toNat, BitVec.setWidth_eq]
  · rw [max_eq_left (by omega), BitVec.ofNat_toNat, BitVec.setWidth_eq]
theorem flag_slt : (flag (x.slt y) : BitVec n) = BitVec.ofNat n (if x.toInt < y.toInt then 1 else 0) := by
  simp only [flag, BitVec.slt_iff_toInt_lt]
  split <;> rfl
theorem flag_lt : (flag (decide (x < y)) : BitVec n) = BitVec.ofNat n (if x.toNat < y.toNat then 1 else 0) := by
  simp only [flag, BitVec.lt_def, decide_eq_true_eq]
  split <;> rfl

end

/-! ### Counts of bits (05:R91) -/

section
variable {w : Nat} (x : BitVec w)

theorem leadingZeros_leadZeros : Claims.LeadingZeros w x.toNat (leadZeros x) := by
  unfold leadZeros
  split
  · next h => simp [h, Claims.LeadingZeros]
  · next h =>
    have hne : x.toNat ≠ 0 := fun h0 => h (BitVec.eq_of_toNat_eq h0)
    have hlog : x.toNat.log2 < w := (Nat.log2_lt hne).mpr x.isLt
    have hw : w - (w - 1 - x.toNat.log2) = x.toNat.log2 + 1 := by omega
    refine ⟨by omega, ?_, fun _ => ?_⟩
    · rw [hw]
      exact Nat.lt_log2_self
    · rw [hw]
      exact Nat.log2_self_le hne

/-- The bits below k are zero. -/
theorem two_pow_dvd_iff (m k : Nat) : 2 ^ k ∣ m ↔ ∀ j < k, m.testBit j = false := by
  rw [Nat.dvd_iff_mod_eq_zero]
  constructor
  · intro h j hj
    simpa [hj, Nat.testBit_mod_two_pow] using congrArg (Nat.testBit · j) h
  · intro h
    refine Nat.eq_of_testBit_eq fun j => ?_
    rw [Nat.testBit_mod_two_pow, Nat.zero_testBit]
    by_cases hj : j < k <;> simp [hj, h]

theorem trailingZeros_trailZeros : Claims.TrailingZeros w x.toNat (trailZeros x) := by
  unfold trailZeros
  cases h : (List.range w).find? (fun i => x.getLsbD i) with
  | none =>
    have hzero : ∀ j < w, x.getLsbD j = false := by simpa using h
    exact ⟨Nat.le_refl w, (two_pow_dvd_iff _ _).mpr hzero, fun hlt => absurd hlt (Nat.lt_irrefl w)⟩
  | some k =>
    obtain ⟨hk, hmem, hbelow⟩ := List.find?_range_eq_some.mp h
    have hlow : ∀ j < k, x.getLsbD j = false := by simpa using hbelow
    refine ⟨(List.mem_range.mp hmem).le, (two_pow_dvd_iff _ _).mpr hlow, fun _ hdvd => ?_⟩
    have hclear : x.getLsbD k = false := (two_pow_dvd_iff _ _).mp hdvd k (Nat.lt_succ_self k)
    exact absurd (hk.symm.trans hclear) (by decide)

/-- The ones among the low m bits. -/
theorem foldl_ones (m : Nat) :
    (List.range m).foldl (fun n i => if x.getLsbD i then n + 1 else n) 0 = (Finset.range m).sum (fun k => x.toNat / 2 ^ k % 2) := by
  induction m with
  | zero => rfl
  | succ m ih =>
    rw [List.range_succ, List.foldl_append, ih, Finset.sum_range_succ, List.foldl_cons, List.foldl_nil, BitVec.getLsbD,
      Nat.testBit_eq_decide_div_mod_eq]
    simp only [decide_eq_true_eq]
    split <;> omega

theorem ones_popCount : Claims.Ones w x.toNat (popCount x) := foldl_ones x w

theorem ones_le {m n : Nat} (h : Claims.Ones w m n) : n ≤ w :=
  calc n = (Finset.range w).sum (fun k => m / 2 ^ k % 2) := h
    _ ≤ (Finset.range w).sum (fun _ => 1) := Finset.sum_le_sum fun k _ => by omega
    _ = w := by simp
end

/-! ### Words, and what the register forms write -/

theorem sext64_eq_ofInt (x : W32) : sext64 x = BitVec.ofInt 64 x.toInt := rfl
theorem lo32_eq_ofNat (x : W64) : lo32 x = BitVec.ofNat 32 x.toNat := by rw [BitVec.ofNat_toNat]; rfl
theorem lo32_toNat (x : W64) : (lo32 x).toNat = x.toNat % 2 ^ 32 := BitVec.toNat_setWidth 32 x
theorem sext64_ofNat {n : Nat} (h : n ≤ 32) : sext64 (BitVec.ofNat 32 n) = BitVec.ofNat 64 n := by
  have hint : (BitVec.ofNat 32 n).toInt = n := by
    rw [BitVec.toInt_eq_toNat_of_lt] <;> simp <;> omega
  rw [sext64_eq_ofInt, hint, BitVec.ofInt_natCast]

/-- A register form is the frame of the ALU, with functions that are its `f` on 64 and on 32 bits. -/
theorem exec_aluFn {i : Instr} {w : Bool} {d a b : SReg} {f : ∀ n : Nat, BitVec n → BitVec n → BitVec n} (s : State)
    (h : Claims.aluFn i = some (w, d, a, b, f)) :
    ∃ f64 f32, exec i s = s.alu w d a b f64 f32 ∧ (∀ x y, f64 x y = f 64 x y) ∧ ∀ x y, f32 x y = f 32 x y := by
  revert h
  fun_cases Claims.aluFn i <;> intro h
  case case1 => cases h; exact ⟨_, _, rfl, add_eq_ofNat, add_eq_ofNat⟩  -- ADD
  case case2 => cases h; exact ⟨_, _, rfl, sub_eq_ofInt, sub_eq_ofInt⟩  -- SUB
  case case3 => cases h; exact ⟨_, _, rfl, and_eq_ofNat, and_eq_ofNat⟩  -- AND
  case case4 => cases h; exact ⟨_, _, rfl, or_eq_ofNat, or_eq_ofNat⟩  -- OR
  case case5 => cases h; exact ⟨_, _, rfl, xor_eq_ofNat, xor_eq_ofNat⟩  -- XOR
  case case6 => cases h; exact ⟨fun x y => x &&& ~~~y, fun x y => x &&& ~~~y, rfl, andn_eq_ofNat, andn_eq_ofNat⟩  -- ANDN
  case case7 =>  -- SLL
    cases h
    exact ⟨fun x y => x <<< amt64 y, fun x y => x <<< amt32 y, rfl, fun x _ => shiftLeft_eq_ofNat x _, fun x _ => shiftLeft_eq_ofNat x _⟩
  case case8 =>  -- SRL
    cases h
    exact ⟨fun x y => x >>> amt64 y, fun x y => x >>> amt32 y, rfl,
      fun x _ => ushiftRight_eq_ofNat x _, fun x _ => ushiftRight_eq_ofNat x _⟩
  case case9 =>  -- SRA
    cases h
    exact ⟨fun x y => x.sshiftRight (amt64 y), fun x y => x.sshiftRight (amt32 y), rfl,
      fun x _ => sshiftRight_eq_ofInt x _, fun x _ => sshiftRight_eq_ofInt x _⟩
  case case10 => cases h; exact ⟨_, _, rfl, mul_eq_ofNat, mul_eq_ofNat⟩  -- MUL
  case case11 => cases h; exact ⟨_, _, rfl, mulHigh_eq_ofInt, mulHigh_eq_ofInt⟩  -- MULH
  case case12 => cases h; exact ⟨_, _, rfl, mulHighU_eq_ofNat, mulHighU_eq_ofNat⟩  -- MULHU
  case case13 => cases h; exact ⟨_, _, rfl, divS_eq_ofInt, divS_eq_ofInt⟩  -- DIV
  case case14 => cases h; exact ⟨_, _, rfl, divU_eq_ofNat, divU_eq_ofNat⟩  -- DIVU
  case case15 => cases h; exact ⟨_, _, rfl, remS_eq_ofInt, remS_eq_ofInt⟩  -- REM
  case case16 => cases h; exact ⟨_, _, rfl, remU_eq_ofNat, remU_eq_ofNat⟩  -- REMU
  case case17 => cases h; exact ⟨_, _, rfl, minS_eq_ofInt, minS_eq_ofInt⟩  -- MIN
  case case18 => cases h; exact ⟨_, _, rfl, maxS_eq_ofInt, maxS_eq_ofInt⟩  -- MAX
  case case19 => cases h; exact ⟨_, _, rfl, minU_eq_ofNat, minU_eq_ofNat⟩  -- MINU
  case case20 => cases h; exact ⟨_, _, rfl, maxU_eq_ofNat, maxU_eq_ofNat⟩  -- MAXU
  case case21 => cases h; exact ⟨fun x y => flag (x.slt y), fun x y => flag (x.slt y), rfl, flag_slt, flag_slt⟩  -- SLT
  case case22 =>  -- SLTU
    cases h
    exact ⟨fun x y => flag (decide (x < y)), fun x y => flag (decide (x < y)), rfl, flag_lt, flag_lt⟩
  case case23 => exact nomatch h  -- no register form

/-- What the frame of the ALU writes. -/
theorem alu_next {f64 : W64 → W64 → W64} {f32 : W32 → W32 → W32} {f : ∀ n : Nat, BitVec n → BitVec n → BitVec n} (s : State) (w : Bool)
    (d a b : SReg) (h64 : ∀ x y, f64 x y = f 64 x y) (h32 : ∀ x y, f32 x y = f 32 x y) :
    s.alu w d a b f64 f32 = .next ((s.writeS d (if w then BitVec.ofInt 64 (f 32 (lo32 (s.S a)) (lo32 (s.S b))).toInt
      else f 64 (s.S a) (s.S b))).retire) := by
  rw [State.alu, h64, h32, sext64_eq_ofInt]

/-- Settles O1: the model's functions are the rules' arithmetic, and the forms share one write and one frame. -/
theorem registerArithmeticWritesItsValue : Obligations.RegisterArithmeticWritesItsValue := by
  intro i w d a b f s h
  obtain ⟨f64, f32, hexec, h64, h32⟩ := exec_aluFn s h
  exact ⟨_, hexec.trans (alu_next s w d a b h64 h32),
    scalarOnly_writeS_retire s d _ 1, retire_writeS_spc s d _ 1, wrote_writeS_retire s d _ 1⟩

/-- A count of at most n in n bits, which 32 bits sign-extended hold as 64 do. -/
theorem alu1_of_count {count : ∀ {n : Nat}, BitVec n → Nat} {P : Nat → Nat → Nat → Prop} (s : State) (w : Bool) (d a : SReg)
    (hcount : ∀ {n : Nat} (x : BitVec n), P n x.toNat (count x)) (hle : ∀ {n m k : Nat}, P n m k → k ≤ n) :
    ∃ n, s.alu1 w d a (fun x => BitVec.ofNat 64 (count x)) (fun x => BitVec.ofNat 32 (count x)) =
        .next ((s.writeS d (BitVec.ofNat 64 n)).retire) ∧
      (if w then P 32 ((s.S a).toNat % 2 ^ 32) n else P 64 (s.S a).toNat n) := by
  cases w
  case false => exact ⟨_, rfl, hcount (s.S a)⟩
  case true =>
    have hlo := hcount (lo32 (s.S a))
    refine ⟨_, ?_, lo32_toNat (s.S a) ▸ hlo⟩
    rw [State.alu1, if_pos rfl, sext64_ofNat (hle hlo)]

/-- CLZ, CTZ and POPC write the count that they name. -/
theorem exec_countOf {i : Instr} {w : Bool} {d a : SReg} {P : Nat → Nat → Nat → Prop} (s : State)
    (h : Claims.countOf i = some (w, d, a, P)) :
    ∃ n, exec i s = .next ((s.writeS d (BitVec.ofNat 64 n)).retire) ∧
      (if w then P 32 ((s.S a).toNat % 2 ^ 32) n else P 64 (s.S a).toNat n) := by
  revert h
  fun_cases Claims.countOf i <;> intro h
  case case1 => cases h; exact alu1_of_count s w d a leadingZeros_leadZeros And.left  -- CLZ
  case case2 => cases h; exact alu1_of_count s w d a trailingZeros_trailZeros And.left  -- CTZ
  case case3 => cases h; exact alu1_of_count s w d a ones_popCount ones_le  -- POPC
  case case4 => exact nomatch h  -- no count

/-- Settles O2: each count has the property that defines it. -/
theorem bitCountsCountTheBits : Obligations.BitCountsCountTheBits := by
  intro i w d a P s h
  obtain ⟨n, hexec, hcount⟩ := exec_countOf s h
  exact ⟨_, n, hexec, scalarOnly_writeS_retire s d _ 1, retire_writeS_spc s d _ 1, hcount, wrote_writeS_retire s d _ 1⟩

/-! ### Immediates (05:R93 to R95) -/

/-- The sum of a register and a sign-extended immediate. -/
theorem add_signExtend {m : Nat} (x : W64) (i : BitVec m) : x + i.signExtend 64 = BitVec.ofInt 64 (x.toInt + i.toInt) := by
  rw [BitVec.ofInt_add, BitVec.ofInt_toInt]
  rfl
theorem zimm_eq_ofNat (i : BitVec 16) : zimm i = BitVec.ofNat 64 i.toNat := (BitVec.ofNat_toNat 64 i).symm
theorem simm_toInt (i : BitVec 16) : (simm i).toInt = i.toInt := BitVec.toInt_signExtend_of_le (by decide)
theorem ofInt_shiftLeft (n : Nat) (i : Int) (k : Nat) : BitVec.ofInt n i <<< k = BitVec.ofInt n (i * 2 ^ k) := by
  have hpow : BitVec.twoPow n k = BitVec.ofInt n (2 ^ k) := by
    rw [show (2 ^ k : Int) = ((2 ^ k : Nat) : Int) by norm_cast, BitVec.ofInt_natCast]
    exact BitVec.eq_of_toNat_eq (by rw [BitVec.toNat_twoPow, BitVec.toNat_ofNat])
  rw [BitVec.shiftLeft_eq_mul_twoPow, BitVec.ofInt_mul, hpow]
theorem simm_shiftLeft (i : BitVec 16) (k : Nat) : simm i <<< k = BitVec.ofInt 64 (i.toInt * 2 ^ k) := ofInt_shiftLeft 64 i.toInt k

theorem flag_slti (x : W64) (i : BitVec 16) : (flag (x.slt (simm i)) : W64) = if x.toInt < i.toInt then 1 else 0 := by
  rw [flag_slt, simm_toInt, apply_ite (BitVec.ofNat 64)]
  rfl
theorem flag_sltiu (x : W64) (i : BitVec 16) :
    (flag (decide (x < simm i)) : W64) = if x.toNat < (BitVec.ofInt 64 i.toInt).toNat then 1 else 0 := by
  rw [flag_lt, apply_ite (BitVec.ofNat 64)]
  rfl

theorem lo32_shiftLeft (x : W64) (k : Nat) : lo32 x <<< k = BitVec.ofNat 32 (x.toNat * 2 ^ k) := by
  rw [shiftLeft_eq_ofNat, lo32_toNat]
  exact BitVec.eq_of_toNat_eq (by simp [Nat.mul_mod])
theorem sext64_sshiftRight (x : W64) (k : Nat) :
    sext64 ((lo32 x).sshiftRight k) = BitVec.ofInt 64 ((BitVec.ofNat 32 x.toNat).toInt / 2 ^ k) := by
  rw [sext64_eq_ofInt, BitVec.toInt_sshiftRight, Int.shiftRight_eq_div_pow, lo32_eq_ofNat]
  norm_cast

/-- An immediate form writes its value. -/
theorem exec_immValue {i : Instr} {d : SReg} {x : W64} (s : State) (h : Claims.immValue s i = some (d, x)) :
    exec i s = .next ((s.writeS d x).retire) := by
  have hput {v : W64} (hv : v = x) : s.put d v = .next ((s.writeS d x).retire) := by rw [State.put, hv]
  revert h
  fun_cases Claims.immValue s i <;> intro h
  case case1 => cases h; exact hput (add_signExtend _ _)  -- ADDI
  case case2 => cases h; exact hput rfl  -- ANDI
  case case3 => cases h; exact hput (by rw [zimm_eq_ofNat])  -- ORI
  case case4 => cases h; exact hput (by rw [zimm_eq_ofNat])  -- XORI
  case case5 => cases h; exact hput (flag_slti _ _)  -- SLTI
  case case6 => cases h; exact hput (flag_sltiu _ _)  -- SLTIU
  case case7 => cases h; exact hput (shiftLeft_eq_ofNat _ _)  -- SLLI
  case case8 => cases h; exact hput (ushiftRight_eq_ofNat _ _)  -- SRLI
  case case9 => cases h; exact hput (sshiftRight_eq_ofInt _ _)  -- SRAI
  case case10 => cases h; exact hput (congrArg sext64 (lo32_shiftLeft _ _))  -- SLLI.W
  case case11 => cases h; exact hput (congrArg sext64 ((ushiftRight_eq_ofNat _ _).trans (by rw [lo32_toNat])))  -- SRLI.W
  case case12 => cases h; exact hput (sext64_sshiftRight _ _)  -- SRAI.W
  case case13 => cases h; exact hput (simm_shiftLeft _ 16)  -- LUI
  case case14 => cases h; exact hput (by rw [simm_shiftLeft, BitVec.ofInt_add, BitVec.ofInt_toInt])  -- ADDHI
  case case15 => cases h; exact hput (by rw [simm_shiftLeft, BitVec.ofInt_add, BitVec.ofInt_toInt]; rfl)  -- ADDPC
  case case16 => exact nomatch h  -- no immediate form

/-- Settles O3: no immediate form needs more than its operands; what the encoding excludes makes no difference to the value. -/
theorem immediateFormsWriteTheirValue : Obligations.ImmediateFormsWriteTheirValue := by
  intro i d x s _ h
  exact ⟨_, exec_immValue s h, scalarOnly_writeS_retire s d _ 1, retire_writeS_spc s d _ 1, wrote_writeS_retire s d _ 1⟩

end Sys2Proof.Machine
end

section
/-!
PROOFS. Branches and jumps (05:R96 to R98).
-/

namespace Sys2Proof.Machine

open Sys2Proof

/-- SPC + 4 + 4 × offset. -/
theorem branchTarget_eq {m : Nat} (pc : W64) (off : BitVec m) :
    pc + 4 + (off.signExtend 64 <<< 2) = BitVec.ofInt 64 (pc.toInt + 4 + 4 * off.toInt) := by
  rw [BitVec.signExtend, ofInt_shiftLeft, Int.mul_comm off.toInt, BitVec.ofInt_add, BitVec.ofInt_add, BitVec.ofInt_toInt]
  rfl

/-- A branch whose condition decides `c` goes to its target if `c` holds, and on otherwise. -/
theorem branch_goes {c : Prop} {b : Bool} {m : Nat} (s : State) (off : BitVec m) (hb : b = true ↔ c) :
    ∃ t, s.branch b (off.signExtend 64) = .next t ∧ Claims.ScalarOnly s t ∧
      (c → t.warp.spc = BitVec.ofInt 64 (s.warp.spc.toInt + 4 + 4 * off.toInt)) ∧ (¬ c → t.warp.spc = s.warp.spc + 4) ∧
      ∀ r : SReg, t.S r = s.S r := by
  refine ⟨_, rfl, scalarOnly_retireTo s _ 1, fun hc => ?_, fun hc => ?_, fun _ => rfl⟩
  · rw [← branchTarget_eq]
    exact if_pos (hb.mpr hc)
  · exact if_neg (mt hb.mp hc)

/-- JAL leaves the return address in s31. -/
theorem jal_goes (s : State) (off : BitVec 26) :
    ∃ t, exec (.jal off) s = .next t ∧ Claims.ScalarOnly s t ∧
      t.warp.spc = BitVec.ofInt 64 (s.warp.spc.toInt + 4 + 4 * off.toInt) ∧ Claims.Wrote s t 31 (s.warp.spc + 4) := by
  refine ⟨_, rfl, ⟨rfl, fun _ => rfl⟩, ?_, fun r => S_writeS s 31 r _⟩
  rw [← branchTarget_eq]
  rfl

/-- A branch or a jump goes where its condition says. -/
theorem exec_branchOf {i : Instr} {c : Prop} {off : Int} {link : Bool} (s : State) (h : Claims.branchOf s i = some (c, off, link)) :
    ∃ t, exec i s = .next t ∧ Claims.ScalarOnly s t ∧
      (c → t.warp.spc = BitVec.ofInt 64 (s.warp.spc.toInt + 4 + 4 * off)) ∧ (¬ c → t.warp.spc = s.warp.spc + 4) ∧
      (if link then Claims.Wrote s t 31 (s.warp.spc + 4) else ∀ r : SReg, t.S r = s.S r) := by
  revert h
  fun_cases Claims.branchOf s i <;> intro h
  case case1 => cases h; exact branch_goes s _ beq_iff_eq  -- BEQ
  case case2 => cases h; exact branch_goes s _ bne_iff_ne  -- BNE
  case case3 => cases h; exact branch_goes s _ BitVec.slt_iff_toInt_lt  -- BLT
  case case4 => cases h; exact branch_goes s _ (by rw [Bool.not_eq_true', ← Bool.not_eq_true, BitVec.slt_iff_toInt_lt, Int.not_lt])  -- BGE
  case case5 => cases h; exact branch_goes s _ decide_eq_true_iff  -- BLTU
  case case6 => cases h; exact branch_goes s _ (by rw [Bool.not_eq_true', decide_eq_false_iff_not, BitVec.lt_def, Nat.not_lt])  -- BGEU
  case case7 => cases h; exact branch_goes s _ (iff_of_true rfl trivial)  -- JMP
  case case8 off =>  -- JAL
    cases h
    obtain ⟨t, hexec, honly, hspc, hlink⟩ := jal_goes s off
    exact ⟨t, hexec, honly, fun _ => hspc, fun hc => absurd trivial hc, hlink⟩
  case case9 => exact nomatch h  -- no transfer

/-- A register write and a transfer change nothing but what `ScalarOnly` names. -/
theorem scalarOnly_writeS_retireTo (s : State) (d : SReg) (x pc : W64) : Claims.ScalarOnly s ((s.writeS d x).retireTo pc) := by
  by_cases hd : d = 0 <;> simp only [State.writeS, hd, if_true, if_false] <;> exact ⟨rfl, fun _ => rfl⟩

/-- Settles O4: every branch is one decided transfer, and JALR reads its target before it writes. -/
theorem branchesAndJumpsGoToTheirTarget : Obligations.BranchesAndJumpsGoToTheirTarget := by
  refine ⟨fun i c off link s h => exec_branchOf s h, fun d a imm s target htarget => ?jalr⟩
  rw [← add_signExtend] at htarget
  subst htarget
  refine ⟨fun haligned => ?goes, fun hmisaligned => if_pos hmisaligned⟩
  case goes => exact ⟨_, if_neg (not_not.mpr haligned), scalarOnly_writeS_retireTo s d _ _, rfl, fun r => S_writeS s d r _⟩

end Sys2Proof.Machine
end

section
/-!
PROOFS. Scalar accesses: their checks at issue, and loads from and stores to the scratchpad (05:R101, R102, R113; 17:R305).
-/

namespace Sys2Proof.Machine

open Sys2Proof

/-! ### Bytes as numbers (00:R5) -/

theorem leNat_lt (bs : List Byte) : Claims.leNat bs < 2 ^ (8 * bs.length) := by
  induction bs with
  | nil => exact Nat.one_pos
  | cons b rest ih =>
    have hb := b.isLt
    rw [Claims.leNat, List.length_cons, Nat.mul_succ, pow_add]
    omega

/-- A word from bytes is the number that they spell, as far as the word reaches. -/
theorem ofBytes_eq_ofNat (w : Nat) (bs : List Byte) : ofBytes w bs = BitVec.ofNat w (Claims.leNat bs) := by
  induction bs with
  | nil => rfl
  | cons b rest ih =>
    have hor : b.toNat ||| Claims.leNat rest <<< 8 = b.toNat + 256 * Claims.leNat rest := by
      rw [Nat.or_comm, ← Nat.shiftLeft_add_eq_or_of_lt b.isLt, Nat.shiftLeft_eq]
      omega
    have hlow : BitVec.ofNat w b.toNat = b.zeroExtend w := BitVec.ofNat_toNat w b
    have hhigh : BitVec.ofNat w (Claims.leNat rest <<< 8) = BitVec.ofNat w (Claims.leNat rest) <<< 8 := by
      rw [shiftLeft_eq_ofNat, Nat.shiftLeft_eq]
      exact BitVec.eq_of_toNat_eq (by simp [Nat.mul_mod])
    rw [ofBytes, Claims.leNat, ih, ← hor, BitVec.ofNat_or, hlow, hhigh]

theorem extZ_eq_extended (bs : List Byte) : extZ bs = Claims.extended false bs := by
  rw [extZ, ofBytes_eq_ofNat, Claims.extended, if_neg (by simp)]

theorem extS_eq_extended (bs : List Byte) : extS (8 * bs.length) bs = Claims.extended true bs := by
  have hlt := leNat_lt bs
  have hnat : (BitVec.ofNat (8 * bs.length) (Claims.leNat bs)).toNat = Claims.leNat bs := by
    rw [BitVec.toNat_ofNat, Nat.mod_eq_of_lt hlt]
  rw [extS, ofBytes_eq_ofNat, BitVec.signExtend, BitVec.toInt_eq_toNat_cond, hnat, Claims.extended]
  by_cases hsign : 2 * Claims.leNat bs < 2 ^ (8 * bs.length)
  · rw [if_pos hsign, if_neg (by omega), BitVec.ofInt_natCast]
  · rw [if_neg hsign, if_pos ⟨rfl, by omega⟩]
    norm_cast

theorem regByte_eq (x : W64) (k : Nat) : ((x >>> (8 * k)).truncate 8 : Byte) = Claims.regByte x k := by
  refine BitVec.eq_of_toNat_eq ?_
  rw [Claims.regByte, BitVec.truncate_eq_setWidth, BitVec.toNat_setWidth, BitVec.toNat_ushiftRight, Nat.shiftRight_eq_div_pow,
    BitVec.toNat_ofNat, show 256 ^ k = 2 ^ (8 * k) by rw [pow_mul]; norm_num]
theorem toBytes_eq_regBytes (n : Nat) (x : W64) : toBytes n x = (List.range n).map (Claims.regByte x) :=
  List.map_congr_left fun k _ => regByte_eq x k
theorem length_toBytes {w : Nat} (n : Nat) (x : BitVec w) : (toBytes n x).length = n := by simp [toBytes]

/-! ### What the loads and the stores share -/

/-- A load is `loadS` with an extension that is its own on n bytes. -/
theorem exec_loadOf {i : Instr} {n : Nat} {sx : Bool} {d a : SReg} {imm : BitVec 16} (s : State)
    (h : Claims.loadOf i = some (n, sx, d, a, imm)) :
    ∃ ext, exec i s = s.loadS n ext d a imm ∧ ∀ bs : List Byte, bs.length = n → ext bs = Claims.extended sx bs := by
  have hs (m : Nat) (bs : List Byte) (hlen : bs.length = m) : extS (8 * m) bs = Claims.extended true bs := hlen ▸ extS_eq_extended bs
  revert h
  fun_cases Claims.loadOf i <;> intro h
  case case1 => cases h; exact ⟨_, rfl, hs 1⟩  -- LDB
  case case2 => cases h; exact ⟨_, rfl, fun bs _ => extZ_eq_extended bs⟩  -- LDBU
  case case3 => cases h; exact ⟨_, rfl, hs 2⟩  -- LDH
  case case4 => cases h; exact ⟨_, rfl, fun bs _ => extZ_eq_extended bs⟩  -- LDHU
  case case5 => cases h; exact ⟨_, rfl, hs 4⟩  -- LDW
  case case6 => cases h; exact ⟨_, rfl, fun bs _ => extZ_eq_extended bs⟩  -- LDWU
  case case7 => cases h; exact ⟨_, rfl, fun bs _ => extZ_eq_extended bs⟩  -- LDD
  case case8 => exact nomatch h  -- no load

theorem exec_storeOf {i : Instr} {n : Nat} {d a : SReg} {imm : BitVec 16} (s : State) (h : Claims.storeOf i = some (n, d, a, imm)) :
    exec i s = s.storeS n d a imm := by
  revert h
  fun_cases Claims.storeOf i <;> intro h
  case case5 => exact nomatch h  -- no store
  all_goals cases h; rfl

/-- A load that nothing stands before is its checks at issue, then its bytes. -/
theorem loadS_free {s : State} (n : Nat) (ext : List Byte → W64) (d a : SReg) (imm : BitVec 16) (hpark : s.warp.parkS = none) :
    s.loadS n ext d a imm = finish ((s.issueScalar [.r] true n n (Claims.addrOf s a imm)).bind
      (fun s' _ => (s'.scalarLoad n (Claims.addrOf s a imm)).bind (fun s bs => s.give d (ext bs)))) := by
  rw [State.loadS, scalarRun_free _ _ hpark, add_signExtend]
  rfl

theorem storeS_free {s : State} (n : Nat) (d a : SReg) (imm : BitVec 16) (hpark : s.warp.parkS = none) :
    s.storeS n d a imm = finish ((s.issueScalar [.w] true n n (Claims.addrOf s a imm)).bind
      (fun s' _ => s'.scalarStore (Claims.addrOf s a imm) (toBytes n (s'.S d)))) := by
  rw [State.storeS, scalarRun_free _ _ hpark, add_signExtend]
  rfl

/-! ### The checks at issue -/

/-- An access whose checks have passed differs from before in a stall counter and in the address that it keeps. -/
theorem issued_eq (s : State) (p : Perm) (a : W64) : ∃ stalls ia,
    Claims.issued s p a = { s with warp := { s.warp with stalls := stalls, scalIa := ia } } := by
  unfold Claims.issued Claims.counted
  split
  · exact ⟨_, _, rfl⟩
  · exact ⟨_, _, rfl⟩

@[simp] theorem issued_team (s : State) (p : Perm) (a : W64) : (Claims.issued s p a).team = s.team := by
  obtain ⟨_, _, h⟩ := issued_eq s p a; rw [h]
@[simp] theorem issued_ctx (s : State) (p : Perm) (a : W64) : (Claims.issued s p a).ctx = s.ctx := by
  obtain ⟨_, _, h⟩ := issued_eq s p a; rw [h]
@[simp] theorem issued_dev (s : State) (p : Perm) (a : W64) : (Claims.issued s p a).dev = s.dev := by
  obtain ⟨_, _, h⟩ := issued_eq s p a; rw [h]
@[simp] theorem issued_events (s : State) (p : Perm) (a : W64) : (Claims.issued s p a).events = s.events := by
  obtain ⟨_, _, h⟩ := issued_eq s p a; rw [h]
@[simp] theorem issued_core (s : State) (p : Perm) (a : W64) : (Claims.issued s p a).core = s.core := by
  obtain ⟨_, _, h⟩ := issued_eq s p a; rw [h]
@[simp] theorem issued_coreOf (s : State) (p : Perm) (a : W64) (n : Nat) : (Claims.issued s p a).coreOf n = s.coreOf n := by
  obtain ⟨_, _, h⟩ := issued_eq s p a; rw [h]; rfl
@[simp] theorem issued_spc (s : State) (p : Perm) (a : W64) : (Claims.issued s p a).warp.spc = s.warp.spc := by
  obtain ⟨_, _, h⟩ := issued_eq s p a; rw [h]
@[simp] theorem issued_S (s : State) (p : Perm) (a : W64) (r : SReg) : (Claims.issued s p a).S r = s.S r := by
  obtain ⟨_, _, h⟩ := issued_eq s p a; rw [h]; rfl
@[simp] theorem issued_fenceBusy (s : State) (p : Perm) (a : W64) : (Claims.issued s p a).fenceBusy = s.fenceBusy := by
  obtain ⟨_, _, h⟩ := issued_eq s p a; rw [h]; rfl

/-- Checks that find nothing let the access through. -/
theorem issueScalar_passes {s : State} {perms : List Perm} {aperture : Bool} {align n : Nat} {a : W64}
    (h : Claims.PassesIssue s perms aperture align n a) :
    s.issueScalar perms aperture align n a = .ok (Claims.issued s (perms.getLastD .r) a) () := by
  unfold State.issueScalar Claims.issued Claims.counted
  by_cases hia : s.warp.scalIa.isSome = true
  · simp only [hia, if_true]
  · obtain ⟨htrap, hgrow, hwatch⟩ := h.resolve_left hia
    have htrap' : scalarTrap (s.onWarp (fun w => w.countStall 8)) perms aperture align n a = none := htrap
    have hwatch' : watchTrap (s.onWarp (fun w => w.countStall 8)) false perms n [(0, a)] = none := hwatch
    simp only [hia, Bool.false_eq_true, if_false, htrap', State.onWarp_ctx, hgrow, hwatch']
    rfl

/-- A load and a store once their checks have passed. -/
theorem loadS_issued {s : State} {n : Nat} {d a : SReg} {imm : BitVec 16} (ext : List Byte → W64) (hpark : s.warp.parkS = none)
    (hpass : Claims.PassesIssue s [.r] true n n (Claims.addrOf s a imm)) :
    s.loadS n ext d a imm = finish (((Claims.issued s .r (Claims.addrOf s a imm)).scalarLoad n (Claims.addrOf s a imm)).bind
      (fun s bs => s.give d (ext bs))) := by
  rw [loadS_free n ext d a imm hpark, issueScalar_passes hpass]
  rfl
theorem storeS_issued {s : State} {n : Nat} {d a : SReg} {imm : BitVec 16} (hpark : s.warp.parkS = none)
    (hpass : Claims.PassesIssue s [.w] true n n (Claims.addrOf s a imm)) :
    s.storeS n d a imm = finish ((Claims.issued s .w (Claims.addrOf s a imm)).scalarStore (Claims.addrOf s a imm) (toBytes n (s.S d))) := by
  rw [storeS_free n d a imm hpark, issueScalar_passes hpass]
  simp only [bind_ok, issued_S]
  rfl

/-- A check that fails traps, with no lanes. -/
theorem issueScalar_traps {s : State} {perms : List Perm} {aperture : Bool} {align n : Nat} {a : W64} {t : MemTrap}
    (hia : s.warp.scalIa = none) (h : scalarTrap s perms aperture align n a = some t) :
    s.issueScalar perms aperture align n a = .trap (Claims.counted s) t := by
  have htrap : scalarTrap (s.onWarp (fun w => w.countStall 8)) perms aperture align n a = some t := h
  have hnone : ¬ s.warp.scalIa.isSome = true := by simp [hia]
  simp only [State.issueScalar, Claims.counted, if_neg hnone, htrap]
  rfl

theorem watchTrap_unwatched {s : State} {perms : List Perm} {n : Nat} {a : W64} (lane : Bool) (h : Claims.Unwatched s perms n a) :
    watchTrap s lane perms n [(0, a)] = none := by
  unfold watchTrap
  rw [List.findSome?_eq_none_iff]
  intro slot _
  split
  · rfl
  · next w hfind =>
    have hmiss : watched w perms n a = false := h _ (List.mem_of_find?_eq_some hfind)
    simp [hmiss, lanesTrap]

/-- The first two checks, of the alignment and of the bound of the scratchpad, in the cases that a scalar access meets. -/
theorem scalarTrap_misaligned {s : State} {perms : List Perm} {n : Nat} {a : W64} (h : a.toNat % n ≠ 0) :
    scalarTrap s perms true n n a = some ⟨0x06, 0, a, 0, 0⟩ := by
  simp [scalarTrap, addrTrap, lanesTrap, h, Code.misaligned]

theorem scalarTrap_bound {s : State} {perms : List Perm} {n : Nat} {a : W64} (h : a.toNat % n = 0) (hap : inAperture a = true)
    (hpast : pastScratch s.scrsize n a = true) : scalarTrap s perms true n n a = some ⟨0x0A, 0, a, 0, 0⟩ := by
  simp [scalarTrap, addrTrap, lanesTrap, h, hap, hpast, Code.scratchBound]

theorem scalarTrap_none {s : State} {perms : List Perm} {n : Nat} {a : W64} (h : a.toNat % n = 0)
    (hbound : inAperture a = true → pastScratch s.scrsize n a = false) (hrange : rangeDetail s.ctx perms true a = none) :
    scalarTrap s perms true n n a = none := by
  cases hap : inAperture a <;> simp_all [scalarTrap, addrTrap, lanesTrap]

/-! ### The scratchpad -/

theorem inAperture_iff (a : W64) : inAperture a = true ↔ 0x00FFFF0000000000 ≤ a.toNat ∧ a.toNat < 0x00FFFF0000100000 := by
  rw [inAperture, Bool.and_eq_true, decide_eq_true_iff, decide_eq_true_iff]
  rfl

theorem inAperture_of_inScratch {s : State} {n : Nat} {a : W64} (h : Claims.InScratch s n a) : inAperture a = true := by
  obtain ⟨-, hlow, -, hhigh⟩ := h
  exact (inAperture_iff a).mpr ⟨hlow, hhigh⟩

/-- An access inside the scratchpad passes its checks. -/
theorem passesIssue_scratch {s : State} {perms : List Perm} {n : Nat} {a : W64} (hin : Claims.InScratch s n a)
    (hwatch : Claims.ScalarUnwatched s perms n a) : Claims.PassesIssue s perms true n n a := by
  have hap := inAperture_of_inScratch hin
  obtain ⟨halign, hlow, hend, -⟩ := hin
  refine hwatch.imp_right fun hw => ⟨scalarTrap_none halign (fun _ => ?_) ?_, ?_, watchTrap_unwatched false hw⟩
  · have hfits : ¬ s.team.hdr.scratch < a.toNat - 0x00FFFF0000000000 + n := by omega
    exact decide_eq_false hfits
  · simp [rangeDetail, hap]
  · simp [growing, hap]

theorem apertureBad_eq_false_iff {s : State} {n : Nat} {a : W64} (hap : inAperture a = true) :
    s.team.apertureBad a n = false ↔ Claims.SoundScratch s n a := by
  rw [Team.apertureBad, hap, Bool.true_and, Team.scratchBad, List.any_eq_false]
  refine forall₂_congr fun k _ => ?_
  rw [Bool.and_eq_true, decide_eq_true_iff, decide_eq_true_iff]
  rfl

theorem readScratch_eq (s : State) (n : Nat) (a : W64) : s.team.readScratch a n = Claims.scratchBytes s n a := rfl

theorem scalarLoad_scratch {s : State} {n : Nat} {a : W64} (hap : inAperture a = true) : s.scalarLoad n a =
    if s.fenceBusy then .wait s 15
    else if s.team.apertureBad a n then .trap s (trapOf Code.eccFatal a 0) else .ok s (s.team.readScratch a n) := if_pos hap
theorem scalarStore_scratch {s : State} {a : W64} {bs : List Byte} (hap : inAperture a = true) : s.scalarStore a bs =
    if s.fenceBusy then .wait s 15 else .ok (s.writeScratch a bs) () := if_pos hap

/-- What a scalar access that retires leaves, seen from the state in which its checks have been counted. -/
theorem scalarOnly_issued (s : State) (p : Perm) (a : W64) (d : SReg) (x : W64) :
    Claims.ScalarOnly (Claims.counted s) (((Claims.issued s p a).writeS d x).retire) := by
  unfold Claims.issued Claims.counted
  split <;> by_cases hd : d = 0 <;> simp only [State.writeS, hd, if_true, if_false] <;> exact ⟨rfl, fun _ => rfl⟩

theorem wrote_issued (s : State) (p : Perm) (a : W64) (d : SReg) (x : W64) :
    Claims.Wrote s (((Claims.issued s p a).writeS d x).retire) d x := by
  intro r
  simp

/-- Settles O5: the checks at issue pass, and then the three cases of a load from the scratchpad. -/
theorem scalarLoadsReadTheScratchpad : Obligations.ScalarLoadsReadTheScratchpad := by
  refine ⟨?value, ?ecc, ?fence⟩
  case value =>
    intro i n sx d a imm s h hpark hin hsound hwatch hfence
    obtain ⟨ext, hexec, hext⟩ := exec_loadOf s h
    have hap := inAperture_of_inScratch hin
    have hbad := (apertureBad_eq_false_iff hap).mpr hsound
    rw [hexec, loadS_issued ext hpark (passesIssue_scratch hin hwatch), scalarLoad_scratch hap]
    simp only [issued_fenceBusy, hfence, issued_team, hbad, Bool.false_eq_true, if_false, bind_ok, readScratch_eq]
    rw [hext _ (by simp [Claims.scratchBytes])]
    exact ⟨_, rfl, scalarOnly_issued s _ _ d _, by rw [retire_writeS_spc, issued_spc], wrote_issued s _ _ d _⟩
  case ecc =>
    intro i n sx d a imm s h hpark hin hsound hwatch hfence
    obtain ⟨ext, hexec, -⟩ := exec_loadOf s h
    have hap := inAperture_of_inScratch hin
    have hbad : s.team.apertureBad (Claims.addrOf s a imm) n = true := by
      rwa [← apertureBad_eq_false_iff hap, Bool.not_eq_false] at hsound
    rw [hexec, loadS_issued ext hpark (passesIssue_scratch hin hwatch), scalarLoad_scratch hap]
    simp only [issued_fenceBusy, hfence, issued_team, hbad, Bool.false_eq_true, if_false, if_true, bind_trap]
    rfl
  case fence =>
    intro i n sx d a imm s h hpark hin hwatch hfence
    obtain ⟨ext, hexec, -⟩ := exec_loadOf s h
    rw [hexec, loadS_issued ext hpark (passesIssue_scratch hin hwatch), scalarLoad_scratch (inAperture_of_inScratch hin)]
    simp only [issued_fenceBusy, hfence, if_true, bind_wait]
    rfl

/-- A write to the scratchpad changes the team's scratchpad, and can only take marks of errors away. -/
theorem scratchOnly_issued (s : State) (p : Perm) (a : W64) (bs : List Byte) :
    Claims.ScratchOnly (Claims.counted s) ((Claims.issued s p a).writeScratch a bs).retire := by
  refine ⟨?_, fun k hk => ?_⟩
  · unfold Claims.issued Claims.counted
    split <;> exact ⟨rfl, fun _ => rfl⟩
  · have hteam : (Claims.counted s).team = s.team := by unfold Claims.counted; split <;> rfl
    have hk' : k ∈ ((Claims.issued s p a).team.putScratch (a.toNat - Config.apertureBase) bs).badScratch := hk
    rw [issued_team] at hk'
    rw [hteam]
    exact List.mem_of_mem_filter hk'

/-- Settles O6: a store is one write of the team's scratchpad, behind a fence. -/
theorem scalarStoresWriteTheScratchpad : Obligations.ScalarStoresWriteTheScratchpad := by
  intro i n d a imm s h hpark hin hwatch
  have hstore := (exec_storeOf s h).trans (storeS_issued hpark (passesIssue_scratch hin hwatch))
  rw [scalarStore_scratch (inAperture_of_inScratch hin), issued_fenceBusy] at hstore
  refine ⟨fun hfence => ?stored, fun hfence => ?waits⟩
  case stored =>
    rw [hfence] at hstore
    have hscratch (x : Nat) : Claims.scratchAt ((Claims.issued s .w (Claims.addrOf s a imm)).writeScratch (Claims.addrOf s a imm)
        (toBytes n (s.S d))).retire x = Store.get (writeBytes s.team.scratch ((Claims.addrOf s a imm).toNat - 0x00FFFF0000000000)
          (toBytes n (s.S d))) x := by
      rw [Claims.scratchAt, retire_team, State.writeScratch_scratch, issued_team]
      rfl
    refine ⟨_, hstore, scratchOnly_issued s _ _ _, by rw [retire_spc, State.writeScratch_warp, issued_spc], fun r => ?_,
      fun k hk => ?_, fun x hx => ?_⟩
    · rw [S_retire, S_of_warp (congrArg Warp.s (State.writeScratch_warp _ _ _)), issued_S]
    · rw [hscratch, get_writeBytes_in _ _ _ k (by rwa [length_toBytes])]
      simp [toBytes_eq_regBytes]
    · rw [hscratch, get_writeBytes_out _ _ _ _ (by rwa [length_toBytes])]
      rfl
  case waits =>
    rw [hfence] at hstore
    exact hstore

/-! ### Accesses that do not fit (05:R102) -/

/-- An access that one of its checks refuses traps, and nothing but the count of the checks has changed. -/
theorem exec_refused {i : Instr} {n : Nat} {addr : W64} {s : State} {t : MemTrap} (hpark : s.warp.parkS = none) (hia : s.warp.scalIa = none)
    (htrap : ∀ perms, scalarTrap s perms true n n addr = some t)
    (h : (∃ sx d a imm, Claims.loadOf i = some (n, sx, d, a, imm) ∧ addr = Claims.addrOf s a imm) ∨
      ∃ d a imm, Claims.storeOf i = some (n, d, a, imm) ∧ addr = Claims.addrOf s a imm) :
    exec i s = .next ((Claims.counted s).takeTrap false false t) := by
  rcases h with ⟨sx, d, a, imm, hi, rfl⟩ | ⟨d, a, imm, hi, rfl⟩
  · obtain ⟨ext, hexec, -⟩ := exec_loadOf s hi
    rw [hexec, loadS_free n ext d a imm hpark, issueScalar_traps hia (htrap _)]
    rfl
  · rw [exec_storeOf s hi, storeS_free n d a imm hpark, issueScalar_traps hia (htrap _)]
    rfl

/-- Settles O7: the alignment is checked first, the bound of the scratchpad next, and either trap ends the access at its checks. -/
theorem scalarAccessesThatDoNotFitTrap : Obligations.ScalarAccessesThatDoNotFitTrap := by
  refine ⟨fun i n addr s hpark hia halign h => ?misaligned, fun i n addr s hpark hia halign hlow hhigh hpast h => ?bound⟩
  case misaligned => exact exec_refused hpark hia (fun _ => scalarTrap_misaligned halign) h
  case bound =>
    have hbeyond : pastScratch s.scrsize n addr = true := decide_eq_true hpast
    exact exec_refused hpark hia (fun _ => scalarTrap_bound halign ((inAperture_iff addr).mpr ⟨hlow, hhigh⟩) hbeyond) h

end Sys2Proof.Machine
end

section
/-!
PROOFS. Scalar loads from and stores to device memory: hits and fills of the L1, the frame of an admission at the home, and a write
performed there (05:R103, R104, R113; 09:R181; 17:R289 to R294; 20:R320).
-/

namespace Sys2Proof.Machine

open Sys2Proof

/-! ### Accesses outside the scratchpad, once their checks have passed -/

theorem check_ok_lt {c : Context} {p : Perm} {a : W64} {ia : Nat} (h : check c a p = .ok ia) : ia < 2 ^ 52 := by
  unfold check at h
  dsimp only at h
  split at h
  · cases h
  · split at h
    · split at h
      · cases h
        exact Nat.mod_lt _ (by decide)
      · cases h
    · split at h <;> cases h

theorem inAperture_of_checked {s : State} {perms : List Perm} {n : Nat} {a : W64} {ia : Nat} (h : Claims.Checked s perms n a ia) :
    inAperture a = false := by
  obtain ⟨-, hap, -⟩ := h
  exact hap

theorem passesIssue_checked {s : State} {perms : List Perm} {n : Nat} {a : W64} {ia : Nat} (h : Claims.Checked s perms n a ia)
    (hwatch : Claims.ScalarUnwatched s perms n a) : Claims.PassesIssue s perms true n n a := by
  obtain ⟨halign, hap, ⟨hia, -⟩ | ⟨-, hcheck⟩⟩ := h
  · exact .inl (by simp [hia])
  · refine hwatch.imp_right fun hw => ⟨scalarTrap_none halign (fun h => by simp [h] at hap) ?_, ?_, watchTrap_unwatched false hw⟩
    · simp [rangeDetail, hap, hcheck]
    · simp [growing, hcheck]

/-- The access keeps the address that its checks have given. -/
theorem scalarIa_kept {s : State} {a : W64} {ia : Nat} (p : Perm) (h : s.warp.scalIa = some (a, ia)) (hlt : ia < 2 ^ 52) :
    s.scalarIa p a = ia := by
  simpa [State.scalarIa, h] using hlt
theorem scalarIa_issued {s : State} {p : Perm} {n : Nat} {a : W64} {ia : Nat} (h : Claims.Checked s [p] n a ia) :
    (Claims.issued s p a).scalarIa p a = ia := by
  obtain ⟨-, -, ⟨hia, hlt⟩ | ⟨hia, hcheck⟩⟩ := h
  · have hsame : Claims.issued s p a = s := by rw [Claims.issued, hia]; rfl
    rw [hsame, scalarIa_kept p hia hlt]
  · have hcheck : check s.ctx a p = .ok ia := hcheck
    have hnew : (Claims.issued s p a).warp.scalIa = some (a, ia) := by
      rw [Claims.issued, hia, check_ok_iaOf hcheck]
      rfl
    exact scalarIa_kept p hnew (check_ok_lt hcheck)

theorem queuedAt_issued (s : State) (p : Perm) (a : W64) (h : HomeOf) : (Claims.issued s p a).queuedAt h = s.queuedAt h := by
  obtain ⟨_, _, hs⟩ := issued_eq s p a
  rw [hs]
  unfold State.queuedAt State.allWarps
  simp only [List.filter_cons]
  split <;> rfl

theorem unheld_issued {s : State} {ia : Nat} (p : Perm) (a : W64) (h : Claims.Unheld s ia) : Claims.Unheld (Claims.issued s p a) ia := by
  have hqueue := queuedAt_issued s p a
  obtain ⟨hfence, hring, hholds, hbusy⟩ := h
  obtain ⟨_, _, hs⟩ := issued_eq s p a
  rw [hs] at hqueue ⊢
  refine ⟨hfence, ?_, hholds, hbusy⟩
  rw [State.ringHolds, hqueue]
  exact hring

@[simp] theorem issued_scalarBusy (s : State) (p : Perm) (a : W64) (ia : Nat) : (Claims.issued s p a).scalarBusy ia = s.scalarBusy ia := by
  obtain ⟨_, _, h⟩ := issued_eq s p a; rw [h]; rfl
@[simp] theorem issued_ownBytes (s : State) (p : Perm) (a : W64) (lane : Bool) :
    (Claims.issued s p a).warp.ownBytes lane = s.warp.ownBytes lane := by
  obtain ⟨_, _, h⟩ := issued_eq s p a; rw [h]; rfl
@[simp] theorem issued_heldLine (s : State) (p : Perm) (a : W64) (ia : Nat) :
    Claims.heldLine (Claims.issued s p a) ia = Claims.heldLine s ia := by
  simp [Claims.heldLine]

theorem holdScalar_unheld {s : State} {ia : Nat} (h : Claims.Unheld s ia) : s.holdScalar ia = .ok s () := by
  obtain ⟨hfence, hring, hholds, hbusy⟩ := h
  simp [State.holdScalar, hfence, hring, hholds, hbusy]

/-! ### Loads (05:R103, R104; 09:R181) -/

/-- A line that the core holds sound is read there; one that it does not hold must be asked for. -/
theorem misses_held {s : State} {ia : Nat} {l : L1Line} (h : Claims.heldLine s ia = some l) (hstale : (s.coreOf s.team.core).stale l = false)
    (hparity : l.parity = false) : s.misses s.ctx s.team.core ia = false := by
  have hfind : (s.coreOf s.team.core).find (tagged s.ctx.num ia) = some l := h
  simp [State.misses, Core.readable, hfind, hstale, hparity]
theorem misses_unheld {s : State} {ia : Nat} (h : Claims.heldLine s ia = none) : s.misses s.ctx s.team.core ia = true := by
  have hfind : (s.coreOf s.team.core).find (tagged s.ctx.num ia) = none := h
  simp [State.misses, Core.readable, hfind]

/-- A load whose line is answered, from the L1 or from the memory side, gives its bytes under the warp's own newer ones. -/
theorem scalarLoad_of_readLine {s t : State} {n ia : Nat} {a : W64} {x : LineData} (hap : inAperture a = false)
    (hia : s.scalarIa .r a = ia) (hread : s.readLine s.ctx s.team.core ia = .ok t (x, false))
    (hready : s.misses s.ctx s.team.core ia = true ∧ Claims.Unheld s ia ∧ missingKind s.dev s.ctx ia = none ∨
      s.misses s.ctx s.team.core ia = false ∧ s.fenceBusy = false ∧ s.scalarBusy ia = false) :
    s.scalarLoad n a = .ok t (overlay (t.warp.ownBytes false) ia (lineBytes x (ia % 128) n)) := by
  subst hia
  rcases hready with ⟨hmiss, hfree, hpage⟩ | ⟨hmiss, hfence, hbusy⟩
  · simp [State.scalarLoad, hap, hmiss, holdScalar_unheld hfree, hpage, hread]
  · simp [State.scalarLoad, hap, hmiss, hfence, hbusy, hread]

/-- Nothing differs but the cores. -/
def CoresOnly (s t : State) : Prop := ∃ core cores, t = { s with core := core, cores := cores }

theorem coresOnly_setCore (s : State) (c : Core) : CoresOnly s (s.setCore c) := by
  unfold State.setCore
  split
  · exact ⟨_, _, rfl⟩
  · split <;> exact ⟨_, _, rfl⟩
theorem coresOnly_raiseFloor (s : State) (core line : Nat) (ver : W64) : CoresOnly s (s.raiseFloor core line ver) := by
  unfold State.raiseFloor
  dsimp only
  split
  · exact coresOnly_setCore s _
  · exact ⟨_, _, rfl⟩
theorem CoresOnly.trans {s t u : State} (h : CoresOnly s t) (h' : CoresOnly t u) : CoresOnly s u := by
  obtain ⟨_, _, rfl⟩ := h
  obtain ⟨_, _, rfl⟩ := h'
  exact ⟨_, _, rfl⟩

theorem verify_of_sound {s : State} {core line : Nat} (h : ∀ l, (s.coreOf core).find line = some l → l.parity = false) :
    s.verify core line = s := by
  unfold State.verify
  split
  · rfl
  · next l hfind => simp [h l hfind]

/-- A hit gives the line's data and changes nothing but the core. -/
theorem readLine_hit {s : State} {c : Context} {core ia : Nat} {l : L1Line} (h : (s.coreOf core).find (tagged c.num ia) = some l)
    (hparity : l.parity = false) (hstale : (s.coreOf core).stale l = false) :
    ∃ t, s.readLine c core ia = .ok t (l.data, l.poison) ∧ CoresOnly s t := by
  have hsound : s.verify core (tagged c.num ia) = s := verify_of_sound fun l' hl' => by
    rw [h] at hl'
    exact Option.some.inj hl' ▸ hparity
  have hreadable : (s.coreOf core).readable (tagged c.num ia) = some l := by simp [Core.readable, h, hstale, hparity]
  unfold State.readLine
  simp only [hsound, hreadable]
  by_cases hst : l.st = .pu
  · simp only [if_pos hst]
    exact ⟨_, rfl, (coresOnly_setCore s _).trans (coresOnly_raiseFloor _ _ _ _)⟩
  · simp only [if_neg hst]
    exact ⟨_, rfl, (coresOnly_setCore s _).trans (coresOnly_raiseFloor _ _ _ _)⟩

theorem length_overlay (own : List (Nat × Byte)) (ia : Nat) (bs : List Byte) : (overlay own ia bs).length = bs.length := by
  simp [overlay]
theorem length_lineBytes (x : LineData) (k n : Nat) : (lineBytes x k n).length = n := length_toBytes n _

/-- What a load leaves that has changed the cores on its way. -/
theorem scalarOnly_coresOnly {s t : State} {p : Perm} {a : W64} (d : SReg) (x : W64) (h : CoresOnly (Claims.issued s p a) t) :
    Claims.ScalarOnly { Claims.counted s with core := t.core, cores := t.cores } ((t.writeS d x).retire) := by
  obtain ⟨core, cores, rfl⟩ := h
  unfold Claims.issued Claims.counted
  split <;> by_cases hd : d = 0 <;> simp only [State.writeS, hd, if_true, if_false] <;> exact ⟨rfl, fun _ => rfl⟩

/-- Settles O8: a held line is a hit, which changes the cores alone; for another one the load completes with the memory side's
answer. -/
theorem scalarLoadsReadDeviceMemory : Obligations.ScalarLoadsReadDeviceMemory := by
  refine ⟨?hit, ?fill⟩
  case hit =>
    intro i n sx d a imm ia l s h hpark hchecked hwatch hl hpoison hparity hstale hfence hbusy
    obtain ⟨ext, hexec, hext⟩ := exec_loadOf s h
    have hfind : ((Claims.issued s .r (Claims.addrOf s a imm)).coreOf s.team.core).find (tagged s.ctx.num ia) = some l := by
      rw [issued_coreOf]
      exact hl
    obtain ⟨t, hread, hcores⟩ := readLine_hit hfind hparity (by rwa [issued_coreOf])
    have hload := scalarLoad_of_readLine (n := n) (inAperture_of_checked hchecked) (scalarIa_issued hchecked)
      (show _ = Adm.ok t (l.data, false) by rw [issued_ctx, issued_team, hread, hpoison])
      (.inr ⟨misses_held (by rwa [issued_heldLine]) (by rwa [issued_coreOf, issued_team]) hparity, by rwa [issued_fenceBusy],
        by rwa [issued_scalarBusy]⟩)
    have hwarp : t.warp = (Claims.issued s .r (Claims.addrOf s a imm)).warp := by obtain ⟨_, _, rfl⟩ := hcores; rfl
    rw [hexec, loadS_issued ext hpark (passesIssue_checked hchecked hwatch), hload, bind_ok,
      hext _ (by rw [length_overlay, length_lineBytes]), hwarp, issued_ownBytes]
    refine ⟨_, rfl, by rw [retire_writeS_spc, hwarp, issued_spc], ?_, fun r => ?_⟩
    · have honly := scalarOnly_coresOnly d (Claims.extended sx (overlay (s.warp.ownBytes false) ia (lineBytes l.data (ia % 128) n))) hcores
      simpa [State.retire] using honly
    · rw [S_retire, S_writeS, S_of_warp (congrArg Warp.s hwarp), issued_S]
  case fill =>
    intro i n sx d a imm ia s t x h hpark hchecked hwatch hl hfree hpage hread
    obtain ⟨ext, hexec, hext⟩ := exec_loadOf s h
    have hload := scalarLoad_of_readLine (n := n) (inAperture_of_checked hchecked) (scalarIa_issued hchecked) (by rwa [issued_ctx, issued_team])
      (.inl ⟨misses_unheld (by rwa [issued_heldLine]), unheld_issued _ _ hfree, by rwa [issued_dev, issued_ctx]⟩)
    rw [hexec, loadS_issued ext hpark (passesIssue_checked hchecked hwatch), hload, bind_ok,
      hext _ (by rw [length_overlay, length_lineBytes])]
    rfl

/-! ### What an admission at the home leaves (17:R289 to R294) -/

theorem touch_mem (d : Device) (region die quad : Nat) : (d.touch region die quad).mem = d.mem := by
  unfold Device.touch
  split <;> rfl

/-- Neither the warp in front nor a byte of memory differs. -/
def SameWarpAndMemory (s t : State) : Prop := t.warp = s.warp ∧ t.dev.mem = s.dev.mem

theorem SameWarpAndMemory.trans {s t u : State} (h : SameWarpAndMemory s t) (h' : SameWarpAndMemory t u) : SameWarpAndMemory s u :=
  ⟨h'.1.trans h.1, h'.2.trans h.2⟩

theorem dirPut_same (s : State) (slice : DirAt) (line : Nat) (e : W64) : SameWarpAndMemory s (s.dirPut slice line e) := by
  cases slice <;> exact ⟨rfl, rfl⟩
theorem takeCopies_same (s : State) (slice : DirAt) (line : Nat) (note : W64) : SameWarpAndMemory s (s.takeCopies slice line note) := by
  unfold State.takeCopies
  dsimp only
  split
  · exact dirPut_same s _ _ _
  · split <;> exact dirPut_same s _ _ _
theorem recallCopies_same (s : State) (line : Nat) (write : Bool) : SameWarpAndMemory s (s.recallCopies line write).1 := by
  unfold State.recallCopies
  extract_lets e v e' st
  have hv : SameWarpAndMemory s v := by
    unfold v
    split
    · exact dirPut_same s _ _ _
    · exact ⟨rfl, rfl⟩
  split
  · exact hv
  · split
    · exact hv.trans (dirPut_same v _ _ _)
    · split
      · exact hv.trans (takeCopies_same v _ _ _)
      · split
        · split
          · exact hv
          · exact hv.trans (dirPut_same v _ _ _)
        · exact hv

/-! ### Bytes outside a page's entry (20:R320, R321) -/

theorem get_writeD_out (m : Store 8) {a b : Nat} (x : W64) (h : b < a ∨ a + 8 ≤ b) : Store.get (writeD m a x) b = Store.get m b :=
  get_writeBytes_out m a _ b (by rwa [length_toBytes])

theorem get_foldl_out {α : Type} {f : Store 8 → α → Store 8} {b : Nat} {xs : List α}
    (hf : ∀ m, ∀ x ∈ xs, Store.get (f m x) b = Store.get m b) (m : Store 8) : Store.get (xs.foldl f m) b = Store.get m b := by
  induction xs generalizing m with
  | nil => rfl
  | cons x rest ih =>
    rw [List.foldl_cons, ih fun m y hy => hf m y (List.mem_cons_of_mem x hy)]
    exact hf m x List.mem_cons_self

/-- A change of a page's entry, or of the 32 of a 2 MiB page, leaves every other byte. -/
theorem get_putPage_out (d : Device) {p : Page} (f : W64 → W64) {x : Nat} (h : ¬ Claims.inEntry p x) :
    Store.get (d.putPage p f).mem x = Store.get d.mem x := by
  unfold Claims.inEntry at h
  unfold Device.putPage
  split at h
  · next hlarge =>
    rw [if_pos hlarge]
    have hout (m : Store 8) (j : Nat) (hj : j ∈ List.range 32) :
        Store.get (writeD m (p.place - p.place % 256 + 8 * j) (f (readD m (p.place - p.place % 256 + 8 * j)))) x = Store.get m x := by
      have hlt := List.mem_range.mp hj
      exact get_writeD_out m _ (by omega)
    dsimp only
    exact get_foldl_out hout d.mem
  · next hsmall =>
    rw [if_neg hsmall]
    exact get_writeD_out d.mem _ (by omega)

theorem get_markDirty_out (d : Device) {p : Page} {x : Nat} (h : ¬ Claims.inEntry p x) :
    Store.get (d.markDirty p).mem x = Store.get d.mem x := by
  unfold Device.markDirty
  split
  · rfl
  · exact get_putPage_out d setDirty h

/-- A classification writes the page's entry alone. -/
theorem classify_frame {s t : State} {c : Context} {ag : Agent} {excl : Bool} {p : Page} {ia : Nat} {x : Unit}
    (h : s.classify c ag excl p ia = .ok t x) :
    t.warp = s.warp ∧ ∀ b, ¬ Claims.inEntry p b → Claims.byteAt t b = Claims.byteAt s b := by
  unfold State.classify at h
  dsimp only at h
  split at h
  · cases h
    exact ⟨rfl, fun _ _ => rfl⟩
  · split at h
    · split at h <;> cases h <;> exact ⟨rfl, fun _ hb => get_putPage_out s.dev _ hb⟩
    · split at h
      · split at h
        · cases h
        · split at h <;> cases h
          exact ⟨rfl, fun _ _ => rfl⟩
      · cases h
        exact ⟨rfl, fun _ _ => rfl⟩

/-- An admission that takes nothing back from its own agent: the region is homed, the page classified, the copies recalled, and the
page read again. -/
theorem letIn_ok {s t : State} {c : Context} {ag : Agent} {write excl : Bool} {ia : Nat} {p₀ p : Page} (hwalk : walk s.dev c ia = .page p₀)
    (h : s.letIn c ag write excl false ia = .ok t p) :
    ∃ u x, State.classify { s with dev := s.dev.touch (ia / 65536) ag.place.1 ag.place.2 } c ag excl p₀ ia = .ok u x ∧
      u.recallCopies (tagged c.num ia) write = (t, false) := by
  unfold State.letIn at h
  rw [hwalk] at h
  dsimp only at h
  split at h
  · cases h
  · cases h
  · next u x hclass =>
    refine ⟨u, x, hclass, ?_⟩
    cases ag
    all_goals
      dsimp only at h
      split at h
      · cases h
      · next hrecall =>
        split at h <;> cases h
        exact hrecall

/-- It writes the page's entry alone. -/
theorem letIn_frame {s t : State} {c : Context} {ag : Agent} {write excl : Bool} {ia : Nat} {p₀ p : Page}
    (hwalk : walk s.dev c ia = .page p₀) (h : s.letIn c ag write excl false ia = .ok t p) :
    t.warp = s.warp ∧ ∀ b, ¬ Claims.inEntry p₀ b → Claims.byteAt t b = Claims.byteAt s b := by
  obtain ⟨u, x, hclass, hrecall⟩ := letIn_ok hwalk h
  obtain ⟨huwarp, hbytes⟩ := classify_frame hclass
  obtain ⟨hwarp, hmem⟩ : SameWarpAndMemory u t := by simpa [hrecall] using recallCopies_same u (tagged c.num ia) write
  refine ⟨hwarp.trans huwarp, fun b hb => ?_⟩
  calc Claims.byteAt t b = Claims.byteAt u b := by rw [Claims.byteAt, hmem]; rfl
    _ = Store.get (s.dev.touch (ia / 65536) ag.place.1 ag.place.2).mem b := hbytes b hb
    _ = Claims.byteAt s b := by rw [touch_mem]; rfl

/-! ### A write performed at the home (09:R175; 20:R320) -/

theorem endShare_warp (s : State) (cn page : Nat) : (s.endShare cn page).warp = s.warp := by
  unfold State.endShare
  split
  · rfl
  · dsimp only
    split <;> rfl
theorem updateCopy_warp (s : State) (core line : Nat) (bs : List (Nat × Byte)) : (s.updateCopy core line bs).warp = s.warp := by
  unfold State.updateCopy
  split
  · rfl
  · split
    · exact State.setCore_warp s _
    · rfl
theorem raiseFloor_warp (s : State) (core line : Nat) (ver : W64) : (s.raiseFloor core line ver).warp = s.warp := by
  obtain ⟨_, _, h⟩ := coresOnly_raiseFloor s core line ver
  rw [h]

/-- A write at the home leaves the warp in front, and of memory all but its bytes and the dirty bit of the page. -/
theorem homeWrite_frame (s : State) (cn : Nat) (core : Option Nat) (p : Page) (ia : Nat) (bs : List Byte) :
    SameWarpAndMemory { s with dev := (s.dev.writePhys (p.phys ia) bs).markDirty p } (s.homeWrite cn core p ia bs) := by
  unfold State.homeWrite
  extract_lets line d u v
  have hu : SameWarpAndMemory { s with dev := (s.dev.writePhys (p.phys ia) bs).markDirty p } u :=
    ⟨endShare_warp _ _ _, mem_endShare _ _ _⟩
  have hv : SameWarpAndMemory u v := by
    unfold v
    split
    · exact ⟨rfl, rfl⟩
    · split <;> exact ⟨rfl, rfl⟩
  cases core with
  | none => exact hu.trans hv
  | some k =>
    refine (hu.trans hv).trans ⟨?_, ?_⟩
    · rw [raiseFloor_warp, updateCopy_warp]
    · rw [mem_raiseFloor, mem_updateCopy]

theorem homeWrite_warp (s : State) (cn : Nat) (core : Option Nat) (p : Page) (ia : Nat) (bs : List Byte) :
    (s.homeWrite cn core p ia bs).warp = s.warp := by
  obtain ⟨hwarp, -⟩ := homeWrite_frame s cn core p ia bs
  exact hwarp

theorem byteAt_homeWrite (s : State) (cn : Nat) (core : Option Nat) {p : Page} (ia : Nat) (bs : List Byte) {x : Nat}
    (h : ¬ Claims.inEntry p x) : Claims.byteAt (s.homeWrite cn core p ia bs) x = Store.get (writeBytes s.dev.mem (p.phys ia) bs) x := by
  obtain ⟨-, hmem⟩ := homeWrite_frame s cn core p ia bs
  rw [Claims.byteAt, hmem]
  exact get_markDirty_out _ h

theorem byteAt_retire (s : State) (k x : Nat) : Claims.byteAt (s.retire k) x = Claims.byteAt s x := by
  rw [Claims.byteAt, retire_dev, Claims.byteAt]

/-! ### Stores (05:R103, R104, R113) -/

theorem missingKind_page {d : Device} {c : Context} {ia : Nat} {p : Page} (h : walk d c ia = .page p) : missingKind d c ia = none := by
  rw [missingKind, h]

section
variable {s t : State} {a : W64} {ia : Nat} {bs : List Byte} (hap : inAperture a = false) (hia : s.scalarIa .w a = ia)
  (hfree : Claims.Unheld s ia) (hpage : missingKind s.dev s.ctx ia = none) (hverdict : writeVerdict s.dev s.ctx ia bs.length = none)
  (hdet : s.team.det = false)
include hap hia hfree hpage hverdict hdet

/-- A store outside DET that nothing holds up, accepted for later, or performed where 09:R175 places it. -/
theorem scalarStore_late (hlate : s.warp.late = true) (hprivate : s.core.holdsPrivate (tagged s.ctx.num ia) = false) :
    s.scalarStore a bs = .ok (s.acceptLate ⟨0, a, ia, bs⟩) () := by
  subst hia
  simp [State.scalarStore, hap, holdScalar_unheld hfree, hpage, hverdict, hdet, hlate, hprivate]
theorem scalarStore_placed (hlate : s.warp.late = false) (hplace : s.placeStore s.ctx s.team.core ia bs = .ok t ()) :
    s.scalarStore a bs = .ok t () := by
  subst hia
  simp [State.scalarStore, hap, holdScalar_unheld hfree, hpage, hverdict, hdet, hlate, hplace]

end

/-- A store whose line the core does not hold privately is a write at its home. -/
theorem placeStore_home {s t : State} {c : Context} {core ia : Nat} {p : Page} (bs : List Byte)
    (hl : ∀ l, (s.coreOf core).find (tagged c.num ia) = some l → l.st ≠ .pc ∧ l.st ≠ .pd ∧ l.parity = false)
    (hin : s.letIn c (.core core) true false false ia = .ok t p) :
    s.placeStore c core ia bs = .ok (t.homeWrite c.num (some core) p ia bs) () := by
  have hsound : s.verify core (tagged c.num ia) = s := verify_of_sound fun l h => by
    obtain ⟨-, -, hparity⟩ := hl l h
    exact hparity
  have hnone : ((s.coreOf core).find (tagged c.num ia)).filter (fun l => l.st == .pc || l.st == .pd) = none := by
    rw [Option.filter_eq_none_iff]
    intro l h
    simp [hl l h]
  simp only [State.placeStore, hsound, hnone, hin]

/-- A store accepted for later is one new entry of the write buffer, whose request is sent. -/
theorem retire_acceptLate (s : State) (x : LaneStore) : ∃ e : WEntry,
    ((s.acceptLate x).retire).warp.spc = s.warp.spc + 4 ∧ (∀ r, ((s.acceptLate x).retire).S r = s.S r) ∧
    ((s.acceptLate x).retire).dev = s.dev ∧ ((s.acceptLate x).retire).warp.wbuf = s.warp.wbuf ++ [e] ∧
    e.line = tagged s.ctx.num x.ia ∧ e.scalar = true ∧ e.writes = [x] ∧
    ((s.acceptLate x).retire).events = s.events ++ [.storeRequest s.warp.key e.id] :=
  ⟨_, rfl, fun _ => rfl, rfl, rfl, rfl, rfl, rfl, rfl⟩

@[simp] theorem issued_wbuf (s : State) (p : Perm) (a : W64) : (Claims.issued s p a).warp.wbuf = s.warp.wbuf := by
  obtain ⟨_, _, h⟩ := issued_eq s p a; rw [h]
@[simp] theorem issued_key (s : State) (p : Perm) (a : W64) : (Claims.issued s p a).warp.key = s.warp.key := by
  obtain ⟨_, _, h⟩ := issued_eq s p a; rw [h]
@[simp] theorem issued_late (s : State) (p : Perm) (a : W64) : (Claims.issued s p a).warp.late = s.warp.late := by
  obtain ⟨_, _, h⟩ := issued_eq s p a; rw [h]

/-- Settles O9: the store is admitted at its home and written there; one accepted for later is an entry of its own. -/
theorem scalarStoresReachTheirHome : Obligations.ScalarStoresReachTheirHome := by
  intro i n d a imm ia p₀ p s s' h hpark hchecked hwatch hdet hfree hwalk hverdict
  have hap := inAperture_of_checked hchecked
  have hia := scalarIa_issued hchecked
  have hfree' := unheld_issued .w (Claims.addrOf s a imm) hfree
  have hpage : missingKind (Claims.issued s .w (Claims.addrOf s a imm)).dev (Claims.issued s .w (Claims.addrOf s a imm)).ctx ia = none := by
    rw [issued_dev, issued_ctx, missingKind_page hwalk]
  have hverdict' : writeVerdict (Claims.issued s .w (Claims.addrOf s a imm)).dev (Claims.issued s .w (Claims.addrOf s a imm)).ctx ia
      (toBytes n (s.S d)).length = none := by rwa [issued_dev, issued_ctx, length_toBytes]
  have hdet' : (Claims.issued s .w (Claims.addrOf s a imm)).team.det = false := by rwa [issued_team]
  have hexec := (exec_storeOf s h).trans (storeS_issued hpark (passesIssue_checked hchecked hwatch))
  refine ⟨fun hlate hl hin => ?performed, fun hlate hprivate => ?accepted⟩
  case performed =>
    have hplace := placeStore_home (s := Claims.issued s .w (Claims.addrOf s a imm)) (toBytes n (s.S d)) (by rwa [issued_coreOf]) hin
    rw [scalarStore_placed hap hia hfree' hpage hverdict' hdet' (by rwa [issued_late]) (by rwa [issued_ctx, issued_team])] at hexec
    obtain ⟨hwarp, hbytes⟩ := letIn_frame (by rwa [issued_dev]) hin
    have hwarp' := (homeWrite_warp s' s.ctx.num (some s.team.core) p ia (toBytes n (s.S d))).trans hwarp
    refine ⟨_, hexec, ?_, fun r => ?_, fun k hk hout => ?_, fun x hx hout₀ hout => ?_⟩
    · rw [retire_spc, hwarp', issued_spc]
    · rw [S_retire, S_of_warp (congrArg Warp.s hwarp'), issued_S]
    · rw [byteAt_retire, byteAt_homeWrite s' _ _ ia _ hout, get_writeBytes_in _ _ _ k (by rwa [length_toBytes])]
      simp [toBytes_eq_regBytes]
    · rw [byteAt_retire, byteAt_homeWrite s' _ _ ia _ hout, get_writeBytes_out _ _ _ x (by rwa [length_toBytes])]
      exact (hbytes x hout₀).trans (by rw [Claims.byteAt, issued_dev, Claims.byteAt])
  case accepted =>
    rw [scalarStore_late hap hia hfree' hpage hverdict' hdet' (by rwa [issued_late]) (by rwa [issued_core, issued_ctx]),
      toBytes_eq_regBytes] at hexec
    obtain ⟨e, hspc, hS, hdev, hwbuf, hline, hscalar, hwrites, hevents⟩ := retire_acceptLate
      (Claims.issued s .w (Claims.addrOf s a imm)) ⟨0, Claims.addrOf s a imm, ia, (List.range n).map (Claims.regByte (s.S d))⟩
    rw [issued_spc] at hspc
    rw [issued_dev] at hdev
    rw [issued_wbuf] at hwbuf
    rw [issued_ctx] at hline
    rw [issued_events, issued_key] at hevents
    exact ⟨_, e, hexec, hspc, fun r => (hS r).trans (issued_S s _ _ r), hdev, hwbuf, hline, hscalar, hwrites, hevents⟩

end Sys2Proof.Machine
end

section
/-!
PROOFS. Waits, pauses and exits of the scalar stream, and the register blocks of a warp (05:R107 to R111, R113; 09:R187; 14:R277,
R278).
-/

namespace Sys2Proof.Machine

open Sys2Proof

/-! ### VSYNC and SRQPOP (05:R107, R108, R113) -/

theorem lanesRetired_wait {s : State} (n : Nat) (h : s.warp.queue ≠ []) : s.lanesRetired n = .wait s n := by
  simp [State.lanesRetired, h]

theorem exec_vsync {s : State} (hpark : s.warp.parkS = none) :
    exec .vsync s = finish ((s.lanesRetired 0).bind (fun s _ => .ok s.fence ())) := by
  rw [show exec .vsync s = execVsync s from rfl, execVsync, scalarRun_free s _ hpark]

theorem exec_srqpop_cons {s : State} {x : W32} {rest : List W32} (d : SReg) (hpark : s.warp.parkS = none) (h : s.warp.srq = x :: rest) :
    exec (.srqpop d) s = .next (((s.onWarp (fun w => { w with srq := rest })).writeS d (zext64 x)).retire) := by
  rw [show exec (.srqpop d) s = execSrqpop d s from rfl, execSrqpop, scalarRun_free s _ hpark]
  simp only [h]
  rfl
theorem exec_srqpop_nil {s : State} (d : SReg) (hpark : s.warp.parkS = none) (h : s.warp.srq = []) :
    exec (.srqpop d) s = .next (s.waitScalar 1) := by
  rw [show exec (.srqpop d) s = execSrqpop d s from rfl, execSrqpop, scalarRun_free s _ hpark]
  simp only [h]
  rfl

/-! ### NAP and EXIT (14:R277, R278) -/

theorem lo32_eq_zero_iff (x : W64) : lo32 x = 0 ↔ x.toNat % 2 ^ 32 = 0 := by
  rw [← BitVec.toNat_inj, lo32_toNat]
  rfl

theorem endDone_of_ended {s : State} (h : Claims.Ended s) : s.endDone = true := by
  obtain ⟨-, hqueue, hbuf, htasks⟩ := h
  have htasks : s.team.det = true ∨ ∀ t ∈ s.team.ring, t.warp = s.warp.key.warp → t.storesGlobal = true → t.escrowOnly = true :=
    htasks.imp_right fun h t ht hw hstores => (h t ht hw).resolve_left (by simp [hstores])
  simpa [State.endDone, hqueue, hbuf] using htasks

/-- EXIT after its END and its fills leaves an exited warp, and releases the barriers that it held up. -/
theorem exec_exit {s : State} (hpark : s.warp.parkS = none) (hend : Claims.Ended s) (hfill : ∀ f ∈ s.warp.fills, f.arrived = f.lanes) :
    exec .exit s = .next (s.onWarp Warp.exited).releaseBars.retire := by
  have hdone := endDone_of_ended hend
  have hnone : s.warp.filling = false := by simpa [Warp.filling] using hfill
  obtain ⟨hreport, hqueue, -, -⟩ := hend
  rw [show exec .exit s = execExit s from rfl, execExit, scalarRun_free s _ hpark, lanesRetired_empty s 0 hqueue, bind_ok,
    takeReport_none s hreport, bind_ok, State.ended, if_pos hdone, bind_ok, hnone]
  rfl

/-- Settles O14: what each of the instructions waits for, and the one state in which it completes. -/
theorem waitsPausesAndExits : Obligations.WaitsPausesAndExits := by
  refine ⟨fun d s hpark => ⟨fun hqueue => ?vsync, fun hqueue => ?vsyncWaits, fun x rest hsrq => ?srqpop, exec_srqpop_nil d hpark⟩,
    fun a s => ⟨?yield, fun hzero => ?napZero, fun hbound hdet => ?nap, fun hpark hend hfill => ?exit⟩⟩
  case vsync =>
    refine ⟨s.fence.retire, ?_, rfl, fun _ => rfl, ⟨rfl, fun _ => rfl⟩⟩
    rw [exec_vsync hpark, lanesRetired_empty s 0 hqueue]
    rfl
  case vsyncWaits =>
    rw [exec_vsync hpark, lanesRetired_wait 0 hqueue]
    rfl
  case srqpop =>
    refine ⟨_, exec_srqpop_cons d hpark hsrq, retire_writeS_spc _ _ _ _, ?_, scalarOnly_writeS_retire _ _ _ _, ?_⟩
    · exact congrArg Warp.srq (State.writeS_warp (s.onWarp (fun w => { w with srq := rest })) d (zext64 x))
    · have hzext : BitVec.ofNat 64 x.toNat = zext64 x := BitVec.ofNat_toNat 64 x
      rw [hzext]
      exact wrote_writeS_retire (s.onWarp (fun w => { w with srq := rest })) d _ 1
  case yield => exact ⟨_, rfl, ⟨rfl, fun _ => rfl⟩, rfl, rfl, fun _ => rfl⟩
  case napZero => exact ⟨_, if_pos (hzero.imp_left (lo32_eq_zero_iff _).mpr), scalarOnly_retireTo s _ 1, rfl, fun _ => rfl⟩
  case nap =>
    have hnap : ¬ (lo32 (s.S a) = 0 ∨ s.team.det = true) := not_or.mpr ⟨mt (lo32_eq_zero_iff _).mp hbound, by simp [hdet]⟩
    exact ⟨_, if_neg hnap, rfl, rfl, rfl, fun _ => rfl, (Store.get_set _ _ _ _).trans (if_pos rfl)⟩
  case exit => exact ⟨_, exec_exit hpark hend hfill, rfl, rfl, rfl, rfl, rfl⟩

end Sys2Proof.Machine

namespace Sys2Proof.Store

/-- A store whose keys have been picked out. -/
theorem get_filter_key {w : Nat} (q : Nat → Bool) (m : Store w) (a : Nat) :
    Store.get (m.filter (fun e => q e.1)) a = if q a then m.get a else 0 := by
  induction m with
  | nil => simp [get]
  | cons e rest ih =>
    obtain ⟨k, v⟩ := e
    rw [List.filter_cons]
    by_cases hk : q k = true
    · rw [if_pos hk, get, ih, get]
      by_cases ha : a = k <;> simp [ha, hk]
    · rw [if_neg hk, ih, get]
      by_cases ha : a = k <;> simp [ha, hk]

end Sys2Proof.Store

namespace Sys2Proof.Machine

open Sys2Proof

/-! ### Register blocks (05:R110, R111) -/

theorem get_keepBlocks (w : Warp) (b r l : Nat) (hl : l < 32) :
    (w.keepBlocks b).v.get (32 * r + l) = if r < 16 * b then w.v.get (32 * r + l) else 0 := by
  have hkey : decide (32 * r + l < 512 * b) = true ↔ r < 16 * b := by
    rw [decide_eq_true_iff]
    omega
  refine (Store.get_filter_key (fun k => decide (k < 512 * b)) w.v _).trans ?_
  simp only [hkey]

/-- The bits of the registers below a count of blocks. -/
theorem getLsbD_keepMask (x : BitVec 192) (b r : Nat) (hr : r < 192) :
    (x &&& BitVec.ofNat 192 (2 ^ (16 * b) - 1)).getLsbD r = (decide (r < 16 * b) && x.getLsbD r) := by
  rw [BitVec.getLsbD_and, BitVec.getLsbD_ofNat, Nat.testBit_two_pow_sub_one, decide_eq_true hr, Bool.true_and, Bool.and_comm]

theorem canGrow_iff (s : State) (n : Nat) : s.canGrow n = true ↔ Claims.CanGrow s n := by
  simp [State.canGrow, Claims.CanGrow]

/-- A growth keeps what stands below and adds blocks of zeros, whatever the stream does to its own marks. -/
theorem grown_of_growBy {s t : State} (n : Nat) (hblocks : t.warp.blocks = s.warp.blocks + n)
    (hv : t.warp.v = (s.warp.keepBlocks s.warp.blocks).v) (hempty : t.warp.empty = (s.warp.keepBlocks s.warp.blocks).empty)
    (hpoison : t.warp.poison = (s.warp.keepBlocks s.warp.blocks).poison) : Claims.Grown s t n := by
  have hvreg (r l : Nat) (hl : l < 32) : t.vreg r l = if r < 16 * s.warp.blocks then s.vreg r l else 0 := by
    rw [State.vreg, hv]
    exact get_keepBlocks s.warp _ r l hl
  have hbit (r : Nat) (hr : r < 192) : t.warp.empty.getLsbD r = (decide (r < 16 * s.warp.blocks) && s.warp.empty.getLsbD r) ∧
      t.warp.poison.getLsbD r = (decide (r < 16 * s.warp.blocks) && s.warp.poison.getLsbD r) := by
    rw [hempty, hpoison]
    exact ⟨getLsbD_keepMask _ _ r hr, getLsbD_keepMask _ _ r hr⟩
  refine ⟨hblocks, fun r hr => ?_⟩
  obtain ⟨hempty, hpoison⟩ := hbit r hr
  split
  · next hold => exact ⟨fun l hl => by rw [hvreg r l hl, if_pos hold], by simp [hempty, hold], by simp [hpoison, hold]⟩
  · next hnew => exact ⟨fun l hl => by rw [hvreg r l hl, if_neg hnew], by simp [hempty, hnew], by simp [hpoison, hnew]⟩

section
variable {s : State} {n : BitVec 4} (hn : n ≠ 0)
include hn

theorem toNat_ne_zero_of_ne : n.toNat ≠ 0 := fun h => hn (BitVec.eq_of_toNat_eq h)

theorem exec_vgrow_beyond (h : 12 < s.warp.blocks + n.toNat) :
    exec (.vgrow n) s = .next (s.trapScalar Code.registerBlock 0 (growDetail s.warp.blocks n.toNat)) :=
  (if_neg (toNat_ne_zero_of_ne hn)).trans (if_pos h)

theorem exec_vgrow_grows (h : s.warp.blocks + n.toNat ≤ 12) (hgrow : Claims.CanGrow s n.toNat) :
    exec (.vgrow n) s = .next (s.growBy n.toNat).retire :=
  (if_neg (toNat_ne_zero_of_ne hn)).trans ((if_neg (Nat.not_lt.mpr h)).trans (if_pos ((canGrow_iff s _).mpr hgrow)))

theorem exec_vgrow_waits (h : s.warp.blocks + n.toNat ≤ 12) (hgrow : ¬ Claims.CanGrow s n.toNat) :
    ∃ place, exec (.vgrow n) s = .next ((s.onWarp (fun w => { w with growWait := some place })).waitScalar 4) :=
  ⟨_, (if_neg (toNat_ne_zero_of_ne hn)).trans ((if_neg (Nat.not_lt.mpr h)).trans (if_neg (mt (canGrow_iff s _).mp hgrow)))⟩

theorem exec_vgrowTry_grows (d : SReg) (h : s.warp.blocks + n.toNat ≤ 12) (hgrow : Claims.CanGrow s n.toNat) :
    exec (.vgrowTry d n) s = .next (((s.growBy n.toNat).writeS d 1).retire) := by
  have hfits : ¬ (decide (12 < s.warp.blocks + n.toNat) || !s.canGrow n.toNat) = true := by
    simp [(canGrow_iff s _).mpr hgrow, h]
  exact (if_neg (toNat_ne_zero_of_ne hn)).trans (if_neg hfits)

theorem exec_vgrowTry_fails (d : SReg) (h : 12 < s.warp.blocks + n.toNat ∨ ¬ Claims.CanGrow s n.toNat) :
    exec (.vgrowTry d n) s = .next ((s.writeS d 0).retire) := by
  have hfails : (decide (12 < s.warp.blocks + n.toNat) || !s.canGrow n.toNat) = true := by
    rw [← canGrow_iff, Bool.not_eq_true] at h
    simpa using h
  exact (if_neg (toNat_ne_zero_of_ne hn)).trans (if_pos hfails)

theorem exec_vshrink_beyond (h : s.warp.blocks ≤ n.toNat) :
    exec (.vshrink n) s = .next (s.trapScalar Code.registerBlock 0 (growDetail s.warp.blocks n.toNat)) :=
  (if_neg (toNat_ne_zero_of_ne hn)).trans (if_pos (by omega))

/-- VSHRINK with no lane access under way and no fill that reaches the blocks. -/
theorem exec_vshrink_shrinks (h : n.toNat < s.warp.blocks) (hcheck : s.warp.check = .idle) (hpark : s.warp.parkL = none)
    (hrob : s.warp.rob = []) (hfill : ∀ f ∈ s.warp.fills, 16 * (s.warp.blocks - n.toNat) ≤ f.reg → f.arrived = f.lanes) :
    exec (.vshrink n) s = .next ((s.onWarp (fun w => { w.keepBlocks (s.warp.blocks - n.toNat) with
      blocks := s.warp.blocks - n.toNat })).retire) := by
  have hfree : ¬ (s.warp.check != .idle || s.warp.parkL.isSome || !s.warp.rob.isEmpty ||
      s.warp.fills.any (fun f => decide (16 * (s.warp.blocks - n.toNat) ≤ f.reg) && f.arrived != f.lanes)) = true := by
    simpa [hcheck, hpark, hrob] using hfill
  exact (if_neg (toNat_ne_zero_of_ne hn)).trans ((if_neg (by omega)).trans (if_neg hfree))

end

/-- A growth changes the register file, and a write of the flag of TRY a scalar register besides. -/
theorem fileOnly_growBy_writeS (s : State) (n : Nat) (d : SReg) (x : W64) : Claims.FileOnly s (((s.growBy n).writeS d x).retire) := by
  by_cases hd : d = 0 <;> simp only [State.writeS, hd, if_true, if_false] <;> exact ⟨rfl, fun _ => rfl⟩

theorem grown_growBy_writeS (s : State) (n : Nat) (d : SReg) (x : W64) : Claims.Grown s (((s.growBy n).writeS d x).retire) n := by
  have hwarp := State.writeS_warp (s.growBy n) d x
  exact grown_of_growBy n (congrArg Warp.blocks hwarp :) (congrArg Warp.v hwarp :) (congrArg Warp.empty hwarp :) (congrArg Warp.poison hwarp :)

/-- Settles O15: each form is decided by its checks; what a growth or a shrinking keeps is what `keepBlocks` keeps. -/
theorem registerBlocksGrowAndShrink : Obligations.RegisterBlocksGrowAndShrink := by
  refine ⟨fun n d s hn => ⟨exec_vgrow_beyond hn, fun h hgrow => ?grows, fun h hgrow => ?waits, fun h hgrow => ?tryGrows,
      fun h => ?tryFails⟩,
    fun n s hn => ⟨exec_vshrink_beyond hn, fun h hcheck hpark hrob hfill => ?shrinks⟩⟩
  case grows => exact ⟨_, exec_vgrow_grows hn h hgrow, rfl, fileOnly_growBy_writeS s _ 0 0, grown_growBy_writeS s _ 0 0, fun _ => rfl⟩
  case waits =>
    obtain ⟨place, hexec⟩ := exec_vgrow_waits hn h hgrow
    refine ⟨_, hexec, ?_⟩
    rw [State.waitScalar_warp, State.onWarp_warp, State.waitScalar_dev, State.onWarp_dev]
    exact ⟨rfl, rfl, rfl, rfl, rfl, rfl⟩
  case tryGrows =>
    exact ⟨_, exec_vgrowTry_grows hn d h hgrow, retire_writeS_spc _ _ _ _, fileOnly_growBy_writeS s _ d 1, grown_growBy_writeS s _ d 1,
      wrote_writeS_retire (s.growBy n.toNat) d 1 1⟩
  case tryFails =>
    exact ⟨_, exec_vgrowTry_fails hn d h, retire_writeS_spc _ _ _ _, scalarOnly_writeS_retire s d 0 1, wrote_writeS_retire s d 0 1⟩
  case shrinks =>
    exact ⟨_, exec_vshrink_shrinks hn h hcheck hpark hrob hfill, rfl, ⟨rfl, fun _ => rfl⟩, rfl, fun _ => rfl,
      fun r hr l hl => (get_keepBlocks s.warp _ r l hl).trans (if_pos hr)⟩

end Sys2Proof.Machine
end

section
/-!
PROOFS. The lane moves, the byte swizzle, the integer instructions and SEL: the model's functions of words as the rules' arithmetic of
naturals and integers (06:R118 to R122, R127).
-/

namespace Sys2Proof.Machine

open Sys2Proof

/-! ### Functions of words -/

section
variable (x y : W32)

/-! Saturation (06:R120). -/

theorem addSat_eq (u : Bool) : addSat u x y =
    if u then Claims.n32 (min (x.toNat + y.toNat) (2 ^ 32 - 1)) else Claims.clamp32 (x.toInt + y.toInt) := by
  cases u with
  | false => rfl
  | true =>
    have hmin : max 0 (min ((x.toNat : Int) + y.toNat) (2 ^ 32 - 1)) = ((min (x.toNat + y.toNat) (2 ^ 32 - 1) : Nat) : Int) := by omega
    exact (congrArg (BitVec.ofInt 32) hmin).trans (BitVec.ofInt_natCast 32 _)
theorem subSat_eq (u : Bool) : subSat u x y =
    if u then Claims.n32 (x.toNat - y.toNat) else Claims.clamp32 (x.toInt - y.toInt) := by
  cases u with
  | false => rfl
  | true =>
    have hmax : max 0 (min ((x.toNat : Int) - y.toNat) (2 ^ 32 - 1)) = ((x.toNat - y.toNat : Nat) : Int) := by omega
    exact (congrArg (BitVec.ofInt 32) hmax).trans (BitVec.ofInt_natCast 32 _)

/-! High halves, signs and complements. -/

theorem highS_eq : highS x y = Claims.i32 (x.toInt * y.toInt / 2 ^ 32) := mulHigh_eq_ofInt x y
theorem highU_eq : highU x y = Claims.n32 (x.toNat * y.toNat / 2 ^ 32) := mulHighU_eq_ofNat x y
theorem zero_sub_eq_ofInt : 0 - x = Claims.i32 (-x.toInt) := by
  refine (BitVec.zero_sub x).trans ?_
  rw [Claims.i32, BitVec.ofInt_neg, BitVec.ofInt_toInt]
theorem abs_eq_ofInt : (if x.slt 0 then 0 - x else x) = Claims.i32 |x.toInt| := by
  have hneg : x.slt 0 = true ↔ x.toInt < 0 := BitVec.slt_iff_toInt_lt
  by_cases h : x.toInt < 0
  · rw [if_pos (hneg.mpr h), abs_of_neg h, zero_sub_eq_ofInt]
  · rw [if_neg (mt hneg.mp h), abs_of_nonneg (not_lt.mp h), Claims.i32, BitVec.ofInt_toInt]
theorem mul_add_eq_ofNat (z : W32) : x * y + z = Claims.n32 (x.toNat * y.toNat + z.toNat) := by
  rw [Claims.n32, BitVec.ofNat_add, ← mul_eq_ofNat, BitVec.ofNat_toNat, BitVec.setWidth_eq]
theorem not_eq_ofNat : ~~~x = Claims.n32 (2 ^ 32 - 1 - x.toNat) := by
  rw [Claims.n32, ← BitVec.toNat_not, BitVec.ofNat_toNat, BitVec.setWidth_eq]

/-! Minima and maxima. -/

theorem ite_ult_minU : (if y.ult x then y else x) = Claims.n32 (min x.toNat y.toNat) := by
  rw [Claims.n32, ← minU_eq_ofNat, minU]
  simp only [BitVec.ult_iff_lt]
theorem ite_ult_maxU : (if x.ult y then y else x) = Claims.n32 (max x.toNat y.toNat) := by
  rw [Claims.n32, ← maxU_eq_ofNat, maxU]
  simp only [BitVec.ult_iff_lt]

/-! Rotations. -/

/-- The two parts of a rotated word do not overlap. -/
theorem rotated_or_eq_add {k : Nat} (hk : k ≤ 32) :
    x.toNat * 2 ^ k % 2 ^ 32 ||| x.toNat / 2 ^ (32 - k) = x.toNat * 2 ^ k % 2 ^ 32 + x.toNat / 2 ^ (32 - k) := by
  have hlow : x.toNat / 2 ^ (32 - k) < 2 ^ k := by
    rw [Nat.div_lt_iff_lt_mul (by positivity), ← pow_add, Nat.add_sub_cancel' hk]
    exact x.isLt
  have hhigh : x.toNat * 2 ^ k % 2 ^ 32 = 2 ^ k * (x.toNat % 2 ^ (32 - k)) := by
    rw [Nat.mul_comm, ← Nat.mul_mod_mul_left, ← pow_add, Nat.add_sub_cancel' hk]
  rw [hhigh, Nat.two_pow_add_eq_or_of_lt hlow]
theorem rotateLeft_eq_ofNat {k : Nat} (hk : k < 32) :
    x.rotateLeft k = Claims.n32 (x.toNat * 2 ^ k % 2 ^ 32 + x.toNat / 2 ^ (32 - k)) := by
  rw [← rotated_or_eq_add x hk.le, ← Nat.shiftLeft_eq, ← Nat.shiftRight_eq_div_pow]
  refine eq_ofNat_of_toNat_eq (BitVec.toNat_rotateLeft.trans ?_)
  rw [Nat.mod_eq_of_lt hk]
theorem rotateRight_eq_ofNat {k : Nat} (hk : k < 32) :
    x.rotateRight k = Claims.n32 (x.toNat / 2 ^ k + x.toNat * 2 ^ (32 - k) % 2 ^ 32) := by
  have hparts := rotated_or_eq_add x (Nat.sub_le 32 k)
  rw [Nat.sub_sub_self hk.le] at hparts
  rw [Nat.add_comm, ← hparts, Nat.or_comm, ← Nat.shiftLeft_eq, ← Nat.shiftRight_eq_div_pow]
  refine eq_ofNat_of_toNat_eq (BitVec.toNat_rotateRight.trans ?_)
  rw [Nat.mod_eq_of_lt hk]

/-! Counts and the reversal of bits. -/

theorem leadZeros_eq_size : leadZeros x = 32 - Nat.size x.toNat := by
  obtain ⟨hle, hlt, hge⟩ := leadingZeros_leadZeros x
  have hsize : Nat.size x.toNat ≤ 32 - leadZeros x := Nat.size_le.mpr hlt
  rcases Nat.lt_or_eq_of_le hle with h | h
  · have : 32 - leadZeros x - 1 < Nat.size x.toNat := Nat.lt_size.mpr (hge h)
    omega
  · omega
theorem popCount_eq_sum : popCount x = ((List.range 32).map (fun k => x.toNat / 2 ^ k % 2)).sum := ones_popCount x

/-- A bit that is not set is added by an OR. -/
theorem toNat_or_bit {r : W32} {i : Nat} (hi : i < 32) (h : r.getLsbD i = false) : (r ||| (1#32 <<< i)).toNat = r.toNat + 2 ^ i := by
  have hdisjoint : r &&& (1#32 <<< i) = 0#32 := by
    refine BitVec.eq_of_getLsbD_eq fun j hj => ?_
    by_cases hji : j = i
    · subst hji; simp [h]
    · have : (1#32 <<< i).getLsbD j = false := by simp; omega
      simp [this]
  have hbit : (1#32 <<< i).toNat = 2 ^ i := by
    rw [BitVec.toNat_shiftLeft, Nat.shiftLeft_eq, BitVec.toNat_ofNat, Nat.mod_eq_of_lt (by decide : 1 < 2 ^ 32), one_mul,
      Nat.mod_eq_of_lt (Nat.pow_lt_pow_right (by decide) hi)]
  rw [← BitVec.add_eq_or_of_and_eq_zero _ _ hdisjoint, BitVec.toNat_add_of_and_eq_zero hdisjoint, hbit]

/-- Bits ORed one after another into different places add up. -/
theorem toNat_foldl_or_bits (p : Nat → Bool) (pos : Nat → Nat) (ks : List Nat) (r : W32) (hlt : ∀ k ∈ ks, pos k < 32)
    (hnodup : (ks.map pos).Nodup) (hfree : ∀ k ∈ ks, r.getLsbD (pos k) = false) :
    (ks.foldl (fun r k => if p k then r ||| (1#32 <<< pos k) else r) r).toNat =
      r.toNat + (ks.map (fun k => if p k then 2 ^ pos k else 0)).sum := by
  induction ks generalizing r with
  | nil => rfl
  | cons k ks ih =>
    obtain ⟨hk, hks⟩ := List.forall_mem_cons.mp hlt
    obtain ⟨hfk, hfks⟩ := List.forall_mem_cons.mp hfree
    obtain ⟨hnew, hrest⟩ := List.nodup_cons.mp hnodup
    rw [List.foldl_cons, List.map_cons, List.sum_cons, ← Nat.add_assoc]
    by_cases hp : p k = true
    · rw [if_pos hp, if_pos hp, ← toNat_or_bit hk hfk]
      refine ih _ hks hrest fun j hj => ?_
      have hne : pos j ≠ pos k := fun h => hnew (h ▸ List.mem_map_of_mem hj)
      rw [BitVec.getLsbD_or, hfks j hj]
      simp
      omega
    · rw [if_neg hp, if_neg hp]
      exact ih r hks hrest hfks

theorem bitReverse_eq_sum :
    bitReverse x = Claims.n32 ((List.range 32).map (fun k => x.toNat / 2 ^ k % 2 * 2 ^ (31 - k))).sum := by
  have hbits : (bitReverse x).toNat = _ := toNat_foldl_or_bits x.getLsbD (fun k => 31 - k) (List.range 32) 0#32
    (fun k _ => by omega) (by decide) (fun k _ => by simp)
  have hterm (k : Nat) : (if x.getLsbD k then 2 ^ (31 - k) else 0) = x.toNat / 2 ^ k % 2 * 2 ^ (31 - k) := by
    rw [BitVec.getLsbD, Nat.testBit_eq_decide_div_mod_eq]
    rcases Nat.mod_two_eq_zero_or_one (x.toNat / 2 ^ k) with h | h <;> simp [h]
  simp only [hterm, BitVec.toNat_ofNat, Nat.zero_mod, Nat.zero_add] at hbits
  exact eq_ofNat_of_toNat_eq hbits

/-! Fields (06:R122). -/

/-- A field of n bits, shifted up against the sign and back: its two's complement value. -/
theorem signedField_eq {n f : Nat} (hn : 0 < n) (hle : n ≤ 32) (hf : f < 2 ^ n) :
    ((BitVec.ofNat 32 f : W32) <<< (32 - n)).sshiftRight (32 - n) = if 2 ^ (n - 1) ≤ f then Claims.i32 ((f : Int) - 2 ^ n) else Claims.n32 f := by
  have h32 : 2 ^ n * 2 ^ (32 - n) = 2 ^ 32 := by rw [← pow_add, Nat.add_sub_cancel' hle]
  have hhalf : 2 ^ n = 2 * 2 ^ (n - 1) := by rw [← pow_succ', Nat.sub_add_cancel hn]
  have hpos : 0 < 2 ^ (32 - n) := by positivity
  have hlt : f * 2 ^ (32 - n) < 2 ^ 32 := h32 ▸ Nat.mul_lt_mul_of_pos_right hf hpos
  have htop : ((BitVec.ofNat 32 f : W32) <<< (32 - n)).toNat = f * 2 ^ (32 - n) := by
    have : f < 2 ^ 32 := hf.trans_le (Nat.pow_le_pow_right (by decide) hle)
    rw [BitVec.toNat_shiftLeft, Nat.shiftLeft_eq, BitVec.toNat_ofNat, Nat.mod_eq_of_lt this, Nat.mod_eq_of_lt hlt]
  have hsign : 2 * (f * 2 ^ (32 - n)) < 2 ^ 32 ↔ ¬ 2 ^ (n - 1) ≤ f := by
    rw [← h32, ← Nat.mul_assoc, Nat.mul_lt_mul_right hpos]
    omega
  have hpow : ((2 ^ (32 - n) : Nat) : Int) ≠ 0 := by positivity
  rw [sshiftRight_eq_ofInt, BitVec.toInt_eq_toNat_cond, htop]
  simp only [hsign]
  by_cases h : 2 ^ (n - 1) ≤ f
  · have hz : ((f * 2 ^ (32 - n) : Nat) : Int) - (2 ^ 32 : Nat) = ((f : Int) - 2 ^ n) * (2 ^ (32 - n) : Nat) := by
      rw [← h32]; push_cast; ring
    rw [if_neg (not_not.mpr h), if_pos h, hz]
    push_cast at hpow ⊢
    rw [Int.mul_ediv_cancel _ hpow]
    rfl
  · rw [if_pos h, if_neg h]
    push_cast at hpow ⊢
    rw [Int.mul_ediv_cancel _ hpow]
    exact BitVec.ofInt_natCast 32 f

theorem bitField_eq_fieldOf (u : Bool) : bitField u x y = Claims.fieldOf u x y := by
  unfold bitField Claims.fieldOf
  dsimp only
  refine ite_congr rfl (fun _ => rfl) fun h => ?_
  obtain ⟨hlen, hpos⟩ := not_or.mp h
  have hfield := signedField_eq (n := min (y.toNat / 256 % 256) (32 - y.toNat % 256))
    (f := x.toNat / 2 ^ (y.toNat % 256) % 2 ^ min (y.toNat / 256 % 256) (32 - y.toNat % 256)) (by omega) (by omega) (Nat.mod_lt _ (by positivity))
  cases u with
  | true => rfl
  | false => simpa using hfield

/-- The mask of a field. -/
theorem getLsbD_fieldMask (n pos j : Nat) (hj : j < 32) :
    (BitVec.ofNat 32 ((2 ^ n - 1) * 2 ^ pos) : W32).getLsbD j = decide (pos ≤ j ∧ j < pos + n) := by
  rw [BitVec.getLsbD_ofNat, decide_eq_true hj, Bool.true_and, Nat.testBit_mul_two_pow, Nat.testBit_two_pow_sub_one, ← Bool.decide_and]
  exact decide_eq_decide.mpr (by omega)

/-- Bit j of a word in three parts. -/
theorem testBit_inserted (a c n pos j : Nat) :
    (a % 2 ^ pos + c % 2 ^ n * 2 ^ pos + a / 2 ^ (pos + n) * 2 ^ (pos + n)).testBit j =
      if pos ≤ j ∧ j < pos + n then c.testBit (j - pos) else a.testBit j := by
  have hlow : a % 2 ^ pos < 2 ^ pos := Nat.mod_lt _ (by positivity)
  have hmid : 2 ^ pos * (c % 2 ^ n) + a % 2 ^ pos < 2 ^ (pos + n) := by
    have hc : c % 2 ^ n + 1 ≤ 2 ^ n := Nat.mod_lt _ (by positivity)
    calc 2 ^ pos * (c % 2 ^ n) + a % 2 ^ pos < 2 ^ pos * (c % 2 ^ n + 1) := by rw [Nat.mul_succ]; omega
      _ ≤ 2 ^ pos * 2 ^ n := Nat.mul_le_mul_left _ hc
      _ = 2 ^ (pos + n) := (pow_add 2 pos n).symm
  rw [show a % 2 ^ pos + c % 2 ^ n * 2 ^ pos + a / 2 ^ (pos + n) * 2 ^ (pos + n) =
    2 ^ (pos + n) * (a / 2 ^ (pos + n)) + (2 ^ pos * (c % 2 ^ n) + a % 2 ^ pos) by ring,
    Nat.testBit_two_pow_mul_add _ hmid, Nat.testBit_two_pow_mul_add _ hlow, Nat.testBit_mod_two_pow, Nat.testBit_mod_two_pow,
    Nat.testBit_div_two_pow]
  by_cases hn : j < pos + n
  · by_cases hp : j < pos
    · simp [hn, hp, Nat.not_le.mpr hp]
    · have : j - pos < n := by omega
      simp [hn, hp, Nat.not_lt.mp hp, this]
  · simp [hn, Nat.sub_add_cancel (Nat.not_lt.mp hn)]

theorem bitInsert_eq_insertOf (z : W32) : bitInsert x y z = Claims.insertOf x y z := by
  unfold bitInsert Claims.insertOf
  dsimp only
  refine ite_congr rfl (fun _ => rfl) fun _ => BitVec.eq_of_getLsbD_eq fun j hj => ?_
  rw [Claims.n32, BitVec.getLsbD_ofNat, testBit_inserted, BitVec.getLsbD_or, BitVec.getLsbD_and, BitVec.getLsbD_and, BitVec.getLsbD_not,
    getLsbD_fieldMask _ _ _ hj, BitVec.getLsbD_shiftLeft]
  by_cases h : y.toNat % 256 ≤ j ∧ j < y.toNat % 256 + min (y.toNat / 256 % 256) (32 - y.toNat % 256)
  · simp [h, hj, Nat.not_lt.mpr h.1, BitVec.getLsbD]
  · simp [h, hj, BitVec.getLsbD]

/-! The byte swizzle (06:R119). -/

theorem toNat_append_eq_add {n m : Nat} (x : BitVec n) (y : BitVec m) : (x ++ y).toNat = y.toNat + 2 ^ m * x.toNat := by
  rw [BitVec.toNat_append, ← Nat.shiftLeft_add_eq_or_of_lt y.isLt, Nat.shiftLeft_eq, Nat.mul_comm, Nat.add_comm]

theorem toNat_pair64 : (pair64 x y).toNat = x.toNat + 2 ^ 32 * y.toNat := toNat_append_eq_add y x

theorem getLsbD_eq_div_mod {n : Nat} (z : BitVec n) (k : Nat) : z.getLsbD k = true ↔ z.toNat / 2 ^ k % 2 = 1 := by
  rw [BitVec.getLsbD, Nat.testBit_eq_decide_div_mod_eq, decide_eq_true_iff]

/-- A byte of the eight, or zero. -/
def pickedByte (z : W64) (sel : BitVec 20) (k : Nat) : Byte :=
  if sel.getLsbD (12 + k) then 0 else (z >>> (8 * ((sel >>> (3 * k)).toNat % 8))).truncate 8

theorem swizzleByte_eq (z : W64) (sel : BitVec 20) (k : Nat) (prev : Byte) : swizzleByte z sel k prev =
    if 0 < k && sel.getLsbD (16 + k) then (if prev.getLsbD 7 then 0xFF else 0) else pickedByte z sel k := rfl

theorem toNat_pickedByte (z : W64) (sel : BitVec 20) (k : Nat) : (pickedByte z sel k).toNat =
    if sel.toNat / 2 ^ (12 + k) % 2 = 1 then 0 else z.toNat / 256 ^ (sel.toNat / 8 ^ k % 8) % 256 := by
  have hbyte (i : Nat) : ((z >>> (8 * i)).truncate 8 : Byte).toNat = z.toNat / 256 ^ i % 256 := by
    rw [BitVec.truncate_eq_setWidth, BitVec.toNat_setWidth, BitVec.toNat_ushiftRight, Nat.shiftRight_eq_div_pow, pow_mul]
    rfl
  have hsel : (sel >>> (3 * k)).toNat = sel.toNat / 8 ^ k := by
    rw [BitVec.toNat_ushiftRight, Nat.shiftRight_eq_div_pow, pow_mul]
    rfl
  rw [pickedByte]
  simp only [getLsbD_eq_div_mod]
  split
  · rfl
  · rw [hbyte, hsel]

theorem toNat_swizzleByte_zero (z : W64) (sel : BitVec 20) (prev : Byte) :
    (swizzleByte z sel 0 prev).toNat = Claims.swizByte z.toNat sel.toNat 0 := by
  rw [swizzleByte_eq, if_neg (by simp), toNat_pickedByte, pow_zero, Nat.div_one]
  rfl

theorem toNat_swizzleByte_succ {z : W64} {sel : BitVec 20} {k : Nat} {prev : Byte} (h : prev.toNat = Claims.swizByte z.toNat sel.toNat k) :
    (swizzleByte z sel (k + 1) prev).toNat = Claims.swizByte z.toNat sel.toNat (k + 1) := by
  have hsign : prev.getLsbD 7 = true ↔ 128 ≤ Claims.swizByte z.toNat sel.toNat k := by
    rw [getLsbD_eq_div_mod, ← h]
    omega
  rw [swizzleByte_eq, Claims.swizByte, show 17 + k = 16 + (k + 1) by omega, show 13 + k = 12 + (k + 1) by omega, ← toNat_pickedByte]
  simp only [Nat.succ_pos, decide_true, Bool.true_and, getLsbD_eq_div_mod _ (16 + (k + 1)), hsign]
  split
  · split <;> rfl
  · rfl

theorem swizzle_eq_swizOf (sel : BitVec 20) : swizzle x y sel = Claims.swizOf x y sel.toNat := by
  have h0 := toNat_swizzleByte_zero (pair64 x y) sel 0
  have h1 : (swizzleByte (pair64 x y) sel 1 _).toNat = Claims.swizByte (pair64 x y).toNat sel.toNat 1 := toNat_swizzleByte_succ h0
  have h2 : (swizzleByte (pair64 x y) sel 2 _).toNat = Claims.swizByte (pair64 x y).toNat sel.toNat 2 := toNat_swizzleByte_succ h1
  have h3 : (swizzleByte (pair64 x y) sel 3 _).toNat = Claims.swizByte (pair64 x y).toNat sel.toNat 3 := toNat_swizzleByte_succ h2
  refine eq_ofNat_of_toNat_eq ?_
  simp only [swizzle, toNat_append_eq_add, h3]
  rw [h2, h1, h0, toNat_pair64]
  omega

/-! Division, shifts by the low five bits, selection. -/

theorem idivu_eq : (if y = 0 then 0xFFFFFFFF else x / y) =
    if y.toNat = 0 then Claims.n32 (2 ^ 32 - 1) else Claims.n32 (x.toNat / y.toNat) := divU_eq_ofNat x y
theorem iremu_eq : (if y = 0 then x else x % y) = if y.toNat = 0 then x else Claims.n32 (x.toNat % y.toNat) := remU_eq_ofNat x y

theorem ite_xor_neg (b neg : Bool) : (if Bool.xor b neg then x else y) = if b = neg then y else x := by
  cases b <;> cases neg <;> rfl
end

/-! ### A lane word runs its body and retires, and a half of a pair runs its body (01:R12) -/

theorem laneRun_goes {i : Instr} {h : Half} {s : State} (hgo : Claims.Goes i h s) (body : State → State) :
    s.laneRun (Instr.use i) h body = Claims.finished h (body s) := by
  cases h with
  | single => exact laneRun_go s _ body (hgo rfl)
  | x => rfl
  | y => rfl

/-- A lane word that goes is what its body leaves, and retires. -/
theorem laneRun_next {i : Instr} {s t : State} {body : State → State} (hgo : (Instr.use i).gate s = .go) (hbody : body s = t) :
    (.next (s.laneRun (Instr.use i) .single body) : Result) = .next t.retireLane := by
  rw [laneRun_go s _ body hgo, hbody]

section
variable {i : Instr} {h : Half} {g : Guard} {d : Dest} {s : State} {a b c : Value}

/-- A form of one, two or three sources writes what its function gives, however the function is written. -/
theorem int1_writes {f f' : W32 → W32} (hf : ∀ x, f x = f' x) (hgo : Claims.Goes i .single s) :
    s.int1 i g d a f = .next (Claims.finished .single (Claims.LaneForm.write ⟨.single, g, d, [a], Claims.on1 f'⟩ s)) := by
  obtain rfl : f = f' := funext hf
  exact congrArg _ (laneRun_goes hgo _)
theorem int2_writes {f f' : W32 → W32 → W32} (hf : ∀ x y, f x y = f' x y) (hgo : Claims.Goes i h s) :
    s.int2 i h g d a b f = .next (Claims.finished h (Claims.LaneForm.write ⟨h, g, d, [a, b], Claims.on2 f'⟩ s)) := by
  obtain rfl : f = f' := funext₂ hf
  exact congrArg _ (laneRun_goes hgo _)
theorem int3_writes {f f' : W32 → W32 → W32 → W32} (hf : ∀ x y z, f x y z = f' x y z) (hgo : Claims.Goes i .single s) :
    s.int3 i g d a b c f = .next (Claims.finished .single (Claims.LaneForm.write ⟨.single, g, d, [a, b, c], Claims.on3 f'⟩ s)) := by
  obtain rfl : f = f' := funext₃ hf
  exact congrArg _ (laneRun_goes hgo _)

end

theorem shiftOf_lt (y : W32) : shiftOf y < 32 := Nat.mod_lt _ (by decide)

theorem exec_intForm {i : Instr} {F : Claims.LaneForm} {s : State} (h : Claims.intForm s i = some F) (hgo : Claims.Goes i F.h s) :
    exec i s = .next (Claims.finished F.h (F.write s)) := by
  revert h hgo
  fun_cases Claims.intForm s i <;> intro h
  case case1 => cases h; exact fun hgo => congrArg _ (laneRun_goes hgo _)  -- MOV
  case case2 => cases h; exact fun hgo => congrArg _ (laneRun_goes hgo _)  -- MOVI
  case case3 => cases h; exact int2_writes (fun x y => swizzle_eq_swizOf x y _)  -- BSWZ, its selector an immediate
  case case4 =>  -- BSWZ, its selector a source
    cases h
    exact int3_writes (fun x y z => (swizzle_eq_swizOf x y _).trans (by rw [BitVec.truncate_eq_setWidth, BitVec.toNat_setWidth]))
  case case5 => cases h; exact int2_writes add_eq_ofNat  -- IADD
  case case6 => cases h; exact int2_writes sub_eq_ofInt  -- ISUB
  case case7 u _ _ _ => cases h; exact int2_writes (fun x y => addSat_eq x y u)  -- IADDS
  case case8 u _ _ _ => cases h; exact int2_writes (fun x y => subSat_eq x y u)  -- ISUBS
  case case9 => cases h; exact int2_writes mul_eq_ofNat  -- IMUL
  case case10 => cases h; exact int2_writes highS_eq  -- IMULH
  case case11 => cases h; exact int2_writes highU_eq  -- IMULHU
  case case12 => cases h; exact int3_writes mul_add_eq_ofNat  -- IMAD
  case case13 => cases h; exact int2_writes minS_eq_ofInt  -- IMIN
  case case14 => cases h; exact int2_writes maxS_eq_ofInt  -- IMAX
  case case15 => cases h; exact int2_writes ite_ult_minU  -- IMINU
  case case16 => cases h; exact int2_writes ite_ult_maxU  -- IMAXU
  case case17 => cases h; exact int1_writes abs_eq_ofInt  -- IABS
  case case18 => cases h; exact int1_writes zero_sub_eq_ofInt  -- INEG
  case case19 => cases h; exact int2_writes and_eq_ofNat  -- AND
  case case20 => cases h; exact int2_writes or_eq_ofNat  -- OR
  case case21 => cases h; exact int2_writes xor_eq_ofNat  -- XOR
  case case22 => cases h; exact int2_writes andn_eq_ofNat  -- ANDN
  case case23 => cases h; exact int1_writes not_eq_ofNat  -- NOT
  case case24 => cases h; exact int2_writes (fun x _ => shiftLeft_eq_ofNat x _)  -- SHL
  case case25 => cases h; exact int2_writes (fun x _ => ushiftRight_eq_ofNat x _)  -- SHR
  case case26 => cases h; exact int2_writes (fun x _ => sshiftRight_eq_ofInt x _)  -- SAR
  case case27 => cases h; exact int2_writes (fun x y => rotateLeft_eq_ofNat x (shiftOf_lt y))  -- ROL
  case case28 => cases h; exact int2_writes (fun x y => rotateRight_eq_ofNat x (shiftOf_lt y))  -- ROR
  case case29 => cases h; exact int1_writes (fun x => congrArg Claims.n32 (leadZeros_eq_size x))  -- CLZ
  case case30 => cases h; exact int1_writes (fun x => congrArg Claims.n32 (popCount_eq_sum x))  -- POPC
  case case31 => cases h; exact int1_writes bitReverse_eq_sum  -- BREV
  case case32 u _ _ _ => cases h; exact int2_writes (fun x y => bitField_eq_fieldOf x y u)  -- BFX
  case case33 => cases h; exact int3_writes bitInsert_eq_insertOf  -- BFI
  case case34 => cases h; exact int2_writes idivu_eq  -- IDIVU
  case case35 => cases h; exact int2_writes iremu_eq  -- IREMU
  case case36 neg k d a b =>  -- SEL
    cases h
    intro hgo
    refine (congrArg _ (laneRun_goes hgo _)).trans ?_
    simp only [State.lane2, predBit_eq_predOf, ite_xor_neg]
    rfl
  case case37 => exact nomatch h  -- no integer form

/-- Settles O36: each form runs its function of the sources' values, and the model's functions are the rules' arithmetic. -/
theorem laneIntegerInstructionsWriteTheirValue : Obligations.LaneIntegerInstructionsWriteTheirValue :=
  fun _ _ _ h hgo => exec_intForm h hgo

end Sys2Proof.Machine
end

section
/-!
PROOFS. Lane compares, predicate logic, carries and masks: the fields and the order of FP32 words, FCMP's flag, the sum of IADDC, and
what a write of a predicate leaves (06:R121, R123 to R126, R128; 07:R137).
-/

namespace Sys2Proof.Machine

open Sys2Proof

/-! ### FP32 words (07:R137, R138) -/

/-- The fields of an FP32 word give its class and its value. -/
theorem fpOf_f32 (x : W32) : fpOf .f32 x.toNat =
    if x.toNat % 2 ^ 31 / 2 ^ 23 = 255 then
      (if x.toNat % 2 ^ 31 % 2 ^ 23 = 0 then .inf (decide (2 ^ 31 ≤ x.toNat))
        else .nan (decide (x.toNat % 2 ^ 31 % 2 ^ 23 < 2 ^ 22)))
    else if x.toNat % 2 ^ 31 / 2 ^ 23 = 0 then .fin (decide (2 ^ 31 ≤ x.toNat)) (x.toNat % 2 ^ 31 % 2 ^ 23) (-149)
    else .fin (decide (2 ^ 31 ≤ x.toNat)) (2 ^ 23 + x.toNat % 2 ^ 31 % 2 ^ 23) ((x.toNat % 2 ^ 31 / 2 ^ 23 : Nat) - 150) := by
  have hneg : (x.toNat / 2 ^ 31 % 2 == 1) = decide (2 ^ 31 ≤ x.toNat) := by
    rw [Bool.eq_iff_iff, beq_iff_eq, decide_eq_true_iff]
    omega
  have hexp (e : Int) : e - 127 - 23 = e - 150 := by omega
  simp only [← hneg, ← hexp]
  rfl

theorem isNan_fpOf (x : W32) : (fpOf .f32 x.toNat).isNan = Claims.nan32 x := by
  rw [fpOf_f32, Claims.nan32]
  split_ifs with htop hmant hzero
  · exact (decide_eq_false (by omega)).symm
  · exact (decide_eq_true (by omega)).symm
  · exact (decide_eq_false (by omega)).symm
  · exact (decide_eq_false (by omega)).symm

theorem isSnan_fpOf (x : W32) : (fpOf .f32 x.toNat).isSnan = Claims.snan32 x := by
  rw [fpOf_f32, Claims.snan32, Claims.nan32, ← Bool.decide_and]
  split_ifs with htop hmant hzero
  · exact (decide_eq_false (by omega)).symm
  · exact decide_eq_decide.mpr (by omega)
  · exact (decide_eq_false (by omega)).symm
  · exact (decide_eq_false (by omega)).symm

/-! ### The order of FP32 numbers (06:R124) -/

/-- The magnitude whose low 31 bits are b, in units of the smallest one: significand and power of two. -/
def sig32 (b : Nat) : Nat := if b / 2 ^ 23 = 0 then b % 2 ^ 23 else 2 ^ 23 + b % 2 ^ 23
def exp32 (b : Nat) : Nat := b / 2 ^ 23 - 1
def mag32 (b : Nat) : Nat := sig32 b * 2 ^ exp32 b

theorem mag32_strictMono : StrictMono mag32 := by
  refine strictMono_nat_of_lt_succ fun b => ?_
  unfold mag32 sig32 exp32
  by_cases hcarry : b % 2 ^ 23 = 2 ^ 23 - 1
  · have hdiv : (b + 1) / 2 ^ 23 = b / 2 ^ 23 + 1 := by omega
    have hmod : (b + 1) % 2 ^ 23 = 0 := by omega
    rw [hdiv, hmod, if_neg (Nat.succ_ne_zero _), hcarry]
    cases b / 2 ^ 23 with
    | zero => decide
    | succ e =>
      rw [if_neg (Nat.succ_ne_zero _), Nat.add_sub_cancel, Nat.add_sub_cancel, pow_succ 2 e]
      have := Nat.two_pow_pos e
      omega
  · have hdiv : (b + 1) / 2 ^ 23 = b / 2 ^ 23 := by omega
    have hmod : (b + 1) % 2 ^ 23 = b % 2 ^ 23 + 1 := by omega
    rw [hdiv, hmod]
    refine Nat.mul_lt_mul_of_pos_right ?_ (by positivity)
    split_ifs <;> omega

/-- A finite word is its magnitude with its sign. -/
theorem fpOf_finite {x : W32} (h : x.toNat % 2 ^ 31 < 0x7F800000) : fpOf .f32 x.toNat =
    .fin (decide (2 ^ 31 ≤ x.toNat)) (sig32 (x.toNat % 2 ^ 31)) ((exp32 (x.toNat % 2 ^ 31) : Nat) - 149) := by
  rw [fpOf_f32, if_neg (by omega), sig32, exp32]
  split_ifs with hzero
  · rw [hzero]; rfl
  · congr 1; omega

theorem fpOf_infinite {x : W32} (h : x.toNat % 2 ^ 31 = 0x7F800000) : fpOf .f32 x.toNat = .inf (decide (2 ^ 31 ≤ x.toNat)) := by
  rw [fpOf_f32, if_pos (by omega), if_pos (by omega)]

/-- The value of a finite word in units of the smallest magnitude. -/
def value32 (neg : Bool) (b : Nat) : Int := if neg then -(mag32 b : Int) else mag32 b

/-- A term in units of 2^e, e no more than its exponent. -/
theorem sumAt_single {neg : Bool} {b : Nat} {e : Int} (he : sig32 b ≠ 0 → e ≤ (exp32 b : Int) - 149) (hlow : -149 ≤ e) :
    sumAt e ([Fp.fin neg (sig32 b) ((exp32 b : Int) - 149)].filter (fun t => !t.isZero)) * 2 ^ (e + 149).toNat = value32 neg b := by
  by_cases hzero : sig32 b = 0
  · simp [Fp.isZero, hzero, sumAt, value32, mag32]
  · have hexp : ((exp32 b : Int) - 149 - e).toNat + (e + 149).toNat = exp32 b := by
      have := he hzero
      omega
    have hmag : sig32 b * 2 ^ ((exp32 b : Int) - 149 - e).toNat * 2 ^ (e + 149).toNat = mag32 b := by
      rw [Nat.mul_assoc, ← pow_add, hexp, mag32]
    have hsum : sumAt e ([Fp.fin neg (sig32 b) ((exp32 b : Int) - 149)].filter (fun t => !t.isZero)) =
        if neg then -((sig32 b * 2 ^ ((exp32 b : Int) - 149 - e).toNat : Nat) : Int)
        else (sig32 b * 2 ^ ((exp32 b : Int) - 149 - e).toNat : Nat) := by
      simp [Fp.isZero, hzero, sumAt]
    rw [hsum, value32, ← hmag]
    cases neg <;> simp

/-- The exponent to which two finite words are brought. -/
theorem minExp_pair {n n' : Bool} {a b : Nat} {e : Int}
    (he : minExp [.fin n (sig32 a) ((exp32 a : Int) - 149), .fin n' (sig32 b) ((exp32 b : Int) - 149)] 4096 = e) :
    -149 ≤ e ∧ (sig32 a ≠ 0 → e ≤ (exp32 a : Int) - 149) ∧ (sig32 b ≠ 0 → e ≤ (exp32 b : Int) - 149) := by
  simp only [minExp] at he
  split_ifs at he <;> omega

theorem fpLt_finite {n n' : Bool} {a b : Nat} (ha : a < 0x7F800000) (hb : b < 0x7F800000) :
    fpLt (.fin n (sig32 a) ((exp32 a : Int) - 149)) (.fin n' (sig32 b) ((exp32 b : Int) - 149)) = decide (value32 n a < value32 n' b) := by
  rw [fpLt]
  generalize he : minExp _ 4096 = e
  obtain ⟨hlow, hea, heb⟩ := minExp_pair he
  have hunit : -149 ≤ (if e = 4096 then 0 else e) ∧ (sig32 a ≠ 0 → (if e = 4096 then 0 else e) ≤ (exp32 a : Int) - 149) ∧
      (sig32 b ≠ 0 → (if e = 4096 then 0 else e) ≤ (exp32 b : Int) - 149) := by
    have hxa : exp32 a ≤ 254 := by unfold exp32; omega
    have hxb : exp32 b ≤ 254 := by unfold exp32; omega
    split_ifs <;> omega
  revert hunit
  generalize (if e = 4096 then 0 else e) = u
  rintro ⟨hu, hua, hub⟩
  have hpos : (0 : Int) < 2 ^ (u + 149).toNat := by positivity
  rw [decide_eq_decide, ← sumAt_single hua hu, ← sumAt_single hub hu, Int.mul_lt_mul_right hpos]

/-- Two finite words compare as the numbers that order them. -/
theorem value32_lt_iff (n n' : Bool) (a b : Nat) :
    value32 n a < value32 n' b ↔ (if n then -(a : Int) else a) < (if n' then -(b : Int) else b) := by
  have hab := mag32_strictMono.lt_iff_lt (a := a) (b := b)
  have hba := mag32_strictMono.lt_iff_lt (a := b) (b := a)
  have ha := mag32_strictMono.lt_iff_lt (a := 0) (b := a)
  have hb := mag32_strictMono.lt_iff_lt (a := 0) (b := b)
  have h0 : mag32 0 = 0 := rfl
  cases n <;> cases n' <;> simp only [value32, if_true, if_false, Bool.false_eq_true] <;> omega

theorem key32_eq (x : W32) : Claims.key32 x =
    if decide (2 ^ 31 ≤ x.toNat) = true then -((x.toNat % 2 ^ 31 : Nat) : Int) else (x.toNat % 2 ^ 31 : Nat) := by
  simp only [Claims.key32, decide_eq_true_eq]
  split <;> omega

theorem fpLt_of_nan {a b : Fp} (h : (a.isNan || b.isNan) = true) : fpLt a b = false := by
  cases a <;> cases b <;> simp_all [Fp.isNan, fpLt]

/-- The order of FP32 words; a NaN stands in none. -/
theorem fpLt_fpOf (x y : W32) : fpLt (fpOf .f32 x.toNat) (fpOf .f32 y.toNat) =
    (!(Claims.nan32 x || Claims.nan32 y) && decide (Claims.key32 x < Claims.key32 y)) := by
  have hclass {z : W32} (hz : Claims.nan32 z = false) : z.toNat % 2 ^ 31 = 0x7F800000 ∨ z.toNat % 2 ^ 31 < 0x7F800000 := by
    have := of_decide_eq_false hz
    omega
  cases hnan : Claims.nan32 x || Claims.nan32 y with
  | true => exact fpLt_of_nan (by rwa [isNan_fpOf, isNan_fpOf])
  | false =>
    obtain ⟨hx, hy⟩ := Bool.or_eq_false_iff.mp hnan
    rw [key32_eq, key32_eq]
    rcases hclass hx with hx | hx <;> rcases hclass hy with hy | hy
    · rw [fpOf_infinite hx, fpOf_infinite hy, hx, hy]
      cases decide (2 ^ 31 ≤ x.toNat) <;> cases decide (2 ^ 31 ≤ y.toNat) <;> rfl
    · rw [fpOf_infinite hx, fpOf_finite hy, hx]
      cases decide (2 ^ 31 ≤ x.toNat) <;> cases decide (2 ^ 31 ≤ y.toNat) <;> simp [fpLt] <;> omega
    · rw [fpOf_finite hx, fpOf_infinite hy, hy]
      cases decide (2 ^ 31 ≤ x.toNat) <;> cases decide (2 ^ 31 ≤ y.toNat) <;> simp [fpLt] <;> omega
    · rw [fpOf_finite hx, fpOf_finite hy, fpLt_finite hx hy]
      exact decide_eq_decide.mpr (value32_lt_iff _ _ _ _)

theorem fpEq_fpOf (x y : W32) : fpEq (fpOf .f32 x.toNat) (fpOf .f32 y.toNat) =
    (!(Claims.nan32 x || Claims.nan32 y) && decide (Claims.key32 x = Claims.key32 y)) := by
  have heq : decide (Claims.key32 x = Claims.key32 y) =
      (!decide (Claims.key32 x < Claims.key32 y) && !decide (Claims.key32 y < Claims.key32 x)) := by
    rw [← decide_not, ← decide_not, ← Bool.decide_and, decide_eq_decide]
    omega
  rw [fpEq, fpLt_fpOf, fpLt_fpOf, isNan_fpOf, isNan_fpOf, heq]
  cases Claims.nan32 x <;> cases Claims.nan32 y <;> simp

/-- Words that stand in an order, and not the other way round. -/
theorem not_and_not_lt (un lt : Bool) : (!un && !(!un && lt)) = (!un && !lt) := by cases un <;> rfl

/-- FCMP's conditions are the rules' ones. -/
theorem fcond_holds_eq (cc : FCond) (x y : W32) : FCond.holds cc x y = Claims.fcondOf cc x y := by
  have hle (a b : Int) : decide (a ≤ b) = !decide (b < a) := by rw [← decide_not, decide_eq_decide, not_lt]
  cases cc
  case eq => exact fpEq_fpOf x y
  case ne => exact (congrArg (!·) (fpEq_fpOf x y)).trans (by simp [Claims.fcondOf])
  case lt => exact fpLt_fpOf x y
  case le =>
    simp only [FCond.holds, Claims.fcondOf, isNan_fpOf, fpLt_fpOf, hle]
    rw [Bool.or_comm (Claims.nan32 y), not_and_not_lt]
  case gt => exact (fpLt_fpOf y x).trans (by rw [Bool.or_comm]; rfl)
  case ge =>
    simp only [FCond.holds, Claims.fcondOf, isNan_fpOf, fpLt_fpOf, hle]
    rw [not_and_not_lt]
  case un => simp only [FCond.holds, Claims.fcondOf, isNan_fpOf]
  case ord => simp only [FCond.holds, Claims.fcondOf, isNan_fpOf]

theorem icond_holds_eq (cc : ICond) (x y : W32) : ICond.holds cc x y = Claims.icondOf cc x y := by
  have heq : (x == y) = decide (x.toNat = y.toNat) := by
    rw [Bool.eq_iff_iff, beq_iff_eq, decide_eq_true_iff, BitVec.toNat_inj]
  cases cc
  case eq => exact heq
  case ne => exact (congrArg (!·) heq).trans (decide_not).symm
  all_goals rfl

/-! ### Flags (01:R31) -/

theorem orFlags_zero (s : State) : s.orFlags 0 = s := by simp [State.orFlags, State.onWarp]

/-- A flag of one bit is set where some lane of the mask sets it. -/
theorem flagsOf_ite (m : Mask) (p : Nat → Bool) :
    flagsOf m (fun l => if p l then 1 else 0) = if (List.range 32).any (fun l => m.has l && p l) then 1 else 0 := by
  have hfold (ls : List Nat) (f : FFlags) :
      ls.foldl (fun acc l => acc ||| if p l then (1 : FFlags) else 0) f = f ||| if ls.any p then 1 else 0 := by
    induction ls generalizing f with
    | nil => simp
    | cons l ls ih =>
      rw [List.foldl_cons, ih, List.any_cons, BitVec.or_assoc]
      cases p l <;> cases ls.any p <;> rfl
  rw [flagsOf, hfold, Mask.lanes, List.any_filter]
  exact BitVec.zero_or

theorem flagsOf_zero (m : Mask) : flagsOf m (fun _ => 0) = 0 := by
  simpa using flagsOf_ite m (fun _ => false)

theorem snanFlag_pair (x y : W32) : snanFlag [fpOf .f32 x.toNat, fpOf .f32 y.toNat] = if Claims.snan32 x || Claims.snan32 y then 1 else 0 := by
  simp only [snanFlag, List.any_cons, List.any_nil, isSnan_fpOf, Bool.or_false]
  rfl

/-! ### Compares and predicates (06:R123 to R126) -/

/-- What FCMP alone sets in FPSTAT. -/
def compareFlags (s : State) (m : Mask) : Instr → FFlags
  | .fcmp _ _ _ a b => Claims.cmpFlags m (s.readSrc (m != 0) a).2 ((s.readSrc (m != 0) a).1.readSrc (m != 0) b).2
  | _ => 0

/-- The predicate of two sources. -/
theorem compare_eq (s : State) (g : Guard) (p : Pred) (a b : Value) {f f' : W32 → W32 → Bool} (fl : W32 → W32 → FFlags)
    (hf : ∀ x y, f x y = f' x y) :
    s.compare g p a b f fl = ((Claims.readAll s (s.active g != 0) [a, b]).1.writeP p (s.active g)
      (fun l => f' ((s.readSrc (s.active g != 0) a).2 l) (((s.readSrc (s.active g != 0) a).1.readSrc (s.active g != 0) b).2 l))).orFlags
        (flagsOf (s.active g) (fun l => fl ((s.readSrc (s.active g != 0) a).2 l)
          (((s.readSrc (s.active g != 0) a).1.readSrc (s.active g != 0) b).2 l))) := by
  obtain rfl : f = f' := funext₂ hf
  rfl

/-- A predicate of predicates or of one source, which sets no flag. -/
theorem writeP_congr (s : State) (p : Pred) (m : Mask) {b b' : Nat → Bool} (hb : ∀ l, b l = b' l) :
    s.writeP p m b = (s.writeP p m b').orFlags 0 := by
  rw [orFlags_zero, funext hb]

theorem xor_eq_decide_ne (x y : Bool) : Bool.xor x y = decide (x ≠ y) := by cases x <;> cases y <;> rfl

theorem exec_predForm {i : Instr} {g : Guard} {p : Pred} {srcs : List Value} {f : Nat → List W32 → Bool} {s : State}
    (h : Claims.predForm s i = some (g, p, srcs, f)) (hgo : (Instr.use i).gate s = .go) :
    exec i s = .next ((((Claims.readAll s (s.active g != 0) srcs).1.writeP p (s.active g)
      (fun l => f l ((Claims.readAll s (s.active g != 0) srcs).2.map (fun x => x l)))).orFlags (compareFlags s (s.active g) i)).retireLane) := by
  revert h hgo
  fun_cases Claims.predForm s i <;> intro h hgo
  case case1 cc _ a b =>  -- ICMP
    cases h
    refine laneRun_next hgo ?_
    rw [compare_eq s g p a b _ (icond_holds_eq cc), flagsOf_zero]
    rfl
  case case2 cc _ a b =>  -- FCMP
    cases h
    refine laneRun_next hgo ?_
    simp only [compare_eq s g p a b _ (fcond_holds_eq cc), snanFlag_pair, flagsOf_ite]
    rfl
  case case3 | case4 | case5 =>  -- PAND, POR, PXOR
    cases h
    exact laneRun_next hgo (writeP_congr s p _ (fun l => by simp only [predBit_eq_predOf, xor_eq_decide_ne]))
  case case6 =>  -- PNOT
    cases h
    exact laneRun_next hgo (writeP_congr s p _ (fun l => by simp only [predBit_eq_predOf, Bool.decide_eq_false]))
  case case7 =>  -- PMOV
    cases h
    exact laneRun_next hgo (writeP_congr _ p _ (fun l => by rw [Bool.eq_iff_iff, getLsbD_eq_div_mod, decide_eq_true_iff]; rfl))
  case case8 => exact nomatch h  -- no predicate form

/-! ### Carries (06:R121) -/

theorem toNat_carrySum (x y : W32) (c : Bool) : (carrySum x y c).toNat = x.toNat + y.toNat + if c then 1 else 0 := by
  have := x.isLt
  have := y.isLt
  have hx : (x.zeroExtend 33 : BitVec 33).toNat = x.toNat := BitVec.toNat_setWidth_of_le (by decide)
  have hy : (y.zeroExtend 33 : BitVec 33).toNat = y.toNat := BitVec.toNat_setWidth_of_le (by decide)
  rw [carrySum, BitVec.toNat_add, BitVec.toNat_add, hx, hy]
  cases c <;> simp <;> omega

theorem truncate_carrySum (x y : W32) (c : Bool) :
    ((carrySum x y c).truncate 32 : W32) = Claims.n32 (x.toNat + y.toNat + if c then 1 else 0) := by
  rw [← toNat_carrySum, Claims.n32, BitVec.ofNat_toNat]

theorem getLsbD_carrySum (x y : W32) (c : Bool) :
    (carrySum x y c).getLsbD 32 = decide (2 ^ 32 ≤ x.toNat + y.toNat + if c then 1 else 0) := by
  rw [← toNat_carrySum, Bool.eq_iff_iff, getLsbD_eq_div_mod, decide_eq_true_iff]
  omega

/-! ### Masks (06:R128) -/

theorem exec_maskForm {i : Instr} {m : Mask} {s : State} (h : Claims.maskForm s i = some m) (hgo : (Instr.use i).gate s = .go) :
    exec i s = .next ({ s with warp := { s.warp with em := m &&& s.warp.live } }).retireLane := by
  revert h hgo
  fun_cases Claims.maskForm s i <;> intro h hgo
  case case1 =>  -- MSET
    cases h
    refine laneRun_next hgo ?_
    simp only [predBit_eq_predOf, xor_eq_decide_ne]
    rfl
  case case2 | case3 | case4 => cases h; exact laneRun_next hgo rfl  -- MRST, MALL, MNOT
  case case5 => exact nomatch h  -- no mask instruction

/-! ### Predicates written (01:R20) -/

theorem predOf_writeP (s : State) (p : Pred) (m : Mask) (b : Nat → Bool) (k : Pred) {l : Nat} (hl : l < 32) :
    Claims.predOf (s.writeP p m b).warp k l = if k = p ∧ k ≠ 0 ∧ m.has l = true then b l else Claims.predOf s.warp k l := by
  unfold Claims.predOf
  by_cases hk : k = 0
  · simp [hk]
  · rw [if_neg hk, if_neg hk]
    by_cases hkp : k = p
    · subst hkp
      have hnew : (Mask.of b).getLsbD l = b l := (has_of b l).trans (by simp [hl])
      rw [preds_writeP_same s k m b hk, BitVec.getLsbD_or, BitVec.getLsbD_and, BitVec.getLsbD_and, BitVec.getLsbD_not, hnew, Mask.has]
      cases hm : m.getLsbD l
      · simp [hl]
      · rw [if_pos ⟨rfl, hk, rfl⟩]
        simp
    · rw [preds_writeP_other s p m b k.toNat (mt BitVec.eq_of_toNat_eq hkp), if_neg (by simp [hkp])]

/-- Settles O37: each compare is the rules' condition, each predicate form one write, and a carry bit 32 of the sum. -/
theorem comparesPredicatesAndMasks : Obligations.ComparesPredicatesAndMasks := by
  intro i s hgo
  refine ⟨fun g p srcs f h => exec_predForm h hgo, fun g d a b co cen ci hi => ?carry, fun m h => exec_maskForm h hgo,
    fun p m b k l hl => predOf_writeP s p m b k hl⟩
  case carry =>
    subst hi
    refine ⟨_, _, _, _, rfl, fun l => rfl, laneRun_next hgo ?_⟩
    simp only [truncate_carrySum, getLsbD_carrySum, predBit_eq_predOf, Bool.and_eq_true]
    rfl

end Sys2Proof.Machine
end

section
/-!
PROOFS. The cross-lane instructions: votes, SHFL's lane, and the tree and the running Combine of LRED and LSCAN (06:R126, R128, R131 to
R135; 07:R138).
-/

namespace Sys2Proof.Machine

open Sys2Proof

/-! ### PGET, MGET, VOTE, LFIRST and BCAST (06:R126, R128, R132, R135) -/

theorem predByte_eq_sum (w : Warp) (l : Nat) : predByte w l =
    Claims.n32 ((List.range 8).map (fun k => if Claims.predOf w (BitVec.ofNat 3 k) l then 2 ^ k else 0)).sum := by
  have hbits : (predByte w l).toNat = _ := toNat_foldl_or_bits (fun k => predBit w k l) id (List.range 8) 0#32
    (fun k hk => by have := List.mem_range.mp hk; simp; omega) (by decide) (fun k _ => by simp)
  refine eq_ofNat_of_toNat_eq (hbits.trans ?_)
  rw [BitVec.toNat_ofNat, Nat.zero_mod, Nat.zero_add]
  refine congrArg List.sum (List.map_congr_left fun k hk => ?_)
  have hk : (BitVec.ofNat 3 k).toNat = k := Nat.mod_eq_of_lt (List.mem_range.mp hk)
  rw [← predBit_eq_predOf, hk]
  rfl

/-- Two masks are equal where their lanes are. -/
theorem mask_ext_iff (m n : Mask) : m = n ↔ ∀ l < 32, m.has l = n.has l :=
  ⟨fun h _ _ => h ▸ rfl, fun h => BitVec.eq_of_getLsbD_eq h⟩

theorem has_ballot (s : State) (g : Guard) (p : Pred) {l : Nat} (hl : l < 32) :
    (s.ballot (s.active g) p).has l = Claims.votes s g p l := by
  have hpred : (Mask.of (predBit s.warp p.toNat)).has l = Claims.predOf s.warp p l := by
    rw [has_of, decide_eq_true hl, Bool.true_and, predBit_eq_predOf]
  rw [State.ballot, Claims.votes, ← hpred]
  exact BitVec.getLsbD_and

theorem ballot_eq (s : State) (g : Guard) (p : Pred) : s.ballot (s.active g) p = Mask.of (Claims.votes s g p) :=
  (mask_ext_iff _ _).mpr fun l hl => by rw [has_ballot s g p hl, has_of, decide_eq_true hl, Bool.true_and]

/-- No vote, and every vote. -/
theorem ballot_eq_zero_iff (s : State) (g : Guard) (p : Pred) :
    s.ballot (s.active g) p = 0 ↔ (List.range 32).all (fun l => !Claims.votes s g p l) = true := by
  have hzero (l : Nat) : Mask.has 0 l = false := BitVec.getLsbD_zero
  simp only [mask_ext_iff, hzero, List.all_eq_true, List.mem_range, Bool.not_eq_true']
  exact forall₂_congr fun l hl => by rw [has_ballot s g p hl]
theorem ballot_eq_active_iff (s : State) (g : Guard) (p : Pred) :
    s.ballot (s.active g) p = s.active g ↔ (List.range 32).all (fun l => !(s.active g).has l || Claims.votes s g p l) = true := by
  simp only [mask_ext_iff, List.all_eq_true, List.mem_range]
  refine forall₂_congr fun l hl => ?_
  rw [has_ballot s g p hl, Claims.votes]
  cases (s.active g).has l <;> simp

theorem voteOf_eq (s : State) (g : Guard) (p : Pred) (kind : VoteKind) :
    voteOf kind (s.active g) (s.ballot (s.active g) p) = Claims.voteValue s g p kind := by
  have hnone := ballot_eq_zero_iff s g p
  have hall := ballot_eq_active_iff s g p
  cases kind
  case any =>
    have hany : (s.ballot (s.active g) p != 0) = (List.range 32).any (Claims.votes s g p) := by
      rw [Bool.eq_iff_iff, bne_iff_ne, ne_eq, hnone]
      simp
    simp only [voteOf, Claims.voteValue, hany]
  case all => simp only [voteOf, Claims.voteValue, beq_iff_eq, hall]
  case bal => exact ballot_eq s g p
  case eq => simp only [voteOf, Claims.voteValue, Bool.or_eq_true, beq_iff_eq, hall, hnone]

theorem lowest_congr {p q : Nat → Bool} (h : ∀ l < 32, p l = q l) : Claims.lowest p = Claims.lowest q := by
  unfold Claims.lowest
  rw [List.find?_congr fun l hl => h l (List.mem_range.mp hl)]

theorem exec_crossForm {i : Instr} {m : Mask} {d : Dest} {srcs : List Value} {f : (Nat → List W32) → Nat → W32} {s : State}
    (h : Claims.crossForm s i = some (m, d, srcs, f)) (hgo : (Instr.use i).gate s = .go) :
    exec i s = .next (((Claims.readAll s (m != 0) srcs).1.writeDest d m
      (f (fun l => (Claims.readAll s (m != 0) srcs).2.map (fun x => x l)))).retireLane) := by
  revert h hgo
  fun_cases Claims.crossForm s i <;> intro h hgo
  case case1 g _ =>  -- PGET
    cases h
    exact laneRun_next hgo (congrArg (s.writeDest d (s.active g)) (funext fun l => predByte_eq_sum s.warp l))
  case case2 => cases h; exact laneRun_next hgo rfl  -- MGET
  case case3 g kind _ p =>  -- VOTE
    cases h
    exact laneRun_next hgo (congrArg (s.writeDest d (s.active g)) (funext fun _ => voteOf_eq s g p kind))
  case case4 g _ p =>  -- LFIRST
    cases h
    exact laneRun_next hgo (congrArg (s.writeDest d (s.active g)) (funext fun _ => congrArg Claims.n32
      (lowest_congr fun l hl => has_ballot s g p hl)))
  case case5 j =>  -- BCAST
    cases h
    refine laneRun_next hgo ?_
    cases j <;> rfl
  case case6 => exact nomatch h  -- no cross-lane form

/-! ### SHFL (06:R131) -/

/-- The lane's place in its segment decides, as its number and the segment's first lane do. -/
theorem shflLane_eq_shflFrom (mode : ShflMode) {w : Nat} (hw : 0 < w) (l b : Nat) : shflLane mode w l b = Claims.shflFrom mode w l b := by
  have hbase : l / w * w + l % w = l := Nat.div_add_mod' l w
  have hlt : l % w < w := Nat.mod_lt l hw
  by_cases hb : w ≤ b
  · have hout : shflLane mode w l b = none := if_pos hb
    rw [hout]
    cases mode <;> exact (if_neg (by omega)).symm
  · have hin : shflLane mode w l b = _ := if_neg hb
    rw [hin]
    cases mode
    case idx => exact (if_pos (by omega)).symm
    case up => exact if_congr (by omega) rfl rfl
    case dn => exact if_congr (by omega) rfl rfl
    case xor => exact (if_pos (by omega)).symm

/-- A source lane that is not live is none. -/
theorem liveSource_eq_filter (live : Mask) (src : Option Nat) :
    (match src with | some j => if live.has j then some j else none | none => none) = src.filter (fun j => live.has j) := by
  cases src <;> rfl

/-! ### The results of a floating-point operator (07:R138) -/

theorem redResult_float {op : RedOp} (hop : op = .fmin ∨ op = .fmax ∨ ∃ k, op = .fadd k) (x : W32) :
    redResult op x = if 2 ^ 31 - 2 ^ 23 < x.toNat % 2 ^ 31 then 0x7FC00000 else x := by
  have hnan : (fpOf .f32 x.toNat).isNan = true ↔ 2 ^ 31 - 2 ^ 23 < x.toNat % 2 ^ 31 := by
    rw [isNan_fpOf]
    exact decide_eq_true_iff
  simp only [← hnan]
  obtain rfl | rfl | ⟨k, rfl⟩ := hop <;> simp only [redResult] <;> cases fpOf .f32 x.toNat <;> rfl

/-! ### LRED and LSCAN of an integer operator (06:R133, R134) -/

/-- An integer Combine is associative, with its identity on either side, and sets no flag. -/
structure IntegerCombine (op : RedOp) (f : W32 → W32 → W32) (e : W32) : Prop where
  combine : ∀ x y, redCombine op x y = (f x y, 0)
  result : ∀ x, redResult op x = x
  identity : redIdentity op = e
  assoc : ∀ x y z, f (f x y) z = f x (f y z)
  idLeft : ∀ x, f e x = x
  idRight : ∀ x, f x e = x

theorem toInt_minS {n : Nat} (x y : BitVec n) : (minS x y).toInt = min x.toInt y.toInt := by
  simp only [minS, BitVec.slt_iff_toInt_lt]
  split <;> omega
theorem toInt_maxS {n : Nat} (x y : BitVec n) : (maxS x y).toInt = max x.toInt y.toInt := by
  simp only [maxS, BitVec.slt_iff_toInt_lt]
  split <;> omega
theorem toNat_minU {n : Nat} (x y : BitVec n) : (minU x y).toNat = min x.toNat y.toNat := by
  simp only [minU, BitVec.lt_def]
  split <;> omega
theorem toNat_maxU {n : Nat} (x y : BitVec n) : (maxU x y).toNat = max x.toNat y.toNat := by
  simp only [maxU, BitVec.lt_def]
  split <;> omega

theorem combine_add : IntegerCombine .add (· + ·) 0 :=
  ⟨fun _ _ => rfl, fun _ => rfl, rfl, BitVec.add_assoc, BitVec.zero_add, BitVec.add_zero⟩
theorem combine_and : IntegerCombine .and (· &&& ·) (Claims.n32 (2 ^ 32 - 1)) :=
  ⟨fun _ _ => rfl, fun _ => rfl, rfl, BitVec.and_assoc, fun _ => BitVec.allOnes_and, fun _ => BitVec.and_allOnes⟩
theorem combine_or : IntegerCombine .or (· ||| ·) 0 :=
  ⟨fun _ _ => rfl, fun _ => rfl, rfl, BitVec.or_assoc, fun _ => BitVec.zero_or, fun _ => BitVec.or_zero⟩
theorem combine_xor : IntegerCombine .xor (· ^^^ ·) 0 :=
  ⟨fun _ _ => rfl, fun _ => rfl, rfl, BitVec.xor_assoc, fun _ => BitVec.zero_xor, fun _ => BitVec.xor_zero⟩
theorem combine_minS : IntegerCombine (.min false) minS (Claims.n32 (2 ^ 31 - 1)) where
  combine _ _ := rfl
  result _ := rfl
  identity := rfl
  assoc x y z := BitVec.eq_of_toInt_eq (by simp only [toInt_minS, min_assoc])
  idLeft x := BitVec.eq_of_toInt_eq ((toInt_minS _ x).trans (min_eq_right (BitVec.toInt_le (x := x))))
  idRight x := BitVec.eq_of_toInt_eq ((toInt_minS x _).trans (min_eq_left (BitVec.toInt_le (x := x))))
theorem combine_maxS : IntegerCombine (.max false) maxS (Claims.n32 (2 ^ 31)) where
  combine _ _ := rfl
  result _ := rfl
  identity := rfl
  assoc x y z := BitVec.eq_of_toInt_eq (by simp only [toInt_maxS, max_assoc])
  idLeft x := BitVec.eq_of_toInt_eq ((toInt_maxS _ x).trans (max_eq_right (BitVec.le_toInt x)))
  idRight x := BitVec.eq_of_toInt_eq ((toInt_maxS x _).trans (max_eq_left (BitVec.le_toInt x)))
theorem combine_minU : IntegerCombine (.min true) minU (Claims.n32 (2 ^ 32 - 1)) where
  combine x y := congrArg (·, 0) ((ite_ult_minU x y).trans (minU_eq_ofNat x y).symm)
  result _ := rfl
  identity := rfl
  assoc x y z := BitVec.eq_of_toNat_eq (by simp only [toNat_minU, min_assoc])
  idLeft x := BitVec.eq_of_toNat_eq ((toNat_minU _ x).trans (min_eq_right (Nat.le_of_lt_succ x.isLt)))
  idRight x := BitVec.eq_of_toNat_eq ((toNat_minU x _).trans (min_eq_left (Nat.le_of_lt_succ x.isLt)))
theorem combine_maxU : IntegerCombine (.max true) maxU 0 where
  combine x y := congrArg (·, 0) ((ite_ult_maxU x y).trans (maxU_eq_ofNat x y).symm)
  result _ := rfl
  identity := rfl
  assoc x y z := BitVec.eq_of_toNat_eq (by simp only [toNat_maxU, max_assoc])
  idLeft x := BitVec.eq_of_toNat_eq ((toNat_maxU _ x).trans (max_eq_right (Nat.zero_le _)))
  idRight x := BitVec.eq_of_toNat_eq ((toNat_maxU x _).trans (max_eq_left (Nat.zero_le _)))

theorem integerCombine_of {op : RedOp} {f : W32 → W32 → W32} {e : W32} (h : Claims.combineOf op = some (f, e)) : IntegerCombine op f e := by
  have same {f' : W32 → W32 → W32} {e' : W32} (hc : IntegerCombine op f' e') (hf : ∀ x y, f' x y = f x y) (he : e' = e) :
      IntegerCombine op f e := by
    obtain rfl : f' = f := funext₂ hf
    exact he ▸ hc
  revert h same
  fun_cases Claims.combineOf op <;> intro h same
  case case1 => cases h; exact same combine_add add_eq_ofNat rfl
  case case2 => cases h; exact same combine_minS minS_eq_ofInt rfl
  case case3 => cases h; exact same combine_minU minU_eq_ofNat rfl
  case case4 => cases h; exact same combine_maxS maxS_eq_ofInt rfl
  case case5 => cases h; exact same combine_maxU maxU_eq_ofNat rfl
  case case6 => cases h; exact same combine_and and_eq_ofNat rfl
  case case7 => cases h; exact same combine_or or_eq_ofNat rfl
  case case8 => cases h; exact same combine_xor xor_eq_ofNat rfl
  case case9 => exact nomatch h  -- a floating-point operator

/-- The Combine of the values of the n lanes from a on of a mask. -/
def spanOf (f : W32 → W32 → W32) (e : W32) (m : Mask) (x : Nat → W32) (a n : Nat) : W32 :=
  ((List.range' a n).filter (fun l => m.has l)).foldl (fun acc l => f acc (x l)) e

theorem combined_eq_spanOf (f : W32 → W32 → W32) (e : W32) (m : Mask) (x : Nat → W32) (k : Nat) :
    Claims.combined f e m x k = spanOf f e m x 0 k := by
  rw [Claims.combined, List.range_eq_range', spanOf]

/-- What the lanes of a mask put at the leaves of the tree. -/
def leaves (m : Mask) (x : Nat → W32) (l : Nat) : RedNode := if m.has l then some (x l) else none

theorem or_noFlags (fl : FFlags) : fl ||| 0 = fl := BitVec.or_zero

section
variable {op : RedOp} {f : W32 → W32 → W32} {e : W32} (hc : IntegerCombine op f e) (m : Mask) (x : Nat → W32)
include hc

theorem foldl_combine (ls : List Nat) (y : W32) :
    ls.foldl (fun acc l => f acc (x l)) y = f y (ls.foldl (fun acc l => f acc (x l)) e) := by
  induction ls generalizing y with
  | nil => exact (hc.idRight y).symm
  | cons l ls ih => rw [List.foldl_cons, List.foldl_cons, ih, ih (f e (x l)), hc.idLeft, hc.assoc]

theorem spanOf_add (a n k : Nat) : spanOf f e m x a (n + k) = f (spanOf f e m x a n) (spanOf f e m x (a + n) k) := by
  unfold spanOf
  rw [← List.range'_append_1, List.filter_append, List.foldl_append, foldl_combine hc]

theorem spanOf_one (a : Nat) : spanOf f e m x a 1 = if m.has a then x a else e := by
  unfold spanOf
  rw [List.range'_one, List.filter_singleton]
  cases m.has a with
  | true => exact hc.idLeft (x a)
  | false => rfl

theorem redJoin_flags (a b : RedNode) : (redJoin op a b).2 = 0 := by
  cases a <;> cases b <;> simp only [redJoin, hc.combine]

theorem redJoin_value (a b : RedNode) : (redJoin op a b).1.getD e = f (a.getD e) (b.getD e) := by
  cases a with
  | none => exact (hc.idLeft _).symm
  | some a =>
    cases b with
    | none => exact (hc.idRight _).symm
    | some b => simp only [redJoin, hc.combine, Option.getD_some]

theorem redFlags_integer (leaf : Nat → RedNode) : redFlags op leaf = 0 := by
  simp only [redFlags, redJoin_flags hc, or_noFlags, List.foldl_fixed]

theorem redPrefixFrom_flags (leaf : Nat → RedNode) (n k : Nat) (acc : Option RedNode) (pos : Nat) (fl : FFlags) :
    (redPrefixFrom op leaf n k acc pos fl).2 = fl := by
  induction k generalizing acc pos fl with
  | zero => rfl
  | succ k ih =>
    rw [redPrefixFrom]
    split
    · cases acc with
      | none => exact ih _ _ _
      | some a => exact (ih _ _ _).trans (by rw [redJoin_flags hc, or_noFlags])
    · exact ih _ _ _

/-- A node is the Combine of its leaves' lanes (06:R133). -/
theorem redNode_eq_spanOf (k i : Nat) : (redNode op (leaves m x) k i).getD e = spanOf f e m x (i * 2 ^ k) (2 ^ k) := by
  induction k generalizing i with
  | zero =>
    rw [pow_zero, Nat.mul_one, spanOf_one hc, redNode, leaves]
    split <;> rfl
  | succ k ih =>
    have hsplit : i * 2 ^ (k + 1) = 2 * i * 2 ^ k := by ring
    have hnext : (2 * i + 1) * 2 ^ k = 2 * i * 2 ^ k + 2 ^ k := by ring
    rw [redNode, redJoin_value hc, ih, ih, hnext, hsplit, pow_succ, Nat.mul_two, spanOf_add hc]

/-- The first n lanes: the nodes that n's bits name, from the highest bit down, one after another (06:R134). -/
theorem redPrefixFrom_eq_spanOf (n k : Nat) (acc : Option RedNode) (pos : Nat) (fl : FFlags) (hpos : pos = n / 2 ^ k * 2 ^ k)
    (hacc : (acc.getD none).getD e = spanOf f e m x 0 pos) :
    ((redPrefixFrom op (leaves m x) n k acc pos fl).1.getD none).getD e = spanOf f e m x 0 n := by
  induction k generalizing acc pos fl with
  | zero =>
    rw [pow_zero, Nat.div_one, Nat.mul_one] at hpos
    rw [redPrefixFrom, hacc, hpos]
  | succ k ih =>
    have hhalf : n / 2 ^ (k + 1) = n / 2 ^ k / 2 := by rw [pow_succ, Nat.div_div_eq_div_mul]
    have hpos' : pos = n / 2 ^ k / 2 * 2 * 2 ^ k := by rw [hpos, hhalf, pow_succ]; ring
    have hbits := Nat.div_add_mod' (n / 2 ^ k) 2
    rw [redPrefixFrom]
    split
    · next hbit =>
      have hnext : pos + 2 ^ k = n / 2 ^ k * 2 ^ k := by
        rw [hbit] at hbits
        rw [hpos', ← Nat.succ_mul, Nat.succ_eq_add_one, hbits]
      have hnode : (redNode op (leaves m x) k (pos / 2 ^ k)).getD e = spanOf f e m x pos (2 ^ k) := by
        rw [redNode_eq_spanOf hc m x, hpos', Nat.mul_div_cancel _ (Nat.two_pow_pos k)]
      have hjoined : f (spanOf f e m x 0 pos) (spanOf f e m x pos (2 ^ k)) = spanOf f e m x 0 (pos + 2 ^ k) := by
        rw [spanOf_add hc, Nat.zero_add]
      cases acc with
      | none =>
        refine ih _ _ _ hnext (hnode.trans ?_)
        rw [← hjoined, ← hacc]
        exact (hc.idLeft _).symm
      | some a =>
        refine ih _ _ _ hnext ?_
        rw [← hjoined, ← hacc, ← hnode]
        exact redJoin_value hc _ _
    · next hbit =>
      refine ih _ _ _ ?_ hacc
      rw [Nat.mod_two_ne_one.mp hbit, Nat.add_zero] at hbits
      rw [hpos', hbits]

theorem redPrefix_eq_combined {n : Nat} (hn : n < 64) : (redPrefix op (leaves m x) n).1.getD e = Claims.combined f e m x n := by
  rw [combined_eq_spanOf]
  exact redPrefixFrom_eq_spanOf hc m x n 6 none 0 0 (by omega) rfl

theorem redTree_eq_combined : (redNode op (leaves m x) 5 0).getD e = Claims.combined f e m x 32 := by
  rw [combined_eq_spanOf, redNode_eq_spanOf hc m x, Nat.zero_mul]
  rfl

end

/-- A destination takes the values of the lanes of the mask alone. -/
theorem writeDest_congr (s : State) (d : Dest) {m : Mask} {x y : LaneVec} (h : ∀ l < 32, m.has l = true → x l = y l) :
    s.writeDest d m x = s.writeDest d m y := by
  have hlanes {α : Type} (k : Nat → W32 → α) : m.lanes.map (fun l => k l (x l)) = m.lanes.map (fun l => k l (y l)) :=
    List.map_congr_left fun l hl => by
      obtain ⟨hlt, hm⟩ := (has_lanes m l).mp hl
      rw [h l hlt hm]
  have hmessage : message m x = message m y := congrArg (Store.setAll []) (hlanes (fun l z => (l, z)))
  cases d with
  | reg n => simp only [State.writeDest, State.writeV, hlanes (fun l z => (32 * n.toNat + l, z))]
  | chan n =>
    have hhead (hm : m ≠ 0) : x (m.lanes.head?.getD 0) = y (m.lanes.head?.getD 0) := by
      obtain ⟨l, hl, hml⟩ := exists_has hm
      have hne : m.lanes ≠ [] := List.ne_nil_of_mem ((has_lanes m l).mpr ⟨hl, hml⟩)
      obtain ⟨hlt, hhas⟩ := (has_lanes m _).mp (List.head_mem hne)
      rw [List.head?_eq_some_head hne, Option.getD_some, h _ hlt hhas]
    simp only [State.writeDest, hmessage]
    refine ite_congr rfl (fun _ => rfl) fun hm => ?_
    rw [hhead hm]

/-! ### The instructions -/

section
variable {g : Guard} {op : RedOp} {excl : Bool} {d : Dest} {a : Value} {s : State}

theorem exec_lred (hgo : (Instr.use (.lred g op d a)).gate s = .go) (m : Mask) (hm : m = s.active g) :
    exec (.lred g op d a) s = .next ((((s.readSrc (m != 0) a).1.writeDest d m (fun _ =>
      redResult op ((redNode op (leaves m (s.readSrc (m != 0) a).2) 5 0).getD (redIdentity op)))).orFlags
        (redFlags op (leaves m (s.readSrc (m != 0) a).2))).retireLane) := by
  subst hm
  exact laneRun_next hgo rfl

theorem exec_lscan (hgo : (Instr.use (.lscan g op excl d a)).gate s = .go) (m : Mask) (hm : m = s.active g) :
    exec (.lscan g op excl d a) s = .next ((((s.readSrc (m != 0) a).1.writeDest d m (fun l =>
      redResult op ((redPrefix op (leaves m (s.readSrc (m != 0) a).2) (if excl then l else l + 1)).1.getD (redIdentity op)))).orFlags
        (redFlags op (leaves m (s.readSrc (m != 0) a).2) |||
          flagsOf m (fun l => (redPrefix op (leaves m (s.readSrc (m != 0) a).2) (if excl then l else l + 1)).2))).retireLane) := by
  subst hm
  exact laneRun_next hgo rfl

variable {f : W32 → W32 → W32} {e : W32} (hc : IntegerCombine op f e)
include hc

theorem exec_lred_integer (hgo : (Instr.use (.lred g op d a)).gate s = .go) :
    exec (.lred g op d a) s = .next (((s.readSrc (s.active g != 0) a).1.writeDest d (s.active g)
      (fun _ => Claims.combined f e (s.active g) (s.readSrc (s.active g != 0) a).2 32)).retireLane) := by
  rw [exec_lred hgo _ rfl, redFlags_integer hc, orFlags_zero, hc.result, hc.identity, redTree_eq_combined hc]

theorem exec_lscan_integer (hgo : (Instr.use (.lscan g op excl d a)).gate s = .go) :
    exec (.lscan g op excl d a) s = .next (((s.readSrc (s.active g != 0) a).1.writeDest d (s.active g)
      (fun l => if l < 32 then Claims.combined f e (s.active g) (s.readSrc (s.active g != 0) a).2 (if excl then l else l + 1)
        else redIdentity op)).retireLane) := by
  have hflags : flagsOf (s.active g) (fun l => (redPrefix op (leaves (s.active g) (s.readSrc (s.active g != 0) a).2)
      (if excl then l else l + 1)).2) = 0 := by
    simp only [redPrefix, redPrefixFrom_flags hc, flagsOf_zero]
  rw [exec_lscan hgo _ rfl, redFlags_integer hc, hflags, or_noFlags, orFlags_zero]
  refine congrArg (fun t : State => (.next t.retireLane : Result)) (writeDest_congr _ d fun l hl _ => ?_)
  rw [hc.result, hc.identity, redPrefix_eq_combined hc _ _ (by split <;> omega), if_pos hl]

end

/-- Settles O38: SHFL names one lane either way, a tree of an associative Combine is the Combine in lane order, and the other forms
are their value. -/
theorem crossLaneInstructionsCombineLanes : Obligations.CrossLaneInstructionsCombineLanes := by
  intro i s hgo
  refine ⟨fun m d srcs f h => exec_crossForm h hgo, fun g mode width d a b q hi _ => ?shfl, fun g op d a hi m leaf hm hleaf => ?lred,
    fun g op excl d a hi m leaf hm hleaf => ?lscan, fun op hop x => redResult_float hop x, fun g op d a f e hi hop => ?lredInteger,
    fun g op excl d a f e hi hop => ?lscanInteger⟩
  case shfl =>
    subst hi
    refine ⟨_, _, _, _, rfl, fun l _ => ?_, laneRun_next hgo rfl⟩
    rw [← shflLane_eq_shflFrom mode (Nat.two_pow_pos _)]
    exact liveSource_eq_filter s.warp.live _
  case lred =>
    subst hi
    obtain rfl : leaf = leaves m (s.readSrc (m != 0) a).2 := funext hleaf
    exact exec_lred hgo m hm
  case lscan =>
    subst hi
    obtain rfl : leaf = leaves m (s.readSrc (m != 0) a).2 := funext hleaf
    exact exec_lscan hgo m hm
  case lredInteger =>
    subst hi
    exact exec_lred_integer (integerCombine_of hop) hgo
  case lscanInteger =>
    subst hi
    exact exec_lscan_integer (integerCombine_of hop) hgo

end Sys2Proof.Machine
end

section
/-!
PROOFS. The lane system instructions: the lane streams and their uniform values, channel entries as CHST and CHWAIT find them, traps and
stops on request (06:R118; 14:R270 to R273, R276).
-/

namespace Sys2Proof.Machine

open Sys2Proof

/-! ### Register pairs and the lane streams (14:R272) -/

theorem pair64_eq_pairOf (x y : W32) : pair64 x y = Claims.pairOf [x, y] := eq_ofNat_of_toNat_eq (toNat_pair64 x y)
theorem pairAt_eq_regPair (s : State) (n : VReg) (l : Nat) : s.pairAt n.toNat l = Claims.regPair s n l := pair64_eq_pairOf _ _

theorem hi32_eq_ofNat (x : W64) : hi32 x = Claims.n32 (x.toNat / 2 ^ 32) := by
  rw [Claims.n32, ← Nat.shiftRight_eq_div_pow, ← BitVec.toNat_ushiftRight, BitVec.ofNat_toNat]
  rfl

theorem writePair_eq_writtenPair (s : State) (g : Guard) (d : VReg) (f : Nat → W64) :
    s.writePair g d f = Claims.writtenPair s d (s.active g) f := by
  have hlo : (fun l => lo32 (f l)) = fun l => Claims.n32 (f l).toNat := funext fun l => lo32_eq_ofNat (f l)
  have hhi : (fun l => hi32 (f l)) = fun l => Claims.n32 ((f l).toNat / 2 ^ 32) := funext fun l => hi32_eq_ofNat (f l)
  rw [Claims.writtenPair, ← hlo, ← hhi]
  rfl

theorem streamStep_eq_lcgStep (x : W64) : streamStep x 1 = Claims.lcgStep x := by
  rw [Claims.lcgStep, BitVec.ofNat_add, BitVec.ofNat_mul, BitVec.ofNat_toNat, BitVec.setWidth_eq]
  rfl

/-- The doublings of a jump: the map of the steps done so far, and that of the next power of two of them, each as x ↦ a * x + k. -/
def jumpFold (n : W64) (j : Nat) : W64 × W64 × W64 × W64 :=
  (List.range j).foldl (fun acc i =>
    let (a, k, m, c) := acc
    let (a, k) := if n.getLsbD i then (a * m, k * m + c) else (a, k)
    (a, k, m * m, c * (m + 1))) ((1 : W64), (0 : W64), (0xD1B54A32D192ED0D : W64), (1 : W64))

theorem streamJump_eq (s n : W64) : streamJump s n = (jumpFold n 64).1 * s + (jumpFold n 64).2.1 := rfl

theorem jumpFold_succ (n : W64) (j : Nat) : jumpFold n (j + 1) =
    ((if n.getLsbD j then (jumpFold n j).1 * (jumpFold n j).2.2.1 else (jumpFold n j).1),
      (if n.getLsbD j then (jumpFold n j).2.1 * (jumpFold n j).2.2.1 + (jumpFold n j).2.2.2 else (jumpFold n j).2.1),
      (jumpFold n j).2.2.1 * (jumpFold n j).2.2.1, (jumpFold n j).2.2.2 * ((jumpFold n j).2.2.1 + 1)) := by
  rw [jumpFold, List.range_succ, List.foldl_append]
  simp only [List.foldl_cons, List.foldl_nil, ← jumpFold.eq_def]
  split <;> rfl

/-- After j doublings: the steps that the low j bits of n count, and 2^j steps. -/
theorem jumpFold_iterate (n : W64) (j : Nat) : (∀ x, (jumpFold n j).1 * x + (jumpFold n j).2.1 = Claims.lcgStep^[n.toNat % 2 ^ j] x) ∧
    ∀ x, (jumpFold n j).2.2.1 * x + (jumpFold n j).2.2.2 = Claims.lcgStep^[2 ^ j] x := by
  induction j with
  | zero =>
    refine ⟨fun x => ?_, fun x => ?_⟩
    · rw [pow_zero, Nat.mod_one]
      exact (BitVec.add_zero _).trans (BitVec.one_mul x)
    · rw [pow_zero, Function.iterate_one, ← streamStep_eq_lcgStep, streamStep, BitVec.mul_comm]
      rfl
  | succ j ih =>
    obtain ⟨hdone, hpower⟩ := ih
    rw [jumpFold_succ]
    refine ⟨fun x => ?_, fun x => ?_⟩
    · have hbit : n.getLsbD j = decide (n.toNat / 2 ^ j % 2 = 1) := Nat.testBit_eq_decide_div_mod_eq
      have hmod : n.toNat % 2 ^ (j + 1) = 2 ^ j * (n.toNat / 2 ^ j % 2) + n.toNat % 2 ^ j := by
        rw [Nat.mod_pow_succ, Nat.add_comm]
      rcases Nat.mod_two_eq_zero_or_one (n.toNat / 2 ^ j) with h | h
      · rw [hmod, h, Nat.mul_zero, Nat.zero_add, ← hdone]
        simp [hbit, h]
      · rw [hmod, h, Nat.mul_one, Function.iterate_add_apply, ← hdone, ← hpower]
        simp only [hbit, h, decide_true, if_true]
        ring
    · rw [pow_succ, Nat.mul_two, Function.iterate_add_apply, ← hpower, ← hpower]
      ring

theorem streamJump_eq_iterate (x n : W64) : streamJump x n = Claims.lcgStep^[n.toNat] x := by
  rw [streamJump_eq, (jumpFold_iterate n 64).1 x, Nat.mod_eq_of_lt n.isLt]

theorem toNat_streamOut (x : W64) : (streamOut x).toNat = Claims.lcgOut x := by
  have htop : (x >>> 59).toNat = x.toNat / 2 ^ 59 := by rw [BitVec.toNat_ushiftRight, Nat.shiftRight_eq_div_pow]
  have hk : x.toNat / 2 ^ 59 < 32 := by omega
  have hhi : (hi32 x).toNat = x.toNat / 2 ^ 32 := by
    rw [hi32_eq_ofNat, Claims.n32, BitVec.toNat_ofNat]
    omega
  rw [streamOut, htop, rotateRight_eq_ofNat _ hk, BitVec.toNat_xor, hhi, Claims.n32, BitVec.toNat_ofNat, lo32_toNat, Nat.add_mod_mod]
  rfl

/-! ### Uniform values (14:R273) -/

/-- A number below 2²⁴ shifted up until its highest one is bit 23. -/
theorem normalized_lt {m : Nat} (hm : m ≠ 0) (h : m < 2 ^ 24) :
    m.log2 < 24 ∧ 2 ^ 23 ≤ m * 2 ^ (23 - m.log2) ∧ m * 2 ^ (23 - m.log2) < 2 ^ 24 := by
  have hlog : m.log2 < 24 := (Nat.log2_lt hm).mpr h
  have hsplit : 2 ^ m.log2 * 2 ^ (23 - m.log2) = 2 ^ 23 := by rw [← pow_add, Nat.add_sub_cancel' (by omega)]
  have hlow : 2 ^ 23 ≤ m * 2 ^ (23 - m.log2) := hsplit ▸ Nat.mul_le_mul_right _ (Nat.log2_self_le hm)
  have hhigh : m * 2 ^ (23 - m.log2) < 2 ^ 24 :=
    calc m * 2 ^ (23 - m.log2) < 2 ^ (m.log2 + 1) * 2 ^ (23 - m.log2) :=
          Nat.mul_lt_mul_of_pos_right Nat.lt_log2_self (Nat.two_pow_pos _)
      _ = 2 ^ 24 := by rw [pow_succ', Nat.mul_assoc, hsplit, ← pow_succ']
  exact ⟨hlog, hlow, hhigh⟩

theorem bitsOf_f32 {q : Nat} (u : Int) (hlow : 2 ^ 23 ≤ q) (hhigh : q < 2 ^ 24) :
    bitsOf .f32 q u = (u + 127 + 23).toNat * 2 ^ 23 + (q - 2 ^ 23) := by
  have hlow : ¬ q < 2 ^ fmtMant .f32 := Nat.not_lt.mpr hlow
  have hhigh : q < 2 ^ (fmtMant .f32 + 1) := hhigh
  simp only [bitsOf, if_neg hlow, if_pos hhigh]
  rfl

/-- The value of a normal number without a sign (07:R137). -/
theorem valueIn_f32 {b : Nat} (hsign : b < 2 ^ 31) (hnormal : 2 ^ 23 ≤ b) :
    Claims.valueIn .f32 b = ((2 ^ 23 + b % 2 ^ 23 : Nat) : ℚ) * (2 : ℚ) ^ (((b / 2 ^ 23 : Nat) : Int) - 127 - 23) := by
  have hbody : b % 2 ^ (fmtWidth .f32 - 1) = b := Nat.mod_eq_of_lt hsign
  have hsign : ¬ b / 2 ^ (fmtWidth .f32 - 1) % 2 = 1 := (Nat.div_eq_of_lt hsign : b / 2 ^ (fmtWidth .f32 - 1) = 0) ▸ by decide
  have hnormal : ¬ b / 2 ^ fmtMant .f32 = 0 := (Nat.div_pos hnormal (by decide)).ne'
  simp only [Claims.valueIn, hbody, if_neg hsign, if_neg hnormal, one_mul]
  rfl

/-- A multiple of 2⁻²⁴ below 1 is representable: its significand shifted up to 24 bits, under its exponent. -/
theorem roundTo_uniform {m : Nat} (hm : m ≠ 0) (h : m < 2 ^ 24) : (roundTo .f32 .rn 0 false (.fin false m (-24))).bits =
    (m.log2 + 103) * 2 ^ 23 + (m * 2 ^ (23 - m.log2) - 2 ^ 23) := by
  obtain ⟨hlog, hlow, hhigh⟩ := normalized_lt hm h
  have hbelow : ¬ ((m.log2 : Int) + -24 > 127 + 2) := by omega
  have hunit : max ((m.log2 : Int) + -24 - 23) (1 - 127 - 23) = m.log2 - 47 := by omega
  have hshift : (-24 - ((m.log2 : Int) - 47)).toNat = 23 - m.log2 := by omega
  have hle : ((m.log2 : Int) - 47) ≤ -24 := by omega
  have hexact : aboveMax .f32 (m * 2 ^ (23 - m.log2)) ((m.log2 : Int) - 47) = false := by
    have hone : 1 ≤ 2 ^ (104 - ((m.log2 : Int) - 47)).toNat := Nat.one_le_two_pow
    have hmax : fpOf .f32 (fmtMax .f32) = .fin false (2 ^ 24 - 1) 104 := by decide
    simp only [aboveMax, hmax]
    rw [if_pos (by omega), decide_eq_false_iff_not, Nat.not_lt]
    exact (Nat.le_sub_one_of_lt hhigh).trans (Nat.le_mul_of_pos_right _ hone)
  have hup : roundsUp .rn false (m * 2 ^ (23 - m.log2) % 2 == 1) 0 8 false 0 = false := rfl
  have hnot : ¬ (m = 0 && !false) = true := by simp [hm]
  simp only [roundTo, roundFin, fmtMant, fmtBias, if_neg hnot, Nat.cast_ofNat, if_neg hbelow, hunit, if_pos hle, hshift, hup, hexact,
    Bool.false_eq_true, if_false]
  have hexp : ((m.log2 : Int) - 47 + 127 + 23).toNat = m.log2 + 103 := by omega
  have hpositive (b : Nat) : signed .f32 false b = b := rfl
  rw [hpositive, bitsOf_f32 _ hlow hhigh, hexp]

/-- The bits of a uniform value are those of its value. -/
theorem valueIn_uniform {m b : Nat} (hm : m ≠ 0) (h : m < 2 ^ 24) (hb : b = (m.log2 + 103) * 2 ^ 23 + (m * 2 ^ (23 - m.log2) - 2 ^ 23)) :
    Claims.FiniteIn .f32 b ∧ Claims.valueIn .f32 b = (m : ℚ) / 2 ^ 24 := by
  obtain ⟨hlog, hlow, hhigh⟩ := normalized_lt hm h
  have hexp : b / 2 ^ 23 = m.log2 + 103 := by omega
  have hmant : 2 ^ 23 + b % 2 ^ 23 = m * 2 ^ (23 - m.log2) := by omega
  refine ⟨⟨show b < 2 ^ 32 by omega, show b % 2 ^ 31 ≤ 0x7F7FFFFF by omega⟩, ?_⟩
  have hscale : (2 : ℚ) ^ (23 - m.log2) * 2 ^ (((m.log2 + 103 : Nat) : Int) - 127 - 23) = 1 / 2 ^ 24 := by
    rw [← zpow_natCast, ← zpow_add₀ two_ne_zero, show ((23 - m.log2 : Nat) : Int) + (((m.log2 + 103 : Nat) : Int) - 127 - 23) = -24 by omega]
    norm_num
  rw [valueIn_f32 (by omega) (by omega), hexp, hmant, Nat.cast_mul, Nat.cast_pow, Nat.cast_ofNat, mul_assoc, hscale, mul_one_div]

/-- What RUNI writes is exact (14:R273). -/
theorem uniform_value (x : W32) : Claims.FiniteIn .f32 (uniform true x).toNat ∧
    Claims.valueIn .f32 (uniform true x).toNat = ((x.toNat / 256 : Nat) : ℚ) / 2 ^ 24 := by
  have hlt : x.toNat / 256 < 2 ^ 24 := by omega
  by_cases hm : x.toNat / 256 = 0
  · have hzero : uniform true x = 0 := by simp only [uniform, if_true, hm]; rfl
    rw [hm, hzero]
    refine ⟨⟨by decide, by decide⟩, ?_⟩
    simp [Claims.valueIn]
  · have hbits := valueIn_uniform hm hlt (roundTo_uniform hm hlt)
    have hu : (uniform true x).toNat = _ := Nat.mod_eq_of_lt hbits.1.1
    rwa [hu]

/-! ### Channels (14:R270, R271) -/

theorem chanStatus_eq (c : Chan) : c.status = match c.st with
    | .unbound => 0
    | .send => 1
    | .recv => Claims.n32 (2 + 4 * c.queue.length) := by
  rw [Chan.status]
  cases c.st <;> rfl

theorem queuedSends_zero {w : Warp} {ch : Nat} (h : ∀ n e p x, (n, Comm.send e p x) ∈ w.comms → e ≠ ch) : w.queuedSends ch = 0 := by
  rw [Warp.queuedSends, List.length_eq_zero_iff, List.filter_eq_nil_iff]
  rintro ⟨n, c⟩ hc
  cases c with
  | send e p x => simpa using h n e p x hc
  | store | atom | task => simp

/-- A word that has no entry in the reorder buffer logs nothing. -/
theorem logWord_fresh {s : State} (a : LaneArgs) (h : s.warp.headEntry = none) : s.logWord a = s := by
  have hrob : s.warp.rob.map (fun e => if e.ahead = 0 then e.log a else e) = s.warp.rob := by
    refine (List.map_congr_left fun e he => ?_).trans (List.map_id' _)
    have hne : ¬ e.ahead = 0 := by simpa using List.find?_eq_none.mp h e he
    exact if_neg hne
  simp only [State.logWord, State.onWarp, hrob]

section
variable {g : Guard} {ch : BitVec 4} {k : BitVec 3} {s : State}

/-- CHWAIT goes on with no active lane, with its messages, or with its sends accepted (14:R271). -/
theorem exec_chwait_done (hpark : s.warp.parkL = none) (hgo : (Instr.use (.chwait g ch k)).gate s = .go)
    (h : s.active g = 0 ∨ ((s.warp.chan ch.toNat).st = .recv ∧ k.toNat ≤ (s.warp.chan ch.toNat).queue.length) ∨
      ((s.warp.chan ch.toNat).st = .send ∧ ∀ n e p x, (n, Comm.send e p x) ∈ s.warp.comms → e ≠ ch.toNat)) :
    exec (.chwait g ch k) s = .next s.retireLane := by
  refine congrArg _ (laneAccess_ok s s _ _ hpark hgo (logFull_none s _ rfl) ?_)
  dsimp only
  by_cases hm : s.active g = 0
  · rw [if_pos hm]
  · rw [if_neg hm]
    rcases h.resolve_left hm with ⟨hst, hlen⟩ | ⟨hst, hsent⟩
    · rw [hst]
      exact if_pos hlen
    · rw [hst]
      exact if_pos (queuedSends_zero hsent)

theorem exec_chwait_waits (hpark : s.warp.parkL = none) (hnew : s.warp.headEntry = none)
    (hgo : (Instr.use (.chwait g ch k)).gate s = .go) (hm : s.active g ≠ 0) (hst : (s.warp.chan ch.toNat).st = .recv)
    (hlen : (s.warp.chan ch.toNat).queue.length < k.toNat) : exec (.chwait g ch k) s = .next (s.waitLane 11) := by
  have hwait : exec (.chwait g ch k) s = .next ((s.logWord (s.laneArgs (Instr.use (.chwait g ch k)))).waitLane 11) := by
    refine congrArg _ (laneAccess_wait s s _ _ 11 hpark hgo (logFull_none s _ rfl) ?_)
    dsimp only
    rw [if_neg hm, hst]
    exact if_neg (Nat.not_le.mpr hlen)
  rwa [logWord_fresh _ hnew] at hwait

/-- An entry that is not bound traps before any mask is looked at (03:R75). -/
theorem exec_chwait_unbound (hpark : s.warp.parkL = none) (hfeat : s.ctx.feat.getLsbD 5 = true)
    (hst : (s.warp.chan ch.toNat).st = .unbound) :
    exec (.chwait g ch k) s = .next (s.takeTrap true false ⟨0x0B, 0, 0, 1, 0⟩) := by
  have hf : Claims.Featured (Instr.use (.chwait g ch k)) s := by
    rintro b (hb | hb)
    · rw [List.mem_singleton.mp hb]
      exact hfeat
    · exact absurd hb List.not_mem_nil
  have hgate := gate_unbound hf (by simp [Claims.InFile, LaneUse.named, Instr.use]) (fun hb => (hb.2.2 ch rfl) hst)
  refine congrArg _ (laneAccess_stopped hpark ?_)
  rw [hgate]
  rfl

end

/-! ### LTRAP and LBRK (14:R276) -/

section
variable {g : Guard} {s : State}

theorem exec_ltrap_none {code : BitVec 6} (hpark : s.warp.parkL = none) (hgo : (Instr.use (.ltrap g code)).gate s = .go)
    (hm : s.active g = 0) : exec (.ltrap g code) s = .next s.retireLane :=
  congrArg _ (laneAccess_ok s s _ _ hpark hgo (logFull_none s _ rfl) (if_pos hm))

theorem exec_ltrap_active {code : BitVec 6} (hpark : s.warp.parkL = none) (hgo : (Instr.use (.ltrap g code)).gate s = .go)
    (hm : s.active g ≠ 0) :
    exec (.ltrap g code) s = .next (s.takeTrap true false ⟨0x0E, s.active g, 0, BitVec.ofNat 64 code.toNat, 0⟩) := by
  rw [BitVec.ofNat_toNat]
  exact congrArg _ (laneAccess_trap s s _ _ _ hpark hgo (logFull_none s _ rfl) (if_neg hm))

theorem exec_lbrk_none (hm : s.active g = 0) : exec (.lbrk g) s = .next s.retireLane := congrArg _ (if_pos hm)

theorem exec_lbrk_active (hm : s.active g ≠ 0) : exec (.lbrk g) s = .next (s.breakAt true (s.active g)) := congrArg _ (if_neg hm)

end

/-! ### The active lanes after a source has been read -/

theorem active_readSrc (s : State) (any : Bool) (v : Value) (g : Guard) : (s.readSrc any v).1.active g = s.active g := by
  cases v with
  | reg | uni | con => rfl
  | chan n peek =>
    unfold State.readSrc
    dsimp only
    split
    · cases peek <;> rfl
    · rfl

theorem exec_rjump {g : Guard} {d a : VReg} {mode : Bool} {b c : Value} {s t : State} {x y : Nat → W32}
    (hgo : (Instr.use (.rjump g d a mode b c)).gate s = .go) (hread : Claims.readAll s (s.active g != 0) [b, c] = (t, [x, y])) :
    exec (.rjump g d a mode b c) s = .next ((Claims.writtenPair t d (s.active g)
      (fun l => Claims.lcgStep^[(Claims.pairOf [x l, y l]).toNat] (Claims.regPair s a l))).retireLane) := by
  simp only [Claims.readAll, Prod.mk.injEq, List.cons.injEq, and_true] at hread
  obtain ⟨rfl, rfl, rfl⟩ := hread
  refine laneRun_next hgo ?_
  simp only [writePair_eq_writtenPair, active_readSrc, streamJump_eq_iterate, pair64_eq_pairOf, pairAt_eq_regPair]

/-- Settles O47: the streams' functions are the rules' arithmetic, and each word that goes runs one write or one stop. -/
theorem laneSystemInstructions : Obligations.LaneSystemInstructions := by
  intro g n a d mode f32 ch k dst sa b c code s m hm hpark hnew
  subst hm
  refine ⟨fun hgo => laneRun_next hgo rfl, fun hgo => laneRun_next hgo rfl, fun hgo => laneRun_next hgo ?chst,
    fun hgo => ⟨exec_chwait_done hpark hgo, exec_chwait_waits hpark hnew hgo⟩, exec_chwait_unbound hpark,
    fun hgo => laneRun_next hgo ?rnext, fun t x y hgo hread => exec_rjump hgo hread,
    fun hgo => ⟨fun l => uniform f32 (streamOut (Claims.regPair s a l)), fun l => ?value, laneRun_next hgo ?runi⟩,
    fun hgo => laneRun_next hgo rfl, fun hgo => ⟨exec_ltrap_none hpark hgo, exec_ltrap_active hpark hgo⟩,
    fun _ => ⟨exec_lbrk_none, fun hm hheld => (exec_lbrk_active hm).trans ?breakpoint, fun hm hheld => ⟨_, exec_lbrk_active hm, ?stop⟩⟩⟩
  case chst => exact congrArg (s.writeDest dst _) (funext fun _ => chanStatus_eq _)
  case rnext => simp only [writePair_eq_writtenPair, streamStep_eq_lcgStep, pairAt_eq_regPair]
  case runi => simp only [pairAt_eq_regPair]
  case value =>
    rw [← toNat_streamOut]
    cases f32 with
    | true => exact uniform_value _
    | false => rfl
  case breakpoint => rw [State.breakAt, hheld]; rfl
  case stop =>
    rw [State.breakAt, hheld]
    exact ⟨rfl, rfl⟩

end Sys2Proof.Machine
end

section
/-!
PROOFS. Sums, differences and products of numbers: the exact value, the grid of a format around it, and the one rounding onto it
(07:R137, R144, R147; 08:R160).
-/

namespace Sys2Proof.Machine

open Sys2Proof

/-! ### Finite numbers (07:R137) -/

/-- The number (−1)^n × m × 2^e. -/
def finValue (n : Bool) (m : Nat) (e : Int) : ℚ := (if n then -1 else 1) * m * 2 ^ e

/-- The spacing of the subnormal numbers of a format, as a power of two. -/
def minUnit (f : FFmt) : Int := 1 - (fmtBias f : Int) - fmtMant f
/-- The spacing at the largest finite number. -/
def maxUnit (f : FFmt) : Int := fmtBias f - fmtMant f

theorem finValue_eq_ite (n : Bool) (m : Nat) (e : Int) : finValue n m e = if n then -((m : ℚ) * 2 ^ e) else (m : ℚ) * 2 ^ e := by
  cases n <;> simp [finValue]

theorem abs_finValue (n : Bool) (m : Nat) (e : Int) : |finValue n m e| = m * 2 ^ e := by
  have hpos : (0 : ℚ) ≤ m * 2 ^ e := by positivity
  cases n <;> simp [finValue, abs_of_nonneg hpos]

theorem finValue_not (n : Bool) (m : Nat) (e : Int) : finValue (!n) m e = -finValue n m e := by
  cases n <;> simp [finValue]

@[simp] theorem finValue_zero (n : Bool) (e : Int) : finValue n 0 e = 0 := by simp [finValue]

theorem finValue_mul (n n' : Bool) (m m' : Nat) (e e' : Int) :
    finValue (n != n') (m * m') (e + e') = finValue n m e * finValue n' m' e' := by
  rw [finValue, finValue, finValue, zpow_add₀ two_ne_zero]
  cases n <;> cases n' <;> simp <;> ring

/-- A number in a smaller unit. -/
theorem mul_zpow_eq_shifted (m : Nat) {u e : Int} (h : u ≤ e) :
    (m : ℚ) * 2 ^ e = ((m * 2 ^ (e - u).toNat : Nat) : ℚ) * 2 ^ u := by
  obtain ⟨k, rfl⟩ := Int.le.dest h
  rw [add_sub_cancel_left, Int.toNat_natCast, zpow_add₀ two_ne_zero, zpow_natCast]
  push_cast
  ring

/-! ### The formats with infinities -/

section Format

variable {f : FFmt} (hf : f = .f32 ∨ f = .f16 ∨ f = .bf16)
include hf

theorem fmtMant_pos : 1 ≤ fmtMant f := by rcases hf with rfl | rfl | rfl <;> decide
theorem fmtBias_pos : 1 ≤ fmtBias f := by rcases hf with rfl | rfl | rfl <;> decide
theorem maxUnit_lt : maxUnit f < 4096 := by rcases hf with rfl | rfl | rfl <;> decide
/-- Exponent fields are 0 to 2 × bias + 1. -/
theorem fmtSign_eq : fmtSign f = (2 * fmtBias f + 2) * 2 ^ fmtMant f := by rcases hf with rfl | rfl | rfl <;> decide
/-- The largest finite word is the last below the top exponent field. -/
theorem fmtMax_succ_eq : fmtMax f + 1 = (2 * fmtBias f + 1) * 2 ^ fmtMant f := by rcases hf with rfl | rfl | rfl <;> decide

theorem two_pow_fmtWidth : 2 ^ fmtWidth f = fmtSign f + fmtSign f := by rcases hf with rfl | rfl | rfl <;> decide

theorem fpOf_eq (x : Nat) (h : x % fmtSign f / 2 ^ fmtMant f ≠ 2 * fmtBias f + 1) :
    fpOf f x = if x % fmtSign f / 2 ^ fmtMant f = 0 then .fin (x / fmtSign f % 2 == 1) (x % fmtSign f % 2 ^ fmtMant f) (minUnit f)
      else .fin (x / fmtSign f % 2 == 1) (2 ^ fmtMant f + x % fmtSign f % 2 ^ fmtMant f)
        (((x % fmtSign f / 2 ^ fmtMant f : Nat) : Int) - fmtBias f - fmtMant f) := by
  rcases hf with rfl | rfl | rfl <;> exact if_neg h

theorem field_lt {x : Nat} (h : Claims.FiniteIn f x) : x % fmtSign f / 2 ^ fmtMant f < 2 * fmtBias f + 1 := by
  rw [Nat.div_lt_iff_lt_mul (Nat.two_pow_pos _), ← fmtMax_succ_eq hf]
  exact Nat.lt_succ_of_le h.2

/-- A finite word is a significand of at most mant + 1 bits in a unit that the format has. -/
theorem fpOf_finiteIn {x : Nat} (h : Claims.FiniteIn f x) : ∃ n m e, fpOf f x = .fin n m e ∧ Claims.valueIn f x = finValue n m e ∧
    m < 2 ^ (fmtMant f + 1) ∧ minUnit f ≤ e ∧ e ≤ maxUnit f := by
  have hfield := field_lt hf h
  have hbias := fmtBias_pos hf
  have hmant : x % fmtSign f % 2 ^ fmtMant f < 2 ^ fmtMant f := Nat.mod_lt _ (Nat.two_pow_pos _)
  have hpow : 2 ^ (fmtMant f + 1) = 2 ^ fmtMant f + 2 ^ fmtMant f := by rw [pow_succ, mul_two]
  rw [fpOf_eq hf x hfield.ne]
  unfold minUnit maxUnit Claims.valueIn finValue
  by_cases hzero : x % fmtSign f / 2 ^ fmtMant f = 0
  · refine ⟨_, _, _, if_pos hzero, (if_pos hzero).trans ?_, by omega, by omega, by omega⟩
    simp [fmtSign]
  · have hone := Nat.pos_of_ne_zero hzero
    refine ⟨_, _, _, if_neg hzero, (if_neg hzero).trans ?_, by omega, by omega, by omega⟩
    simp [fmtSign]

theorem fmtMax_lt_fmtSign : fmtMax f < fmtSign f := by
  have hlt : (2 * fmtBias f + 1) * 2 ^ fmtMant f ≤ (2 * fmtBias f + 2) * 2 ^ fmtMant f := Nat.mul_le_mul_right _ (by omega)
  rw [fmtSign_eq hf]
  exact Nat.lt_of_succ_le ((fmtMax_succ_eq hf).trans_le hlt)

omit hf in
theorem signed_mod_fmtSign {b : Nat} (n : Bool) (h : b < fmtSign f) : signed f n b % fmtSign f = b := by
  cases n <;> simp [signed, Nat.mod_eq_of_lt h]

omit hf in
theorem valueIn_signed {b : Nat} (n : Bool) (h : b < fmtSign f) : Claims.valueIn f (signed f n b) =
    if b / 2 ^ fmtMant f = 0 then finValue n (b % 2 ^ fmtMant f) (minUnit f)
    else finValue n (2 ^ fmtMant f + b % 2 ^ fmtMant f) (((b / 2 ^ fmtMant f : Nat) : Int) - fmtBias f - fmtMant f) := by
  have hbody := signed_mod_fmtSign n h
  have hsign : signed f n b / fmtSign f % 2 = if n then 1 else 0 := by
    have hpos : 0 < fmtSign f := Nat.zero_lt_of_lt h
    cases n <;> simp [signed, Nat.div_eq_of_lt h, Nat.add_div_left, hpos]
  unfold fmtSign at hbody hsign
  cases n <;> simp [Claims.valueIn, hbody, hsign, finValue, minUnit]

theorem finiteIn_signed {b : Nat} (n : Bool) (h : b ≤ fmtMax f) : Claims.FiniteIn f (signed f n b) := by
  have hlt : b < fmtSign f := h.trans_lt (fmtMax_lt_fmtSign hf)
  refine ⟨?_, (signed_mod_fmtSign n hlt).trans_le h⟩
  rw [two_pow_fmtWidth hf]
  cases n <;> simp [signed] <;> omega

theorem signed_mod_two (n : Bool) (b : Nat) : signed f n b % 2 = b % 2 := by
  have heven : fmtSign f % 2 = 0 := by rcases hf with rfl | rfl | rfl <;> decide
  cases n <;> simp [signed]; omega

/-! ### The grid of a format -/

/-- Significand and unit of a word that a rounding may give: the unit is one of the format's, the significand is normal unless the
unit is the subnormal one, and it may have carried into one more bit where a larger unit is left. -/
structure OnGrid (f : FFmt) (q : Nat) (u : Int) : Prop where
  lower : minUnit f ≤ u
  upper : u ≤ maxUnit f
  normal : u = minUnit f ∨ 2 ^ fmtMant f ≤ q
  carry : q ≤ 2 ^ (fmtMant f + 1)
  top : u = maxUnit f → q < 2 ^ (fmtMant f + 1)

/-- What the word of q × 2^u is, with either sign. -/
def Encodes (f : FFmt) (b q : Nat) (u : Int) : Prop :=
  b ≤ fmtMax f ∧ b % 2 = q % 2 ∧ ∀ n, Claims.valueIn f (signed f n b) = finValue n q u

theorem encodes_subnormal {q : Nat} (h : q < 2 ^ fmtMant f) : Encodes f q q (minUnit f) := by
  have hle : 2 ^ fmtMant f ≤ (2 * fmtBias f + 1) * 2 ^ fmtMant f := Nat.le_mul_of_pos_left _ (by omega)
  have hmax : q ≤ fmtMax f := Nat.le_of_lt_succ (h.trans_le (hle.trans_eq (fmtMax_succ_eq hf).symm))
  refine ⟨hmax, rfl, fun n => ?_⟩
  rw [valueIn_signed n (hmax.trans_lt (fmtMax_lt_fmtSign hf)), if_pos (Nat.div_eq_of_lt h), Nat.mod_eq_of_lt h]

/-- The word with exponent field c and mantissa m. -/
theorem encodes_normal {c m : Nat} (hc : 1 ≤ c) (hmax : c ≤ 2 * fmtBias f) (hm : m < 2 ^ fmtMant f) :
    Encodes f (c * 2 ^ fmtMant f + m) (2 ^ fmtMant f + m) ((c : Int) - fmtBias f - fmtMant f) := by
  have hle : (c + 1) * 2 ^ fmtMant f ≤ (2 * fmtBias f + 1) * 2 ^ fmtMant f := Nat.mul_le_mul_right _ (by omega)
  have hbound : c * 2 ^ fmtMant f + m ≤ fmtMax f := by
    rw [← fmtMax_succ_eq hf, Nat.succ_mul] at hle
    omega
  have hdiv : (c * 2 ^ fmtMant f + m) / 2 ^ fmtMant f = c := by
    rw [Nat.mul_comm, Nat.mul_add_div (Nat.two_pow_pos _), Nat.div_eq_of_lt hm, Nat.add_zero]
  have hmod : (c * 2 ^ fmtMant f + m) % 2 ^ fmtMant f = m := by rw [Nat.mul_comm, Nat.mul_add_mod, Nat.mod_eq_of_lt hm]
  refine ⟨hbound, ?_, fun n => ?_⟩
  · have heven : 2 ^ fmtMant f % 2 = 0 := Nat.mod_eq_zero_of_dvd (dvd_pow_self 2 (Nat.one_le_iff_ne_zero.mp (fmtMant_pos hf)))
    rw [Nat.add_mod, Nat.mul_mod, heven, Nat.add_mod (2 ^ _), heven, Nat.mul_zero, Nat.zero_mod]
  · rw [valueIn_signed n (hbound.trans_lt (fmtMax_lt_fmtSign hf)), hdiv, hmod, if_neg (Nat.one_le_iff_ne_zero.mp hc)]

theorem bitsOf_normal {q : Nat} {u : Int} (hlow : 2 ^ fmtMant f ≤ q) (hhigh : q < 2 ^ (fmtMant f + 1)) (hu : minUnit f ≤ u)
    (hmax : u ≤ maxUnit f) : Encodes f (bitsOf f q u) q u := by
  have hbits : bitsOf f q u = (u + fmtBias f + fmtMant f).toNat * 2 ^ fmtMant f + (q - 2 ^ fmtMant f) := by
    simp only [bitsOf, if_neg hlow.not_gt, if_pos hhigh]
  have hpow : 2 ^ (fmtMant f + 1) = 2 ^ fmtMant f + 2 ^ fmtMant f := by rw [pow_succ, mul_two]
  unfold minUnit at hu
  unfold maxUnit at hmax
  have hword := encodes_normal hf (c := (u + fmtBias f + fmtMant f).toNat) (m := q - 2 ^ fmtMant f) (by omega) (by omega) (by omega)
  have hunit : (((u + fmtBias f + fmtMant f).toNat : Nat) : Int) - fmtBias f - fmtMant f = u := by omega
  rwa [hunit, Nat.add_sub_cancel' hlow, ← hbits] at hword

/-- The bits of a number on the grid are its word (07:R137). -/
theorem bitsOf_encodes {q : Nat} {u : Int} (h : OnGrid f q u) : Encodes f (bitsOf f q u) q u := by
  obtain ⟨hlower, hupper, hnormal, hcarry, htop⟩ := h
  by_cases hsub : q < 2 ^ fmtMant f
  · have hbits : bitsOf f q u = q := if_pos hsub
    rw [hbits, hnormal.resolve_right hsub.not_ge]
    exact encodes_subnormal hf hsub
  rcases hcarry.lt_or_eq with hlt | rfl
  · exact bitsOf_normal hf (Nat.le_of_not_lt hsub) hlt hlower hupper
  · have hdouble : 2 ^ (fmtMant f + 1) / 2 = 2 ^ fmtMant f := by rw [pow_succ, Nat.mul_div_cancel _ two_pos]
    have hhalf : 2 ^ fmtMant f < 2 ^ (fmtMant f + 1) := Nat.pow_lt_pow_right one_lt_two (Nat.lt_succ_self _)
    have hbits : bitsOf f (2 ^ (fmtMant f + 1)) u = bitsOf f (2 ^ fmtMant f) (u + 1) := by
      simp only [bitsOf, if_neg hsub, lt_irrefl, if_false, if_pos hhalf, hdouble]
    have hbelow : u ≠ maxUnit f := fun hu => lt_irrefl _ (htop hu)
    obtain ⟨hle, hmod, hvalue⟩ := bitsOf_normal hf le_rfl hhalf (u := u + 1) (by omega) (by omega)
    refine ⟨hbits ▸ hle, ?_, fun n => ?_⟩
    · rw [hbits, hmod, pow_succ, Nat.mul_mod_left]
      exact Nat.mod_eq_zero_of_dvd (dvd_pow_self 2 (Nat.one_le_iff_ne_zero.mp (fmtMant_pos hf)))
    · rw [hbits, hvalue, finValue, finValue, zpow_add_one₀ two_ne_zero]
      push_cast
      ring

theorem fpOf_fmtMax : fpOf f (fmtMax f) = .fin false (2 ^ (fmtMant f + 1) - 1) (maxUnit f) := by
  rcases hf with rfl | rfl | rfl <;> decide

theorem valueIn_fmtMax : Claims.valueIn f (fmtMax f) = ((2 ^ (fmtMant f + 1) - 1 : Nat) : ℚ) * 2 ^ maxUnit f := by
  have hfinite : Claims.FiniteIn f (fmtMax f) := finiteIn_signed hf false le_rfl
  obtain ⟨n, m, e, hfp, hvalue, -⟩ := fpOf_finiteIn hf hfinite
  obtain ⟨rfl, rfl, rfl⟩ := Fp.fin.inj ((fpOf_fmtMax hf).symm.trans hfp)
  simp [hvalue, finValue]

theorem aboveMax_eq_false {q : Nat} {u : Int} (h : OnGrid f q u) : aboveMax f q u = false := by
  simp only [aboveMax, fpOf_fmtMax hf, if_pos h.upper, decide_eq_false_iff_not, Nat.not_lt]
  by_cases htop : u = maxUnit f
  · rw [htop, sub_self, Int.toNat_zero, pow_zero, mul_one]
    exact Nat.le_sub_one_of_lt (h.top htop)
  · have hupper := h.upper
    have htwo : 2 ≤ 2 ^ (maxUnit f - u).toNat := Nat.le_self_pow (by omega) 2
    have hone : 2 ≤ 2 ^ (fmtMant f + 1) := Nat.le_self_pow (Nat.succ_ne_zero _) 2
    calc q ≤ 2 ^ (fmtMant f + 1) := h.carry
      _ ≤ (2 ^ (fmtMant f + 1) - 1) * 2 := by omega
      _ ≤ _ := Nat.mul_le_mul_left _ htwo

/-- No word of the format lies between the two sides of a cut at q × 2^u. -/
def NoWordBetween (f : FFmt) (q : Nat) (u : Int) : Prop :=
  ∀ y, Claims.FiniteIn f y → |Claims.valueIn f y| ≤ q * 2 ^ u ∨ (q + 1) * 2 ^ u ≤ |Claims.valueIn f y|

theorem noWordBetween {q : Nat} {u : Int} (hnormal : u = minUnit f ∨ 2 ^ fmtMant f ≤ q) : NoWordBetween f q u := by
  intro y hy
  obtain ⟨n, m, e, -, hvalue, hm, he, -⟩ := fpOf_finiteIn hf hy
  rw [hvalue, abs_finValue]
  have hu : (0 : ℚ) ≤ 2 ^ u := by positivity
  by_cases hue : u ≤ e
  · rw [mul_zpow_eq_shifted m hue]
    rcases Nat.lt_or_ge q (m * 2 ^ (e - u).toNat) with hlt | hge
    · exact .inr (mul_le_mul_of_nonneg_right (by exact_mod_cast hlt) hu)
    · exact .inl (mul_le_mul_of_nonneg_right (by exact_mod_cast hge) hu)
  · refine .inl ?_
    have hq : 2 ^ fmtMant f ≤ q := hnormal.resolve_left (by omega)
    have hm : (m : ℚ) ≤ 2 ^ (fmtMant f + 1) := by exact_mod_cast hm.le
    calc (m : ℚ) * 2 ^ e ≤ 2 ^ (fmtMant f + 1) * 2 ^ (u - 1) :=
          mul_le_mul hm (zpow_le_zpow_right₀ one_le_two (by omega)) (by positivity) (by positivity)
      _ = 2 ^ fmtMant f * 2 ^ u := by rw [zpow_sub_one₀ two_ne_zero, pow_succ]; ring
      _ ≤ q * 2 ^ u := mul_le_mul_of_nonneg_right (by exact_mod_cast hq) hu

end Format

/-! ### Rounding between two neighbours (07:R144) -/

/-- L and H are the numbers of the format next to v, and v is not one of them. -/
structure Neighbours (f : FFmt) (L v H : ℚ) : Prop where
  below : L < v
  above : v < H
  gap : ∀ y, Claims.FiniteIn f y → Claims.valueIn f y ≤ L ∨ H ≤ Claims.valueIn f y

section Neighbours

variable {f : FFmt} {L v H : ℚ} {r : Nat}

theorem roundedTo_of_eq (mode : Rnd) (h : Claims.valueIn f r = v) : Claims.RoundedTo f mode v r := by
  subst h
  cases mode with
  | rn => exact fun y _ => ⟨by simp, fun heq hne => absurd (sub_eq_zero.mp (abs_eq_zero.mp (heq.symm.trans (by simp)))) hne⟩
  | rz => exact ⟨le_rfl, mul_self_nonneg _, fun y _ h => h⟩
  | rd | ru => exact ⟨le_rfl, fun y _ h => h⟩
  | sr => trivial

theorem Neighbours.roundedTo_rd (h : Neighbours f L v H) (hr : Claims.valueIn f r = L) : Claims.RoundedTo f .rd v r :=
  ⟨hr.trans_le h.below.le, fun y hy hyv => ((h.gap y hy).resolve_right (hyv.trans_lt h.above).not_ge).trans_eq hr.symm⟩

theorem Neighbours.roundedTo_ru (h : Neighbours f L v H) (hr : Claims.valueIn f r = H) : Claims.RoundedTo f .ru v r :=
  ⟨h.above.le.trans_eq hr.symm, fun y hy hvy => hr.trans_le ((h.gap y hy).resolve_left (h.below.trans_le hvy).not_ge)⟩

theorem Neighbours.roundedTo_rn (h : Neighbours f L v H) (hlow : |Claims.valueIn f r - v| ≤ v - L)
    (hhigh : |Claims.valueIn f r - v| ≤ H - v) (hr : Claims.valueIn f r = L ∨ Claims.valueIn f r = H)
    (heven : v - L = H - v → r % 2 = 0) : Claims.RoundedTo f .rn v r := by
  obtain ⟨hbelow, habove, hgap⟩ := h
  intro y hy
  rcases hgap y hy with hy | hy
  · rw [abs_of_nonpos (by linarith : Claims.valueIn f y - v ≤ 0)]
    refine ⟨by linarith, fun heq hne => heven ?_⟩
    have hL : Claims.valueIn f y = L := by linarith
    have hR := hr.resolve_left fun h => hne (hL.trans h.symm)
    rw [hR, abs_of_pos (sub_pos.mpr habove)] at heq
    linarith
  · rw [abs_of_nonneg (by linarith : 0 ≤ Claims.valueIn f y - v)]
    refine ⟨by linarith, fun heq hne => heven ?_⟩
    have hH : Claims.valueIn f y = H := by linarith
    have hR := hr.resolve_right fun h => hne (hH.trans h.symm)
    rw [hR, abs_of_neg (sub_neg.mpr hbelow)] at heq
    linarith

end Neighbours

/-! ### The cut of a magnitude at a unit -/

/-- The significand that `roundFin` keeps in units of 2^u, whether it rounds up, and whether something is lost. -/
def unitCut (mode : Rnd) (n : Bool) (m : Nat) (e u : Int) : Nat × Bool × Bool :=
  if u ≤ e then (m * 2 ^ (e - u).toNat, roundsUp mode n (m * 2 ^ (e - u).toNat % 2 == 1) 0 8 false 0, false)
  else if (Nat.log2 m : Int) + e < u - 16 then (0, roundsUp mode n false 0 8 true 0, true)
  else (m / 2 ^ (u - e).toNat,
    roundsUp mode n (m / 2 ^ (u - e).toNat % 2 == 1) (m % 2 ^ (u - e).toNat) (u - e).toNat false 0,
    m % 2 ^ (u - e).toNat != 0 || false)

/-- Whether a magnitude t above the whole number q goes to q + 1 in a mode (07:R144). -/
def RoundsAway (mode : Rnd) (n : Bool) (q : Nat) (t : ℚ) : Prop :=
  match mode with
  | .rn => q + 1 / 2 < t ∨ (t = q + 1 / 2 ∧ q % 2 = 1)
  | .rz => False
  | .rd => n = true
  | .ru => n = false
  | .sr => True

/-- The whole number under t, whether it rounds up, and whether t is not whole. -/
structure IsCut (mode : Rnd) (n : Bool) (t : ℚ) (q : Nat) (up lost : Bool) : Prop where
  le : (q : ℚ) ≤ t
  lt : t < q + 1
  exact_iff : lost = false ↔ t = q
  up_iff : up = true ↔ t ≠ q ∧ RoundsAway mode n q t

section Cut

variable {mode : Rnd} {n : Bool} (hmode : mode ≠ .sr)
include hmode

theorem roundsUp_iff (q : Nat) {r sh : Nat} : roundsUp mode n (q % 2 == 1) r sh false 0 = true ↔
    (q : ℚ) + r / 2 ^ sh ≠ q ∧ RoundsAway mode n q (q + r / 2 ^ sh) := by
  have hpos : (0 : ℚ) < 2 ^ sh := by positivity
  have hzero : (q : ℚ) + r / 2 ^ sh ≠ q ↔ r ≠ 0 := by simp
  have hlt : (2⁻¹ : ℚ) < r / 2 ^ sh ↔ 2 ^ sh < 2 * r := by
    rw [lt_div_iff₀ hpos, ← Nat.cast_lt (α := ℚ)]
    push_cast
    constructor <;> intro h <;> linarith
  have heq : (r : ℚ) / 2 ^ sh = 2⁻¹ ↔ 2 * r = 2 ^ sh := by
    rw [div_eq_iff hpos.ne', ← Nat.cast_inj (R := ℚ)]
    push_cast
    constructor <;> intro h <;> linarith
  rw [hzero]
  cases mode with
  | sr => exact absurd rfl hmode
  | rn =>
    simp only [RoundsAway, one_div, add_lt_add_iff_left, add_right_inj, hlt, heq]
    simp [roundsUp]
  | rz | rd | ru => simp [roundsUp, RoundsAway]

/-- A part r of 2^sh over q. -/
theorem isCut_part (q : Nat) {r sh : Nat} (hr : r < 2 ^ sh) :
    IsCut mode n (q + r / 2 ^ sh) q (roundsUp mode n (q % 2 == 1) r sh false 0) (r != 0) := by
  have hpos : (0 : ℚ) < 2 ^ sh := by positivity
  have hlt : (r : ℚ) / 2 ^ sh < 1 := (div_lt_one hpos).mpr (by exact_mod_cast hr)
  exact ⟨le_add_of_nonneg_right (by positivity), by linarith, by simp, roundsUp_iff hmode q⟩

/-- A positive magnitude below half a unit. -/
theorem isCut_tiny {t : ℚ} (hpos : 0 < t) (hhalf : t < 2⁻¹) : IsCut mode n t 0 (roundsUp mode n false 0 8 true 0) true := by
  refine ⟨by simpa using hpos.le, by push_cast; linarith, by simpa using hpos.ne', ?_⟩
  cases mode with
  | sr => exact absurd rfl hmode
  | rn => simp [roundsUp, RoundsAway, hhalf.not_gt, hhalf.ne]
  | rz | rd | ru => simp [roundsUp, RoundsAway, hpos.ne']

end Cut

theorem zpow_log2_le {m : Nat} (hm : m ≠ 0) (k : Int) : (2 : ℚ) ^ ((m.log2 : Int) + k) ≤ m * 2 ^ k := by
  rw [zpow_add₀ two_ne_zero, zpow_natCast]
  exact mul_le_mul_of_nonneg_right (by exact_mod_cast Nat.log2_self_le hm) (by positivity)

theorem lt_zpow_log2 (m : Nat) (k : Int) : (m : ℚ) * 2 ^ k < 2 ^ ((m.log2 : Int) + k + 1) := by
  rw [add_right_comm, zpow_add₀ two_ne_zero, ← Nat.cast_succ, zpow_natCast]
  exact mul_lt_mul_of_pos_right (by exact_mod_cast Nat.lt_log2_self) (by positivity)

/-- The cut of m × 2^e at the unit 2^u. -/
theorem isCut_unitCut {mode : Rnd} (hmode : mode ≠ .sr) (n : Bool) {m : Nat} (hm : m ≠ 0) (e u : Int) :
    IsCut mode n (m * 2 ^ (e - u)) (unitCut mode n m e u).1 (unitCut mode n m e u).2.1 (unitCut mode n m e u).2.2 := by
  unfold unitCut
  split_ifs with hue htiny
  · have hwhole := isCut_part hmode (n := n) (m * 2 ^ (e - u).toNat) (Nat.two_pow_pos 8)
    have hvalue := mul_zpow_eq_shifted m hue
    have ht : (m : ℚ) * 2 ^ (e - u) = ((m * 2 ^ (e - u).toNat : Nat) : ℚ) + (0 : Nat) / 2 ^ 8 := by
      rw [zpow_sub₀ two_ne_zero, ← mul_div_assoc, hvalue, mul_div_cancel_right₀ _ (by positivity)]
      simp
    rw [ht]
    exact hwhole
  · refine isCut_tiny hmode (by positivity) ?_
    calc (m : ℚ) * 2 ^ (e - u) < 2 ^ ((m.log2 : Int) + (e - u) + 1) := lt_zpow_log2 m _
      _ ≤ 2 ^ (-1 : Int) := zpow_le_zpow_right₀ one_le_two (by omega)
      _ = 2⁻¹ := zpow_neg_one 2
  · have hpart := isCut_part hmode (n := n) (m / 2 ^ (u - e).toNat) (Nat.mod_lt m (Nat.two_pow_pos (u - e).toNat))
    have hsh : (2 : ℚ) ^ (e - u) = (2 ^ (u - e).toNat)⁻¹ := by
      rw [← zpow_natCast, ← zpow_neg, Int.toNat_of_nonneg (by omega), neg_sub]
    have ht : (m : ℚ) * 2 ^ (e - u) = ((m / 2 ^ (u - e).toNat : Nat) : ℚ) + (m % 2 ^ (u - e).toNat : Nat) / 2 ^ (u - e).toNat := by
      have hsplit : (m : ℚ) = 2 ^ (u - e).toNat * (m / 2 ^ (u - e).toNat : Nat) + (m % 2 ^ (u - e).toNat : Nat) := by
        exact_mod_cast (Nat.div_add_mod m _).symm
      rw [hsh]
      conv_lhs => rw [hsplit]
      field_simp
    rw [ht, Bool.or_false]
    exact hpart

/-! ### One rounding -/

/-- The result `r` is v rounded once, and bit 4 says whether it differs from v. -/
def RoundsOnce (f : FFmt) (mode : Rnd) (v : ℚ) (r : Rounded) : Prop :=
  Claims.FiniteIn f r.bits ∧ Claims.RoundedTo f mode v r.bits ∧ (Claims.valueIn f r.bits = v ↔ r.flags.getLsbD 4 = false)

/-- The significand after rounding. -/
def kept (q : Nat) (up : Bool) : Nat := if up then q + 1 else q

theorem IsCut.kept_eq_iff {mode : Rnd} {n : Bool} {t : ℚ} {q : Nat} {up lost : Bool} (h : IsCut mode n t q up lost) :
    (kept q up : ℚ) = t ↔ lost = false := by
  rw [h.exact_iff]
  have hle := h.le
  have hlt := h.lt
  cases hup : up with
  | false => exact eq_comm
  | true =>
    have hne := (h.up_iff.mp hup).1
    simp only [kept, if_true, Nat.cast_succ, hne, iff_false]
    exact hlt.ne'


theorem neighbours_pos {f : FFmt} {lo x hi : ℚ} (hlo : 0 ≤ lo) (hbelow : lo < x) (habove : x < hi)
    (hgap : ∀ y, Claims.FiniteIn f y → |Claims.valueIn f y| ≤ lo ∨ hi ≤ |Claims.valueIn f y|) : Neighbours f lo x hi := by
  refine ⟨hbelow, habove, fun y hy => (hgap y hy).elim (fun h => .inl (le_of_abs_le h)) fun h => ?_⟩
  rcases le_abs.mp h with h | h
  · exact .inr h
  · exact .inl (by linarith)

theorem neighbours_neg {f : FFmt} {lo x hi : ℚ} (hlo : 0 ≤ lo) (hbelow : lo < x) (habove : x < hi)
    (hgap : ∀ y, Claims.FiniteIn f y → |Claims.valueIn f y| ≤ lo ∨ hi ≤ |Claims.valueIn f y|) : Neighbours f (-hi) (-x) (-lo) := by
  refine ⟨neg_lt_neg habove, neg_lt_neg hbelow, fun y hy => (hgap y hy).elim (fun h => .inr (neg_le_of_abs_le h)) fun h => ?_⟩
  rcases le_abs.mp h with h | h
  · exact .inr (by linarith)
  · exact .inl (by linarith)

/-- To the nearest, ties to even. -/
theorem IsCut.kept_nearest {n : Bool} {t : ℚ} {q : Nat} {up lost : Bool} (h : IsCut .rn n t q up lost) (hne : t ≠ q) :
    |(kept q up : ℚ) - t| ≤ t - q ∧ |(kept q up : ℚ) - t| ≤ q + 1 - t ∧ (t - q = q + 1 - t → kept q up % 2 = 0) := by
  obtain ⟨hle, hlt, -, hup⟩ := h
  cases up with
  | false =>
    have hnear : ¬ RoundsAway .rn n q t := fun h => Bool.false_ne_true (hup.mpr ⟨hne, h⟩)
    simp only [RoundsAway, not_or, not_and, not_lt] at hnear
    obtain ⟨hhalf, hodd⟩ := hnear
    rw [kept, if_neg Bool.false_ne_true, abs_of_nonpos (by linarith)]
    refine ⟨by linarith, by linarith, fun htie => ?_⟩
    have := hodd (by linarith)
    omega
  | true =>
    have hhalf : (q : ℚ) + 1 / 2 ≤ t := (hup.mp rfl).2.elim le_of_lt fun h => h.1.ge
    rw [kept, if_pos rfl, Nat.cast_succ, abs_of_nonneg (by linarith)]
    refine ⟨by linarith, by linarith, fun htie => ?_⟩
    have := ((hup.mp rfl).2.resolve_left (by linarith)).2
    omega

section CutWord

variable {f : FFmt} {mode : Rnd} {n : Bool} {t : ℚ} {q r : Nat} {up lost : Bool} {u : Int}

theorem IsCut.between (h : IsCut mode n t q up lost) (hexact : t ≠ q) (u : Int) :
    (0 : ℚ) ≤ q * 2 ^ u ∧ q * 2 ^ u < t * 2 ^ u ∧ t * 2 ^ u < (q + 1) * 2 ^ u :=
  ⟨by positivity, mul_lt_mul_of_pos_right (lt_of_le_of_ne h.le hexact.symm) (by positivity), mul_lt_mul_of_pos_right h.lt (by positivity)⟩

theorem IsCut.neighbours (h : IsCut mode n t q up lost) (hexact : t ≠ q) (hgap : NoWordBetween f q u) :
    Neighbours f (if n then -(((q : ℚ) + 1) * 2 ^ u) else q * 2 ^ u) (if n then -(t * 2 ^ u) else t * 2 ^ u)
      (if n then -((q : ℚ) * 2 ^ u) else (q + 1) * 2 ^ u) := by
  obtain ⟨hq, hbelow, habove⟩ := h.between hexact u
  cases n with
  | false => exact neighbours_pos hq hbelow habove hgap
  | true => exact neighbours_neg hq hbelow habove hgap

theorem IsCut.roundedTo_rz (h : IsCut .rz n t q up lost) (hexact : t ≠ q) (hgap : NoWordBetween f q u)
    (hr : Claims.valueIn f r = if n then -((kept q up : ℚ) * 2 ^ u) else (kept q up : ℚ) * 2 ^ u) :
    Claims.RoundedTo f .rz (if n then -(t * 2 ^ u) else t * 2 ^ u) r := by
  obtain ⟨hq, hbelow, habove⟩ := h.between hexact u
  have ht := hq.trans hbelow.le
  have hdown : up = false := Bool.eq_false_iff.mpr fun hup => (h.up_iff.mp hup).2
  have habsr : |Claims.valueIn f r| = q * 2 ^ u := by cases n <;> simp [hr, hdown, kept, abs_of_nonneg hq]
  have habsv : |if n then -(t * 2 ^ u) else t * 2 ^ u| = t * 2 ^ u := by cases n <;> simp [abs_of_nonneg ht]
  refine ⟨?_, ?_, fun y hy hyv => ?_⟩
  · rw [habsr, habsv]
    exact hbelow.le
  · have hprod := mul_nonneg hq ht
    cases n <;> simpa [hr, hdown, kept] using hprod
  · rw [habsv] at hyv
    rw [habsr]
    exact (hgap y hy).resolve_right (hyv.trans_lt habove).not_ge

theorem IsCut.roundedTo_rn (h : IsCut .rn n t q up lost) (hexact : t ≠ q) (hgap : NoWordBetween f q u)
    (hr : Claims.valueIn f r = if n then -((kept q up : ℚ) * 2 ^ u) else (kept q up : ℚ) * 2 ^ u)
    (hparity : r % 2 = kept q up % 2) : Claims.RoundedTo f .rn (if n then -(t * 2 ^ u) else t * 2 ^ u) r := by
  have hu : (0 : ℚ) < 2 ^ u := by positivity
  obtain ⟨hlow, hhigh, heven⟩ := h.kept_nearest hexact
  have hdist : |Claims.valueIn f r - if n then -(t * 2 ^ u) else t * 2 ^ u| = |(kept q up : ℚ) - t| * 2 ^ u := by
    rw [hr, ← abs_of_pos hu, ← abs_mul, abs_of_pos hu, sub_mul]
    cases n with
    | false => rfl
    | true => rw [if_pos rfl, if_pos rfl, neg_sub_neg, abs_sub_comm]
  have hlow := mul_le_mul_of_nonneg_right hlow hu.le
  have hhigh := mul_le_mul_of_nonneg_right hhigh hu.le
  have heven (htie : t * 2 ^ u - q * 2 ^ u = (q + 1) * 2 ^ u - t * 2 ^ u) : r % 2 = 0 :=
    hparity.trans (heven (mul_right_cancel₀ hu.ne' (by linarith)))
  have hside : (kept q up : ℚ) = q ∨ (kept q up : ℚ) = q + 1 := by cases up <;> simp [kept]
  cases n with
  | false =>
    have hn : Neighbours f (q * 2 ^ u) (t * 2 ^ u) ((q + 1) * 2 ^ u) := h.neighbours hexact hgap
    refine hn.roundedTo_rn (hdist.trans_le (by linarith)) (hdist.trans_le (by linarith)) ?_ heven
    exact hside.imp (fun hk => hr.trans (by rw [hk]; rfl)) fun hk => hr.trans (by rw [hk]; rfl)
  | true =>
    have hn : Neighbours f (-((q + 1) * 2 ^ u)) (-(t * 2 ^ u)) (-(q * 2 ^ u)) := h.neighbours hexact hgap
    refine hn.roundedTo_rn (hdist.trans_le (by linarith)) (hdist.trans_le (by linarith)) ?_ fun htie => heven (by linarith)
    exact hside.symm.imp (fun hk => hr.trans (by rw [hk]; rfl)) fun hk => hr.trans (by rw [hk]; rfl)

/-- A magnitude t × 2^u is rounded by its cut at 2^u. -/
theorem IsCut.roundedTo (h : IsCut mode n t q up lost) (hgap : NoWordBetween f q u)
    (hr : Claims.valueIn f r = if n then -((kept q up : ℚ) * 2 ^ u) else (kept q up : ℚ) * 2 ^ u)
    (hparity : r % 2 = kept q up % 2) : Claims.RoundedTo f mode (if n then -(t * 2 ^ u) else t * 2 ^ u) r := by
  by_cases hexact : t = q
  · exact roundedTo_of_eq mode (by rw [hr, h.kept_eq_iff.mpr (h.exact_iff.mpr hexact)])
  have hup : up = true ↔ RoundsAway mode n q t := h.up_iff.trans (and_iff_right hexact)
  cases mode with
  | sr => trivial
  | rz => exact h.roundedTo_rz hexact hgap hr
  | rn => exact h.roundedTo_rn hexact hgap hr hparity
  | rd =>
    have hup : up = n := Bool.eq_iff_iff.mpr hup
    refine (h.neighbours hexact hgap).roundedTo_rd (hr.trans ?_)
    cases n <;> simp [hup, kept]
  | ru =>
    have hup : up = !n := Bool.eq_iff_iff.mpr (hup.trans (by simp [RoundsAway]))
    refine (h.neighbours hexact hgap).roundedTo_ru (hr.trans ?_)
    cases n <;> simp [hup, kept]

end CutWord

theorem getLsbD_inexact (lost tiny : Bool) : ((if lost then FlagBit.inexact else 0) |||
    (if lost && tiny then FlagBit.underflow else 0)).getLsbD 4 = lost := by
  revert lost tiny
  decide

/-- What `roundFin` answers below the overflow, from the cut at its unit. -/
theorem roundFin_of_unitCut {f : FFmt} {mode : Rnd} {n up lost : Bool} {m q : Nat} {e u : Int} (hm : m ≠ 0)
    (htop : (m.log2 : Int) + e ≤ fmtBias f) (hu : u = max ((m.log2 : Int) + e - fmtMant f) (minUnit f))
    (hcut : unitCut mode n m e u = (q, up, lost)) (habove : aboveMax f (kept q up) u = false) :
    (roundFin f mode 0 false n m e false).bits = signed f n (bitsOf f (kept q up) u) ∧
    (roundFin f mode 0 false n m e false).flags.getLsbD 4 = lost := by
  have hnot : ¬ (m = 0 && !false) = true := by simp [hm]
  have hbelow : ¬ ((m.log2 : Int) + e > fmtBias f + 2) := by omega
  have hround : roundFin f mode 0 false n m e false = ⟨signed f n (bitsOf f (kept q up) u), (if lost then FlagBit.inexact else 0) |||
      (if lost && decide (kept q up < 2 ^ fmtMant f) then FlagBit.underflow else 0)⟩ := by
    obtain ⟨rfl, hcut⟩ := Prod.ext_iff.mp hcut
    obtain ⟨rfl, rfl⟩ := Prod.ext_iff.mp hcut
    subst hu
    unfold roundFin
    rw [if_neg hnot]
    dsimp only
    rw [if_neg hbelow]
    exact if_neg (Bool.eq_false_iff.mp habove)
  rw [hround]
  exact ⟨rfl, getLsbD_inexact _ _⟩

section Format

variable {f : FFmt} (hf : f = .f32 ∨ f = .f16 ∨ f = .bf16)
include hf

theorem top_le_fmtBias {m : Nat} {e : Int} (hm : m ≠ 0) (hmax : (m : ℚ) * 2 ^ e ≤ Claims.valueIn f (fmtMax f)) :
    (m.log2 : Int) + e ≤ fmtBias f := by
  have hlt : (2 : ℚ) ^ ((m.log2 : Int) + e) < 2 ^ ((fmtBias f : Int) + 1) :=
    calc (2 : ℚ) ^ ((m.log2 : Int) + e) ≤ m * 2 ^ e := zpow_log2_le hm e
      _ ≤ ((2 ^ (fmtMant f + 1) - 1 : Nat) : ℚ) * 2 ^ maxUnit f := hmax.trans_eq (valueIn_fmtMax hf)
      _ < (2 ^ (fmtMant f + 1) : Nat) * 2 ^ maxUnit f :=
        mul_lt_mul_of_pos_right (Nat.cast_lt.mpr (Nat.sub_one_lt (Nat.two_pow_pos _).ne')) (by positivity)
      _ = 2 ^ ((fmtBias f : Int) + 1) := by
        rw [Nat.cast_pow, Nat.cast_ofNat, ← zpow_natCast, ← zpow_add₀ two_ne_zero, maxUnit]
        congr 1
        push_cast
        ring
  exact Int.lt_add_one_iff.mp ((zpow_lt_zpow_iff_right₀ one_lt_two).mp hlt)

/-- The cut of a number within the format's range is on the grid, on both its sides. -/
theorem onGrid_kept {mode : Rnd} {n up lost : Bool} {m q : Nat} {e u : Int} (hm : m ≠ 0)
    (hmax : (m : ℚ) * 2 ^ e ≤ Claims.valueIn f (fmtMax f)) (hu : u = max ((m.log2 : Int) + e - fmtMant f) (minUnit f))
    (hcut : IsCut mode n (m * 2 ^ (e - u)) q up lost) : (u = minUnit f ∨ 2 ^ fmtMant f ≤ q) ∧ OnGrid f (kept q up) u := by
  obtain ⟨hle, hlt, -, hup⟩ := hcut
  have htop := top_le_fmtBias hf hm hmax
  have hbias := fmtBias_pos hf
  have hcarry : q < 2 ^ (fmtMant f + 1) := by
    have hpow : (q : ℚ) < 2 ^ (((fmtMant f + 1 : Nat)) : Int) :=
      calc (q : ℚ) ≤ m * 2 ^ (e - u) := hle
        _ < 2 ^ ((m.log2 : Int) + (e - u) + 1) := lt_zpow_log2 m _
        _ ≤ _ := zpow_le_zpow_right₀ one_le_two (by omega)
    exact_mod_cast hpow
  have hnormal : u = minUnit f ∨ 2 ^ fmtMant f ≤ q := by
    refine or_iff_not_imp_left.mpr fun hsub => Nat.le_of_lt_succ ?_
    have hpow : (2 : ℚ) ^ ((fmtMant f : Nat) : Int) < q + 1 :=
      calc (2 : ℚ) ^ ((fmtMant f : Nat) : Int) ≤ 2 ^ ((m.log2 : Int) + (e - u)) := zpow_le_zpow_right₀ one_le_two (by omega)
        _ ≤ m * 2 ^ (e - u) := zpow_log2_le hm _
        _ < q + 1 := hlt
    exact_mod_cast hpow
  have hkept : q ≤ kept q up ∧ kept q up ≤ q + 1 := by cases up <;> simp [kept]
  refine ⟨hnormal, by omega, by unfold minUnit maxUnit at *; omega, hnormal.imp_right fun h => h.trans hkept.1,
    hkept.2.trans hcarry, fun htop => ?_⟩
  cases up with
  | false => exact hcarry
  | true =>
    have hpos : (0 : ℚ) < 2 ^ maxUnit f := by positivity
    have hscaled : (m : ℚ) * 2 ^ (e - u) ≤ (2 ^ (fmtMant f + 1) - 1 : Nat) := by
      rwa [zpow_sub₀ two_ne_zero, ← mul_div_assoc, htop, div_le_iff₀ hpos, ← valueIn_fmtMax hf]
    have hstrict : (q : ℚ) < (2 ^ (fmtMant f + 1) - 1 : Nat) := (lt_of_le_of_ne hle (hup.mp rfl).1.symm).trans_le hscaled
    have hstrict : q < 2 ^ (fmtMant f + 1) - 1 := by exact_mod_cast hstrict
    exact Nat.add_lt_of_lt_sub hstrict

/-- A number within the format's range is rounded once (07:R144, R147). -/
theorem roundFin_roundsOnce {mode : Rnd} (hmode : mode ≠ .sr) (n : Bool) (m : Nat) (e : Int)
    (hmax : |finValue n m e| ≤ Claims.valueIn f (fmtMax f)) :
    RoundsOnce f mode (finValue n m e) (roundFin f mode 0 false n m e false) := by
  by_cases hm : m = 0
  · subst hm
    have hzero : roundFin f mode 0 false n 0 e false = ⟨signed f n 0, 0⟩ := rfl
    have hvalue : Claims.valueIn f (signed f n 0) = 0 := by
      rw [(encodes_subnormal hf (Nat.two_pow_pos _)).2.2, finValue_zero]
    rw [hzero, finValue_zero]
    exact ⟨finiteIn_signed hf n (Nat.zero_le _), roundedTo_of_eq mode hvalue, iff_of_true hvalue BitVec.getLsbD_zero⟩
  rw [abs_finValue] at hmax
  obtain ⟨u, hu⟩ : ∃ u, u = max ((m.log2 : Int) + e - fmtMant f) (minUnit f) := ⟨_, rfl⟩
  obtain ⟨⟨q, up, lost⟩, hunit⟩ : ∃ c, unitCut mode n m e u = c := ⟨_, rfl⟩
  have hcut := isCut_unitCut hmode n hm e u
  rw [hunit] at hcut
  obtain ⟨hnormal, hgrid⟩ := onGrid_kept hf hm hmax hu hcut
  obtain ⟨hbits, hflag⟩ := roundFin_of_unitCut hm (top_le_fmtBias hf hm hmax) hu hunit (aboveMax_eq_false hf hgrid)
  obtain ⟨hle, hparity, hvalue⟩ := bitsOf_encodes hf hgrid
  have hpos : (2 : ℚ) ^ u ≠ 0 := by positivity
  have hscaled : (m : ℚ) * 2 ^ e = m * 2 ^ (e - u) * 2 ^ u := by
    rw [zpow_sub₀ two_ne_zero, ← mul_div_assoc, div_mul_cancel₀ _ hpos]
  have hvalue := (hvalue n).trans (finValue_eq_ite _ _ _)
  rw [RoundsOnce, hbits, hflag, finValue_eq_ite, hscaled]
  refine ⟨finiteIn_signed hf n hle, hcut.roundedTo (noWordBetween hf hnormal) hvalue
    ((signed_mod_two hf n _).trans hparity), ?_⟩
  rw [hvalue, ← hcut.kept_eq_iff]
  cases n <;> simp [hpos]

end Format

/-! ### Exact sums and products (08:R160) -/

/-- The first of the terms in a unit that divides it. -/
theorem sumAt_fin_cons {n : Bool} {m : Nat} {e u : Int} (ts : List Fp) (hu : m ≠ 0 → u ≤ e) :
    (sumAt u ((Fp.fin n m e :: ts).filter (fun t => !t.isZero)) : ℚ) * 2 ^ u =
      finValue n m e + (sumAt u (ts.filter (fun t => !t.isZero)) : ℚ) * 2 ^ u := by
  by_cases hm : m = 0
  · simp [hm, Fp.isZero]
  · have hkeep : (Fp.fin n m e :: ts).filter (fun t => !t.isZero) = Fp.fin n m e :: ts.filter (fun t => !t.isZero) :=
      List.filter_cons_of_pos (by simp [Fp.isZero, hm])
    rw [hkeep, sumAt, Int.cast_add, add_mul, finValue_eq_ite, mul_zpow_eq_shifted m (hu hm)]
    cases n <;> simp

theorem finValue_natAbs (x u : Int) : finValue (decide (x < 0)) x.natAbs u = x * 2 ^ u := by
  rw [finValue_eq_ite, Nat.cast_natAbs]
  by_cases hx : x < 0
  · simp [hx, abs_of_neg hx]
  · simp [hx, abs_of_nonneg (not_lt.mp hx)]

theorem minExp_pair_le (n n' : Bool) (m m' : Nat) {e e' : Int} (he : e < 4096) (he' : e' < 4096) :
    (m ≠ 0 → minExp [.fin n m e, .fin n' m' e'] 4096 ≤ e) ∧ (m' ≠ 0 → minExp [.fin n m e, .fin n' m' e'] 4096 ≤ e') ∧
    (minExp [.fin n m e, .fin n' m' e'] 4096 = 4096 → m = 0 ∧ m' = 0) := by
  simp only [minExp]
  split_ifs <;> omega

/-- The sum of two finite numbers is exact. -/
theorem sumExact_fin (mode : Rnd) (n n' : Bool) (m m' : Nat) {e e' : Int} (he : e < 4096) (he' : e' < 4096) :
    ∃ k x u, sumExact mode [.fin n m e, .fin n' m' e'] = some (.fin k x u) ∧ finValue k x u = finValue n m e + finValue n' m' e' := by
  obtain ⟨hfirst, hsecond, hnone⟩ := minExp_pair_le n n' m m' he he'
  obtain ⟨u, hu⟩ : ∃ u, u = if minExp [.fin n m e, .fin n' m' e'] 4096 = 4096 then 0 else minExp [.fin n m e, .fin n' m' e'] 4096 :=
    ⟨_, rfl⟩
  have hsum : (sumAt u ([Fp.fin n m e, .fin n' m' e'].filter (fun t => !t.isZero)) : ℚ) * 2 ^ u =
      finValue n m e + finValue n' m' e' := by
    rw [sumAt_fin_cons _ (by split_ifs at hu <;> omega), sumAt_fin_cons _ (by split_ifs at hu <;> omega)]
    simp [sumAt]
  have hinf : ([Fp.fin n m e, .fin n' m' e'].any Fp.isInf) = false := rfl
  unfold sumExact
  simp only [hinf, Bool.false_eq_true, if_false, ← hu]
  by_cases hx : sumAt u ([Fp.fin n m e, .fin n' m' e'].filter (fun t => !t.isZero)) = 0
  · rw [hx, Int.cast_zero, zero_mul] at hsum
    exact ⟨_, 0, 0, if_pos hx, (finValue_zero _ _).trans hsum⟩
  · exact ⟨_, _, u, if_neg hx, (finValue_natAbs _ u).trans hsum⟩

section Format

variable {f : FFmt} (hf : f = .f32 ∨ f = .f16 ∨ f = .bf16) {mode : Rnd} (hmode : mode ≠ .sr)
include hf hmode

theorem addTerms_roundsOnce {n n' : Bool} {m m' : Nat} {e e' : Int} (he : e < 4096) (he' : e' < 4096)
    (hmax : |finValue n m e + finValue n' m' e'| ≤ Claims.valueIn f (fmtMax f)) :
    RoundsOnce f mode (finValue n m e + finValue n' m' e') (addTerms f mode 0 [.fin n m e, .fin n' m' e']) := by
  obtain ⟨k, x, u, hsum, hvalue⟩ := sumExact_fin mode n n' m m' he he'
  have hround : addTerms f mode 0 [.fin n m e, .fin n' m' e'] = roundFin f mode 0 false k x u false := by
    have hnan : ([Fp.fin n m e, .fin n' m' e'].any Fp.isNan) = false := rfl
    rw [addTerms, hnan, hsum]
    rfl
  rw [hround, ← hvalue]
  exact roundFin_roundsOnce hf hmode k x u (hvalue ▸ hmax)

variable {a b : Nat} (ha : Claims.FiniteIn f a) (hb : Claims.FiniteIn f b)
include ha hb

theorem fAdd_roundsOnce (hmax : |Claims.valueIn f a + Claims.valueIn f b| ≤ Claims.valueIn f (fmtMax f)) :
    RoundsOnce f mode (Claims.valueIn f a + Claims.valueIn f b) (fAdd f mode 0 a b) := by
  obtain ⟨n, m, e, hfp, hvalue, -, -, he⟩ := fpOf_finiteIn hf ha
  obtain ⟨n', m', e', hfp', hvalue', -, -, he'⟩ := fpOf_finiteIn hf hb
  have hrange := maxUnit_lt hf
  rw [hvalue, hvalue'] at hmax ⊢
  rw [fAdd, hfp, hfp']
  exact addTerms_roundsOnce hf hmode (he.trans_lt hrange) (he'.trans_lt hrange) hmax

theorem fSub_roundsOnce (hmax : |Claims.valueIn f a - Claims.valueIn f b| ≤ Claims.valueIn f (fmtMax f)) :
    RoundsOnce f mode (Claims.valueIn f a - Claims.valueIn f b) (fSub f mode 0 a b) := by
  obtain ⟨n, m, e, hfp, hvalue, -, -, he⟩ := fpOf_finiteIn hf ha
  obtain ⟨n', m', e', hfp', hvalue', -, -, he'⟩ := fpOf_finiteIn hf hb
  have hrange := maxUnit_lt hf
  rw [hvalue, hvalue', sub_eq_add_neg, ← finValue_not] at hmax ⊢
  rw [fSub, hfp, hfp']
  exact addTerms_roundsOnce hf hmode (he.trans_lt hrange) (he'.trans_lt hrange) hmax

theorem fMul_roundsOnce (hmax : |Claims.valueIn f a * Claims.valueIn f b| ≤ Claims.valueIn f (fmtMax f)) :
    RoundsOnce f mode (Claims.valueIn f a * Claims.valueIn f b) (fMul f mode 0 a b) := by
  obtain ⟨n, m, e, hfp, hvalue, -⟩ := fpOf_finiteIn hf ha
  obtain ⟨n', m', e', hfp', hvalue', -⟩ := fpOf_finiteIn hf hb
  have hround : fMul f mode 0 a b = roundFin f mode 0 false (n != n') (m * m') (e + e') false := by
    rw [fMul, hfp, hfp']
    exact if_neg (by simp [Fp.isInf])
  rw [hvalue, hvalue', ← finValue_mul] at hmax ⊢
  rw [hround]
  exact roundFin_roundsOnce hf hmode _ _ _ hmax

end Format

/-- Settles O40: each operation rounds its exact value by one cut at the grid of the format. -/
theorem sumsAndProductsAreRoundedOnce : Obligations.SumsAndProductsAreRoundedOnce := by
  intro f mode a b v r hf hmode ha hb hop hmax
  obtain ⟨rfl, rfl⟩ | ⟨rfl, rfl⟩ | ⟨rfl, rfl⟩ := hop
  · exact fAdd_roundsOnce hf hmode ha hb hmax
  · exact fSub_roundsOnce hf hmode ha hb hmax
  · exact fMul_roundsOnce hf hmode ha hb hmax

end Sys2Proof.Machine
end


section
/-!
PROOFS. Lane float instructions and conversions: each is its rounded results and its lanes' flags, the packed halves, sign changes and
register pairs in the rules' arithmetic of naturals and integers (08:R155 to R173).
-/

namespace Sys2Proof.Machine

open Sys2Proof

/-! ### A float word that goes writes its rounded results and its flags (08:R158, R159) -/

section
variable {i : Instr} {h : Half} {g : Guard} {d : Dest} {s : State} {a b c : Value}

/-- A float form of one, two or three sources writes what its function of the state before it gives, however the function is written. -/
theorem float1_writes {f : State → Nat → Nat → Rounded} {f' : Nat → Nat → Rounded} (hf : ∀ l x, f s l x = f' l x)
    (hgo : Claims.Goes i .single s) :
    (.next (s.laneRun (Instr.use i) .single (fun s => s.float1 g d a f)) : Result) =
      .next (Claims.finished .single (Claims.FloatForm.write ⟨.single, g, d, [a], Claims.fOn1 f'⟩ s)) := by
  obtain rfl : f s = f' := funext₂ hf
  exact congrArg _ (laneRun_goes hgo _)
theorem float2_writes {f : State → Nat → Nat → Nat → Rounded} {f' : Nat → Nat → Nat → Rounded} (hf : ∀ l x y, f s l x y = f' l x y)
    (hgo : Claims.Goes i h s) :
    (.next (s.laneRun (Instr.use i) h (fun s => s.float2 g d a b f)) : Result) =
      .next (Claims.finished h (Claims.FloatForm.write ⟨h, g, d, [a, b], Claims.fOn2 f'⟩ s)) := by
  obtain rfl : f s = f' := funext₃ hf
  exact congrArg _ (laneRun_goes hgo _)
theorem float3_writes {f : State → Nat → Nat → Nat → Nat → Rounded} {f' : Nat → Nat → Nat → Nat → Rounded}
    (hf : ∀ l x y z, f s l x y z = f' l x y z) (hgo : Claims.Goes i .single s) :
    (.next (s.laneRun (Instr.use i) .single (fun s => s.float3 g d a b c f)) : Result) =
      .next (Claims.finished .single (Claims.FloatForm.write ⟨.single, g, d, [a, b, c], Claims.fOn3 f'⟩ s)) := by
  obtain rfl : f s = f' := funext fun l => funext₃ (hf l)
  exact congrArg _ (laneRun_goes hgo _)

end

/-! ### Sign changes (08:R162) -/

/-- A NaN becomes the canonical one; every other word takes its new sign. -/
theorem signChange_eq (x : Nat) {y : W32} {n : Nat} (hy : y.toNat = n) :
    signChange (BitVec.ofNat 32 x) y = if Claims.nan32 (Claims.n32 x) then ⟨0x7FC00000, 0⟩ else ⟨n, 0⟩ := by
  rw [signChange, isNan_fpOf, hy]
  rfl

theorem toNat_clearSign (x : Nat) : (BitVec.ofNat 32 x &&& 0x7FFFFFFF).toNat = x % 2 ^ 31 := by
  rw [BitVec.toNat_and, BitVec.toNat_ofNat]
  exact (Nat.and_two_pow_sub_one_eq_mod _ 31).trans (by omega)

theorem toNat_invertSign (x : Nat) : (BitVec.ofNat 32 x ^^^ 0x80000000).toNat = (x + 2 ^ 31) % 2 ^ 32 := by
  have hlow : (x % 2 ^ 32 ^^^ 2 ^ 31) % 2 ^ 31 = x % 2 ^ 31 := by
    rw [Nat.xor_mod_two_pow, Nat.mod_self, Nat.xor_zero]
    omega
  have htop : (x % 2 ^ 32 ^^^ 2 ^ 31) / 2 ^ 31 = 1 - x % 2 ^ 32 / 2 ^ 31 := by
    rw [Nat.xor_div_two_pow]
    obtain hbit | hbit : x % 2 ^ 32 / 2 ^ 31 = 0 ∨ x % 2 ^ 32 / 2 ^ 31 = 1 := by omega
    · rw [hbit, Nat.div_self (by decide), Nat.zero_xor]
    · rw [hbit, Nat.div_self (by decide), Nat.xor_self]
  rw [BitVec.toNat_xor, BitVec.toNat_ofNat]
  change x % 2 ^ 32 ^^^ 2 ^ 31 = _
  omega

/-! ### Packed halves (08:R166, R171) -/

theorem halfOf_eq_elem16 (x j : Nat) : halfOf x j = Claims.elem16 x j := by
  rw [halfOf, Nat.pow_mul]
  rfl

theorem twoHalves_eq_packHalves (f : Nat → Rounded) : Claims.twoHalves f = packHalves (f 0) (f 1) := by
  rw [packHalves, Nat.mul_comm]
  rfl

section
variable {i : Instr} {g : Guard} {d : Dest} {s : State} {a b : Value} {r : Rnd}

/-- A packed form of two sources works on the elements of the same number, each with its own sub-element of the dither. -/
theorem half2_writes (f : Nat → Nat → Nat → Rounded) (hgo : Claims.Goes i .single s) :
    s.half2 i g r d a b f = .next (Claims.finished .single (Claims.FloatForm.write ⟨.single, g, d, [a, b], Claims.fOn2 (fun l x y =>
      Claims.twoHalves (fun j => f (s.laneDither r l j) (Claims.elem16 x j) (Claims.elem16 y j)))⟩ s)) :=
  float2_writes (fun l x y => by simp only [halfOf_eq_elem16, twoHalves_eq_packHalves]) hgo

end

/-! ### Register pairs (08:R168, R169) -/

theorem pair64_eq_ofNat (x y : W32) : pair64 x y = BitVec.ofNat 64 (x.toNat + 2 ^ 32 * y.toNat) := by
  rw [← toNat_pair64, BitVec.ofNat_toNat, BitVec.setWidth_eq]

theorem lo32_ofInt (x : Int) : lo32 (BitVec.ofInt 64 x) = Claims.i32 x := by
  refine BitVec.eq_of_toNat_eq ?_
  rw [lo32_toNat, Claims.i32, BitVec.toNat_ofInt, BitVec.toNat_ofInt]
  omega
theorem hi32_ofInt (x : Int) : hi32 (BitVec.ofInt 64 x) = Claims.i32 (x / 2 ^ 32) := by
  refine BitVec.eq_of_toNat_eq ?_
  rw [hi32_eq_ofNat, Claims.n32, Claims.i32, BitVec.toNat_ofNat, BitVec.toNat_ofInt, BitVec.toNat_ofInt]
  omega

/-- A group of two is the low word's register and the next. -/
theorem writeGroup_two (s : State) (n : Nat) (m : Mask) (x y : LaneVec) :
    s.writeGroup n 2 m (fun l => [x l, y l]) = (s.writeV n m x).writeV (n + 1) m y := rfl

/-! ### The instructions -/

theorem exec_floatForm {i : Instr} {F : Claims.FloatForm} {s : State} (h : Claims.floatForm s i = some F) (hgo : Claims.Goes i F.h s) :
    exec i s = .next (Claims.finished F.h (F.write s)) := by
  revert h hgo
  fun_cases Claims.floatForm s i <;> intro h
  case case1 | case2 | case3 | case5 | case6 | case12 | case19 =>  -- FADD, FSUB, FMUL, FMIN, FMAX, FDIV, FSCALE
    cases h; exact float2_writes (fun _ _ _ => rfl)
  case case4 | case25 => cases h; exact float3_writes (fun _ _ _ _ => rfl)  -- FFMA, FDOT8
  case case7 => cases h; exact float1_writes (fun _ x => signChange_eq x (toNat_clearSign x))  -- FABS
  case case8 => cases h; exact float1_writes (fun _ x => signChange_eq x (toNat_invertSign x))  -- FNEG
  case case9 | case10 | case11 | case13 | case14 | case15 | case16 | case17 | case18 | case26 | case29 =>
    -- FRCP, FRSQ, FSQRT, FEXP2, FLOG2, FSIN, FCOS, FTANH, FCLASS, CVTFF, UNPK
    cases h; exact float1_writes (fun _ _ => rfl)
  case case20 bf r _ _ _ => cases h; exact half2_writes (fAdd (Claims.half16 bf) r)  -- HADD2
  case case21 bf r _ _ _ => cases h; exact half2_writes (fMul (Claims.half16 bf) r)  -- HMUL2
  case case22 =>  -- HFMA2
    cases h
    exact float3_writes (fun l x y z => by simp only [halfOf_eq_elem16, twoHalves_eq_packHalves]; rfl)
  case case23 bf _ _ _ => cases h; exact half2_writes (r := .rn) (fun _ => fMinMax (Claims.half16 bf) false)  -- HMIN2
  case case24 bf _ _ _ => cases h; exact half2_writes (r := .rn) (fun _ => fMinMax (Claims.half16 bf) true)  -- HMAX2
  case case27 =>  -- PACK, two results of 16 bits
    cases h
    exact float2_writes (fun l x y => by rw [twoHalves_eq_packHalves]; rfl)
  case case28 =>  -- PACK, two bytes beside two of c
    cases h
    exact float3_writes (fun l x y z => by simp only [Nat.mul_comm])
  case case30 => cases h; exact float2_writes (fun _ _ _ => rfl)  -- QBPI
  case case31 => exact nomatch h  -- no float form

/-- Settles O39: every float form is its rounded results and flags; CVTIF and CVTFI are the same with an integer at one end. -/
theorem floatInstructionsWriteResultsAndFlags : Obligations.FloatInstructionsWriteResultsAndFlags := by
  intro i s
  refine ⟨fun F h hgo => exec_floatForm h hgo, fun hgo => ⟨fun g dst src r sat d a hi => ?cvtif, fun g dst src r d a hi => ?cvtfi⟩⟩
  case cvtif =>
    subst hi
    refine ⟨(s.readGroup (s.active g != 0) a src.regs).1, (s.readGroup (s.active g != 0) a src.regs).2, _, rfl, fun _ => rfl,
      laneRun_next hgo ?_⟩
    simp only [pair64_eq_ofNat]
    rfl
  case cvtfi =>
    subst hi
    refine ⟨(s.readSrc (s.active g != 0) a).1, (s.readSrc (s.active g != 0) a).2, _, rfl, fun _ => rfl,
      fun hdst => laneRun_next hgo ?_, fun n hdst hd => ?_⟩
    · simp only [lo32_ofInt]
      cases d with
      | chan n => rfl
      | reg n =>
        cases dst with
        | i64 => exact absurd rfl hdst
        | i32 | u32 | i8 | u8 | i16 | u16 => rfl
    · subst hdst hd
      refine laneRun_next hgo ?_
      simp only [writeGroup_two, lo32_ofInt, hi32_ofInt]

end Sys2Proof.Machine
end

section
/-!
PROOFS. Scalar stores of a deterministic launch, which wait for the clearing (09:R189).
-/

namespace Sys2Proof.Machine

open Sys2Proof

/-- Under DET a store that nothing holds up becomes a communication of the quantum, at the scalar stream's place. -/
theorem scalarStore_det {s : State} {a : W64} {ia : Nat} {bs : List Byte} (hap : inAperture a = false) (hia : s.scalarIa .w a = ia)
    (hfree : Claims.Unheld s ia) (hpage : missingKind s.dev s.ctx ia = none) (hverdict : writeVerdict s.dev s.ctx ia bs.length = none)
    (hdet : s.team.det = true) :
    s.scalarStore a bs = .ok (s.onWarp (fun w => w.keep false (.store [⟨0, a, ia, bs⟩] none))) () := by
  subst hia
  simp [State.scalarStore, hap, holdScalar_unheld hfree, hpage, hverdict, hdet]

/-- Settles O10: the store passes its checks and is kept among the communications of the quantum; nothing is written. -/
theorem deterministicScalarStoresAreHeld : Obligations.DeterministicScalarStoresAreHeld := by
  intro i n d a imm ia s h hpark hchecked hwatch hdet hfree hpage hverdict
  have hexec := (exec_storeOf s h).trans (storeS_issued hpark (passesIssue_checked hchecked hwatch))
  rw [scalarStore_det (inAperture_of_checked hchecked) (scalarIa_issued hchecked) (unheld_issued .w _ hfree)
    (by rwa [issued_dev, issued_ctx]) (by rwa [issued_dev, issued_ctx, length_toBytes]) (by rwa [issued_team]),
    toBytes_eq_regBytes] at hexec
  obtain ⟨stalls, x, hissued⟩ := issued_eq s .w (Claims.addrOf s a imm)
  rw [hissued] at hexec
  exact ⟨_, hexec, rfl, rfl, rfl, fun _ => rfl, rfl⟩

end Sys2Proof.Machine
end

section
/-!
PROOFS. Lines of an L1 and their bytes in memory: what is found after a line has been put, changed or dropped, what an installation
leaves, and the bytes that a write leaves (17:R286, R287; 20:R320).
-/

namespace Sys2Proof.Machine

open Sys2Proof

/-! ### Lines of a core -/

theorem line_of_find {c : Core} {line : Nat} {l : L1Line} (h : c.find line = some l) : l.line = line := by
  simpa using List.find?_some h

theorem find_put (c : Core) (l : L1Line) : (c.put l).find l.line = some l := by simp [Core.find, Core.put]

theorem find_drop (c : Core) (line : Nat) : (c.drop line).find line = none := by simp [Core.find, Core.drop]

theorem find_change {c : Core} {line : Nat} {l : L1Line} (f : L1Line → L1Line) (h : c.find line = some l) (hf : ∀ x, (f x).line = x.line) :
    (c.change line f).find line = some (f l) := by
  have hp : (fun x : L1Line => x.line == line) ∘ (fun x => if x.line = line then f x else x) = fun x => x.line == line := by
    funext x
    by_cases hx : x.line = line <;> simp [hx, hf]
  have hl : l.line = line := line_of_find h
  unfold Core.find at h
  simp only [Core.find, Core.change, List.find?_map, hp, h, Option.map_some, if_pos hl]

theorem l1At_setCore (s : State) (c : Core) {core : Nat} (line : Nat) (hc : c.id = core) :
    Claims.l1At (s.setCore c) core line = c.find line := by
  rw [Claims.l1At, coreOf_setCore hc]

theorem l1At_change {s : State} {core line : Nat} {l : L1Line} (f : L1Line → L1Line) (h : Claims.l1At s core line = some l)
    (hf : ∀ x, (f x).line = x.line) (u : State) :
    Claims.l1At (u.setCore ((s.coreOf core).change line f)) core line = some (f l) :=
  (l1At_setCore u ((s.coreOf core).change line f) line (coreOf_id s core)).trans (find_change f h hf)

theorem l1At_congr {s t : State} (hc : t.core = s.core) (hcs : t.cores = s.cores) (core line : Nat) :
    Claims.l1At t core line = Claims.l1At s core line := by
  rw [Claims.l1At, coreOf_congr hc hcs, Claims.l1At]

theorem holdsPrivate_iff (s : State) (core line : Nat) :
    (s.coreOf core).holdsPrivate line = true ↔ ∃ l, Claims.l1At s core line = some l ∧ (l.st = .pc ∨ l.st = .pd) := by
  simp [Core.holdsPrivate, Claims.l1At, Option.any_eq_true]

/-! ### Evictions and installations (17:R286) -/

theorem poisonLine_warp (s : State) (line : Nat) : (s.poisonLine line).warp = s.warp := by
  unfold State.poisonLine
  split
  split
  · rfl
  · split
    · dsimp only
      split <;> rfl
    · rfl
    · rfl

theorem storeLine_warp (s : State) (line : Nat) (data : LineData) (poison : Bool) : (s.storeLine line data poison).warp = s.warp := by
  unfold State.storeLine
  dsimp only
  split
  · rfl
  · split <;> rfl

theorem evictLine_warp (s : State) (core : Nat) (l : L1Line) : (s.evictLine core l).warp = s.warp := by
  unfold State.evictLine
  rw [State.setCore_warp]
  cases l.st with
  | sc | pu | pc | ts => rfl
  | pd => exact storeLine_warp _ _ _ _
  | ox =>
    rw [State.post_warp]
    split
    · exact poisonLine_warp _ _
    · rfl

theorem l1At_evictLine (s : State) (core : Nat) (l : L1Line) : Claims.l1At (s.evictLine core l) core l.line = none := by
  unfold State.evictLine
  extract_lets u
  exact (l1At_setCore u ((u.coreOf core).drop l.line) l.line (coreOf_id u core)).trans (find_drop _ _)

theorem install_warp (s : State) (core : Nat) (l : L1Line) : (s.install core l).warp = s.warp := by
  unfold State.install
  rw [State.setCore_warp]
  split
  · rfl
  · exact evictLine_warp _ _ _

theorem l1At_install (s : State) (core : Nat) (l : L1Line) : Claims.l1At (s.install core l) core l.line = some l := by
  unfold State.install
  extract_lets u
  exact (l1At_setCore u ((u.coreOf core).put l) l.line (coreOf_id u core)).trans (find_put _ l)

/-! ### Bytes of memory after a write at a page (20:R320) -/

theorem walkEntry_of_walk {d : Device} {c : Context} {ia : Nat} {p : Page} (h : walk d c ia = .page p) : walkEntry d c ia = .page p := by
  unfold walk at h
  split at h
  · cases h
  · exact h

theorem getElem_toBytes {w : Nat} (n : Nat) (x : BitVec w) (k : Nat) (hk : k < (toBytes n x).length) :
    (toBytes n x)[k] = BitVec.ofNat 8 (x.toNat / 256 ^ k) := by
  have hpow : 256 ^ k = 2 ^ (8 * k) := by rw [pow_mul]; norm_num
  refine BitVec.eq_of_toNat_eq ?_
  simp [toBytes, Nat.shiftRight_eq_div_pow, hpow]

/-- The bytes outside a page's entry are those of u after one write at `a`. -/
def WroteOnPage (u t : State) (p : Page) (a : Nat) (bs : List Byte) : Prop :=
  ∀ x, ¬ Claims.inEntry p x → Claims.byteAt t x = Store.get (writeBytes u.dev.mem a bs) x

theorem WroteOnPage.inside {u t : State} {p : Page} {a : Nat} {bs : List Byte} (h : WroteOnPage u t p a bs) {k : Nat}
    (hk : k < bs.length) (hout : ¬ Claims.inEntry p (a + k)) : Claims.byteAt t (a + k) = bs[k] := by
  rw [h _ hout, get_writeBytes_in _ _ _ k hk]

theorem WroteOnPage.outside {u t : State} {p : Page} {a : Nat} {bs : List Byte} (h : WroteOnPage u t p a bs) {x : Nat}
    (hx : x < a ∨ a + bs.length ≤ x) (hout : ¬ Claims.inEntry p x) : Claims.byteAt t x = Claims.byteAt u x := by
  rw [h x hout, get_writeBytes_out _ _ _ _ hx]
  rfl

theorem WroteOnPage.congr {u v t : State} {p : Page} {a : Nat} {bs : List Byte} (h : WroteOnPage u v p a bs)
    (hmem : t.dev.mem = v.dev.mem) : WroteOnPage u t p a bs := by
  intro x hx
  rw [Claims.byteAt, hmem]
  exact h x hx

/-- What the statements say of such a write. -/
theorem WroteOnPage.bytes {u t : State} {p : Page} {a : Nat} {bs : List Byte} (h : WroteOnPage u t p a bs) :
    (∀ k < bs.length, ¬ Claims.inEntry p (a + k) → Claims.byteAt t (a + k) = bs.getD k 0) ∧
      ∀ x, (x < a ∨ a + bs.length ≤ x) → ¬ Claims.inEntry p x → Claims.byteAt t x = Claims.byteAt u x :=
  ⟨fun k hk hout => by rw [h.inside hk hout, List.getD_eq_getElem _ _ hk], fun _ hx hout => h.outside hx hout⟩

theorem writePhys_mem (d : Device) (a : Nat) (bs : List Byte) : (d.writePhys a bs).mem = writeBytes d.mem a bs := rfl

/-- A line that goes to memory is written at its page. -/
theorem storeLine_wrote {s : State} {line : Nat} {c : Context} {p : Page} (data : LineData) (poison : Bool)
    (hc : s.ctxOf (untag line).1 = some c) (hp : walkEntry s.dev c (untag line).2 = .page p) :
    WroteOnPage s (s.storeLine line data poison) p (p.phys (untag line).2) (toBytes 128 data) := by
  intro x hx
  simp only [State.storeLine, hc, hp, Claims.byteAt]
  rw [get_markDirty_out _ hx, writePhys_mem]

theorem homeWrite_wrote (s : State) (cn : Nat) (core : Option Nat) (p : Page) (ia : Nat) (bs : List Byte) :
    WroteOnPage s (s.homeWrite cn core p ia bs) p (p.phys ia) bs :=
  fun _ hx => byteAt_homeWrite s cn core ia bs hx

end Sys2Proof.Machine
end

section
/-!
PROOFS. Lines on their way between the caches and the homes: requests and replies, pushes, write-backs, the page recall and the first
touch of a region (09:R175, R178, R185; 02:R46; 17:R287, R291, R294; 19:R312).
-/

namespace Sys2Proof.Machine

open Sys2Proof

/-! ### Requests and replies -/

/-- A reply whose prefetch has been overtaken by a BEGIN of its warp. -/
def replyLate (s : State) (pref : Option (WarpKey × Nat)) : Bool :=
  match pref with
  | none => false
  | some (k, n) => (match s.warpOf k with | some w => w.begins != n | none => true)

theorem replyLate_eq_false_iff (s : State) (pref : Option (WarpKey × Nat)) : replyLate s pref = false ↔ Claims.InTime s pref := by
  unfold replyLate Claims.InTime
  cases pref with
  | none => simp
  | some kn =>
    obtain ⟨k, n⟩ := kn
    cases hw : s.warpOf k <;> simp [hw]

theorem fresh_iff (s : State) (line : Nat) (data : LineData) : s.fresh line data = true ↔ Claims.AtHome s line data := by
  unfold State.fresh Claims.AtHome
  cases hc : s.ctxOf (untag line).1 with
  | none => simp [hc]
  | some c =>
    cases hx : s.fetchLine c (untag line).2 with
    | none => simp [hc, hx]
    | some xb =>
      obtain ⟨x, bad⟩ := xb
      cases bad <;> simp [hc, hx]

/-- A reply is installed where nothing stands against it, and leaves the machine as it is otherwise. -/
theorem exec_dataReply (core line : Nat) (data : LineData) (priv poison : Bool) (pref : Option (WarpKey × Nat)) (s : State) :
    exec (.dataReply core line data priv poison pref) s =
      if replyLate s pref || (Claims.l1At s core line).isSome || !s.fresh line data then .next s
      else .next (s.install core
        ⟨line, if priv && s.privateTo core line then .pc else .sc, data, poison, s.dev.vers.get line, false⟩) := rfl

theorem exec_dataReply_installs {core line : Nat} {data : LineData} {pref : Option (WarpKey × Nat)} {s : State} (priv poison : Bool)
    (hin : Claims.InTime s pref) (hl : Claims.l1At s core line = none) (hhome : Claims.AtHome s line data) :
    exec (.dataReply core line data priv poison pref) s = .next (s.install core
      ⟨line, if priv && s.privateTo core line then .pc else .sc, data, poison, s.dev.vers.get line, false⟩) := by
  rw [exec_dataReply]
  simp [(replyLate_eq_false_iff s pref).mpr hin, hl, (fresh_iff s line data).mpr hhome]

theorem exec_dataReply_ignored {core line : Nat} {data : LineData} {pref : Option (WarpKey × Nat)} {s : State} (priv poison : Bool)
    (h : ¬ Claims.InTime s pref ∨ Claims.l1At s core line ≠ none ∨ ¬ Claims.AtHome s line data) :
    exec (.dataReply core line data priv poison pref) s = .next s := by
  rw [← replyLate_eq_false_iff, ← fresh_iff, Bool.not_eq_false, Bool.not_eq_true] at h
  rw [exec_dataReply]
  refine if_pos ?_
  rw [Bool.or_eq_true, Bool.or_eq_true, Bool.not_eq_true', Option.isSome_iff_ne_none, or_assoc]
  exact h

theorem exec_loadRequest {r : LoadReq} {s u : State} {tm : Team} {c : Context} {p : Page} {x : LineData} {bad : Bool}
    (ht : s.teamOf r.who.teamKey = some tm) (hc : s.ctxOf tm.ctx = some c)
    (hin : s.letIn c (.core tm.core) false false false (r.line * 128) = .ok u p) (hx : u.fetchLine c (r.line * 128) = some (x, bad)) :
    exec (.loadRequest r) s = .next (if p.cls = 1 ∨ r.use = .prefHome then u else u.post
      [.dataReply tm.core (tagged c.num (r.line * 128)) x (p.share == 1) bad (if r.use = .prefL1 then some (r.who, r.begins) else none)]) := by
  show execLoadRequest r s = _
  simp only [execLoadRequest, ht, hc, hin, hx]
  cases huse : r.use <;> by_cases hcls : p.cls = 1 <;> simp [hcls]

/-! ### Pushes (02:R46; 09:R185) -/

theorem exec_pushInstall (core line : Nat) (data : PushedLine) (s : State) :
    exec (.pushInstall core line data) s = .next (s.installPush core line data) := rfl

/-- A refused push leaves no copy of the line, and changes nothing where there was none. -/
theorem l1At_refusePush (s : State) (core line : Nat) : Claims.l1At (s.refusePush core line) core line = none := by
  unfold State.refusePush
  split
  · next h => exact h
  · next l h =>
    obtain rfl := line_of_find h
    exact l1At_evictLine s core l

theorem refusePush_of_none {s : State} {core line : Nat} (h : Claims.l1At s core line = none) : s.refusePush core line = s := by
  have h : (s.coreOf core).find line = none := h
  simp [State.refusePush, h]

theorem installPush_refused {s : State} {core line : Nat} {data : PushedLine}
    (h : data.ver < (s.coreOf core).floors.get line ∨
      ((∀ l, Claims.l1At s core line = some l → l.st ≠ .pu) ∧ (s.coreOf core).allowance ≤ (s.coreOf core).pushedLines)) :
    s.installPush core line data = s.refusePush core line := by
  unfold State.installPush
  dsimp only
  rcases h with hold | ⟨hst, hfull⟩
  · rw [if_pos hold, ite_self]
  · refine if_pos ⟨fun hpu => ?_, hfull⟩
    obtain ⟨l, hl, hlpu⟩ := Option.map_eq_some_iff.mp hpu
    exact hst l hl hlpu

/-- Within its bounds a push meets the line as the core holds it. -/
theorem installPush_bounded {s : State} {core line : Nat} {data : PushedLine}
    (hroom : (∃ l, Claims.l1At s core line = some l ∧ l.st = .pu) ∨ (s.coreOf core).pushedLines < (s.coreOf core).allowance)
    (hfloor : (s.coreOf core).floors.get line ≤ data.ver) :
    s.installPush core line data =
      (let held : Option LState := (Claims.l1At s core line).map (fun l => l.st)
       if held = some .ts ∨ held = some .ox ∨ held = some .pc ∨ held = some .pd then s
       else (s.install core ⟨line, .pu, data.bytes, data.poison, data.ver, false⟩).wakeCore core) := by
  have hfits : ¬ (((s.coreOf core).find line).map (fun l => l.st) ≠ some .pu ∧ (s.coreOf core).allowance ≤ (s.coreOf core).pushedLines) := by
    rintro ⟨hst, hfull⟩
    rcases hroom with ⟨l, hl, hlpu⟩ | hlt
    · exact hst (Option.map_eq_some_iff.mpr ⟨l, hl, hlpu⟩)
    · omega
  exact (if_neg hfits).trans (if_neg (BitVec.not_lt.mpr hfloor))

theorem l1At_wakeCore (s : State) (k core line : Nat) : Claims.l1At (s.wakeCore k) core line = Claims.l1At s core line :=
  l1At_congr rfl rfl core line

theorem l1At_installPush {s : State} {core line : Nat} {data : PushedLine}
    (hst : ∀ l, Claims.l1At s core line = some l → l.st = .sc ∨ l.st = .pu)
    (hfloor : (s.coreOf core).floors.get line ≤ data.ver)
    (hroom : (∃ l, Claims.l1At s core line = some l ∧ l.st = .pu) ∨ (s.coreOf core).pushedLines < (s.coreOf core).allowance) :
    Claims.l1At (s.installPush core line data) core line = some ⟨line, .pu, data.bytes, data.poison, data.ver, false⟩ := by
  rw [installPush_bounded hroom hfloor]
  dsimp only
  rw [if_neg ?_, l1At_wakeCore]
  · exact l1At_install s core _
  · cases hl : Claims.l1At s core line with
    | none => simp
    | some l => rcases hst l hl with h | h <;> simp [h]

theorem installPush_stays {s : State} {core line : Nat} {data : PushedLine} {l : L1Line} (hl : Claims.l1At s core line = some l)
    (hst : l.st = .ts ∨ l.st = .ox ∨ l.st = .pc ∨ l.st = .pd) (hfloor : (s.coreOf core).floors.get line ≤ data.ver)
    (hroom : (s.coreOf core).pushedLines < (s.coreOf core).allowance) : s.installPush core line data = s := by
  rw [installPush_bounded (.inr hroom) hfloor, hl]
  exact if_pos (by simpa using hst)

/-! ### Write-backs (19:R312) -/

theorem exec_writeBack {core line : Nat} {l : L1Line} {s : State} (hl : Claims.l1At s core line = some l) (hst : l.st = .pd) :
    exec (.writeBack core line) s =
      .next ((s.storeLine line l.data l.poison).setCore ((s.coreOf core).change line (fun l => { l with st := .pc }))) := by
  have hl : (s.coreOf core).find line = some l := hl
  show Host.Outcome.next (s.writeBackLine core line) = _
  simp only [State.writeBackLine, hl, if_pos hst]

/-! ### The page recall (17:R291) -/

theorem testBit_bitsOf64 (x : W64) (hi lo j : Nat) :
    (bitsOf64 x hi lo).testBit j = (decide (j < hi + 1 - lo) && x.getLsbD (lo + j)) := by
  rw [bitsOf64, Nat.testBit_mod_two_pow, Nat.testBit_div_two_pow, Nat.add_comm j lo]
  rfl

/-- A bit of a word one of whose fields has been replaced. -/
theorem getLsbD_putBits (x : W64) {hi lo i : Nat} (v : Nat) (hlo : lo ≤ hi) (hi64 : i < 64) :
    (putBits x hi lo v).getLsbD i = if lo ≤ i ∧ i ≤ hi then v.testBit (i - lo) else x.getLsbD i := by
  unfold putBits
  simp only [BitVec.getLsbD_or, BitVec.getLsbD_and, BitVec.getLsbD_not, BitVec.getLsbD_ofNat, Nat.testBit_mul_two_pow,
    Nat.testBit_two_pow_sub_one, Nat.testBit_mod_two_pow, hi64, decide_true, Bool.true_and]
  by_cases hl : lo ≤ i <;> by_cases hh : i ≤ hi
  · simp [hl, hh, show i - lo < hi + 1 - lo by omega]
  · simp [hl, hh, show ¬ i - lo < hi + 1 - lo by omega]
  · simp [hl]
  · simp [hl]

theorem bitsOf64_putBits_same (x : W64) {hi lo : Nat} (v : Nat) (hlo : lo ≤ hi) (h64 : hi < 64) :
    bitsOf64 (putBits x hi lo v) hi lo = v % 2 ^ (hi + 1 - lo) := by
  refine Nat.eq_of_testBit_eq fun j => ?_
  rw [testBit_bitsOf64, Nat.testBit_mod_two_pow]
  by_cases hj : j < hi + 1 - lo
  · rw [getLsbD_putBits x v hlo (by omega), if_pos (by omega), Nat.add_sub_cancel_left]
  · simp [hj]

theorem bitsOf64_putBits_disjoint (x : W64) {hi lo hi' lo' : Nat} (v : Nat) (hlo : lo ≤ hi) (h64 : hi' < 64)
    (h : hi' < lo ∨ hi < lo') : bitsOf64 (putBits x hi lo v) hi' lo' = bitsOf64 x hi' lo' := by
  refine Nat.eq_of_testBit_eq fun j => ?_
  rw [testBit_bitsOf64, testBit_bitsOf64]
  by_cases hj : j < hi' + 1 - lo'
  · rw [getLsbD_putBits x v hlo (by omega), if_neg (by omega)]
  · simp [hj]

theorem share_setShare (share owner : Nat) (e : W64) : bitsOf64 (setShare share owner e) 56 55 = share % 4 :=
  (bitsOf64_putBits_disjoint _ _ (by decide) (by decide) (by decide)).trans (bitsOf64_putBits_same _ _ (by decide) (by decide))

theorem readD_putPage (d : Device) {p : Page} (f : W64 → W64) (hsmall : p.large = false) : readD (d.putPage p f).mem p.place = f p.raw := by
  simp only [Device.putPage, hsmall, Bool.false_eq_true, if_false, readD_writeD]

theorem foldl_fixed_of_mem {α β : Type} {f : β → α → β} {b : β} {xs : List α} (h : ∀ x ∈ xs, f b x = b) : xs.foldl f b = b := by
  induction xs with
  | nil => rfl
  | cons x rest ih => rw [List.foldl_cons, h x List.mem_cons_self, ih fun y hy => h y (List.mem_cons_of_mem x hy)]

/-- The lines of the owner's L1 on a page that has become shared. -/
def sharedLines (ctx page : Nat) (ls : List L1Line) : List L1Line :=
  ls.map (fun l => if lineIn ctx (page * 65536) 65536 l.line && l.st == .pc then { l with st := .sc } else l)

/-- The recall of a page that one core owns and of which no line is dirty. -/
theorem sharePage_clean {s : State} {ctx page : Nat} {c : Context} {p : Page} (hc : s.ctxOf ctx = some c)
    (hp : walkEntry s.dev c (page * 65536) = .page p) (hshare : p.share = 1) (hsmall : p.large = false)
    (hclean : ∀ l ∈ (s.coreOf p.owner).l1, l.st ≠ .pd) :
    ∃ k, k = { s.coreOf p.owner with l1 := sharedLines ctx page (s.coreOf p.owner).l1 } ∧
      s.sharePage ctx page = { s.setCore k with dev := s.dev.putPage p (setShare 2 0) } := by
  refine ⟨_, rfl, ?_⟩
  have hstore : ((s.coreOf p.owner).l1.filter (fun l => lineIn ctx (page * 65536) 65536 l.line && p.share == 1)).foldl
      (fun s l => if l.st = .pd then s.storeLine l.line l.data l.poison else s) s = s :=
    foldl_fixed_of_mem fun l hl => if_neg (hclean l (List.mem_filter.mp hl).1)
  have hlines : (s.coreOf p.owner).l1.map (fun l => if lineIn ctx (page * 65536) 65536 l.line && p.share == 1 &&
      (l.st == .pc || l.st == .pd) then { l with st := .sc } else l) = sharedLines ctx page (s.coreOf p.owner).l1 := by
    refine List.map_congr_left fun l hl => ?_
    simp [hshare, hclean l hl]
  have hnot : (p.share == 2) = false := by simp [hshare]
  simp only [State.sharePage, hc, hp, hnot, hsmall, Bool.false_eq_true, if_false, hstore, hlines, State.setCore_dev]

end Sys2Proof.Machine

namespace Sys2Proof

open Sys2Proof.Machine

/-- Settles O48: message by message, by what each leaves of the line that it is about. -/
theorem linesMoveBetweenCachesAndHomes : Obligations.LinesMoveBetweenCachesAndHomes := by
  refine ⟨fun r s u tm c p x bad => exec_loadRequest, fun core line data priv poison pref s => ⟨?installs, exec_dataReply_ignored priv poison⟩,
    fun core line data s => ⟨?pushed, ?refused, ?stays⟩, ?writeBack, ?pageRecall, ?touch⟩
  case installs =>
    exact fun hin hl hhome => ⟨_, exec_dataReply_installs priv poison hin hl hhome, l1At_install s core _, install_warp s core _⟩
  case pushed => exact fun hst hfloor hroom => ⟨_, exec_pushInstall core line data s, l1At_installPush hst hfloor hroom⟩
  case refused =>
    intro h
    refine ⟨_, exec_pushInstall core line data s, ?_, fun hnone => ?_⟩
    · rw [installPush_refused h, l1At_refusePush]
    · rw [installPush_refused h, refusePush_of_none hnone]
  case stays =>
    intro l hl hst hfloor hroom
    rw [exec_pushInstall, installPush_stays hl hst hfloor hroom]
  case writeBack =>
    intro core line l c p s hl hst hc hp
    have hwrote := (storeLine_wrote l.data l.poison hc (walkEntry_of_walk hp)).congr
      (t := (s.storeLine line l.data l.poison).setCore ((s.coreOf core).change line (fun l => { l with st := .pc }))) (mem_setCore _ _)
    refine ⟨_, exec_writeBack hl hst, l1At_change (fun l => { l with st := .pc }) hl (fun _ => rfl) _, fun k hk hout => ?_,
      fun a ha hout => ?_⟩
    · rw [hwrote.inside (by rwa [length_toBytes]) hout, getElem_toBytes]
      rfl
    · exact hwrote.outside (by rwa [length_toBytes]) hout
  case pageRecall =>
    intro ctx page c p s hc hp hshare hsmall hclean
    obtain ⟨k, rfl, hs⟩ := sharePage_clean hc (walkEntry_of_walk hp) hshare hsmall hclean
    refine ⟨_, congrArg Host.Outcome.next hs, ?_, ?_⟩
    · exact (congrArg (fun e => bitsOf64 e 56 55) (readD_putPage s.dev _ hsmall)).trans (share_setShare 2 0 p.raw)
    · exact congrArg Core.l1 (coreOf_setCore (s := s) (c := { s.coreOf p.owner with l1 := sharedLines ctx page (s.coreOf p.owner).l1 })
        (coreOf_id s p.owner))
  case touch =>
    intro region die quad s
    refine ⟨_, rfl, touch_mem _ _ _ _, fun r => ?_⟩
    show Store.get (s.dev.touch region die quad).regionTab r = _
    unfold Device.touch
    cases hhomed : (s.dev.regionTab.get region).getLsbD 31 with
    | true =>
      rw [if_pos rfl, if_neg]
      rintro ⟨rfl, hfree⟩
      exact Bool.noConfusion (hhomed.symm.trans hfree)
    | false =>
      rw [if_neg (by simp), Store.get_set]
      by_cases hr : r = region
      · subst hr
        rw [if_pos rfl, if_pos ⟨rfl, hhomed⟩]
        rfl
      · rw [if_neg hr, if_neg (fun h => hr h.1)]

end Sys2Proof
end

section
/-!
PROOFS. The warp in front, seen by its key: it is found, it is the one that changes, and bringing it to the front changes nothing.
-/

namespace Sys2Proof.Machine

open Sys2Proof

theorem warpOf_front {s : State} (h : s.warp.status ≠ .absent) : s.warpOf s.warp.key = some s.warp := if_pos ⟨rfl, h⟩

theorem focus_front {s : State} (h : s.warp.status ≠ .absent) : s.focus s.warp.key = s := if_pos ⟨rfl, h⟩

theorem asWarp_front {s : State} {f : State → State} (h : s.warp.status ≠ .absent) (hkey : (f s).warp.key = s.warp.key)
    (hstatus : (f s).warp.status = s.warp.status) : s.asWarp s.warp.key f = f s := by
  show (f (s.focus s.warp.key)).focus s.warp.key = f s
  rw [focus_front h, ← hkey]
  exact focus_front (hstatus ▸ h)

theorem warp_mapWarps_front {s : State} {k : WarpKey} (f : Warp → Warp) (h : s.warp.key = k) :
    (s.mapWarps (fun x => x.key == k) f).warp = f s.warp := by
  simp [State.mapWarps, h]

theorem id_of_entry {w : Warp} {id : Nat} {e : WEntry} (h : w.entry id = some e) : e.id = id := by
  simpa using List.find?_some h

theorem entry_setStage {w : Warp} {id : Nat} {e : WEntry} (st : WStage) (h : w.entry id = some e) :
    (w.setStage id st).entry id = some { e with stage := st } := by
  have hid : e.id = id := id_of_entry h
  have hp : (fun x : WEntry => x.id == id) ∘ (fun x => if x.id = id then { x with stage := st } else x) = fun x => x.id == id := by
    funext x
    by_cases hx : x.id = id <;> simp [hx]
  unfold Warp.entry at h
  simp only [Warp.entry, Warp.setStage, List.find?_map, hp, h, Option.map_some, if_pos hid]

theorem entry_freeEntry (w : Warp) (id : Nat) : (w.freeEntry id).entry id = none := by simp [Warp.entry, Warp.freeEntry]

end Sys2Proof.Machine
end

section
/-!
PROOFS. The check of a lane access, and the way of a write-buffer entry to its home and back (09:R175, R177, R184; 10:R193, R198, R199;
12:R237; 17:R288; 20:R326, R328).
-/

namespace Sys2Proof.Machine

open Sys2Proof

/-! ### The class check -/

/-- Homing a region changes the region table alone. -/
theorem touch_eq (d : Device) (region die quad : Nat) : ∃ r, d.touch region die quad = { d with regionTab := r } := by
  unfold Device.touch
  split
  · exact ⟨_, rfl⟩
  · exact ⟨_, rfl⟩

theorem touchAll_eq (s : State) (ias : List Nat) : ∃ r, s.touchAll ias = { s with dev := { s.dev with regionTab := r } } := by
  suffices h : ∀ d : Device, ∃ r,
      ias.foldl (fun d ia => d.touch (ia / 65536) (dieOf s.team.core) (quadOf s.team.core)) d = { d with regionTab := r } by
    obtain ⟨r, hr⟩ := h s.dev
    exact ⟨r, by rw [State.touchAll, hr]⟩
  induction ias with
  | nil => exact fun d => ⟨d.regionTab, rfl⟩
  | cons ia rest ih =>
    intro d
    obtain ⟨r, hr⟩ := touch_eq d (ia / 65536) (dieOf s.team.core) (quadOf s.team.core)
    obtain ⟨r', hr'⟩ := ih (d.touch (ia / 65536) (dieOf s.team.core) (quadOf s.team.core))
    exact ⟨r', by rw [List.foldl_cons, hr', hr]⟩

theorem walk_regionTab (d : Device) (r : Store 32) (c : Context) (ia : Nat) : walk { d with regionTab := r } c ia = walk d c ia := rfl

theorem missingKind_regionTab (d : Device) (r : Store 32) (c : Context) (ia : Nat) :
    missingKind { d with regionTab := r } c ia = missingKind d c ia := by
  unfold missingKind
  rw [walk_regionTab]
  rfl

theorem writeVerdict_regionTab (d : Device) (r : Store 32) (c : Context) (ia n : Nat) :
    writeVerdict { d with regionTab := r } c ia n = writeVerdict d c ia n := by
  unfold writeVerdict
  rw [walk_regionTab]

theorem lanesVerdict_regionTab (d : Device) (r : Store 32) (c : Context) (n : Nat) (lanes : List (Nat × W64 × Nat)) :
    lanesVerdict { d with regionTab := r } c n lanes = lanesVerdict d c n lanes := by
  simp only [lanesVerdict, writeVerdict_regionTab]

/-- A check none of whose pages is missing. -/
theorem answerCheck_present {s : State} {a : LaneAsk} (h : ∀ x ∈ a.addrs, missingKind s.dev s.ctx x.2.2 = none) :
    s.answerCheck a = ((s.touchAll (a.addrs.map (fun x => x.2.2))).onWarp (fun w =>
      { w with check := (match (if a.write then lanesVerdict s.dev s.ctx a.size a.addrs else none) with
                         | some t => .failed t | none => .passed),
               ask := none, laneStalled := false })).onHead (fun e => { e with logged := false }) := by
  obtain ⟨r, hr⟩ := touchAll_eq s (a.addrs.map (fun x => x.2.2))
  have hmissing : a.addrs.filterMap (fun x =>
      (missingKind { s.dev with regionTab := r } s.ctx x.2.2).map (fun k => (x.1, x.2.1, x.2.2, k))) = [] := by
    rw [List.filterMap_eq_nil_iff]
    intro x hx
    rw [missingKind_regionTab, h x hx]
    rfl
  simp only [State.answerCheck, hr, hmissing, lanesVerdict_regionTab]
  rfl

theorem answerFor_front {s : State} {a : LaneAsk} (hs : s.warp.status ≠ .absent) (ha : s.warp.ask = some a)
    (h : ∀ x ∈ a.addrs, missingKind s.dev s.ctx x.2.2 = none) : s.answerFor s.warp.key = s.answerCheck a := by
  simp only [State.answerFor, warpOf_front hs, ha]
  obtain ⟨r, hr⟩ := touchAll_eq s (a.addrs.map (fun x => x.2.2))
  refine asWarp_front hs ?_ ?_ <;> rw [answerCheck_present h, hr] <;> rfl

/-! ### Entries that leave the core -/

theorem updateCopy_cases (s : State) (core line : Nat) (bs : List (Nat × Byte)) :
    s.updateCopy core line bs = s ∨ ∃ c, s.updateCopy core line bs = s.setCore c := by
  unfold State.updateCopy
  split
  · exact .inl rfl
  · split
    · exact .inr ⟨_, rfl⟩
    · exact .inl rfl

theorem l1At_updateCopy {s : State} {core line : Nat} {l : L1Line} (bs : List (Nat × Byte)) (hl : Claims.l1At s core line = some l)
    (hst : l.st = .sc ∨ l.st = .pu ∨ l.st = .ts) :
    Claims.l1At (s.updateCopy core line bs) core line = some { l with data := patchLine l.data bs } := by
  have hfind : (s.coreOf core).find line = some l := hl
  simp only [State.updateCopy, hfind]
  rw [if_pos (by simpa [or_assoc] using hst)]
  exact l1At_change (fun l => { l with data := patchLine l.data bs }) hl (fun _ => rfl) s

theorem entry_sendEntry {s : State} {id : Nat} {e : WEntry} (core : Nat) (he : s.warp.entry id = some e) :
    (s.sendEntry s.warp.key core e).warp.entry id = some { e with stage := .sent } := by
  obtain rfl := id_of_entry he
  have hwarp := updateCopy_warp s core e.line (e.bytes.map (fun b => (b.1 % 128, b.2)))
  unfold State.sendEntry
  rw [State.post_warp, warp_mapWarps_front _ (congrArg Warp.key hwarp), hwarp]
  exact entry_setStage .sent he

theorem sendEntry_rest (s : State) (w : WarpKey) (core : Nat) (e : WEntry) :
    (s.sendEntry w core e).dev = s.dev ∧
      (s.sendEntry w core e).events = s.events ++ [if e.push.isSome then .pushRequest w e.id else .storeRequest w e.id] := by
  unfold State.sendEntry
  obtain h | ⟨c, h⟩ := updateCopy_cases s core e.line (e.bytes.map (fun b => (b.1 % 128, b.2))) <;> simp [h]

theorem l1At_sendEntry {s : State} {core : Nat} {e : WEntry} {l : L1Line} (w : WarpKey) (hl : Claims.l1At s core e.line = some l)
    (hst : l.st = .sc ∨ l.st = .pu ∨ l.st = .ts) :
    Claims.l1At (s.sendEntry w core e) core e.line =
      some { l with data := patchLine l.data (e.bytes.map (fun b => (b.1 % 128, b.2))) } :=
  (l1At_congr rfl rfl core e.line).trans (l1At_updateCopy _ hl hst)

section
variable {s : State} {id : Nat} {e : WEntry}

theorem exec_writeBufferDrain_send (h : Claims.MayLeave s id e)
    (hhome : (e.push.isNone && (s.coreOf (s.coreOfWarp s.warp.key)).holdsPrivate e.line) = false) :
    exec (.writeBufferDrain s.warp.key id) s = .next (s.sendEntry s.warp.key (s.coreOfWarp s.warp.key) e) := by
  obtain ⟨hs, he, hstage⟩ := h
  show execWriteBufferDrain s.warp.key id s = _
  simp [execWriteBufferDrain, warpOf_front hs, he, hstage, hhome]

theorem exec_writeBufferDrain_private (h : Claims.MayLeave s id e) (hpush : e.push = none)
    (hprivate : (s.coreOf (s.coreOfWarp s.warp.key)).holdsPrivate e.line = true) :
    exec (.writeBufferDrain s.warp.key id) s =
      if s.olderEntry s.warp (s.coreOfWarp s.warp.key) e then .next { s with again := .held }
      else .next (((s.verify (s.coreOfWarp s.warp.key) e.line).drainPrivate (s.coreOfWarp s.warp.key) e).mapWarps
        (fun y => y.key == s.warp.key) (fun y => y.freeEntry id)) := by
  obtain ⟨hs, he, hstage⟩ := h
  show execWriteBufferDrain s.warp.key id s = _
  simp [execWriteBufferDrain, warpOf_front hs, he, hstage, hpush, hprivate]

end

theorem drainPrivate_rest (s : State) (core : Nat) (e : WEntry) :
    (s.drainPrivate core e).dev = s.dev.bump e.line ∧ (s.drainPrivate core e).warp = s.warp :=
  ⟨State.setCore_dev _ _, State.setCore_warp _ _⟩

theorem l1At_drainPrivate {s : State} {core : Nat} {e : WEntry} {l : L1Line} (hl : Claims.l1At s core e.line = some l) :
    Claims.l1At (s.drainPrivate core e) core e.line =
      some { l with st := .pd, ver := (s.dev.bump e.line).vers.get e.line, poison := e.poison || (l.poison && e.cells.length != 128)
                    data := patchLine l.data (e.bytes.map (fun b => (b.1 % 128, b.2))) } :=
  l1At_change (s := { s with dev := s.dev.bump e.line }) (fun l => { l with
      st := .pd, ver := (s.dev.bump e.line).vers.get e.line, poison := e.poison || (l.poison && e.cells.length != 128)
      data := patchLine l.data (e.bytes.map (fun b => (b.1 % 128, b.2))) }) hl (fun _ => rfl) _

/-! ### Acknowledgements -/

theorem exec_storeAcknowledgement {s : State} {id : Nat} {e : WEntry} (hs : s.warp.status ≠ .absent) (he : s.warp.entry id = some e)
    (hdone : e.push = none ∨ s.pushUnderWay [e.line] = false) :
    exec (.storeAcknowledgement s.warp.key id) s = .next (s.setWarp (s.warp.freeEntry id)) := by
  have hgo : ¬ (e.push.isSome ∧ s.pushUnderWay [e.line] = true) := by
    rintro ⟨hpush, hway⟩
    rcases hdone with h | h
    · rw [h] at hpush
      cases hpush
    · exact Bool.noConfusion (h.symm.trans hway)
  show execStoreAcknowledgement s.warp.key id s = _
  simp only [execStoreAcknowledgement, warpOf_front hs, he, if_neg hgo]

/-! ### At the home: a missing page (20:R326, R328) -/

theorem storeTicket_notice {s : State} {cn : Nat} {c : Context} (hc : s.ctxOf cn = some c) (core ia : Nat) (va : W64) :
    (s.storeTicket cn core 1 ia va).1.warp = s.warp ∧
      (s.storeTicket cn core 1 ia va).1.dev.outbox = s.dev.outbox ++
        [.notice (s.storeTicket cn core 1 ia va).2 (BitVec.ofNat 64 (ia / 65536 * 65536)) va 1] := by
  obtain ⟨r, hr⟩ := touch_eq s.dev (ia / 65536) (dieOf core) (quadOf core)
  simp [State.storeTicket, hc, hr]

theorem storeTicket_fatal_warp (s : State) (cn core ia : Nat) (va : W64) : (s.storeTicket cn core 3 ia va).1.warp = s.warp := by
  unfold State.storeTicket
  split
  · rfl
  · simp only [if_true]
    split <;> rfl

theorem lateFault_front {s : State} {w : WarpKey} (e : WEntry) (ws : List LaneStore) (code : BitVec 8) (detail : Nat) (ticket : W64)
    (hw : s.warp.key = w) (hs : s.warp.status ≠ .absent) (hp : s.warp.pendTrap = none) :
    (s.lateFault w e ws code detail ticket).dev = s.dev ∧ (s.lateFault w e ws code detail ticket).warp.entry e.id = none ∧
      (s.lateFault w e ws code detail ticket).warp.pendTrap = some (e.trapOf ws code detail ticket) := by
  subst hw
  have hfault : s.lateFault s.warp.key e ws code detail ticket = s.mapWarps (fun y => y.key == s.warp.key) (fun y =>
      { y.freeEntry e.id with pendTrap := some (e.trapOf ws code detail ticket) }) := by
    simp [State.lateFault, warpOf_front hs, hp]
  rw [hfault, warp_mapWarps_front _ rfl]
  exact ⟨rfl, entry_freeEntry _ _, rfl⟩

/-! ### At the home: the writes -/

theorem poisonLine_mem (s : State) (line : Nat) : (s.poisonLine line).dev.mem = s.dev.mem := by
  unfold State.poisonLine
  split
  split
  · rfl
  · split
    · dsimp only
      split <;> rfl
    · rfl
    · rfl

theorem sendPush_dev (s : State) (c : Context) (ia : Nat) (ds : W64) : (s.sendPush c ia ds).dev = s.dev := by
  unfold State.sendPush
  split <;> rfl

theorem writeHere_page {s : State} {c : Context} {ia : Nat} {p : Page} (core : Nat) (bs : List Byte) (h : walk s.dev c ia = .page p) :
    s.writeHere c core ia bs = s.homeWrite c.num (some core) p ia bs := by
  simp only [State.writeHere, h]

theorem writeHere_wrote {s : State} {c : Context} {ia : Nat} {p : Page} (core : Nat) (bs : List Byte) (h : walk s.dev c ia = .page p) :
    WroteOnPage s (s.writeHere c core ia bs) p (p.phys ia) bs := by
  rw [writeHere_page core bs h]
  exact homeWrite_wrote s c.num (some core) p ia bs

theorem performWrite_wrote {s : State} {c : Context} {p : Page} (core : Nat) (push : Option W64) (poison : Bool) (x : LaneStore)
    (h : walk s.dev c x.ia = .page p) : WroteOnPage s (s.performWrite c core push poison x) p (p.phys x.ia) x.bytes := by
  refine (writeHere_wrote core x.bytes h).congr ?_
  have hpoison (u : State) : (if poison then u.poisonLine (tagged c.num x.ia) else u).dev.mem = u.dev.mem := by
    split
    · exact poisonLine_mem _ _
    · rfl
  unfold State.performWrite
  cases push with
  | none => exact hpoison _
  | some ds => exact (congrArg Device.mem (sendPush_dev _ c x.ia ds)).trans (hpoison _)

/-- An entry that is one write. -/
theorem performEntries_wrote {s : State} {c : Context} {core ia : Nat} {e : WEntry} {bs : List Byte} {p : Page}
    (hrun : (if e.push = none ∧ e.elems = false then runsOf e.cells else e.writes.map (fun x => (x.ia, x.bytes))) = [(ia, bs)])
    (hp : walk s.dev c ia = .page p) : WroteOnPage s (s.performEntries c core [e]) p (p.phys ia) bs := by
  by_cases hplain : e.push = none ∧ e.elems = false
  · have hline : (e.push.isSome || e.elems) = false := by simp [hplain.1, hplain.2]
    rw [if_pos hplain] at hrun
    refine (writeHere_wrote core bs hp).congr ?_
    simp only [State.performEntries, hline, hrun, List.foldl_cons, List.foldl_nil, Bool.false_eq_true, if_false]
    split
    · exact poisonLine_mem _ _
    · rfl
  · have heach : (e.push.isSome || e.elems) = true := by
      cases hpush : e.push <;> simp_all
    rw [if_neg hplain] at hrun
    obtain ⟨x, hx, hpair⟩ := List.map_eq_singleton_iff.mp hrun
    obtain ⟨rfl, rfl⟩ := Prod.mk.inj hpair
    simp only [State.performEntries, heach, hx, List.foldl_cons, List.foldl_nil, if_true]
    exact performWrite_wrote core e.push e.poison x hp

/-! ### At the home: what meets an entry -/

section
variable {s : State} {id : Nat} {e : WEntry} {c : Context}
  (hs : s.warp.status ≠ .absent) (he : s.warp.entry id = some e) (hstage : e.stage = .sent) (hc : s.ctxOf (untag e.line).1 = some c)
include hs he hstage hc

theorem entryAtHome_held (h : (s.olderEntry s.warp (s.coreOfWarp s.warp.key) e || s.heldByPark s.warp (s.coreOfWarp s.warp.key) e) = true) :
    s.entryAtHome s.warp.key id = { s with again := .held } := by
  simp only [State.entryAtHome, warpOf_front hs, he, hstage, hc, h]
  rfl

variable (hfree : (s.olderEntry s.warp (s.coreOfWarp s.warp.key) e || s.heldByPark s.warp (s.coreOfWarp s.warp.key) e) = false)
include hfree

theorem entryAtHome_parks (hk : missingKind s.dev c e.first.1 = some 1) (hjoin : s.joinTicket s.warp e = none) :
    s.entryAtHome s.warp.key id =
      (let r := s.storeTicket (untag e.line).1 (s.coreOfWarp s.warp.key) 1 e.first.1 e.first.2
       { r.1 with again := .parked r.2 }) := by
  simp only [State.entryAtHome, warpOf_front hs, he, hstage, hc, hfree, hk, hjoin]
  rfl

theorem entryAtHome_joins {ticket : W64} (hk : missingKind s.dev c e.first.1 = some 1) (hjoin : s.joinTicket s.warp e = some ticket) :
    s.entryAtHome s.warp.key id = { s with again := .parked ticket } := by
  simp only [State.entryAtHome, warpOf_front hs, he, hstage, hc, hfree, hk, hjoin]
  rfl

theorem entryAtHome_fatal (hk : missingKind s.dev c e.first.1 = some 3) :
    s.entryAtHome s.warp.key id =
      (let r := s.storeTicket (untag e.line).1 (s.coreOfWarp s.warp.key) 3 e.first.1 e.first.2
       r.1.lateFault s.warp.key e e.writes Code.pageFatal 0 r.2) := by
  simp only [State.entryAtHome, warpOf_front hs, he, hstage, hc, hfree, hk]
  rfl

variable (hk : missingKind s.dev c e.first.1 = none)
include hk

theorem entryAtHome_faults {code : BitVec 8} {detail : Nat} {ws : List LaneStore} (hv : s.entryVerdict c e = some ((code, detail), ws)) :
    s.entryAtHome s.warp.key id = s.lateFault s.warp.key e ws code detail 0 := by
  simp only [State.entryAtHome, warpOf_front hs, he, hstage, hc, hfree, hk, hv]
  rfl

theorem entryAtHome_waits (hv : s.entryVerdict c e = none)
    (hwait : s.batchWaits c (s.batchOf s.warp (s.coreOfWarp s.warp.key) e) = true) :
    s.entryAtHome s.warp.key id = { s with again := .held } := by
  simp only [State.entryAtHome, warpOf_front hs, he, hstage, hc, hfree, hk, hv, hwait]
  rfl

theorem entryAtHome_performs {es : List WEntry} {u : State} (hv : s.entryVerdict c e = none)
    (hes : s.batchOf s.warp (s.coreOfWarp s.warp.key) e = es) (hwait : s.batchWaits c es = false)
    (hin : s.letInAll c (s.coreOfWarp s.warp.key) e.push.isSome (es.map (fun y => y.line)) = (u, true)) :
    s.entryAtHome s.warp.key id =
      es.foldl (fun v y => v.performed s.warp.key y.id) (u.performEntries c (s.coreOfWarp s.warp.key) es) := by
  simp only [State.entryAtHome, warpOf_front hs, he, hstage, hc, hfree, hk, hv, hes, hwait, hin]
  rfl

end

end Sys2Proof.Machine

namespace Sys2Proof

open Sys2Proof.Machine

/-- Settles O49: message by message, by what the home or the core answers in each case. -/
theorem bufferedStoresReachTheirHomes : Obligations.BufferedStoresReachTheirHomes := by
  refine ⟨?check, fun id e s hleave => ⟨?sent, ?waits, ?drained⟩, fun i id e c s u hi hs he hstage hc => ?home, ?acknowledged⟩
  case check =>
    intro i a s hi hs ha hpages
    have hexec : exec i s = .next (s.answerCheck a) := by
      rw [← answerFor_front hs ha hpages]
      rcases hi with rfl | rfl <;> rfl
    obtain ⟨r, hr⟩ := touchAll_eq s (a.addrs.map (fun x => x.2.2))
    refine ⟨_, hexec, ?_⟩
    rw [answerCheck_present hpages, hr]
    exact ⟨rfl, rfl, rfl, rfl, rfl, rfl, rfl, rfl⟩
  case sent =>
    intro hhome
    have ⟨_, he, _⟩ := hleave
    obtain ⟨hdev, hevents⟩ := sendEntry_rest s s.warp.key (s.coreOfWarp s.warp.key) e
    have hgo : (e.push.isNone && (s.coreOf (s.coreOfWarp s.warp.key)).holdsPrivate e.line) = false := by
      rw [← Bool.not_eq_true, Bool.and_eq_true, holdsPrivate_iff]
      rintro ⟨hnone, l, hl, hst⟩
      rcases hhome with hpush | hfree
      · exact hpush (Option.isNone_iff_eq_none.mp hnone)
      · obtain ⟨hpc, hpd⟩ := hfree l hl
        exact hst.elim hpc hpd
    refine ⟨_, exec_writeBufferDrain_send hleave hgo, hdev, entry_sendEntry _ he, ?_,
      fun l hl hst => l1At_sendEntry _ hl hst⟩
    rw [hevents, id_of_entry he]
    cases e.push <;> rfl
  case waits =>
    intro l hpush hl hst holder
    rw [exec_writeBufferDrain_private hleave hpush ((holdsPrivate_iff s _ _).mpr ⟨l, hl, hst⟩), if_pos holder]
  case drained =>
    intro l hpush hl hst hparity holder
    have hexec := exec_writeBufferDrain_private hleave hpush ((holdsPrivate_iff s _ _).mpr ⟨l, hl, hst⟩)
    rw [holder, verify_of_sound (fun x hx => Option.some.inj (hl.symm.trans hx) ▸ hparity)] at hexec
    obtain ⟨hdev, hwarp⟩ := drainPrivate_rest s (s.coreOfWarp s.warp.key) e
    refine ⟨_, hexec, hdev, ?_, (l1At_congr rfl rfl _ _).trans (l1At_drainPrivate hl)⟩
    rw [warp_mapWarps_front _ (congrArg Warp.key hwarp)]
    exact entry_freeEntry _ _
  case home =>
    have hexec : exec i s = .next (s.entryAtHome s.warp.key id) := by rcases hi with rfl | rfl <;> rfl
    have hid := id_of_entry he
    rw [hexec]
    refine ⟨fun h => congrArg _ (entryAtHome_held hs he hstage hc h), fun holder hpark => ?_⟩
    have hfree : (s.olderEntry s.warp (s.coreOfWarp s.warp.key) e || s.heldByPark s.warp (s.coreOfWarp s.warp.key) e) = false := by
      rw [holder, hpark]
      rfl
    refine ⟨fun hk hjoin => ?parks, fun ticket hk hjoin => congrArg _ (entryAtHome_joins hs he hstage hc hfree hk hjoin),
      fun hk hp => ?fatal, fun code detail ws hk hv hp => ?faults, fun es hk hv hes => ⟨fun hwait => ?batch, fun hwait hin => ?performs⟩⟩
    case parks =>
      obtain ⟨hwarp, hout⟩ := storeTicket_notice hc (s.coreOfWarp s.warp.key) e.first.1 e.first.2
      exact ⟨_, _, congrArg _ (entryAtHome_parks hs he hstage hc hfree hk hjoin), rfl, hwarp, hout⟩
    case fatal =>
      have hwarp := storeTicket_fatal_warp s (untag e.line).1 (s.coreOfWarp s.warp.key) e.first.1 e.first.2
      obtain ⟨-, hentry, htrap⟩ := lateFault_front (s := (s.storeTicket (untag e.line).1 (s.coreOfWarp s.warp.key) 3 e.first.1 e.first.2).1)
        e e.writes Code.pageFatal 0 (s.storeTicket (untag e.line).1 (s.coreOfWarp s.warp.key) 3 e.first.1 e.first.2).2
        (congrArg Warp.key hwarp) (by rwa [hwarp]) (by rwa [hwarp])
      exact ⟨_, _, congrArg _ (entryAtHome_fatal hs he hstage hc hfree hk), hid ▸ hentry, htrap⟩
    case faults =>
      obtain ⟨hdev, hentry, htrap⟩ := lateFault_front e ws code detail 0 rfl hs hp
      exact ⟨_, congrArg _ (entryAtHome_faults hs he hstage hc hfree hk hv), hdev, hid ▸ hentry, htrap⟩
    case batch => exact congrArg _ (entryAtHome_waits hs he hstage hc hfree hk hv (hes ▸ hwait))
    case performs =>
      have hperf := entryAtHome_performs hs he hstage hc hfree hk hv hes hwait hin
      refine ⟨congrArg _ hperf, fun ia bs p hone hrun hp => ?_⟩
      subst hone
      refine ⟨_, congrArg _ hperf, ?_, (performEntries_wrote hrun hp).bytes⟩
      rw [← hid]
      exact List.mem_append_right _ (List.mem_singleton.mpr rfl)
  case acknowledged =>
    intro id e s hs he hdone
    refine ⟨_, exec_storeAcknowledgement hs he hdone, ⟨rfl, rfl, rfl, rfl, rfl⟩, ?_⟩
    exact congrArg Warp.wbuf (warp_mapWarps_front (fun _ => s.warp.freeEntry id) rfl)

end Sys2Proof
end

section
/-!
PROOFS. The contexts that an operation leaves as they stand: copies recalled, classes of pages changed, fatal answers to messages
(17:R289 to R293; 20:R328).
-/

namespace Sys2Proof.Machine

open Sys2Proof

def SameCtxs (s t : State) : Prop := t.ctx = s.ctx ∧ t.ctxs = s.ctxs

theorem SameCtxs.refl (s : State) : SameCtxs s s := ⟨rfl, rfl⟩

theorem SameCtxs.trans {s t u : State} (h : SameCtxs s t) (h' : SameCtxs t u) : SameCtxs s u := by
  obtain ⟨hc, hcs⟩ := h
  obtain ⟨hc', hcs'⟩ := h'
  exact ⟨hc'.trans hc, hcs'.trans hcs⟩

theorem SameCtxs.ctxOf {s t : State} (h : SameCtxs s t) (n : Nat) : t.ctxOf n = s.ctxOf n := by
  obtain ⟨hc, hcs⟩ := h
  rw [State.ctxOf, hc, hcs, ← State.ctxOf]

theorem sameCtxs_foldl {α : Type} (f : State → α → State) (hf : ∀ s x, SameCtxs s (f s x)) (xs : List α) (s : State) :
    SameCtxs s (xs.foldl f s) := by
  induction xs generalizing s with
  | nil => exact .refl s
  | cons x xs ih => exact (hf s x).trans (ih _)

theorem sameCtxs_setCore (s : State) (c : Core) : SameCtxs s (s.setCore c) := ⟨State.setCore_ctx s c, State.setCore_ctxs s c⟩

theorem sameCtxs_storeLine (s : State) (line : Nat) (data : LineData) (poison : Bool) : SameCtxs s (s.storeLine line data poison) := by
  unfold State.storeLine
  dsimp only
  split
  · exact ⟨rfl, rfl⟩
  · split <;> exact ⟨rfl, rfl⟩

theorem sameCtxs_voidMessages (s : State) (p : Nat → Bool) : SameCtxs s (s.voidMessages p) := by
  refine SameCtxs.trans (sameCtxs_foldl _ (fun s e => ?_) (s.events ++ s.held) s) ⟨rfl, rfl⟩
  split
  · split
    · exact sameCtxs_storeLine _ _ _ _
    · exact .refl s
  · exact .refl s
  · exact .refl s

theorem sameCtxs_recallLines (s : State) (p : Nat → Bool) (all : Bool) : SameCtxs s (s.recallLines p all) := by
  unfold State.recallLines
  extract_lets gone u v w x
  have hu : SameCtxs s u := sameCtxs_voidMessages s p
  have hv : SameCtxs u v := by
    unfold v
    split
    · exact ⟨rfl, rfl⟩
    · exact .refl u
  have hw : SameCtxs v w := sameCtxs_foldl _ (fun s c => sameCtxs_foldl _ (fun s l => sameCtxs_storeLine s _ _ _) _ s) _ _
  have hx : SameCtxs w x := sameCtxs_foldl _ (fun s c => sameCtxs_setCore s _) _ _
  exact (((hu.trans hv).trans hw).trans hx).trans ⟨rfl, rfl⟩

theorem sameCtxs_setPageClass (s : State) (c : Context) (page k : Nat) : SameCtxs s (s.setPageClass c page k) := by
  unfold State.setPageClass
  split <;> exact ⟨rfl, rfl⟩

theorem sameCtxs_launchFatal (s : State) (l : Launch) : SameCtxs s (s.launchFatal l) := by
  unfold State.launchFatal
  split
  · exact ⟨rfl, rfl⟩
  · split <;> exact ⟨rfl, rfl⟩

theorem sameCtxs_lateFault (s : State) (w : WarpKey) (e : WEntry) (ws : List LaneStore) (code : BitVec 8) (detail : Nat) (ticket : W64) :
    SameCtxs s (s.lateFault w e ws code detail ticket) := by
  unfold State.lateFault
  split
  · exact .refl s
  · split <;> exact ⟨rfl, rfl⟩

theorem sameCtxs_fatalStore (s : State) (m : Instr) (w : WarpKey) (id : Nat) (ticket : W64) :
    SameCtxs s (s.fatalStore m w id ticket) := by
  unfold State.fatalStore
  split
  · exact .refl s
  · split
    · exact ⟨rfl, rfl⟩
    · split
      · exact .refl s
      · exact sameCtxs_lateFault _ _ _ _ _ _ _

theorem sameCtxs_fatalMessage (ticket : W64) (s : State) (e : Instr) : SameCtxs s (s.fatalMessage ticket e) := by
  unfold State.fatalMessage
  split
  · exact sameCtxs_fatalStore _ _ _ _ _
  · exact sameCtxs_fatalStore _ _ _ _ _
  · exact ⟨rfl, rfl⟩
  · exact ⟨rfl, rfl⟩
  · exact ⟨rfl, rfl⟩
  · exact ⟨rfl, rfl⟩
  · split <;> exact ⟨rfl, rfl⟩

theorem sameCtxs_onTask (s : State) (k : TeamKey) (seq : BitVec 16) (f : TaskRec → TaskRec) : SameCtxs s (s.onTask k seq f) := by
  unfold State.onTask
  split <;> exact ⟨rfl, rfl⟩

end Sys2Proof.Machine
end

section
/-!
PROOFS. What a home does with the requests of other agents: atomics, appends and tail queries, seals, range loads and drops, messages,
answered tickets, and loads of another package (09:R182; 10:R205, R206, R210; 11:R220, R230 to R233; 14:R269; 20:R328; 24:R384, R389).
-/

namespace Sys2Proof.Machine

open Sys2Proof

/-! ### Atomics (09:R182) -/

theorem length_atomBytes (op : Option AtomOp) (dbl : Bool) (old : List Byte) (b expected : W64) :
    (atomBytes op dbl old b expected).1.length = widthOf dbl := by
  cases dbl <;> simp [atomBytes, widthOf, length_toBytes]

/-- An atomic of another agent on a sound line. -/
theorem homeAtomic_other {s u : State} {c : Context} {die quad ia : Nat} {p : Page} (op : Option AtomOp) (dbl : Bool) (b expected : W64)
    (hin : s.letIn c (.other die quad) true false true ia = .ok u p) (hsound : u.dev.bad.contains (p.phys ia / 128) = false) :
    s.homeAtomic c (.other die quad) op dbl ia b expected =
      (let new := atomBytes op dbl (readBytes u.dev.mem (p.phys ia) (widthOf dbl)) b expected
       .ok (if new.2 then u.homeWrite c.num none p ia new.1 else u.endShare c.num (ia / 65536))
         (readBytes u.dev.mem (p.phys ia) (widthOf dbl), false)) := by
  simp only [State.homeAtomic, hin, State.homeRead, hsound]
  rfl

theorem exec_atomicRequest {r : AtomReq} {c : Context} {s u : State} {p : Page} (hc : s.ctxOf r.ctx = some c)
    (hv : writeVerdict s.dev c r.ia (widthOf r.dbl) = none)
    (hin : (s.quiesce r.ctx r.ia).letIn c (.other r.die r.quad) true false true r.ia = .ok u p)
    (hsound : u.dev.bad.contains (p.phys r.ia / 128) = false) :
    exec (.atomicRequest r) s =
      (let old := readBytes u.dev.mem (p.phys r.ia) (widthOf r.dbl)
       let new := atomBytes r.op r.dbl old r.operand r.expected
       .next ((if new.2 then u.homeWrite c.num none p r.ia new.1 else u.endShare c.num (r.ia / 65536)).send [.value (ofBytes 64 old)])) := by
  show execAtomicRequest r s = _
  simp only [execAtomicRequest, hc, hv, homeAtomic_other r.op r.dbl r.operand r.expected hin hsound]
  rfl

/-! ### Append extents (10:R205, R206, R210) -/

theorem length_elems (n : Nat) (elems : List (BitVec 128)) : (elems.flatMap (fun e => toBytes n e)).length = n * elems.length := by
  simp [List.length_flatMap, length_toBytes, mul_comm]

section
variable {ctx : Nat} {addr : W64} {sz : MemSize} {elems : List (BitVec 128)} {c : Context} {x : Extent} {s : State}
  (hc : s.ctxOf ctx = some c) (hx : s.extentFor c (iaOf c .w addr) addr = .found x) (hopen : x.closed = false)
include hc hx hopen

theorem exec_appendRequest_full (hfull : 65536 * x.pages < (x.reserved + sz.bytes - 1) / sz.bytes * sz.bytes + sz.bytes * elems.length) :
    exec (.appendRequest ctx addr sz elems) s = .next (s.send [.value (BitVec.allOnes 64)]) := by
  show execAppendRequest ctx addr sz elems s = _
  simp only [execAppendRequest, hc, hx, hopen, State.appendSpan, Extent.size, length_elems, if_pos hfull]
  rfl

variable (hfits : (x.reserved + sz.bytes - 1) / sz.bytes * sz.bytes + sz.bytes * elems.length ≤ 65536 * x.pages)
include hfits

theorem exec_appendRequest_missing {k : Nat × Nat} (hmissing : spanMissing s.dev c (x.base + x.reserved)
      ((x.reserved + sz.bytes - 1) / sz.bytes * sz.bytes - x.reserved + sz.bytes * elems.length) = some k) :
    exec (.appendRequest ctx addr sz elems) s = .next (s.send [.error]) := by
  show execAppendRequest ctx addr sz elems s = _
  simp only [execAppendRequest, hc, hx, hopen, State.appendSpan, Extent.size, List.length_append, List.length_replicate, length_elems,
    if_neg (Nat.not_lt.mpr hfits), hmissing]
  rfl

theorem exec_appendRequest_writes {v : State} (hthere : spanMissing s.dev c (x.base + x.reserved)
      ((x.reserved + sz.bytes - 1) / sz.bytes * sz.bytes - x.reserved + sz.bytes * elems.length) = none)
    (hwrite : s.writeSpan c (homeOf s.dev (iaOf c .w (BitVec.ofNat 64 x.base))) (x.base + x.reserved)
      (List.replicate ((x.reserved + sz.bytes - 1) / sz.bytes * sz.bytes - x.reserved) (0 : Byte) ++
        elems.flatMap (fun e => toBytes sz.bytes e)) = (v, false)) (hv : v.ctxOf ctx = some c) :
    exec (.appendRequest ctx addr sz elems) s =
      (let start := (x.reserved + sz.bytes - 1) / sz.bytes * sz.bytes
       .next ((v.setCtx (c.setExtent { x with
          reserved := start + sz.bytes * elems.length
          committed := if x.committed = x.reserved then start + sz.bytes * elems.length else x.committed })).send
            [.value (BitVec.ofNat 64 start)])) := by
  show execAppendRequest ctx addr sz elems s = _
  simp only [execAppendRequest, hc, hx, hopen, State.appendSpan, Extent.size, List.length_append, List.length_replicate, length_elems,
    if_neg (Nat.not_lt.mpr hfits), hthere, hwrite, hv, beq_iff_eq]
  rfl

end

theorem exec_tailqRequest {ctx : Nat} {addr : W64} {c : Context} {x : Extent} {s : State} (hc : s.ctxOf ctx = some c)
    (hx : s.extentFor c (iaOf c .r addr) addr = .found x) :
    exec (.tailqRequest ctx addr) s = .next (s.send [if x.bad then .trap 0x11 0 else .value (zext64 x.tail)]) := by
  show execTailqRequest ctx addr s = _
  simp only [execTailqRequest, hc, hx]
  rfl

theorem toNat_tail (x : Extent) : (zext64 x.tail).toNat = x.committed % 2 ^ 31 + (if x.sealed then 2 ^ 31 else 0) := by
  have hlt : x.committed % 2 ^ 31 + (if x.sealed then 2 ^ 31 else 0) < 2 ^ 32 := by
    have := Nat.mod_lt x.committed (show 0 < 2 ^ 31 by decide)
    split <;> omega
  simp only [zext64, Extent.tail, BitVec.truncate_eq_setWidth, BitVec.toNat_setWidth, BitVec.toNat_ofNat]
  rw [Nat.mod_eq_of_lt hlt, Nat.mod_eq_of_lt (hlt.trans (by decide))]

/-- Sealing the pages of an extent changes their entries and records, and the extent's own entry. -/
theorem sealPages_frame (s : State) (x : Extent) :
    (s.sealPages x).warp = s.warp ∧ (s.sealPages x).ctx = s.ctx.setExtent { x with closed := true, sealed := true } := by
  unfold State.sealPages
  extract_lets u
  refine List.foldlRecOn (motive := fun t : State => t.warp = s.warp ∧ t.ctx = s.ctx.setExtent { x with closed := true, sealed := true }) _ _
    ⟨rfl, rfl⟩ fun t ht k _ => ?_
  split <;> exact ht

theorem sealAt_waiting {s : State} {addr : W64} {x : Extent} (hout : inAperture addr = false) (hx : extentAt s.ctx addr = some x)
    (hsealed : x.sealed = false) :
    (s.sealAt addr true).1 =
      if x.committed = x.reserved then s.sealPages x else { s with ctx := s.ctx.setExtent { x with closed := true } } := by
  by_cases h : x.committed = x.reserved <;> simp [State.sealAt, hout, hx, hsealed, h]

theorem sealAt_frame {s : State} {addr : W64} {x : Extent} (hout : inAperture addr = false) (hx : extentAt s.ctx addr = some x)
    (hsealed : x.sealed = false) :
    (s.sealAt addr true).1.warp = s.warp ∧
      (s.sealAt addr true).1.ctx = s.ctx.setExtent { x with closed := true, sealed := decide (x.committed = x.reserved) } ∧
      (x.committed ≠ x.reserved → (s.sealAt addr true).1.dev = s.dev) := by
  rw [sealAt_waiting hout hx hsealed]
  by_cases h : x.committed = x.reserved
  · obtain ⟨hwarp, hctx⟩ := sealPages_frame s x
    rw [if_pos h]
    exact ⟨hwarp, by rw [hctx, decide_eq_true h], fun hne => absurd h hne⟩
  · rw [if_neg h, decide_eq_false h, ← hsealed]
    exact ⟨rfl, rfl, fun _ => rfl⟩

theorem exec_sealRequest {s : State} {addr : W64} {x : Extent} (hs : s.warp.status ≠ .absent) (hout : inAperture addr = false)
    (hx : extentAt s.ctx addr = some x) (hsealed : x.sealed = false) :
    exec (.sealRequest s.warp.key addr) s = .next (s.sealAt addr true).1 := by
  obtain ⟨hwarp, -, -⟩ := sealAt_frame hout hx hsealed
  show execSealRequest s.warp.key addr s = _
  simp only [execSealRequest, warpOf_front hs]
  exact congrArg _ (asWarp_front hs (congrArg Warp.key hwarp) (congrArg Warp.status hwarp))

/-! ### Regions (11:R220, R230 to R233) -/

theorem exec_rangeLoadRequest (ctx : Nat) (q : RangeQuery) (s : State) :
    exec (.rangeLoadRequest ctx q) s = execRangeLoadRequest ctx q s := rfl

/-- The drop of a region that stands: its context loses it and gets its nodes back. -/
theorem ctxOf_dropRegion {s : State} {ctx h : Nat} {c : Context} {g : Region} (hc : s.ctxOf ctx = some c) (hg : regionOf c h = some g) :
    (s.dropRegion ctx h).ctxOf ctx =
      some { c with regions := c.regions.filter (fun x => x.handle != h), pool := c.pool + (g.n - 1) } := by
  have hg' : c.regions.find? (fun g => g.handle == h) = some g := hg
  simp only [State.dropRegion, hc, hg']
  refine ((sameCtxs_foldl _ (fun s r => sameCtxs_setPageClass s _ r 0) _ _).ctxOf ctx).trans ?_
  refine ((SameCtxs.trans (sameCtxs_foldl _ (fun s r => sameCtxs_recallLines s _ _) _ _) ⟨rfl, rfl⟩).ctxOf ctx).trans ?_
  have hn : c.num = ctx := num_of_ctxOf hc
  have hset := ctxOf_setCtx hc (c' := { c with regions := c.regions.filter (fun x => x.handle != h), pool := c.pool + (g.n - 1) }) hn
  exact (SameCtxs.ctxOf ⟨rfl, rfl⟩ ctx).trans hset

/-! ### Messages (14:R269) -/

theorem deliverMsg_peer {s : State} {k : WarpKey} {c : Chan} {p : Warp} (msg : Store 32)
    (h : s.warpOf ⟨k.launch, c.team, c.pwarp⟩ = some p) :
    s.deliverMsg k c msg = s.setWarp { p.setChan c.pch { p.chan c.pch with queue := (p.chan c.pch).queue ++ [msg] } with
      nap := false, laneStalled := false, scalStalled := false } := by
  simp only [State.deliverMsg, h]

/-! ### Answered tickets (20:R328) -/

theorem ctxOf_answerGroups (s : State) (ticket : W64) (fatal : Bool) (n : Nat) :
    State.ctxOf { s with ctx := s.ctx.answerGroup ticket fatal, ctxs := s.ctxs.map (fun c => c.answerGroup ticket fatal) } n =
      (s.ctxOf n).map (fun c => c.answerGroup ticket fatal) := by
  have hp : (fun c : Context => c.num == n) ∘ (fun c : Context => c.answerGroup ticket fatal) = fun c : Context => c.num == n := rfl
  have hn : (s.ctx.answerGroup ticket fatal).num = s.ctx.num := rfl
  simp only [State.ctxOf, List.find?_map, hp, hn]
  by_cases h : s.ctx.num = n
  · rw [if_pos h, if_pos h]
    rfl
  · rw [if_neg h, if_neg h]

theorem ctxOf_answerOther (s : State) (ticket : W64) (fatal : Bool) (n : Nat) :
    (s.answerOther ticket fatal).ctxOf n = (s.ctxOf n).map (fun c => c.answerGroup ticket fatal) := by
  unfold State.answerOther
  extract_lets u v mine w
  have hu : SameCtxs s u := by
    unfold u
    split
    · exact .refl s
    · split
      · exact sameCtxs_launchFatal _ _
      · exact ⟨rfl, rfl⟩
  have hv : v.ctxOf n = (s.ctxOf n).map (fun c => c.answerGroup ticket fatal) := by
    rw [← hu.ctxOf n]
    exact ctxOf_answerGroups u ticket fatal n
  have hw : SameCtxs v w := ⟨rfl, rfl⟩
  rw [← hv, ← hw.ctxOf n]
  split
  · exact (sameCtxs_foldl _ (fun s e => sameCtxs_fatalMessage ticket s e) mine w).ctxOf n
  · exact SameCtxs.ctxOf ⟨rfl, rfl⟩ n

/-- An answered ticket is gone from its context, of which only status words change besides. -/
theorem ctxOf_answerTicket {s : State} {ticket : W64} {c : Context} {r : TicketRec} (fatal : Bool) (hr : s.ticketRec ticket = some (c, r))
    (hc : s.ctxOf c.num = some c) :
    ∃ c', (s.answerTicket ticket fatal).ctxOf c.num = some c' ∧ c'.tickets = c.tickets.filter (fun x => x.ticket != ticket) ∧
      c'.ranges = c.ranges ∧ c'.root = c.root ∧ c'.extents = c.extents := by
  have hset := ctxOf_setCtx hc (c' := { c with tickets := c.tickets.filter (fun x => x.ticket != ticket) }) rfl
  simp only [State.answerTicket, hr]
  split
  · exact ⟨_, (SameCtxs.ctxOf ⟨rfl, rfl⟩ _).trans hset, rfl, rfl, rfl, rfl⟩
  · exact ⟨_, ((sameCtxs_onTask _ _ _ _).ctxOf _).trans hset, rfl, rfl, rfl, rfl⟩
  · refine ⟨_, (ctxOf_answerOther _ ticket fatal _).trans (congrArg _ hset), rfl, rfl, rfl, rfl⟩

theorem answerTicket_front {s : State} {ticket : W64} {c : Context} {r : TicketRec} (fatal : Bool)
    (hr : s.ticketRec ticket = some (c, r)) (hw : r.warp = some s.warp.key) :
    (s.answerTicket ticket fatal).warp = s.warp.answer ticket fatal := by
  simp only [State.answerTicket, hr, hw]
  exact warp_mapWarps_front (s := s.setCtx _) (fun w => w.answer ticket fatal) rfl

theorem answerPark_of_ticket {ticket : W64} {p : Parked} (fatal : Bool) (h : p.ticket = ticket) :
    answerPark ticket fatal (some p) =
      if fatal then some (if p.grow then { p with refused := true } else { p with fatal := true }) else none := by
  simp only [answerPark, h, if_true, Parked.answer]
  cases fatal <;> cases p.grow <;> rfl

/-! ### Loads of another package (24:R384, R389) -/

theorem shareRecord_fresh {r : W64} (q : BitVec 12) (h : bitsOf64 r 63 62 = 0) :
    shareRecord r q = BitVec.ofNat 64 (2 ^ 62 + 2 ^ 58 + q.toNat) := by
  simp [shareRecord, h, pageRecordOf]

/-- The first package with which a page of 64 KiB is shared. -/
theorem shareOut_fresh {s : State} {c : Context} {page : Nat} {p : Page} (q : BitVec 12) (hsmall : p.large = false)
    (hrec : bitsOf64 (s.dev.pageRecord c page) 63 62 = 0) :
    s.shareOut c page p q = ((s.sharePage c.num page).recallRange c.num (page * 65536) 65536 false).putRecordOf c page
      (BitVec.ofNat 64 (2 ^ 62 + 2 ^ 58 + q.toNat)) := by
  simp only [State.shareOut, hrec, hsmall, shareRecord_fresh q hrec]
  rfl

theorem joinPackage_dev (s : State) (cn : Nat) (q : BitVec 12) : (s.joinPackage cn q).dev = s.dev := by
  unfold State.joinPackage
  split <;> rfl

theorem exec_loadRequestRemote {ctx line : Nat} {src : Stamp} {c : Context} {p : Page} {x : LineData} {s : State}
    (hc : s.ctxOf ctx = some c) (hp : walk s.dev c (line * 128) = .page p) (hcls : p.cls ≠ 2) (hnew : s.dev.oldStamp src = false)
    (hx : (((s.joinPackage ctx src.package).shareOut c (line * 128 / 65536) p src.package).quiesceRead ctx (line * 128)).fetchLine c
      (line * 128) = some (x, false)) :
    exec (.loadRequestRemote ctx line src) s = .next ((((s.joinPackage ctx src.package).shareOut c (line * 128 / 65536) p
      src.package).quiesceRead ctx (line * 128)).send [.data (toBytes 128 x)]) := by
  show execLoadRequestRemote ctx line src s = _
  simp only [execLoadRequestRemote, hnew, hc, hp, if_neg hcls, hx]
  rfl

theorem exec_loadRequestRemote_dropped {line : Nat} {src : Stamp} {s : State} (ctx : Nat) (hold : s.dev.oldStamp src = true) :
    exec (.loadRequestRemote ctx line src) s =
      .next (s.send [.dropped (Config.dies + src.package.toNat) 0 (tagged ctx (line * 128))]) := by
  show execLoadRequestRemote ctx line src s = _
  simp only [execLoadRequestRemote, hold]
  rfl

end Sys2Proof.Machine

namespace Sys2Proof

open Sys2Proof.Machine

/-- Settles O54: request by request, by what the home answers and leaves. -/
theorem requestsAreServedAtTheirHomes : Obligations.RequestsAreServedAtTheirHomes := by
  refine ⟨?atomic, ?append, ?tailq, ?seals, ?regions, ?noRegion, ?message, ?answers, ?load, ?dropped⟩
  case atomic =>
    intro r c s u p hc hv hin hsound
    refine ⟨_, exec_atomicRequest hc hv hin hsound, List.mem_append_right _ (List.mem_singleton.mpr rfl), ?_⟩
    set new := atomBytes r.op r.dbl (readBytes u.dev.mem (p.phys r.ia) (widthOf r.dbl)) r.operand r.expected with hnew
    have hlen : new.1.length = widthOf r.dbl := length_atomBytes _ _ _ _ _
    cases hwr : new.2 with
    | true =>
      obtain ⟨hin, hout⟩ := (homeWrite_wrote u c.num none p r.ia new.1).bytes
      rw [hlen] at hin hout
      exact ⟨fun _ => hin, fun h => Bool.noConfusion h, hout⟩
    | false =>
      have hmem : (u.endShare c.num (r.ia / 65536)).dev.mem = u.dev.mem := mem_endShare _ _ _
      exact ⟨fun h => Bool.noConfusion h, fun _ => hmem, fun a _ _ => congrArg (Store.get · a) hmem⟩
  case append =>
    intro ctx start addr sz elems c x s hc hx hopen hstart
    subst hstart
    refine ⟨exec_appendRequest_full hc hx hopen, fun k ia hfits hmissing => exec_appendRequest_missing hc hx hopen hfits hmissing,
      fun v hfits hthere hwrite hv => ?_⟩
    have hn : c.num = ctx := num_of_ctxOf hc
    exact ⟨_, exec_appendRequest_writes hc hx hopen hfits hthere hwrite hv, rfl, rfl,
      (SameCtxs.ctxOf ⟨rfl, rfl⟩ ctx).trans (ctxOf_setCtx hv hn)⟩
  case tailq =>
    intro ctx addr c x s hc hx
    rw [exec_tailqRequest hc hx]
    refine ⟨fun hbad => by rw [if_pos hbad], fun hbad => ⟨zext64 x.tail, ?_, toNat_tail x⟩⟩
    rw [hbad]
    rfl
  case seals =>
    intro addr x s hs hout hx hsealed
    exact ⟨_, exec_sealRequest hs hout hx hsealed, sealAt_frame hout hx hsealed⟩
  case regions =>
    intro ctx h c g s hc hg
    refine ⟨fun lo hi => ?_, fun x => ?_, fun x => ?_, _, _, rfl, ctxOf_dropRegion hc hg, rfl, rfl⟩
    all_goals
      simp only [exec_rangeLoadRequest, execRangeLoadRequest, hc, hg]
      rfl
  case noRegion =>
    intro ctx h c s hc hg q hq
    obtain ⟨lo, hi, rfl⟩ | ⟨x, rfl⟩ | ⟨x, rfl⟩ := hq <;> simp only [exec_rangeLoadRequest, execRangeLoadRequest, hc, hg] <;> rfl
  case message =>
    intro src entry msg w p s hw hp
    refine ⟨fun haccepts => ?_, fun hwaits => ?_⟩
    · show execChannelMessage src entry msg s = _
      simp only [execChannelMessage, hw, haccepts, deliverMsg_peer msg hp]
    · show execChannelMessage src entry msg s = _
      simp only [execChannelMessage, hw, hwaits]
  case answers =>
    intro ticket fatal c r s hr hc
    obtain ⟨c', hc', htickets, hranges, hroot, hextents⟩ := ctxOf_answerTicket fatal hr hc
    refine ⟨_, c', rfl, hc', htickets, hranges, hroot, hextents, fun p hw hp hticket => ?_, fun p hw hp hticket => ?_⟩
    all_goals
      rw [answerTicket_front fatal hr hw, ← answerPark_of_ticket fatal hticket, ← hp]
      rfl
  case load =>
    intro ctx line page src c p x s v w u hc hpage hp hcls hsmall hrec hv hw hu hx hnew
    subst hpage hv hw hu
    have hshare : (s.joinPackage ctx src.package).shareOut c (line * 128 / 65536) p src.package = _ :=
      shareOut_fresh src.package hsmall (by rwa [joinPackage_dev])
    rw [num_of_ctxOf hc] at hshare
    rw [← hshare] at hx ⊢
    exact exec_loadRequestRemote hc hp hcls hnew hx
  case dropped =>
    intro ctx line src s hold
    refine exec_loadRequestRemote_dropped ctx ?_
    rw [Device.oldStamp, Bool.or_eq_true, decide_eq_true_iff]
    exact hold

end Sys2Proof
end

section
/-!
PROOFS. The turn of a warp in a clearing, and the end of a clearing, which leaves every core as healthy as it was (09:R189; 21:R351,
R354, R355).
-/

namespace Sys2Proof.Machine

open Sys2Proof

/-! ### Launches -/

theorem launchIs_setLaunch {s : State} {l l' : Launch} (h : Claims.LaunchIs s l) (hn : l'.num = l.num) :
    Claims.LaunchIs (s.setLaunch l') l' := by
  have hp : (fun x : Launch => x.num == l'.num) ∘ (fun x => if x.num = l'.num then l' else x) = fun x => x.num == l'.num := by
    funext x
    by_cases hx : x.num = l'.num <;> simp [hx]
  unfold Claims.LaunchIs State.launchOf at h ⊢
  rw [← hn] at h
  simp only [State.setLaunch, List.find?_map, hp, h, Option.map_some, if_pos hn.symm]

theorem launchIs_congr {s t : State} {l : Launch} (h : Claims.LaunchIs s l) (hls : t.dev.launches = s.dev.launches) :
    Claims.LaunchIs t l := by
  rw [Claims.LaunchIs, State.launchOf, hls]
  exact h

theorem endShare_launches (s : State) (cn page : Nat) : (s.endShare cn page).dev.launches = s.dev.launches := by
  unfold State.endShare
  split
  · rfl
  · dsimp only
    split <;> rfl

theorem markDirty_launches (d : Device) (p : Page) : (d.markDirty p).launches = d.launches := by
  unfold Device.markDirty Device.putPage
  split
  · rfl
  · split <;> rfl

theorem updateCopy_dev (s : State) (core line : Nat) (bs : List (Nat × Byte)) : (s.updateCopy core line bs).dev = s.dev := by
  obtain h | ⟨c, h⟩ := updateCopy_cases s core line bs <;> simp [h]

theorem raiseFloor_dev (s : State) (core line : Nat) (ver : W64) : (s.raiseFloor core line ver).dev = s.dev := by
  obtain ⟨_, _, h⟩ := coresOnly_raiseFloor s core line ver
  rw [h]

theorem homeWrite_launches (s : State) (cn : Nat) (core : Option Nat) (p : Page) (ia : Nat) (bs : List Byte) :
    (s.homeWrite cn core p ia bs).dev.launches = s.dev.launches := by
  unfold State.homeWrite
  extract_lets line d u v
  have hd : d.launches = s.dev.launches := markDirty_launches _ _
  have hu : u.dev.launches = s.dev.launches := (endShare_launches _ _ _).trans hd
  have hv : v.dev.launches = s.dev.launches := by
    rw [← hu]
    unfold v
    split
    · rfl
    · split <;> rfl
  cases core with
  | none => exact hv
  | some k =>
    dsimp only
    rw [raiseFloor_dev, updateCopy_dev]
    exact hv

/-! ### The turn of a warp with no stream that waits -/

section
variable {s : State} {l : Launch} {rest : List WarpKey} (hl : Claims.LaunchIs s l) (hc : l.clearing = some (s.warp.key :: rest))
  (hrun : s.warp.status = .running) (hlane : s.warp.clearL = .none) (hscalar : s.warp.clearS = .none)
include hl hc hrun hlane hscalar

/-- The warp performs its communications, and the clearing goes on to the next one. -/
theorem exec_clearing_turn {t : State} (hturn : s.clearWarpComms none = (t, false)) (hkey : t.warp.key = s.warp.key)
    (hstatus : t.warp.status = s.warp.status) (hls : t.dev.launches = s.dev.launches) :
    exec (.clearing l.num) s = .next (t.setLaunch { l with clearing := some rest }) := by
  have hs : s.warp.status ≠ .absent := by rw [hrun]; decide
  have hlaunch : s.launchOf l.num = some l := hl
  have hlaunch' : t.launchOf l.num = some l := launchIs_congr hl hls
  have hback : t.focus s.warp.key = t := by
    rw [← hkey]
    exact focus_front (hstatus ▸ hs)
  show execClearing l.num s = _
  simp [execClearing, hlaunch, State.clearHome, hc, warpOf_front hs, focus_front hs, hrun, hlane, hscalar, hturn, hback, hlaunch']

theorem exec_clearing_nothing (hnone : s.warp.comms = []) :
    exec (.clearing l.num) s = .next (s.setLaunch { l with clearing := some rest }) := by
  refine exec_clearing_turn hl hc hrun hlane hscalar ?_ rfl rfl rfl
  simp [State.clearWarpComms, hnone]

end

/-- A plain store whose line is admitted, and whose bytes are one run of neighbours. -/
theorem clearStore_line {s v : State} {c : Context} {t : Team} {ws : List LaneStore} {line ia : Nat} {bs : List Byte} {q : Page}
    (hline : (ws.map (fun x => x.ia / 128 * 128)).eraseDups = [line])
    (helem : ∀ x ∈ ws, ∀ b ∈ x.cells, regionAt c b.1 = none)
    (hruns : runsOf ((List.range 128).filterMap (fun k =>
      (ws.flatMap LaneStore.cells).reverse.find? (fun y => y.1 == line + k))) = [(ia, bs)])
    (hadmit : s.admitNow c t.place.1 t.place.2 true line = .ok v q) :
    s.clearStore c t ws none = .done (v.writeHere c t.core ia bs) := by
  have hplain : ws.any (fun x => x.cells.any (fun b => (regionAt c b.1).isSome)) = false := by
    rw [List.any_eq_false]
    intro x hx
    rw [Bool.not_eq_true, List.any_eq_false]
    intro b hb
    rw [helem x hx b hb]
    decide
  simp only [State.clearStore, hline, State.admitAll, hadmit, hplain, List.headD_cons, hruns]
  rfl

theorem clearComms_one {u t : State} {m : Comm} (n : Nat) (h : u.clearComm m = .done t) :
    State.clearComms [(n, m)] u [] = (t, [], false) := by
  simp [State.clearComms, h]

theorem clearWarpComms_store {s t : State} {n : Nat} {ws : List LaneStore} (hpark : s.warp.parkS = none)
    (hcomms : s.warp.comms = [(n, .store ws none)])
    (hstore : State.clearStore { s with warp := { s.warp with comms := [] } } s.ctx s.team ws none = .done t) :
    s.clearWarpComms none = ({ t with warp := { t.warp with comms := [] } }, false) := by
  have hall := clearComms_one n (u := s.onWarp (fun w => { w with comms := [] })) (m := .store ws none) hstore
  simp only [State.clearWarpComms, hcomms, hpark, List.filter_cons, List.filter_nil, List.isEmpty_cons, Bool.not_true, Bool.false_eq_true,
    if_true, if_false, hall]
  rfl

/-! ### The end of a clearing -/

/-- What the end of a clearing leaves: the warp in front, the teams, memory and the launches, and which cores are healthy. -/
structure Steady (s t : State) : Prop where
  key : t.warp.key = s.warp.key
  team : t.team = s.team
  teams : t.teams = s.teams
  mem : t.dev.mem = s.dev.mem
  launches : t.dev.launches = s.dev.launches
  deadDies : t.dev.deadDies = s.dev.deadDies
  offline : ∀ core, (t.coreOf core).offline = (s.coreOf core).offline

theorem Steady.refl (s : State) : Steady s s := ⟨rfl, rfl, rfl, rfl, rfl, rfl, fun _ => rfl⟩

theorem Steady.trans {s t u : State} (h : Steady s t) (h' : Steady t u) : Steady s u :=
  ⟨h'.key.trans h.key, h'.team.trans h.team, h'.teams.trans h.teams, h'.mem.trans h.mem, h'.launches.trans h.launches,
    h'.deadDies.trans h.deadDies, fun core => (h'.offline core).trans (h.offline core)⟩

theorem steady_foldl {α : Type} (f : State → α → State) (hf : ∀ s x, Steady s (f s x)) (xs : List α) (s : State) :
    Steady s (xs.foldl f s) := by
  induction xs generalizing s with
  | nil => exact .refl s
  | cons x xs ih => exact (hf s x).trans (ih _)

/-- A core put back with other lines or floors is as healthy as it was. -/
theorem steady_setCore {s : State} {c : Core} (core : Nat) (hid : c.id = core) (hoff : c.offline = (s.coreOf core).offline) :
    Steady s (s.setCore c) := by
  refine ⟨by rw [State.setCore_warp], State.setCore_team s c, State.setCore_teams s c, by rw [State.setCore_dev],
    by rw [State.setCore_dev], by rw [State.setCore_dev], fun n => ?_⟩
  subst hid
  by_cases hn : c.id = n
  · rw [coreOf_setCore hn, hoff, hn]
  · rw [coreOf_setCore_of_ne hn]

theorem steady_releaseBar (s : State) (b : Bar) : Steady s (s.releaseBar b) := by
  refine ⟨?_, rfl, rfl, rfl, rfl, rfl, fun core => congrArg Core.offline (coreOf_congr rfl rfl core)⟩
  show Warp.key (if _ then _ else s.warp) = s.warp.key
  split <;> rfl

theorem steady_floorAll (s : State) (core : Nat) : Steady s (s.floorAll core) := steady_setCore core (coreOf_id s core) rfl

theorem steady_beginAt_sys (s : State) (core : Nat) : Steady s (s.beginAt core .sys) := by
  refine Steady.trans ?_ (steady_floorAll _ core)
  exact steady_setCore core (coreOf_id s core) rfl

theorem steady_raiseFloor (s : State) (core line : Nat) (ver : W64) : Steady s (s.raiseFloor core line ver) := by
  unfold State.raiseFloor
  dsimp only
  split
  · exact steady_setCore core (coreOf_id s core) rfl
  · exact .refl s

theorem steady_refreshCopy (s : State) (c : Context) (core ia : Nat) : Steady s (s.refreshCopy c core ia) := by
  unfold State.refreshCopy
  extract_lets line u
  refine (steady_raiseFloor s core line (s.dev.vers.get line)).trans ?_
  split
  · exact .refl u
  · split
    · exact steady_setCore core (coreOf_id u core) rfl
    · split
      · split
        · exact .refl u
        · exact steady_setCore core (coreOf_id u core) rfl
      · exact .refl u

theorem steady_renewCore (s : State) (core : Nat) : Steady s (s.renewCore core) := by
  refine (steady_beginAt_sys s core).trans (steady_foldl _ (fun s l => ?_) _ _)
  dsimp only
  split
  · exact .refl s
  · exact steady_refreshCopy _ _ _ _

theorem detCores_congr {s t : State} (hdead : t.dev.deadDies = s.dev.deadDies)
    (hoff : ∀ core, (t.coreOf core).offline = (s.coreOf core).offline) (bs : List Bind) : t.detCores bs = s.detCores bs := by
  have hhealthy : t.healthy = s.healthy := by
    funext core
    rw [State.healthy, hoff, hdead, State.healthy]
  simp only [State.detCores, State.coresOf, hhealthy]

theorem remap_same {s : State} {l : Launch} (h : s.detCores l.binds = l.remap) : s.remap l = s := by
  unfold State.remap
  exact if_pos (.inr (.inl h))

theorem reslice_none_saved {s : State} {l : Launch} (h : s.savedOf l = []) : s.reslice l = s := by
  simp [State.reslice, h]

theorem savedOf_eq_nil {s : State} {l : Launch} (h : ∀ t ∈ s.allTeams, t.key.launch = l.num → t.status ≠ .saved) :
    s.savedOf l = [] := by
  have hnone : s.allTeams.filter (fun t => t.key.launch == l.num && t.status == .saved) = [] := by
    rw [List.filter_eq_nil_iff]
    intro t ht
    simpa using h t ht
  rw [State.savedOf, hnone]
  rfl

/-- The launch's barriers have been released, and its cores read the homes anew. -/
def renewed (s : State) (l : Launch) : State :=
  ((s.releaseDet l.num).launchTeams l.num).foldl (fun s t => if t.resident then s.renewCore t.core else s) (s.releaseDet l.num)

theorem steady_renewed (s : State) (l : Launch) : Steady s (renewed s l) := by
  refine (steady_foldl _ steady_releaseBar _ s).trans (steady_foldl _ (fun s t => ?_) _ _)
  split
  · exact steady_renewCore s t.core
  · exact .refl s

/-- The next quantum of the launch begins. -/
def requantized (s : State) (l : Launch) : State :=
  ((renewed s l).mapWarps (fun w => w.key.launch == l.num) Warp.nextQuantum).setLaunch { l with clearing := none }

theorem requantized_warp {s : State} {l : Launch} (h : s.warp.key.launch = l.num) :
    (requantized s l).warp = (renewed s l).warp.nextQuantum := by
  have hmine : ((renewed s l).warp.key.launch == l.num) = true := by rw [(steady_renewed s l).key, h, beq_self_eq_true]
  exact if_pos hmine

theorem requantized_allTeams (s : State) (l : Launch) : (requantized s l).allTeams = s.allTeams := by
  have hsteady := steady_renewed s l
  show ((renewed s l).team :: (renewed s l).teams).filter (fun t => t.status != .absent) = _
  rw [hsteady.team, hsteady.teams]
  rfl

/-- A clearing ends with no team moved where every core is as it was and no team of the launch is saved. -/
theorem endClearing_in_place {s : State} {l : Launch} (hcores : s.detCores l.binds = l.remap)
    (hsaved : ∀ t ∈ s.allTeams, t.key.launch = l.num → t.status ≠ .saved) : s.endClearing l = requantized s l := by
  have hsteady := steady_renewed s l
  have hcores' : (requantized s l).detCores l.binds = l.remap := (detCores_congr hsteady.deadDies hsteady.offline l.binds).trans hcores
  have hsaved' : (requantized s l).savedOf { l with clearing := none } = [] :=
    savedOf_eq_nil fun t ht => hsaved t (requantized_allTeams s l ▸ ht)
  show ((requantized s l).remap { l with clearing := none }).reslice { l with clearing := none } = _
  rw [remap_same (l := { l with clearing := none }) hcores', reslice_none_saved hsaved']

/-! ### Samples (25:R403, R404) -/

/-- The sampler with which a tick works: the one that has run with the block, or one that begins with it. -/
theorem sampler_with {p q : Sampler} {b : SampleBlock}
    (h : if q.block = some b.at' then p = q else p.block = some b.at' ∧ p.pipe = q.pipe ∧ p.last = q.last ∧ p.seq = q.seq ∧
      p.lfsr = lfsrStep (if b.seed = 0 then 1 else b.seed) ∧ p.wait = b.interval + (p.lfsr.toNat &&& b.jmask)) :
    q.with b = p ∧ p.block = some b.at' := by
  unfold Sampler.with
  by_cases hrun : q.block = some b.at'
  · rw [if_pos hrun] at h ⊢
    exact ⟨h.symm, h ▸ hrun⟩
  · rw [if_neg hrun] at h ⊢
    obtain ⟨block, lfsr, wait, pipe, last, seq⟩ := p
    obtain ⟨rfl, rfl, rfl, rfl, rfl, hwait⟩ := h
    dsimp only at hwait
    subst hwait
    exact ⟨rfl, rfl⟩

theorem recordHeader_sample (reason name seq : Nat) :
    recordHeader 1 4 reason name seq =
      BitVec.ofNat 64 (2 ^ 56 + 4 * 2 ^ 40 + reason % 16 * 2 ^ 36 + name % 1024 * 2 ^ 26 + seq % 2 ^ 26) := rfl

theorem sampleName_some {s : State} {core : Nat} {w : Warp} {tm : Team} (ht : s.teamOf w.key.teamKey = some tm) :
    s.sampleName core (some w) = if tm.det then tm.key.team % Config.cores else tm.core := by
  simp only [State.sampleName, Option.bind_some, ht]
  rfl

/-- The sampler after a record. -/
def sampledNext (s : State) (p : Sampler) (b : SampleBlock) (w : Warp) : Sampler :=
  ({ p with pipe := (p.pipe + 1) % 4, last := s.samplePlace w, seq := p.seq + 1 } : Sampler).next b

theorem exec_sampleTick {core name : Nat} {c : Context} {b : SampleBlock} {w : Warp} {i : Option Warp} {tm : Team} {p : Sampler}
    {s u : State}
    (hon : s.samplingOn core = some (c, b)) (hp : (s.coreOf core).sampler.with b = p)
    (hi : s.issuerAt core p.pipe (s.coreOf core).cycle = i) (hw : s.chooseWarp core p.pipe p.last i = some w)
    (ht : s.teamOf w.key.teamKey = some tm) (hname : name = if tm.det then tm.key.team % Config.cores else tm.core)
    (hput : s.putRecord c core name p.seq b [BitVec.ofNat 64 (2 ^ 56 + 4 * 2 ^ 40 + s.heldBy w % 16 * 2 ^ 36 + name % 1024 * 2 ^ 26 +
      p.seq % 2 ^ 26), Config.cycleAt (s.coreOf core).cycle, s.sampleWord i, s.sampleWord (some w)] = .ok u true) :
    exec (.sampleTick core) s =
      .next (u.setCore { u.coreOf core with sampler := sampledNext s p b w, cycle := (s.coreOf core).cycle + 1 }) := by
  rw [← recordHeader_sample, hname, ← sampleName_some (core := core) ht] at hput
  show execSampleTick core s = _
  simp only [execSampleTick, hon, hp, hi, hw, Option.orElse_some, hput]
  rfl

end Sys2Proof.Machine

namespace Sys2Proof

open Sys2Proof.Machine

/-- Settles O57: the turn of a warp, the end of the clearing, and the ticks of a NAP and of a sampler. -/
theorem clearingsNapsAndSamples : Obligations.ClearingsNapsAndSamples := by
  refine ⟨fun l rest s hl hc hrun hlane hscalar hpark => ⟨exec_clearing_nothing hl hc hrun hlane hscalar, ?store⟩,
    ?ends, ?nap, ?sample⟩
  case store =>
    intro n ws line ia bs p q v hcomms hline helem hruns hadmit hp hvwarp hvlaunches
    have hdone := clearWarpComms_store hpark hcomms (clearStore_line hline helem hruns hadmit)
    rw [writeHere_page s.team.core bs hp] at hdone
    have hwrite := homeWrite_wrote v s.ctx.num (some s.team.core) p ia bs
    have hwarp := (homeWrite_warp v s.ctx.num (some s.team.core) p ia bs).trans hvwarp
    have hlaunches := (homeWrite_launches v s.ctx.num (some s.team.core) p ia bs).trans hvlaunches
    generalize v.homeWrite s.ctx.num (some s.team.core) p ia bs = t at hdone hwrite hwarp hlaunches
    have hkey : t.warp.key = s.warp.key := by rw [hwarp]
    have hstatus : t.warp.status = s.warp.status := by rw [hwarp]
    refine ⟨_, exec_clearing_turn hl hc hrun hlane hscalar hdone hkey hstatus hlaunches, rfl, ?_, hwrite.bytes⟩
    exact launchIs_setLaunch (l' := { l with clearing := some rest }) (launchIs_congr hl hlaunches) rfl
  case ends =>
    intro l s hl hc hkey hcores hsaved
    have hsteady := steady_renewed s l
    have hexec : exec (.clearing l.num) s = .next (s.endClearing l) := by
      have hlaunch : s.launchOf l.num = some l := hl
      show execClearing l.num s = _
      simp only [execClearing, hlaunch, State.clearHome, hc]
    rw [endClearing_in_place hcores hsaved] at hexec
    refine ⟨_, hexec, launchIs_setLaunch (l' := { l with clearing := none }) (launchIs_congr hl hsteady.launches) rfl,
      ?_, ?_, ?_, hsteady.mem⟩
    all_goals
      rw [requantized_warp hkey]
      rfl
  case nap =>
    intro s
    have hwarp := warp_mapWarps_front (s := s) Warp.wake rfl
    refine ⟨_, rfl, ?_, rfl, rfl, ?_, ?_⟩
    all_goals
      rw [hwarp]
      rfl
  case sample =>
    intro core name c b w i tm p s u hon hp hi hw ht hname hput
    obtain ⟨hwith, hblock⟩ := sampler_with hp
    have hcore := coreOf_setCore (s := u)
      (c := { u.coreOf core with sampler := sampledNext s p b w, cycle := (s.coreOf core).cycle + 1 }) (coreOf_id u core)
    refine ⟨_, exec_sampleTick hon hwith hi hw ht hname hput, mem_setCore _ _, ?_⟩
    rw [hcore]
    exact ⟨rfl, hblock, rfl, rfl, rfl⟩

end Sys2Proof
end

section
/-!
PROOFS. Lane loads: the statement about them fails where no lane block stands in the queue (01:R11; 10:R196).
-/

namespace Sys2Proof.Machine

open Sys2Proof

/-- The reset machine with the register file of its front warp allocated: no lane is active and no lane block stands in the
queue. -/
def noBlockState : State := { State.reset with warp := { State.reset.warp with blocks := 12 } }

/-- A load of one word. -/
def idleLoad : Instr := .ld ⟨false, 0⟩ .w .x1 .l1 false 0 0 (.con .zero) 0

theorem lanesInScratch_noBlockState (n : Nat) (A : Nat → W64) :
    Claims.LanesInScratch noBlockState (noBlockState.active ⟨false, 0⟩) [.r] n A := by
  have hidle : noBlockState.active ⟨false, 0⟩ = 0 := by decide
  refine ⟨rfl, rfl, rfl, by decide, fun l _ hl => ?_⟩
  have hnone : Mask.has 0 l = false := BitVec.getLsbD_zero
  rw [hidle, hnone] at hl
  exact absurd hl Bool.false_ne_true

/-- The load gives its word an entry of the reorder buffer, which only the retirement of a block's word takes away again. -/
theorem exec_idleLoad : ∃ t, exec idleLoad noBlockState = .next t ∧ t.warp.rob.length = 1 := ⟨_, rfl, by decide⟩

/-- Refutes O41: without a lane block a retirement leaves the warp as it is (`Warp.retireWord`), so the entry of the reorder buffer
that the checks at issue have made stays, where the statement names a state that has never had it. -/
theorem not_laneLoadsReadTheirLanes : ¬ Obligations.LaneLoadsReadTheirLanes := by
  intro h
  obtain ⟨-, hload, -⟩ := h ⟨false, 0⟩ .w .x1 .l1 false 0 0 (.con .zero) 0 noBlockState _ _ rfl (fun _ => rfl)
  have hclaimed := hload (lanesInScratch_noBlockState _ _) rfl (.inl (by decide))
  obtain ⟨t, hexec, hrob⟩ := exec_idleLoad
  cases hexec.symm.trans hclaimed
  exact absurd hrob (by decide)

end Sys2Proof.Machine
end

section
/-!
PROOFS. What the accesses with a phase share (10:R200, R207 to R209): bytes and the values of atomics, END and BEGIN, and the
warp and the team in front across an access at the home.
-/

namespace Sys2Proof.Machine

open Sys2Proof

/-! ### Bytes and numbers (00:R5) -/

/-- Byte k of the number that some bytes spell is the byte listed at k. -/
theorem leNat_div_mod (bs : List Byte) (k : Nat) : Claims.leNat bs / 256 ^ k % 256 = (bs.getD k 0).toNat := by
  induction bs generalizing k with
  | nil => simp [Claims.leNat]
  | cons b rest ih =>
    have hb := b.isLt
    cases k with
    | zero =>
      rw [Claims.leNat, pow_zero, Nat.div_one, List.getD_cons_zero]
      omega
    | succ k =>
      have hshift : (b.toNat + 256 * Claims.leNat rest) / 256 = Claims.leNat rest := by omega
      rw [Claims.leNat, pow_succ', ← Nat.div_div_eq_div_mul, hshift, ih, List.getD_cons_succ]

theorem toNat_ofBytes {w : Nat} {bs : List Byte} (h : 8 * bs.length ≤ w) : (ofBytes w bs).toNat = Claims.leNat bs := by
  rw [ofBytes_eq_ofNat, BitVec.toNat_ofNat, Nat.mod_eq_of_lt ((leNat_lt bs).trans_le (Nat.pow_le_pow_right Nat.two_pos h))]

/-- Bytes read as a word that is wide enough and written again are the same bytes. -/
theorem toBytes_ofBytes {w : Nat} {bs : List Byte} (h : 8 * bs.length ≤ w) : toBytes bs.length (ofBytes w bs) = bs := by
  refine List.ext_getElem (length_toBytes _ _) fun k hk hk' => BitVec.eq_of_toNat_eq ?_
  rw [getElem_toBytes, toNat_ofBytes h, BitVec.toNat_ofNat]
  exact (leNat_div_mod bs k).trans (by rw [List.getD_eq_getElem bs 0 hk'])

theorem toBytes_setWidth (n : Nat) (x : W32) : toBytes n x = (List.range n).map (Claims.regByte (BitVec.ofNat 64 x.toNat)) := by
  refine List.ext_getElem (by simp [length_toBytes]) fun k hk _ => ?_
  have hx : x.toNat % 2 ^ 64 = x.toNat := Nat.mod_eq_of_lt (x.isLt.trans (by decide))
  rw [getElem_toBytes, List.getElem_map, List.getElem_range, Claims.regByte, BitVec.toNat_ofNat, hx]

/-! ### The values of atomics (10:R200) -/

/-- A compare-and-swap that does not match writes nothing; every other atomic writes what R200 says. -/
theorem amoResult_eq {n : Nat} (op : Option AtomOp) (old b e : BitVec n) :
    Claims.amoResult op n old b e = if (atomNew op old b e).2 then (atomNew op old b e).1 else old := by
  cases op with
  | none => simp [Claims.amoResult, atomNew]
  | some op =>
    cases op with
    | swp | fadd => rfl
    | add => exact (BitVec.ofNat_add _ _).trans (by simp [atomNew])
    | and => exact (BitVec.ofNat_and ..).trans (by simp [atomNew])
    | or => exact (BitVec.ofNat_or ..).trans (by simp [atomNew])
    | xor => exact (BitVec.ofNat_xor ..).trans (by simp [atomNew])
    | min => exact (congrArg _ (toInt_minS old b).symm).trans (BitVec.ofInt_toInt (x := minS old b))
    | max => exact (congrArg _ (toInt_maxS old b).symm).trans (BitVec.ofInt_toInt (x := maxS old b))
    | minu =>
      refine (congrArg _ (toNat_minU old b).symm).trans (((BitVec.ofNat_toNat n _).trans (BitVec.setWidth_eq _)).trans ?_)
      simp [minU, atomNew, BitVec.ult, BitVec.lt_def]
    | maxu =>
      refine (congrArg _ (toNat_maxU old b).symm).trans (((BitVec.ofNat_toNat n _).trans (BitVec.setWidth_eq _)).trans ?_)
      simp [maxU, atomNew, BitVec.ult, BitVec.lt_def]

theorem amoBytes_eq {op : Option AtomOp} {w : Bool} {old : List Byte} (b e : W64) (hlen : old.length = widthOf (!w)) :
    Claims.amoBytes op w old b e = if (atomBytes op (!w) old b e).2 then (atomBytes op (!w) old b e).1 else old := by
  cases w with
  | true =>
    have hold : toBytes 4 (ofBytes 32 old) = old := by
      have h := toBytes_ofBytes (w := 32) (bs := old) (by rw [hlen]; decide)
      rwa [hlen] at h
    rw [Claims.amoBytes, if_pos rfl, ← toBytes_setWidth, ← ofBytes_eq_ofNat, ← lo32_eq_ofNat, ← lo32_eq_ofNat, amoResult_eq,
      apply_ite (toBytes 4), hold]
    rfl
  | false =>
    have hold : toBytes 8 (ofBytes 64 old) = old := by
      have h := toBytes_ofBytes (w := 64) (bs := old) (by rw [hlen]; decide)
      rwa [hlen] at h
    rw [Claims.amoBytes, if_neg Bool.false_ne_true, ← toBytes_eq_regBytes, ← ofBytes_eq_ofNat, amoResult_eq,
      apply_ite (toBytes 8), hold]
    rfl

theorem extW_eq_extended {w : Bool} {bs : List Byte} (h : bs.length = widthW w) : extW w bs = Claims.extended w bs := by
  cases w with
  | true => exact (congrArg (extS · bs) (by rw [h]; rfl)).trans (extS_eq_extended bs)
  | false => exact extZ_eq_extended bs

/-! ### END (09:R177) -/

theorem endDone_iff {s : State} (h : s.warp.report = none) : s.endDone = true ↔ Claims.Ended s := by
  refine ⟨fun hdone => ?_, endDone_of_ended⟩
  simp only [State.endDone, Bool.and_eq_true, List.isEmpty_iff, Bool.or_eq_true, Bool.not_eq_true', List.any_eq_false] at hdone
  obtain ⟨⟨hqueue, hbuf⟩, htasks⟩ := hdone
  refine ⟨h, hqueue, hbuf, htasks.imp_right fun hall t ht hwarp => ?_⟩
  exact (Bool.eq_false_or_eq_true t.storesGlobal).symm.imp_right fun hstores => by simpa [hwarp, hstores] using hall t ht

theorem endDone_issued (s : State) (p : Perm) (a : W64) : (Claims.issued s p a).endDone = s.endDone := by
  obtain ⟨_, _, h⟩ := issued_eq s p a
  rw [h]
  rfl

theorem ended_ok {s : State} (h : s.endDone = true) : s.ended = .ok s () := if_pos h
theorem ended_wait {s : State} (h : ¬ s.endDone = true) : s.ended = .wait s 12 := if_neg h

theorem report_of_ended {s : State} (h : Claims.Ended s) : s.warp.report = none := by
  obtain ⟨hreport, -⟩ := h
  exact hreport
theorem fenceBusy_of_ended {s : State} (h : Claims.Ended s) : s.fenceBusy = false := by
  obtain ⟨-, -, hbuf, -⟩ := h
  simp [State.fenceBusy, hbuf]

/-! ### BEGIN (09:R178) -/

/-- BEGIN changes the cores, the count of BEGINs and what has been read ahead. -/
theorem begin_eq (s : State) (sc : Scope) : ∃ core cores, s.begin sc =
    { s with core := core, cores := cores, warp := { s.warp with begins := s.warp.begins + 1, rob := robAgain s.warp.rob } } := by
  have hcores : CoresOnly s (s.beginAt s.team.core sc) := by
    have hdrop (u : State) (c : Core) : CoresOnly u ((u.setCore c).floorAll s.team.core) :=
      (coresOnly_setCore u c).trans (coresOnly_setCore _ _)
    cases sc with
    | team => exact ⟨_, _, rfl⟩
    | quad | die | pkg | sys => exact hdrop _ _
  obtain ⟨core, cores, h⟩ := hcores
  exact ⟨core, cores, by rw [State.begin, h]; rfl⟩

theorem l1_coreOf_setCore {s : State} {c : Core} {n : Nat} (hn : c.id = n) : ((s.setCore c).coreOf n).l1 = c.l1 := by
  rw [coreOf_setCore hn]

theorem begun_begin (s : State) (sc : Scope) : Claims.Begun s (s.begin sc) sc := by
  have hcore (u : State) : ((u.floorAll s.team.core).coreOf s.team.core).l1 = (u.coreOf s.team.core).l1 := by
    refine l1_coreOf_setCore ?_
    exact coreOf_id u s.team.core
  have hdrop : ∀ c : Core, c.id = s.team.core → (((s.setCore c).floorAll s.team.core).coreOf s.team.core).l1 = c.l1 :=
    fun _ hc => (hcore _).trans (l1_coreOf_setCore hc)
  unfold Claims.Begun State.begin
  refine (congrArg Core.l1 (coreOf_congr (s := s.beginAt s.team.core sc) rfl rfl s.team.core)).trans ?_
  cases sc with
  | team => rfl
  | quad | die | pkg | sys => exact hdrop _ (coreOf_id s _)

/-- BEGIN reads of the state the cores, the contexts, the device and which core the team has. -/
theorem Begun.congr {s s' t t' : State} {sc : Scope} (h : Claims.Begun s t sc) (hcore : s'.core = s.core) (hcores : s'.cores = s.cores)
    (hctxs : SameCtxs s s') (hdev : s'.dev = s.dev) (hteam : s'.team.core = s.team.core) (htcore : t'.core = t.core)
    (htcores : t'.cores = t.cores) : Claims.Begun s' t' sc := by
  have hsealed : s'.onSealed = s.onSealed := by
    funext line
    simp only [State.onSealed, hctxs.ctxOf, hdev]
  unfold Claims.Begun at h ⊢
  rw [hteam, coreOf_congr hcore hcores, coreOf_congr htcore htcores, hsealed]
  exact h

/-- Nothing is dropped where no BEGIN is made. -/
theorem begun_team {s t : State} (hcore : t.core = s.core) (hcores : t.cores = s.cores) : Claims.Begun s t .team := by
  rw [Claims.Begun, if_pos rfl, coreOf_congr hcore hcores]

end Sys2Proof.Machine
end

section
/-!
PROOFS. Scalar atomics (10:R208) and the accesses that begin or end a phase (10:R207, R209).
-/

namespace Sys2Proof.Machine

open Sys2Proof

/-! ### The warp and the team in front across an access at the home -/

/-- Neither the warp nor the team in front differs. -/
def SameFront (s t : State) : Prop := t.warp = s.warp ∧ t.team = s.team

theorem SameFront.refl (s : State) : SameFront s s := ⟨rfl, rfl⟩
theorem SameFront.trans {s t u : State} (h : SameFront s t) (h' : SameFront t u) : SameFront s u :=
  ⟨h'.1.trans h.1, h'.2.trans h.2⟩
theorem CoresOnly.sameFront {s t : State} (h : CoresOnly s t) : SameFront s t := by
  obtain ⟨_, _, rfl⟩ := h
  exact .refl s

theorem sameFront_classify {s t : State} {c : Context} {ag : Agent} {excl : Bool} {p : Page} {ia : Nat} {x : Unit}
    (h : s.classify c ag excl p ia = .ok t x) : SameFront s t := by
  unfold State.classify at h
  dsimp only at h
  split at h
  · cases h; exact .refl s
  · split at h
    · split at h <;> cases h <;> exact .refl s
    · split at h
      · split at h
        · cases h
        · split at h <;> cases h
          exact .refl s
      · cases h; exact .refl s

theorem sameFront_flushPrivate (s : State) (core line : Nat) : SameFront s (s.flushPrivate core line) := by
  have hstore (l : L1Line) : (s.storeLine line l.data l.poison).team = s.team := by
    unfold State.storeLine
    dsimp only
    split
    · rfl
    · split <;> rfl
  unfold State.flushPrivate
  split
  · exact .refl s
  · next l _ =>
    split
    · exact SameFront.trans ⟨storeLine_warp _ _ _ _, hstore l⟩ (coresOnly_setCore _ _).sameFront
    · split
      · exact (coresOnly_setCore _ _).sameFront
      · exact .refl s

theorem sameFront_takeCopies (s : State) (line : Nat) (note : W64) : SameFront s (s.takeCopies .home line note) := by
  unfold State.takeCopies
  dsimp only
  split
  · exact .refl s
  · split <;> exact .refl s

theorem sameFront_recallCopies (s : State) (line : Nat) (write : Bool) : SameFront s (s.recallCopies line write).1 := by
  unfold State.recallCopies
  extract_lets e u e' st
  have hu : SameFront s u := by
    unfold u
    split <;> exact .refl s
  refine hu.trans ?_
  split
  · exact .refl u
  · split
    · exact .refl u
    · split
      · exact sameFront_takeCopies u _ _
      · split
        · split <;> exact .refl u
        · exact .refl u

theorem sameFront_letIn {s t : State} {c : Context} {ag : Agent} {write excl atHome : Bool} {ia : Nat} {p : Page}
    (h : s.letIn c ag write excl atHome ia = .ok t p) : SameFront s t := by
  unfold State.letIn at h
  dsimp only at h
  split at h
  · cases h
  · cases h
  · split at h
    · cases h
    · cases h
    · next u _ hclass =>
      obtain ⟨hwarp, hteam⟩ := sameFront_classify hclass
      have hu : SameFront s u := ⟨hwarp, hteam⟩
      have hrecall {v w : State} (hv : v.recallCopies (tagged c.num ia) write = (w, false)) : SameFront v w := by
        have hkept := sameFront_recallCopies v (tagged c.num ia) write
        rwa [hv] at hkept
      refine hu.trans ?_
      cases ag <;> cases atHome
      all_goals
        dsimp only at h
        split at h
        · cases h
        split at h <;> cases h
        refine SameFront.trans ?_ (hrecall ‹_›)
      exacts [.refl u, sameFront_flushPrivate u _ _, .refl u, .refl u]

theorem coresOnly_updateCopy (s : State) (core line : Nat) (bs : List (Nat × Byte)) : CoresOnly s (s.updateCopy core line bs) := by
  obtain h | ⟨c, h⟩ := updateCopy_cases s core line bs <;> rw [h]
  · exact ⟨_, _, rfl⟩
  · exact coresOnly_setCore s c

theorem coresOnly_refreshCopy (s : State) (c : Context) (core ia : Nat) : CoresOnly s (s.refreshCopy c core ia) := by
  unfold State.refreshCopy
  extract_lets line u
  refine (coresOnly_raiseFloor s core line (s.dev.vers.get line)).trans ?_
  split
  · exact ⟨_, _, rfl⟩
  · split
    · exact coresOnly_setCore u _
    · split
      · split
        · exact ⟨_, _, rfl⟩
        · exact coresOnly_setCore u _
      · exact ⟨_, _, rfl⟩

theorem sameFront_endShare (s : State) (cn page : Nat) : SameFront s (s.endShare cn page) := by
  unfold State.endShare
  split
  · exact .refl s
  · dsimp only
    split <;> exact .refl s

theorem sameFront_homeWrite (s : State) (cn : Nat) (core : Option Nat) (p : Page) (ia : Nat) (bs : List Byte) :
    SameFront s (s.homeWrite cn core p ia bs) := by
  unfold State.homeWrite
  extract_lets line d u v
  have hu : SameFront s u := SameFront.trans (t := { s with dev := d }) ⟨rfl, rfl⟩ (sameFront_endShare _ _ _)
  have hv : SameFront u v := by
    unfold v
    split
    · exact .refl u
    · split <;> exact .refl u
  cases core with
  | none => exact hu.trans hv
  | some k => exact (hu.trans hv).trans ((coresOnly_updateCopy _ _ _ _).trans (coresOnly_raiseFloor _ _ _ _)).sameFront

/-! ### Atomics on bytes: the scratchpad and the home (10:R194, R208; 09:R175) -/

/-- Bytes that are read and written back change nothing. -/
theorem get_writeBytes_readBytes (m : Store 8) (a n x : Nat) : Store.get (writeBytes m a (readBytes m a n)) x = Store.get m x := by
  by_cases hx : a ≤ x ∧ x < a + n
  · obtain ⟨k, rfl⟩ := Nat.exists_eq_add_of_le hx.1
    have hk : k < (readBytes m a n).length := by rw [length_readBytes]; omega
    rw [get_writeBytes_in _ _ _ k hk]
    simp [readBytes]
  · exact get_writeBytes_out _ _ _ _ (by rw [length_readBytes]; omega)

theorem length_amoBytes (op : Option AtomOp) (w : Bool) (old : List Byte) (b e : W64) :
    (Claims.amoBytes op w old b e).length = widthW w := by
  cases w <;> simp [Claims.amoBytes, widthW]

theorem widthOf_not (w : Bool) : widthOf (!w) = widthW w := by cases w <;> rfl

/-- Writing what an atomic writes, if it does, is writing what R200 says. -/
theorem get_atomBytes (m : Store 8) (op : Option AtomOp) (w : Bool) (a x : Nat) (b e : W64) :
    Store.get (if (atomBytes op (!w) (readBytes m a (widthW w)) b e).2
        then writeBytes m a (atomBytes op (!w) (readBytes m a (widthW w)) b e).1 else m) x =
      Store.get (writeBytes m a (Claims.amoBytes op w (readBytes m a (widthW w)) b e)) x := by
  rw [amoBytes_eq b e (by rw [length_readBytes, widthOf_not])]
  split
  · rfl
  · exact (get_writeBytes_readBytes m a _ x).symm

/-- An atomic on a sound place of the scratchpad: the bytes that it leaves. -/
theorem scratchAtomic_sound {s : State} {w : Bool} {a : W64} (op : Option AtomOp) (b e : W64)
    (hbad : s.team.apertureBad a (widthW w) = false) :
    s.scratchAtomic op (!w) a b e = (let old := s.team.readScratch a (widthW w)
      (if (atomBytes op (!w) old b e).2 then s.writeScratch a (atomBytes op (!w) old b e).1 else s, old, false)) := by
  simp only [State.scratchAtomic, widthOf_not, hbad]
  rfl

/-- Nothing differs but the scratchpad of the team in front. -/
structure ScratchpadOnly (s t : State) : Prop where
  warp : t.warp = s.warp
  core : t.core = s.core
  cores : t.cores = s.cores
  ctxs : SameCtxs t s
  dev : t.dev = s.dev
  events : t.events = s.events
  teamCore : t.team.core = s.team.core

theorem scratchAtomic_frame {s t : State} {w : Bool} {a : W64} {op : Option AtomOp} {b e : W64} {old : List Byte}
    (hbad : s.team.apertureBad a (widthW w) = false) (h : s.scratchAtomic op (!w) a b e = (t, old, false)) :
    ScratchpadOnly s t ∧ old = Claims.scratchBytes s (widthW w) a ∧
      ∀ x, Claims.scratchAt t x = Store.get (writeBytes s.team.scratch (a.toNat - 0x00FFFF0000000000)
        (Claims.amoBytes op w (Claims.scratchBytes s (widthW w) a) b e)) x := by
  rw [scratchAtomic_sound op b e hbad] at h
  cases h
  have hget := get_atomBytes s.team.scratch op w (a.toNat - 0x00FFFF0000000000) (b := b) (e := e)
  refine ⟨?_, rfl, fun x => (congrArg (Store.get · x) ?_).trans (hget x)⟩
  · split <;> exact ⟨rfl, rfl, rfl, .refl s, rfl, rfl, rfl⟩
  · split
    · next hwr => exact (if_pos hwr).symm
    · next hwr => exact (if_neg hwr).symm

/-- An atomic of a core at the home of a sound line. -/
theorem homeAtomic_core {s u : State} {c : Context} {n ia : Nat} {p : Page} {w : Bool} (op : Option AtomOp) (b e : W64)
    (hin : s.letIn c (.core n) true false true ia = .ok u p) (hsound : u.dev.bad.contains (p.phys ia / 128) = false) :
    s.homeAtomic c (.core n) op (!w) ia b e =
      (let old := readBytes u.dev.mem (p.phys ia) (widthW w)
       let new := atomBytes op (!w) old b e
       .ok ((if new.2 then u.homeWrite c.num (some n) p ia new.1 else u.endShare c.num (ia / 65536)).refreshCopy c n ia) (old, false)) := by
  simp only [State.homeAtomic, hin, State.homeRead, hsound, widthOf_not]
  rfl

theorem CoresOnly.dev {s t : State} (h : CoresOnly s t) : t.dev = s.dev := by
  obtain ⟨_, _, rfl⟩ := h
  rfl

/-- It keeps the warp and the team in front, and leaves R200's bytes at its page. -/
theorem homeAtomic_frame {s u t : State} {c : Context} {n ia : Nat} {p : Page} {w : Bool} {op : Option AtomOp} {b e : W64}
    {old : List Byte} (hin : s.letIn c (.core n) true false true ia = .ok u p)
    (hsound : u.dev.bad.contains (p.phys ia / 128) = false) (h : s.homeAtomic c (.core n) op (!w) ia b e = .ok t (old, false)) :
    SameFront s t ∧ old = readBytes u.dev.mem (p.phys ia) (widthW w) ∧
      WroteOnPage u t p (p.phys ia) (Claims.amoBytes op w (readBytes u.dev.mem (p.phys ia) (widthW w)) b e) := by
  rw [homeAtomic_core op b e hin hsound] at h
  cases h
  have hcores := coresOnly_refreshCopy (if (atomBytes op (!w) (readBytes u.dev.mem (p.phys ia) (widthW w)) b e).2
    then u.homeWrite c.num (some n) p ia (atomBytes op (!w) (readBytes u.dev.mem (p.phys ia) (widthW w)) b e).1
    else u.endShare c.num (ia / 65536)) c n ia
  refine ⟨(sameFront_letIn hin).trans (SameFront.trans ?_ hcores.sameFront), rfl, ?_⟩
  · split
    · exact sameFront_homeWrite _ _ _ _ _ _
    · exact sameFront_endShare _ _ _
  · refine WroteOnPage.congr ?_ (congrArg Device.mem hcores.dev)
    intro x hx
    rw [← get_atomBytes]
    split
    · exact homeWrite_wrote u _ _ p ia _ x hx
    · rw [Claims.byteAt, mem_endShare]

/-! ### The steps of a scalar atomic -/

theorem exec_amoOf {i : Instr} {op : Option AtomOp} {w : Bool} {sc : Scope} {o : Order} {d a b : SReg} (s : State)
    (h : Claims.amoOf i = some (op, w, sc, o, d, a, b)) : exec i s = s.amo op w sc o d a b := by
  revert h
  fun_cases Claims.amoOf i <;> intro h
  case case11 => exact nomatch h  -- no scalar atomic
  all_goals cases h; rfl

theorem releases_iff (o : Order) : Order.releases o = true ↔ o = .rel ∨ o = .ar := by cases o <;> simp [Order.releases]
theorem acquires_iff (o : Order) : Order.acquires o = true ↔ o = .acq ∨ o = .ar := by cases o <;> simp [Order.acquires]

theorem releaseReport_ok {s : State} {o : Order} (h : Order.releases o = true → s.warp.report = none) :
    s.releaseReport o = .ok s () := by
  unfold State.releaseReport
  split
  · next ho => exact takeReport_none s (h ho)
  · rfl
theorem releaseEnd_ok {s : State} {o : Order} (h : Order.releases o = true → s.endDone = true) : s.releaseEnd o = .ok s () := by
  unfold State.releaseEnd
  split
  · next ho => exact ended_ok (h ho)
  · rfl

theorem atClearingS_ok {s : State} (h : s.team.det = false ∨ s.warp.clearS = .granted) : s.atClearingS = .ok s () := by
  refine if_pos ?_
  rcases h with h | h <;> simp [h]
theorem atClearingS_wait {s : State} (hdet : s.team.det = true) (h : s.warp.clearS ≠ .granted) :
    s.atClearingS = .wait (s.onWarp (fun w => { w with clearS := .waiting })) 14 := if_neg (by simp [hdet, h])

@[simp] theorem issued_clearS (s : State) (p : Perm) (a : W64) : (Claims.issued s p a).warp.clearS = s.warp.clearS := by
  obtain ⟨_, _, h⟩ := issued_eq s p a; rw [h]
@[simp] theorem issued_cores (s : State) (p : Perm) (a : W64) : (Claims.issued s p a).cores = s.cores := by
  obtain ⟨_, _, h⟩ := issued_eq s p a; rw [h]
@[simp] theorem issued_v (s : State) (p : Perm) (a : W64) : (Claims.issued s p a).warp.v = s.warp.v := by
  obtain ⟨_, _, h⟩ := issued_eq s p a; rw [h]

section
variable {s t : State} {op : Option AtomOp} {w : Bool} {sc : Scope} {o : Order} {d a b : SReg} {ia : Nat} {old : List Byte}
  (hpark : s.warp.parkS = none) (hreport : Order.releases o = true → s.warp.report = none)
  (hpass : Claims.PassesIssue s [.r, .w] true (widthW w) (widthW w) (s.S a))
include hpark hreport hpass

theorem amo_waits_end (hrel : Order.releases o = true) (hend : ¬ s.endDone = true) :
    s.amo op w sc o d a b = .next ((Claims.issued s .w (s.S a)).waitScalar 12) := by
  have hissue : s.issueScalar _ _ _ _ _ = .ok (Claims.issued s .w (s.S a)) () := issueScalar_passes hpass
  have hwait : (Claims.issued s .w (s.S a)).releaseEnd o = .wait (Claims.issued s .w (s.S a)) 12 := by
    rw [State.releaseEnd, if_pos hrel, ended_wait (by rwa [endDone_issued])]
  simp only [State.amo, scalarRun_free s _ hpark, releaseReport_ok hreport, bind_ok, hissue, hwait, bind_wait]
  rfl

variable (hend : Order.releases o = true → s.endDone = true)
include hend

/-- On the scratchpad, under DET, before the warp's turn in the clearing. -/
theorem amo_waits_clearing (hap : inAperture (s.S a) = true) (hfence : s.fenceBusy = false) (hdet : s.team.det = true)
    (hturn : s.warp.clearS ≠ .granted) : s.amo op w sc o d a b =
      .next (((Claims.issued s .w (s.S a)).onWarp (fun w => { w with clearS := .waiting })).waitScalar 14) := by
  have hissue : s.issueScalar _ _ _ _ _ = .ok (Claims.issued s .w (s.S a)) () := issueScalar_passes hpass
  have hended : (Claims.issued s .w (s.S a)).releaseEnd o = .ok (Claims.issued s .w (s.S a)) () :=
    releaseEnd_ok fun h => (endDone_issued s _ _).trans (hend h)
  have hclear := atClearingS_wait (s := Claims.issued s .w (s.S a)) (by rwa [issued_team]) (by rwa [issued_clearS])
  simp only [State.amo, scalarRun_free s _ hpark, releaseReport_ok hreport, bind_ok, hissue, hended, hap, if_true, issued_fenceBusy,
    hfence, Bool.false_eq_true, if_false, hclear, bind_wait]
  rfl

theorem amo_scratch (hap : inAperture (s.S a) = true) (hfence : s.fenceBusy = false)
    (hturn : s.team.det = false ∨ s.warp.clearS = .granted)
    (hatomic : (Claims.issued s .w (s.S a)).scratchAtomic op (!w) (s.S a) (s.S b) (s.S d) = (t, old, false)) :
    s.amo op w sc o d a b = .next (((if Order.acquires o then t.begin sc else t).writeS d (extW w old)).retire) := by
  have hissue : s.issueScalar _ _ _ _ _ = .ok (Claims.issued s .w (s.S a)) () := issueScalar_passes hpass
  have hended : (Claims.issued s .w (s.S a)).releaseEnd o = .ok (Claims.issued s .w (s.S a)) () :=
    releaseEnd_ok fun h => (endDone_issued s _ _).trans (hend h)
  have hclear := atClearingS_ok (s := Claims.issued s .w (s.S a)) (by rwa [issued_team, issued_clearS])
  simp only [State.amo, scalarRun_free s _ hpark, releaseReport_ok hreport, bind_ok, hissue, hended, hap, if_true, issued_fenceBusy,
    hfence, Bool.false_eq_true, if_false, hclear, issued_S, hatomic]
  rfl

theorem amo_placed (hap : inAperture (s.S a) = false) (hia : (Claims.issued s .w (s.S a)).scalarIa .w (s.S a) = ia)
    (hfree : Claims.Unheld s ia) (hpage : missingKind s.dev s.ctx ia = none) (hverdict : writeVerdict s.dev s.ctx ia (widthW w) = none)
    (hturn : s.team.det = false ∨ s.warp.clearS = .granted)
    (hplace : (Claims.issued s .w (s.S a)).placeAtomic sc op (!w) ia (s.S b) (s.S d) = .ok t (old, false)) :
    s.amo op w sc o d a b = .next (((if Order.acquires o then t.begin sc else t).writeS d (extW w old)).retire) := by
  have hissue : s.issueScalar _ _ _ _ _ = .ok (Claims.issued s .w (s.S a)) () := issueScalar_passes hpass
  have hended : (Claims.issued s .w (s.S a)).releaseEnd o = .ok (Claims.issued s .w (s.S a)) () :=
    releaseEnd_ok fun h => (endDone_issued s _ _).trans (hend h)
  have hclear := atClearingS_ok (s := Claims.issued s .w (s.S a)) (by rwa [issued_team, issued_clearS])
  have hheld := holdScalar_unheld (unheld_issued .w (s.S a) hfree)
  have hhome : (Claims.issued s .w (s.S a)).homeVerdict true (widthW w) ia (s.S a) = .ok (Claims.issued s .w (s.S a)) () := by
    simp [State.homeVerdict, hpage, hverdict]
  simp only [State.amo, scalarRun_free s _ hpark, releaseReport_ok hreport, bind_ok, hissue, hended, hap, Bool.false_eq_true, if_false,
    hia, hheld, hhome, hclear, issued_S, hplace]
  rfl

end

/-- Nothing differs but the cores, the count of BEGINs and what has been read ahead. -/
def BeginOnly (s t : State) : Prop :=
  ∃ core cores begins rob, t = { s with core := core, cores := cores, warp := { s.warp with begins := begins, rob := rob } }

theorem beginOnly_begin (s : State) (sc : Scope) : BeginOnly s (s.begin sc) := by
  obtain ⟨core, cores, h⟩ := begin_eq s sc
  exact ⟨core, cores, _, _, h⟩

/-- What the order of an atomic leaves: the state as it was, or after a BEGIN. -/
theorem beginOnly_acquired (s : State) (sc : Scope) (o : Order) : BeginOnly s (if Order.acquires o then s.begin sc else s) := by
  split
  · exact beginOnly_begin s sc
  · exact ⟨_, _, _, _, rfl⟩
theorem begun_acquired (s : State) (sc : Scope) (o : Order) :
    Claims.Begun s (if Order.acquires o then s.begin sc else s) (if o = .acq ∨ o = .ar then sc else .team) := by
  by_cases ho : Order.acquires o = true
  · rw [if_pos ho, if_pos ((acquires_iff o).mp ho)]
    exact begun_begin s sc
  · rw [if_neg ho, if_neg (mt (acquires_iff o).mpr ho)]
    exact begun_team rfl rfl

/-- A scalar access of s retires with the value x for register d, in a machine that is otherwise that of t. -/
structure Answered (s t r : State) (d : SReg) (x : W64) : Prop where
  spc : r.warp.spc = s.warp.spc + 4
  v : r.warp.v = s.warp.v
  preds : r.warp.preds = s.warp.preds
  em : r.warp.em = s.warp.em
  wrote : Claims.Wrote s r d x
  dev : r.dev = t.dev
  team : r.team = t.team
  ctx : r.ctx = t.ctx
  events : r.events = t.events

theorem answered {s t u : State} {p : Perm} {a : W64} (hwarp : t.warp = (Claims.issued s p a).warp) (h : BeginOnly t u)
    (d : SReg) (x : W64) : Answered s t ((u.writeS d x).retire) d x := by
  have hS (r : SReg) : t.S r = s.S r := (S_of_warp (congrArg Warp.s hwarp) r).trans (issued_S s p a r)
  obtain ⟨_, _, hissued⟩ := issued_eq s p a
  rw [hissued] at hwarp
  obtain ⟨core, cores, begins, rob, rfl⟩ := h
  constructor
  case wrote =>
    intro r
    rw [S_retire, S_writeS]
    exact if_congr Iff.rfl rfl (hS r)
  all_goals simp [State.retire, hwarp]

/-- BEGIN as seen from the state before the access. -/
theorem Begun.retired {s t u : State} {sc : Scope} {d : SReg} {x : W64} (h : Claims.Begun t u sc)
    (hcore : t.core = s.core) (hcores : t.cores = s.cores) (hctxs : SameCtxs t s) (hdev : t.dev = s.dev) (hteam : t.team.core = s.team.core) :
    Claims.Begun s ((u.writeS d x).retire) sc :=
  Begun.congr h hcore.symm hcores.symm hctxs hdev.symm hteam.symm (by simp [State.retire]) (by simp [State.retire])

/-- Bytes written at an address of the scratchpad are read there. -/
theorem scratchBytes_written {t : State} {m : Store 8} {n : Nat} {a : W64} {bs : List Byte} (hlen : bs.length = n)
    (h : ∀ x, Claims.scratchAt t x = Store.get (writeBytes m (a.toNat - 0x00FFFF0000000000) bs) x) : Claims.scratchBytes t n a = bs := by
  refine List.ext_getElem (by rw [hlen, Claims.scratchBytes, List.length_map, List.length_range]) fun k hk hk' => ?_
  simp only [Claims.scratchBytes, List.getElem_map, List.getElem_range, h]
  exact get_writeBytes_in _ _ _ k hk'

/-- An access that may both read and write has the address that the check of its write gives. -/
theorem checked_write {s : State} {n : Nat} {a : W64} {ia : Nat} (h : Claims.Checked s [.r, .w] n a ia) :
    Claims.Checked s [.w] n a ia := by
  obtain ⟨halign, hap, hia⟩ := h
  refine ⟨halign, hap, hia.imp_right fun ⟨hnone, hcheck⟩ => ⟨hnone, ?_⟩⟩
  have hcheck : (match check s.ctx a .r with
    | .ok _ => checkAll s.ctx a [.w]
    | .fault d => .fault d
    | .growth k => (match checkAll s.ctx a [.w] with | .fault d => .fault d | _ => .growth k)) = Checked.ok ia := hcheck
  split at hcheck
  · exact hcheck
  · cases hcheck
  · split at hcheck <;> cases hcheck

/-- An atomic gives as many old bytes as it has. -/
theorem length_homeAtomic {s t : State} {c : Context} {ag : Agent} {op : Option AtomOp} {dbl : Bool} {ia : Nat} {b e : W64}
    {old : List Byte} {bad : Bool} (h : s.homeAtomic c ag op dbl ia b e = .ok t (old, bad)) : old.length = widthOf dbl := by
  unfold State.homeAtomic at h
  split at h
  · cases h
  · cases h
  · dsimp only [State.homeRead] at h
    split at h <;> cases h <;> exact length_readBytes _ _ _

theorem length_placeAtomic {s t : State} {sc : Scope} {op : Option AtomOp} {w : Bool} {ia : Nat} {b e : W64} {old : List Byte} {bad : Bool}
    (h : s.placeAtomic sc op (!w) ia b e = .ok t (old, bad)) : old.length = widthW w := by
  rw [← widthOf_not]
  unfold State.placeAtomic State.ownedAtomic at h
  split at h
  · split at h
    · exact length_homeAtomic h
    · split at h
      · cases h
      · cases h
      · dsimp only at h
        split at h <;> cases h <;> exact length_lineBytes _ _ _
  · exact length_homeAtomic h

/-- Settles O11: each form is its checks, the END of a release, and one atomic at the place that the address and the scope select,
then the BEGIN of an acquire. -/
theorem scalarAtomicsUpdateAndReturnTheOldValue : Obligations.ScalarAtomicsUpdateAndReturnTheOldValue := by
  refine ⟨?scratch, ?unended, ?clearing, ?home⟩
  case scratch =>
    intro i op w sc o d a b s n hi hn hpark hended hin hsound hwatch hfence hturn
    obtain rfl : n = widthW w := hn
    have hap := inAperture_of_inScratch hin
    have hend (ho : Order.releases o = true) : Claims.Ended s := hended ((releases_iff o).mp ho)
    have hbad : (Claims.issued s .w (s.S a)).team.apertureBad (s.S a) (widthW w) = false := by
      rw [issued_team]
      exact (apertureBad_eq_false_iff hap).mpr hsound
    obtain ⟨t, old, hatomic⟩ : ∃ t old, (Claims.issued s .w (s.S a)).scratchAtomic op (!w) (s.S a) (s.S b) (s.S d) = (t, old, false) :=
      ⟨_, _, scratchAtomic_sound op _ _ hbad⟩
    have hexec := (exec_amoOf s hi).trans (amo_scratch (sc := sc) hpark (fun ho => report_of_ended (hend ho)) (passesIssue_scratch hin hwatch)
      (fun ho => endDone_of_ended (hend ho)) hap hfence hturn hatomic)
    obtain ⟨hframe, rfl, hbytes⟩ := scratchAtomic_frame hbad hatomic
    have hscratch : Claims.scratchBytes (Claims.issued s .w (s.S a)) (widthW w) (s.S a) = Claims.scratchBytes s (widthW w) (s.S a) := by
      rw [← readScratch_eq, issued_team, readScratch_eq]
    rw [hscratch, extW_eq_extended (by simp [Claims.scratchBytes])] at hexec
    rw [hscratch, issued_team] at hbytes
    have hlen := length_amoBytes op w (Claims.scratchBytes s (widthW w) (s.S a)) (s.S b) (s.S d)
    have hans := answered hframe.warp (beginOnly_acquired t sc o) d (Claims.extended w (Claims.scratchBytes s (widthW w) (s.S a)))
    have hafter (x : Nat) : Claims.scratchAt (((if Order.acquires o then t.begin sc else t).writeS d
        (Claims.extended w (Claims.scratchBytes s (widthW w) (s.S a)))).retire) x = Claims.scratchAt t x := by
      rw [Claims.scratchAt, hans.team, Claims.scratchAt]
    refine ⟨_, hexec, hans.spc, (hans.dev.trans hframe.dev).trans (issued_dev ..), ?_, ?_, hans.v, hans.preds, hans.em, hans.wrote, ?_,
      fun x hx => ?_, ?_⟩
    · exact (hans.ctx.trans hframe.ctxs.1.symm).trans (issued_ctx ..)
    · exact (hans.events.trans hframe.events).trans (issued_events ..)
    · exact scratchBytes_written hlen fun x => (hafter x).trans (hbytes x)
    · rw [hafter, hbytes, get_writeBytes_out _ _ _ _ (by rwa [hlen]), Claims.scratchAt]
    · obtain ⟨_, _, hissued⟩ := issued_eq s .w (s.S a)
      rw [hissued] at hframe
      exact Begun.retired (begun_acquired t sc o) hframe.core hframe.cores (SameCtxs.trans hframe.ctxs ⟨rfl, rfl⟩) hframe.dev hframe.teamCore
  case unended =>
    intro i op w sc o d a b s n hi hn hpark hreport hrel hend hplace hwatch
    obtain rfl : n = widthW w := hn
    have hpass := hplace.elim (passesIssue_scratch · hwatch) fun ⟨_, hchecked⟩ => passesIssue_checked hchecked hwatch
    exact (exec_amoOf s hi).trans (amo_waits_end hpark (fun _ => hreport) hpass ((releases_iff o).mpr hrel)
      (mt (endDone_iff hreport).mp hend))
  case clearing =>
    intro i op w sc o d a b s n hi hn hpark hended hin hwatch hfence hdet hturn
    obtain rfl : n = widthW w := hn
    have hend (ho : Order.releases o = true) : Claims.Ended s := hended ((releases_iff o).mp ho)
    refine ⟨_, (exec_amoOf s hi).trans (amo_waits_clearing hpark (fun ho => report_of_ended (hend ho)) (passesIssue_scratch hin hwatch)
      (fun ho => endDone_of_ended (hend ho)) (inAperture_of_inScratch hin) hfence hdet hturn), ?_, ?_, rfl, fun r => ?_⟩
    · unfold Claims.issued Claims.counted
      split <;> exact ⟨rfl, fun _ => rfl⟩
    · simp [Warp.countStall]
    · obtain ⟨_, _, hissued⟩ := issued_eq s .w (s.S a)
      rw [hissued]
      rfl
  case home =>
    intro i op w sc o d a b s n ia hi hn hpark hended hchecked hwatch hpage hverdict hturn hfree
    obtain rfl : n = widthW w := hn
    have hend (ho : Order.releases o = true) : Claims.Ended s := hended ((releases_iff o).mp ho)
    have hplaced {t : State} {old : List Byte}
        (hplace : (Claims.issued s .w (s.S a)).placeAtomic sc op (!w) ia (s.S b) (s.S d) = .ok t (old, false)) :
        exec i s = .next (((if Order.acquires o then t.begin sc else t).writeS d (extW w old)).retire) :=
      (exec_amoOf s hi).trans (amo_placed hpark (fun ho => report_of_ended (hend ho)) (passesIssue_checked hchecked hwatch)
        (fun ho => endDone_of_ended (hend ho)) (inAperture_of_checked hchecked) (scalarIa_issued (checked_write hchecked)) hfree hpage
        hverdict hturn hplace)
    refine ⟨fun hscope s' p hin hsound => ?_, fun t old hplace => ?_⟩
    · have hhome : (Claims.issued s .w (s.S a)).placeAtomic sc op (!w) ia (s.S b) (s.S d) =
          (Claims.issued s .w (s.S a)).homeAtomic s.ctx (.core s.team.core) op (!w) ia (s.S b) (s.S d) := by
        refine (if_neg ?_).trans (by rw [issued_ctx, issued_team])
        rcases hscope with rfl | rfl | rfl | hdet <;> simp [Scope.owned, *]
      obtain ⟨t, old, hatomic⟩ : ∃ t old, (Claims.issued s .w (s.S a)).homeAtomic s.ctx (.core s.team.core) op (!w) ia (s.S b) (s.S d) =
          .ok t (old, false) := ⟨_, _, homeAtomic_core op _ _ hin hsound⟩
      have hexec := hplaced (hhome.trans hatomic)
      obtain ⟨⟨hwarp, hteam⟩, rfl, hwrote⟩ := homeAtomic_frame hin hsound hatomic
      have hlen := length_amoBytes op w (readBytes s'.dev.mem (p.phys ia) (widthW w)) (s.S b) (s.S d)
      have hans := answered hwarp (beginOnly_acquired t sc o) d (Claims.extended w (readBytes s'.dev.mem (p.phys ia) (widthW w)))
      obtain ⟨hbytes, hother⟩ := (hwrote.congr (congrArg Device.mem hans.dev)).bytes
      rw [hlen] at hbytes hother
      rw [extW_eq_extended (length_readBytes ..)] at hexec
      exact ⟨_, hexec, hans.spc, (hans.team.trans hteam).trans (issued_team ..), hans.v, hans.wrote, hbytes, hother⟩
    · have hlen : old.length = widthW w := length_placeAtomic hplace
      rw [hplaced hplace, extW_eq_extended hlen]
      simp only [acquires_iff]

/-! ### LDACQ and STREL on the scratchpad (10:R207) -/

section
variable {s : State} {w : Bool} {a : SReg} (hpark : s.warp.parkS = none) (hap : inAperture (s.S a) = true)
include hpark hap

theorem ldacq_scratch (sc : Scope) (d : SReg) (hpass : Claims.PassesIssue s [.r] true (widthW w) (widthW w) (s.S a)) :
    exec (.ldacq w sc d a) s = finish (((Claims.issued s .r (s.S a)).scalarLoad (widthW w) (s.S a)).bind
      (fun t bs => (t.begin sc).give d (extW w bs))) := by
  have hissue : s.issueScalar _ _ _ _ _ = .ok (Claims.issued s .r (s.S a)) () := issueScalar_passes hpass
  show execLdacq w sc d a s = _
  simp only [execLdacq, scalarRun_free s _ hpark, hissue, bind_ok, hap, if_true]

theorem strel_scratch (sc : Scope) (b : SReg) (hpass : Claims.PassesIssue s [.w] true (widthW w) (widthW w) (s.S a))
    (hend : Claims.Ended s) : exec (.strel w sc a b) s =
      .next ((Claims.issued s .w (s.S a)).writeScratch (s.S a) (toBytes (widthW w) (s.S b))).retire := by
  have hissue : s.issueScalar _ _ _ _ _ = .ok (Claims.issued s .w (s.S a)) () := issueScalar_passes hpass
  have hdone : (Claims.issued s .w (s.S a)).ended = .ok (Claims.issued s .w (s.S a)) () :=
    ended_ok ((endDone_issued s _ _).trans (endDone_of_ended hend))
  have hfence := fenceBusy_of_ended hend
  obtain ⟨hreport, -⟩ := hend
  show execStrel w sc a b s = _
  simp only [execStrel, scalarRun_free s _ hpark, takeReport_none s hreport, hissue, bind_ok, hdone, hap, Bool.true_or, if_true,
    scalarStore_scratch hap, issued_fenceBusy, hfence, Bool.false_eq_true, if_false, issued_S]
  rfl

end

/-! ### PHASE (10:R209) -/

section
variable {s : State} (sc : Scope) (hpark : s.warp.parkS = none)
include hpark

theorem exec_phaseEnd : exec (.phaseEnd sc) s = finish (s.takeReport.bind (fun s _ => s.ended)) := by
  rw [show exec (.phaseEnd sc) s = execPhaseEnd sc s from rfl, execPhaseEnd, scalarRun_free s _ hpark]
theorem exec_phaseFull :
    exec (.phaseFull sc) s = finish (s.takeReport.bind (fun s _ => s.ended.bind (fun s _ => .ok (s.begin sc) ()))) := by
  rw [show exec (.phaseFull sc) s = execPhaseFull sc s from rfl, execPhaseFull, scalarRun_free s _ hpark]
theorem exec_phaseBegin :
    exec (.phaseBegin sc) s = finish ((s.lanesRetired 12).bind (fun s _ => .ok (s.fence.begin sc) ())) := by
  rw [show exec (.phaseBegin sc) s = execPhaseBegin sc s from rfl, execPhaseBegin, scalarRun_free s _ hpark]

end

/-- A PHASE that makes a BEGIN retires with nothing of the team, the device and the scalar registers changed. -/
theorem retire_begin {s t : State} (sc : Scope) (hwarp : t.warp.s = s.warp.s ∧ t.warp.spc = s.warp.spc) (hteam : t.team = s.team)
    (hdev : t.dev = s.dev) (hcore : t.core = s.core) (hcores : t.cores = s.cores) (hctxs : SameCtxs t s) :
    (t.begin sc).retire.warp.spc = s.warp.spc + 4 ∧ (t.begin sc).retire.dev = s.dev ∧ (t.begin sc).retire.team = s.team ∧
      (∀ r : SReg, (t.begin sc).retire.S r = s.S r) ∧ Claims.Begun s (t.begin sc).retire sc := by
  have hbegun := begun_begin t sc
  obtain ⟨hs, hspc⟩ := hwarp
  obtain ⟨core, cores, h⟩ := begin_eq t sc
  rw [h] at hbegun ⊢
  refine ⟨by rw [retire_spc]; exact congrArg (· + 4) hspc, hdev, hteam, fun r => S_of_warp hs r, ?_⟩
  exact Begun.congr hbegun hcore.symm hcores.symm hctxs hdev.symm (congrArg Team.core hteam.symm) rfl rfl

/-- Settles O12: a load that ends with a BEGIN, a store that an END stands before, and the three kinds of PHASE. -/
theorem scopedAccessesAndPhases : Obligations.ScopedAccessesAndPhases := by
  refine ⟨?accesses, ?phases⟩
  case accesses =>
    intro w sc d a b s n hn hpark hin
    obtain rfl : n = widthW w := hn
    have hap := inAperture_of_inScratch hin
    refine ⟨fun hwatch hfence => ?_, fun hwatch hsound hfence => ?_, fun hwatch hend => ?_⟩
    · rw [ldacq_scratch hpark hap sc d (passesIssue_scratch hin hwatch), scalarLoad_scratch hap]
      simp only [issued_fenceBusy, hfence, if_true, bind_wait]
      rfl
    · have hbad := (apertureBad_eq_false_iff hap).mpr hsound
      have hexec := ldacq_scratch hpark hap sc d (passesIssue_scratch hin hwatch)
      rw [scalarLoad_scratch hap] at hexec
      simp only [issued_fenceBusy, hfence, issued_team, hbad, Bool.false_eq_true, if_false, bind_ok, readScratch_eq] at hexec
      rw [extW_eq_extended (by simp [Claims.scratchBytes])] at hexec
      have hans := answered (s := s) (p := .r) (a := s.S a) rfl (beginOnly_begin _ sc) d
        (Claims.extended w (Claims.scratchBytes s (widthW w) (s.S a)))
      have hctxs : SameCtxs (Claims.issued s .r (s.S a)) s := by
        obtain ⟨_, _, hissued⟩ := issued_eq s .r (s.S a)
        rw [hissued]
        exact ⟨rfl, rfl⟩
      refine ⟨_, hexec, hans.spc, hans.dev.trans (issued_dev ..), hans.team.trans (issued_team ..), hans.wrote, ?_⟩
      exact Begun.retired (begun_begin _ sc) (issued_core ..) (issued_cores ..) hctxs (issued_dev ..) (congrArg Team.core (issued_team ..))
    · have hscratch (x : Nat) : Claims.scratchAt ((Claims.issued s .w (s.S a)).writeScratch (s.S a) (toBytes (widthW w) (s.S b))).retire x =
          Store.get (writeBytes s.team.scratch ((s.S a).toNat - 0x00FFFF0000000000) (toBytes (widthW w) (s.S b))) x := by
        rw [Claims.scratchAt, retire_team, State.writeScratch_scratch, issued_team]
        rfl
      refine ⟨_, strel_scratch hpark hap sc b (passesIssue_scratch hin hwatch) hend, ?_, scratchOnly_issued s _ _ _, fun r => ?_, ?_,
        fun x hx => ?_⟩
      · rw [retire_spc, State.writeScratch_warp, issued_spc]
      · rw [S_retire, S_of_warp (congrArg Warp.s (State.writeScratch_warp _ _ _)), issued_S]
      · rw [← toBytes_eq_regBytes]
        exact scratchBytes_written (length_toBytes _ _) hscratch
      · rw [hscratch, get_writeBytes_out _ _ _ _ (by rwa [length_toBytes]), Claims.scratchAt]
  case phases =>
    intro sc s hpark
    refine ⟨fun hend => ?_, fun hreport hend => ?_, fun hqueue => ?_, fun hqueue => ?_, fun hend => ?_⟩
    · have hdone := ended_ok (endDone_of_ended hend)
      obtain ⟨hreport, -⟩ := hend
      have hexec : exec (.phaseEnd sc) s = .next s.retire := by
        rw [exec_phaseEnd sc hpark, takeReport_none s hreport, bind_ok, hdone, finish_ok]
      exact ⟨_, hexec, scalarOnly_retireTo s _ _, retire_spc s _, fun r => S_retire s _ r⟩
    · have hwait := ended_wait (mt (endDone_iff hreport).mp hend)
      rw [exec_phaseEnd sc hpark, exec_phaseFull sc hpark, takeReport_none s hreport, bind_ok, bind_ok, hwait]
      exact ⟨rfl, rfl⟩
    · exact ⟨_, by rw [exec_phaseBegin sc hpark, lanesRetired_empty s 12 hqueue, bind_ok, finish_ok],
        retire_begin (t := s.fence) sc ⟨rfl, rfl⟩ rfl rfl rfl rfl ⟨rfl, rfl⟩⟩
    · rw [exec_phaseBegin sc hpark, lanesRetired_wait 12 hqueue, bind_wait, finish_wait]
    · have hdone := ended_ok (endDone_of_ended hend)
      obtain ⟨hreport, -⟩ := hend
      exact ⟨_, by rw [exec_phaseFull sc hpark, takeReport_none s hreport, bind_ok, hdone, bind_ok, finish_ok],
        retire_begin sc ⟨rfl, rfl⟩ rfl rfl rfl rfl ⟨rfl, rfl⟩⟩

end Sys2Proof.Machine
end

section
/-!
PROOFS. The end of append extents and escrows: SEAL, EXTFREE and SETTLE (10:R210 to R212).
-/

namespace Sys2Proof.Machine

open Sys2Proof

/-! ### What a recall and a withdrawal leave -/

theorem foldl_frame {α β : Type} (g : State → β) {f : State → α → State} (hf : ∀ s x, g (f s x) = g s) (xs : List α) (s : State) :
    g (xs.foldl f s) = g s := by
  induction xs generalizing s with
  | nil => rfl
  | cons x xs ih => exact (ih _).trans (hf s x)

theorem recallLines_warp (s : State) (p : Nat → Bool) (all : Bool) : (s.recallLines p all).warp = s.warp := by
  unfold State.recallLines
  extract_lets gone u v w x
  have hu : u.warp = s.warp := by
    refine foldl_frame State.warp (fun s e => ?_) _ s
    split
    · split
      · exact storeLine_warp _ _ _ _
      · rfl
    · rfl
    · rfl
  have hv : v.warp = u.warp := by
    unfold v
    split <;> rfl
  have hw : w.warp = v.warp := foldl_frame State.warp (fun s c => foldl_frame State.warp (fun s l => storeLine_warp _ _ _ _) _ s) _ v
  have hx : x.warp = w.warp := foldl_frame State.warp (fun s c => State.setCore_warp s _) _ w
  exact ((hx.trans hw).trans hv).trans hu

theorem freePages_frame (s : State) (x : Extent) : (s.freePages x).warp = s.warp ∧ (s.freePages x).ctx = s.ctx := by
  have hunhome (u : State) (page : Nat) : (u.unhome page).warp = u.warp ∧ (u.unhome page).ctx = u.ctx := by
    unfold State.unhome
    extract_lets there
    split <;> exact ⟨rfl, rfl⟩
  unfold State.freePages
  refine ⟨foldl_frame State.warp (fun s page => ?_) _ s, foldl_frame State.ctx (fun s page => ?_) _ s⟩
  · extract_lets u
    have hu : u.warp = s.warp := recallLines_warp s _ _
    split
    · obtain ⟨hwarp, -⟩ := hunhome _ page
      exact hwarp.trans hu
    · exact hu
    · exact hu
  · extract_lets u
    obtain ⟨hu, -⟩ : SameCtxs s u := sameCtxs_recallLines s _ _
    split
    · obtain ⟨-, hctx⟩ := hunhome _ page
      exact hctx.trans hu
    · exact hu
    · exact hu

theorem endFree_frame (s : State) (x : Extent) (keys : List Nat) :
    (s.endFree x keys).warp = s.warp ∧ (s.endFree x keys).ctx.extents = s.ctx.extents.filter (fun y => y.base != x.base) := by
  obtain ⟨hwarp, hctx⟩ := freePages_frame { s with dev := { s.dev with pagesHeld := s.dev.pagesHeld.filter (fun k => !keys.contains k) } } x
  exact ⟨hwarp, congrArg (fun c : Context => c.extents.filter (fun y : Extent => y.base != x.base)) hctx⟩

/-- An entry that is replaced under its base goes with that base. -/
theorem filter_setExtent (c : Context) {x y : Extent} (h : y.base = x.base) :
    (c.setExtent y).extents.filter (fun z => z.base != x.base) = c.extents.filter (fun z => z.base != x.base) := by
  unfold Context.setExtent
  dsimp only
  rw [h]
  induction c.extents with
  | nil => rfl
  | cons z zs ih =>
    by_cases hz : z.base = x.base
    · simpa [hz, h] using ih
    · simpa [hz] using ih

/-- With no live package to tell, a withdrawal waits for no drop of its own. -/
theorem beginFree_frame {s : State} (x : Extent) (keys : List Nat) (h : ∀ q ∈ s.ctx.pkgs, s.dev.deadPkgs.contains q = true) :
    (s.beginFree x keys).warp = s.warp ∧ (s.beginFree x keys).ctx = s.ctx.setExtent { x with freeing := true } ∧
      (s.beginFree x keys).dev.drops = s.dev.drops := by
  have hnone : s.ctx.pkgs.filter (fun q => !s.dev.deadPkgs.contains q) = [] := by
    rw [List.filter_eq_nil_iff]
    intro q hq
    simpa using h q hq
  refine ⟨rfl, rfl, ?_⟩
  show s.dev.drops ++ keys.flatMap (fun k => (s.ctx.pkgs.filter (fun q => !s.dev.deadPkgs.contains q)).map (fun q => (k, q))) = _
  rw [hnone]
  simp

/-- A sealed extent that no package holds up is no more. -/
theorem freeExtent_ends {s : State} {x : Extent} (h : x.freeing = true ∨ ∀ q ∈ s.ctx.pkgs, s.dev.deadPkgs.contains q = true)
    (hdrops : s.dropsOpen ((s.extentPages x).map (pageKey s.ctx.num)) = false) : ∃ t, s.freeExtent x = .ok t () ∧
      t.warp = s.warp ∧ t.ctx.extents = s.ctx.extents.filter (fun y => y.base != x.base) := by
  by_cases hx : x.freeing = true
  · obtain ⟨hwarp, hextents⟩ := endFree_frame s x ((s.extentPages x).map (pageKey s.ctx.num))
    exact ⟨_, by simp [State.freeExtent, hx, hdrops], hwarp, hextents⟩
  · obtain ⟨hwarp₀, hctx, hdev⟩ := beginFree_frame x ((s.extentPages x).map (pageKey s.ctx.num)) (h.resolve_left hx)
    obtain ⟨hwarp, hextents⟩ := endFree_frame (s.beginFree x ((s.extentPages x).map (pageKey s.ctx.num))) x
      ((s.extentPages x).map (pageKey s.ctx.num))
    have hnone : (s.beginFree x ((s.extentPages x).map (pageKey s.ctx.num))).dropsOpen ((s.extentPages x).map (pageKey s.ctx.num)) = false := by
      rwa [State.dropsOpen, hdev]
    refine ⟨_, by simp [State.freeExtent, hx, hnone], hwarp.trans hwarp₀, hextents.trans ?_⟩
    rw [hctx]
    exact filter_setExtent s.ctx (y := { x with freeing := true }) rfl

theorem freeExtent_waits {s : State} {x : Extent} (h : x.freeing = true)
    (hdrops : s.dropsOpen ((s.extentPages x).map (pageKey s.ctx.num)) = true) :
    s.freeExtent x = .wait (s.onWarp (fun w => { w with onPages := true })) 15 := by
  simp [State.freeExtent, h, hdrops]

/-! ### The fronts of SEAL and EXTFREE -/

theorem needs_ok {s : State} {bit : Nat} (h : s.ctx.feat.getLsbD bit = true) : s.needs bit = .ok s () := if_pos h

/-- An address is let through: in the aperture as it is, elsewhere after its checks. -/
def AddressPasses (s : State) (addr : W64) (u : State) : Prop :=
  (inAperture addr = true ∧ u = s) ∨
    (inAperture addr = false ∧ Claims.PassesIssue s [.w] false 1 1 addr ∧ u = Claims.issued s .w addr)

section
variable {s u : State} {a d : SReg} (hready : Claims.Ready s 8) (hpass : AddressPasses s (s.S a) u)

include hpass
theorem sealFront_ok : s.sealFront (s.S a) = .ok u () := by
  unfold State.sealFront
  rcases hpass with ⟨hap, rfl⟩ | ⟨hap, hissue, rfl⟩
  · exact if_pos hap
  · exact (if_neg (by simp [hap])).trans (issueScalar_passes hissue)

/-- Nothing but the count of the checks and the address that they gave differs. -/
theorem passed_eq : ∃ stalls ia, u = { s with warp := { s.warp with stalls := stalls, scalIa := ia } } := by
  rcases hpass with ⟨-, rfl⟩ | ⟨-, -, rfl⟩
  · exact ⟨_, _, rfl⟩
  · exact issued_eq s _ _

include hready

theorem atClearingS_passed : u.atClearingS = .ok u () := by
  obtain ⟨-, -, -, -, hturn⟩ := hready
  refine atClearingS_ok ?_
  obtain ⟨_, _, rfl⟩ := passed_eq hpass
  exact hturn

/-- A SEAL that ends with a status. -/
theorem exec_seal {t : State} {n : Nat} (hseal : u.sealAt (s.S a) u.warp.sealing = (t, some n)) :
    exec (.seal d a) s = .next (((t.onWarp (fun w => { w with sealing := false })).writeS d (BitVec.ofNat 64 n)).retire) := by
  have hfront := sealFront_ok hpass
  have hclear := atClearingS_passed hready hpass
  obtain ⟨hpark, hfeat, hqueue, hreport, -⟩ := hready
  show execSeal d a s = _
  simp only [execSeal, scalarRun_free s _ hpark, needs_ok hfeat, lanesRetired_empty s 0 hqueue, takeReport_none s hreport, bind_ok, hfront,
    hclear, hseal]
  rfl

theorem exec_extfree_none (h : inAperture (s.S a) = true ∨ extentAt s.ctx (s.S a) = none) :
    exec (.extfree d a) s = .next ((u.writeS d 2).retire) := by
  have hfront := sealFront_ok hpass
  have hclear := atClearingS_passed hready hpass
  obtain ⟨_, _, hu⟩ := passed_eq hpass
  have hctx : u.ctx = s.ctx := by rw [hu]
  have hnone : (if inAperture (s.S a) then none else extentAt u.ctx (s.S a)) = none := by
    rw [hctx]
    rcases h with h | h <;> simp [h]
  obtain ⟨hpark, hfeat, -, -, -⟩ := hready
  show execExtfree d a s = _
  simp only [execExtfree, scalarRun_free s _ hpark, needs_ok hfeat, bind_ok, hfront, hclear, hnone]
  rfl

theorem exec_extfree_some {x : Extent} (hout : inAperture (s.S a) = false) (hx : extentAt s.ctx (s.S a) = some x) :
    exec (.extfree d a) s =
      if x.sealed then finish ((u.freeExtent x).bind (fun s _ => s.give d 0)) else .next ((u.writeS d 3).retire) := by
  have hfront := sealFront_ok hpass
  have hclear := atClearingS_passed hready hpass
  obtain ⟨_, _, hu⟩ := passed_eq hpass
  have hctx : u.ctx = s.ctx := by rw [hu]
  obtain ⟨hpark, hfeat, -, -, -⟩ := hready
  show execExtfree d a s = _
  simp only [execExtfree, scalarRun_free s _ hpark, needs_ok hfeat, bind_ok, hfront, hclear, hout, Bool.false_eq_true, if_false, hctx, hx]
  cases x.sealed <;> rfl

end

/-! ### What SEAL finds (10:R210) -/

theorem sealAt_none {s : State} {addr : W64} (waiting : Bool) (h : inAperture addr = true ∨ extentAt s.ctx addr = none) :
    s.sealAt addr waiting = (s, some 2) := by
  rcases h with h | h <;> simp [State.sealAt, h]

section
variable {s : State} {addr : W64} {x : Extent} (hout : inAperture addr = false) (hx : extentAt s.ctx addr = some x)
include hout hx

theorem sealAt_sealed (waiting : Bool) (hsealed : x.sealed = true) : s.sealAt addr waiting = (s, some 1) := by
  simp [State.sealAt, hout, hx, hsealed]
theorem sealAt_agrees (hsealed : x.sealed = false) (hclosed : x.closed = false) (htails : x.committed = x.reserved) (waiting : Bool) :
    s.sealAt addr waiting = (s.sealPages x, some 0) := by
  simp [State.sealAt, hout, hx, hsealed, hclosed, htails]

end

theorem onWarp_sealing_off {s : State} (h : s.warp.sealing = false) : s.onWarp (fun w => { w with sealing := false }) = s := by
  rw [State.onWarp, ← h]

/-- A register written last before the retirement. -/
theorem wrote_retire {s t : State} (h : t.warp.s = s.warp.s) (d : SReg) (x : W64) : Claims.Wrote s ((t.writeS d x).retire) d x := by
  intro r
  rw [S_retire, S_writeS, S_of_warp h]

/-! ### SETTLE (10:R212) -/

section
variable {s t : State} {a : SReg} {bs : List Byte} (hready : Claims.Ready s 9)
  (hpass : Claims.PassesIssue s [.r] false 64 8 (s.S a))
  (hload : State.loadWords (s.S a) 8 (Claims.issued s .r (s.S a)) [] = .ok t bs)
include hready hpass hload

theorem exec_settle : exec (.settle a) s = finish (if !(shapeOf bs).escrow then .trap t (trapOf Code.escrowFault 0 1)
    else if t.escrowBusy (shapeOf bs) then .wait t 15 else .ok ((bufferEscrow t.ctx (shapeOf bs)).foldl State.swapPage t) ()) := by
  obtain ⟨hpark, hfeat, hqueue, hreport, hturn⟩ := hready
  have hissue : s.issueScalar _ _ _ _ _ = .ok (Claims.issued s .r (s.S a)) () := issueScalar_passes hpass
  have hclear := atClearingS_ok (s := Claims.issued s .r (s.S a)) (by rwa [issued_team, issued_clearS])
  show execSettle a s = _
  simp only [execSettle, scalarRun_free s _ hpark, needs_ok hfeat, lanesRetired_empty s 0 hqueue, takeReport_none s hreport, bind_ok, hissue,
    hclear, hload]

end

/-- Settles O18: SEAL and EXTFREE end by what their address names; SETTLE swaps the open escrow pages of its buffer. -/
theorem extentsAndEscrowsEnd : Obligations.ExtentsAndEscrowsEnd := by
  refine ⟨fun d a s u x hready hsealing hpass => ?extents, fun a s t bs hready hpass hload => ?settle⟩
  case extents =>
    have hpass : AddressPasses s (s.S a) u := hpass
    obtain ⟨hs, hspc, hoff, hctx, hdev⟩ : u.warp.s = s.warp.s ∧ u.warp.spc = s.warp.spc ∧ u.warp.sealing = false ∧ u.ctx = s.ctx ∧
        u.dev = s.dev := by
      obtain ⟨_, _, rfl⟩ := passed_eq hpass
      exact ⟨rfl, rfl, hsealing, rfl, rfl⟩
    -- a status without any other effect
    have hstatus (n : W64) : ((u.writeS d n).retire).warp.spc = s.warp.spc + 4 ∧ Claims.ScalarOnly u ((u.writeS d n).retire) ∧
        Claims.Wrote s ((u.writeS d n).retire) d n :=
      ⟨by rw [retire_writeS_spc, hspc], scalarOnly_writeS_retire u d n 1, wrote_retire hs d n⟩
    have hseal {n : Nat} (h : u.sealAt (s.S a) u.warp.sealing = (u, some n)) :
        exec (.seal d a) s = .next ((u.writeS d (BitVec.ofNat 64 n)).retire) := by
      rw [exec_seal hready hpass h, onWarp_sealing_off hoff]
    refine ⟨fun hnone => ⟨?_, ?_⟩, fun hout hx => ⟨fun hsealed => ⟨?_, fun hfree hdrops => ?_, fun hfreeing hdrops => ?_⟩,
      fun hunsealed => ?_, fun hunsealed hclosed htails => ?_⟩⟩
    · exact ⟨_, hseal (sealAt_none _ (by rwa [hctx])), hstatus 2⟩
    · exact ⟨_, exec_extfree_none hready hpass hnone, hstatus 2⟩
    · exact ⟨_, hseal (sealAt_sealed hout (by rwa [hctx]) _ hsealed), hstatus 1⟩
    · obtain ⟨t, hends, hwarp, hextents⟩ := freeExtent_ends (s := u) (x := x) (by rwa [hctx, hdev])
        (by rw [hctx, State.dropsOpen, hdev, State.extentPages, hctx]; exact hdrops)
      refine ⟨((t.writeS d 0).retire), ?_, ?_, wrote_retire ((congrArg Warp.s hwarp).trans hs) d 0, ?_⟩
      · rw [exec_extfree_some hready hpass hout hx, if_pos hsealed, hends]
        rfl
      · rw [retire_writeS_spc, hwarp, hspc]
      · rw [State.retire, State.retireTo_ctx, State.writeS_ctx, hextents, hctx]
    · have hwait := freeExtent_waits (s := u) hfreeing (by rw [hctx, State.dropsOpen, hdev, State.extentPages, hctx]; exact hdrops)
      rw [exec_extfree_some hready hpass hout hx, if_pos hsealed, hwait]
      rfl
    · refine ⟨_, ?_, hstatus 3⟩
      rw [exec_extfree_some hready hpass hout hx, if_neg (by simp [hunsealed])]
    · obtain ⟨hwarp, hctx'⟩ := sealPages_frame u x
      have hend := exec_seal (d := d) hready hpass (sealAt_agrees hout (by rwa [hctx]) hunsealed hclosed htails _)
      rw [onWarp_sealing_off ((congrArg Warp.sealing hwarp).trans hoff)] at hend
      refine ⟨_, hend, ?_, wrote_retire ((congrArg Warp.s hwarp).trans hs) d 0, ?_⟩
      · rw [retire_writeS_spc, hwarp, hspc]
      · rw [State.retire, State.retireTo_ctx, State.writeS_ctx, hctx', hctx]
  case settle =>
    have hexec := exec_settle hready hpass hload
    refine ⟨fun hflag => ?_, fun hflag hbusy => ?_, fun hflag hbusy => ?_⟩
    · rw [hexec, hflag]
      rfl
    · rw [hexec, hflag, hbusy]
      rfl
    · rw [hexec, hflag, hbusy]
      rfl

end Sys2Proof.Machine
end

section
/-!
PROOFS. Lane accesses: the operands of a word that executes for the first time, its addresses and data, and what its checks at issue
leave (10:R191, R192; 01:R28).
-/

namespace Sys2Proof.Machine

open Sys2Proof

/-! ### Operands -/

theorem laneArgs_new {s : State} (u : LaneUse) (h : s.warp.headEntry = none) : s.laneArgs u = s.readArgs u := by
  simp [State.laneArgs, h]

theorem logFull_of_room {s : State} (u : LaneUse) (h : s.logUsed < 16) : s.logFull u = false := by
  have hroom : ¬ Config.operandLog ≤ s.logUsed := Nat.not_le.mpr h
  simp [State.logFull, hroom]

section
variable {s t : State} {u : LaneUse} {body : LaneArgs → State → Res Unit} (hpark : s.warp.parkL = none) (hgo : u.gate s = .go)
  (hhead : s.warp.headEntry = none) (hroom : s.logUsed < 16)
include hpark hgo hhead hroom

/-- A word that has no entry yet runs on the operands that the registers hold. -/
theorem laneAccess_new_ok (hbody : body (s.readArgs u) s = .ok t ()) : s.laneAccess u body = t.retireLane :=
  laneAccess_ok s t u body hpark hgo (logFull_of_room u hroom) (by rwa [laneArgs_new u hhead])
theorem laneAccess_new_wait {n : Nat} (hbody : body (s.readArgs u) s = .wait t n) :
    s.laneAccess u body = (t.logWord (s.readArgs u)).waitLane n := by
  rw [← laneArgs_new u hhead] at hbody ⊢
  exact laneAccess_wait s t u body n hpark hgo (logFull_of_room u hroom) hbody
theorem laneAccess_new_trap {e : MemTrap} (hbody : body (s.readArgs u) s = .trap t e) : s.laneAccess u body = t.laneTrap false e :=
  laneAccess_trap s t u body e hpark hgo (logFull_of_room u hroom) (by rwa [laneArgs_new u hhead])

end

/-! ### Data -/

/-- Words as many as a size has registers give as many bytes as the size has: byte j stands in word j / 4. -/
theorem take_flatMap_words {n : Nat} {ws : List W32} (h : n ≤ 4 * ws.length) :
    (ws.flatMap (fun w => toBytes 4 w)).take n = (List.range n).map (Claims.dataByte ws) := by
  have hall : ws.flatMap (fun w => toBytes 4 w) = (List.range (4 * ws.length)).map (Claims.dataByte ws) := by
    clear h
    induction ws with
    | nil => rfl
    | cons w rest ih =>
      have hlow : toBytes 4 w = (List.range 4).map (Claims.dataByte (w :: rest)) :=
        (toBytes_setWidth 4 w).trans (List.map_congr_left fun j hj => by
          have hj := List.mem_range.mp hj
          simp only [Claims.dataByte, Nat.div_eq_of_lt hj, Nat.mod_eq_of_lt hj, List.getD_cons_zero])
      have hhigh (j : Nat) : Claims.dataByte (w :: rest) (4 + j) = Claims.dataByte rest j := by
        have hdiv : (4 + j) / 4 = j / 4 + 1 := by omega
        have hmod : (4 + j) % 4 = j % 4 := by omega
        simp only [Claims.dataByte, hdiv, hmod, List.getD_cons_succ]
      rw [List.flatMap_cons, ih, List.length_cons, Nat.mul_succ, Nat.add_comm, List.range_add, List.map_append, ← hlow, List.map_map]
      exact congrArg _ (List.map_congr_left fun j _ => (hhigh j).symm)
  rw [hall, ← List.map_take, List.take_range, Nat.min_eq_left h]

/-- A data operand has the registers of its group. -/
theorem length_readGroup {s t : State} {any : Bool} {v : Value} {n : Nat} {y : Nat → List W32} (hwf : v.wfGroup n = true)
    (h : s.readGroup any v n = (t, y)) (l : Nat) : (y l).length = n := by
  cases v with
  | reg r x =>
    cases h
    simp
  | uni r | con k | chan r x =>
    obtain rfl : n = 1 := by simp [Value.wfGroup] at hwf; omega
    cases h
    rfl

theorem bytes_le_words (sz : MemSize) : sz.bytes ≤ 4 * sz.regs := by cases sz <;> decide

/-! ### What the checks at issue leave -/

/-- A step that goes on has gone on from one that did. -/
theorem bind_eq_ok {α β : Type} {r : Res α} {f : State → α → Res β} {t : State} {x : β} (h : r.bind f = .ok t x) :
    ∃ u y, r = .ok u y ∧ f u y = .ok t x := by
  cases r with
  | ok u y => exact ⟨u, y, rfl, h⟩
  | wait u n => cases h
  | trap u e => cases h

/-- Nothing differs but the entries of the reorder buffer. -/
def RobOnly (s t : State) : Prop := ∃ rob, t = { s with warp := { s.warp with rob := rob } }

theorem robOnly_onHead (s : State) (f : RobEntry → RobEntry) : RobOnly s (s.onHead f) := ⟨_, rfl⟩

end Sys2Proof.Machine
end

section
/-!
PROOFS. APPEND and TAILQ (10:R205, R206).
-/

namespace Sys2Proof.Machine

open Sys2Proof

/-! ### The front that both share -/

theorem robOnly_issueExtent {s t : State} {p : Perm} {m : Mask} {n : Nat} {a : W64} (h : s.issueExtent p m n a = .ok t ()) :
    RobOnly s t := by
  unfold State.issueExtent at h
  dsimp only at h
  split at h
  · cases h; exact ⟨_, rfl⟩
  · split at h
    · cases h
    · split at h <;> cases h
      exact robOnly_onHead s _

theorem robOnly_extentFront {s t : State} {m : Mask} {write : Bool} {n : Nat} {a : W64} {x : Extent}
    (h : s.extentFront m write n a = .ok t x) : RobOnly s t := by
  unfold State.extentFront at h
  extract_lets p at h
  clear_value p
  obtain ⟨u, _, hissue, h⟩ := bind_eq_ok h
  split at h
  · cases h
  · cases h
  · dsimp only at h
    split at h <;> cases h
    exact robOnly_issueExtent hissue

theorem RobOnly.atClearingL_ok {s t : State} (h : RobOnly s t) (hturn : s.team.det = false ∨ s.warp.clearL = .granted) :
    t.atClearingL = .ok t () := by
  obtain ⟨_, rfl⟩ := h
  exact if_pos (by rcases hturn with h | h <;> simp [h])

/-! ### The span of an APPEND -/

/-- The lanes below a lane, counted among the lanes of the mask. -/
theorem length_filter_lanes (m : Mask) {l : Nat} (hl : l ≤ 32) :
    (m.lanes.filter (fun k => decide (k < l))).length = Claims.rankOf m l := by
  have hrange : (List.range 32).filter (fun k => decide (k < l)) = List.range l := by
    obtain ⟨k, hk⟩ := Nat.exists_eq_add_of_le hl
    have hlow : (List.range l).filter (fun k => decide (k < l)) = List.range l :=
      List.filter_eq_self.mpr fun j hj => decide_eq_true (List.mem_range.mp hj)
    have hhigh : ((List.range k).map (l + ·)).filter (fun k => decide (k < l)) = [] := by
      rw [List.filter_eq_nil_iff]
      intro j hj
      obtain ⟨i, -, rfl⟩ := List.mem_map.mp hj
      simp
    rw [hk, List.range_add, List.filter_append, hlow, hhigh, List.append_nil]
  rw [Mask.lanes, List.filter_comm, hrange]
  rfl

theorem length_lanes (m : Mask) : m.lanes.length = Claims.rankOf m 32 := rfl

theorem writeV_congr (s : State) (d : VReg) {m : Mask} {x y : LaneVec} (h : ∀ l < 32, m.has l = true → x l = y l) :
    s.writeV d.toNat m x = s.writeV d.toNat m y := writeDest_congr s (.reg d) h

/-- The bytes of an APPEND: those of its lanes, in lane order. -/
theorem appendBytes {sz : MemSize} {m : Mask} {a : W64} {y : Nat → List W32} (h : ∀ l, (y l).length = sz.regs) :
    (storeData sz.bytes (m.lanes.map (fun l => (l, a))) y).flatMap (fun z => z.2.2) =
      (m.lanes.map (fun l => (List.range sz.bytes).map (Claims.dataByte (y l)))).flatten := by
  rw [storeData, List.map_map, List.flatMap_map, List.flatMap_def]
  refine congrArg List.flatten (List.map_congr_left fun l _ => ?_)
  exact take_flatMap_words (by rw [h]; exact bytes_le_words sz)

theorem length_appendBytes (n : Nat) (m : Mask) (f : Nat → Nat → Byte) :
    ((m.lanes.map (fun l => (List.range n).map (f l))).flatten).length = n * Claims.rankOf m 32 := by
  rw [← length_lanes]
  simp [List.length_flatten, mul_comm, Function.comp_def]

theorem appendSpan_full {s : State} {cn : Nat} {c : Context} {h : HomeOf} {x : Extent} {n : Nat} {bs : List Byte}
    (hc : s.ctxOf cn = some c) (hfull : 65536 * x.pages < (x.reserved + n - 1) / n * n + bs.length) :
    s.appendSpan cn h x n bs = (s, .fail) := by
  simp only [State.appendSpan, hc, Extent.size]
  exact if_pos hfull

section
variable {g : Guard} {sz : MemSize} {q : Pred} {d : VReg} {base : SReg} {disp : W32} {c : Value} {s t v : State} {m : Mask} {a : W64}
  {y : Nat → List W32} {x : Extent} (hm : m = s.active g) (ha : a = BitVec.ofInt 64 ((s.src64 base).toInt + disp.toInt))
  (hread : s.readGroup (m != 0) c sz.regs = (t, y)) (hpark : s.warp.parkL = none) (hhead : s.warp.headEntry = none)
  (hroom : s.logUsed < 16)
include hm hread

theorem readArgs_append :
    s.readArgs (Instr.use (.append g sz q d base disp c)) = ⟨m, s.src64 base, fun _ => 0, y, t⟩ := by
  subst hm
  show (⟨s.active g, s.src64 base, fun _ => 0, (s.readGroup (s.active g != 0) c sz.regs).2,
    (s.readGroup (s.active g != 0) c sz.regs).1⟩ : LaneArgs) = _
  rw [hread]

include hpark hhead hroom

theorem exec_append_none (hgo : (Instr.use (.append g sz q d base disp c)).gate s = .go) (hnone : m = 0) :
    exec (.append g sz q d base disp c) s = .next s.retireLane := by
  refine congrArg (fun t : State => (.next t : Result)) (laneAccess_new_ok hpark hgo hhead hroom ?_)
  rw [readArgs_append hm hread]
  exact if_pos hnone

variable (hgo : (Instr.use (.append g sz q d base disp c)).gate s = .go) (hsome : m ≠ 0)
  (hfront : s.extentFront m true sz.bytes (s.src64 base + sext64 disp) = .ok v x) (hopen : x.closed = false)
  (hturn : s.team.det = false ∨ s.warp.clearL = .granted)
include hgo hsome hfront hopen hturn

theorem exec_append_full {c' : Context} (hctx : s.ctxOf s.ctx.num = some c') (hlen : ∀ l, (y l).length = sz.regs)
    (hfull : 65536 * x.pages < (x.reserved + sz.bytes - 1) / sz.bytes * sz.bytes + sz.bytes * Claims.rankOf m 32) :
    exec (.append g sz q d base disp c) s = .next (((v.takePops t).writeP q m (fun _ => false)).retireLane) := by
  have hclear := (robOnly_extentFront hfront).atClearingL_ok hturn
  have hspan : v.appendSpan v.ctx.num (v.home (iaOf v.ctx .w (BitVec.ofNat 64 x.base))) x sz.bytes
      ((storeData sz.bytes (m.lanes.map (fun l => (l, s.src64 base + sext64 disp))) y).flatMap (fun z => z.2.2)) = (v, .fail) := by
    have hctx' : v.ctxOf v.ctx.num = some c' := by
      obtain ⟨_, rfl⟩ := robOnly_extentFront hfront
      exact hctx
    refine appendSpan_full hctx' ?_
    rwa [appendBytes hlen, length_appendBytes]
  refine congrArg (fun t : State => (.next t : Result)) (laneAccess_new_ok hpark hgo hhead hroom ?_)
  rw [readArgs_append hm hread]
  simp only [if_neg hsome, LaneArgs.extentAddr, hfront, bind_ok, hopen, Bool.false_eq_true, if_false, hclear, hspan]

theorem exec_append_spans {u : State} {start : Nat} (hlen : ∀ l, (y l).length = sz.regs)
    (hspan : v.appendSpan v.ctx.num (v.home (iaOf v.ctx .w (BitVec.ofNat 64 x.base))) x sz.bytes
      ((m.lanes.map (fun l => (List.range sz.bytes).map (Claims.dataByte (y l)))).flatten) = (u, .at start false)) :
    exec (.append g sz q d base disp c) s = .next ((((u.takePops t).writeV d.toNat m (fun l =>
      Claims.n32 (start + sz.bytes * Claims.rankOf m l))).writeP q m (fun _ => true)).retireLane) := by
  have hclear := (robOnly_extentFront hfront).atClearingL_ok hturn
  rw [← appendBytes (a := s.src64 base + sext64 disp) hlen] at hspan
  refine congrArg (fun t : State => (.next t : Result)) (laneAccess_new_ok hpark hgo hhead hroom ?_)
  rw [readArgs_append hm hread]
  simp only [if_neg hsome, LaneArgs.extentAddr, hfront, bind_ok, hopen, Bool.false_eq_true, if_false, hclear, hspan]
  refine congrArg (fun z : State => Res.ok (z.writeP q m (fun _ => true)) ()) (writeV_congr _ d fun l hl _ => ?_)
  rw [length_filter_lanes m hl.le]
  rfl

end

section
variable {g : Guard} {d : VReg} {base : SReg} {disp : W32} {s v : State} {m : Mask} {x : Extent} (hm : m = s.active g)
  (hpark : s.warp.parkL = none) (hhead : s.warp.headEntry = none) (hroom : s.logUsed < 16)
  (hgo : (Instr.use (.tailq g d base disp)).gate s = .go)
include hm

theorem readArgs_tailq : s.readArgs (Instr.use (.tailq g d base disp)) = ⟨m, s.src64 base, fun _ => 0, fun _ => [], s⟩ := by
  subst hm
  rfl

include hpark hhead hroom hgo

theorem exec_tailq_none (hnone : m = 0) : exec (.tailq g d base disp) s = .next s.retireLane := by
  refine congrArg (fun t : State => (.next t : Result)) (laneAccess_new_ok hpark hgo hhead hroom ?_)
  rw [readArgs_tailq hm]
  exact if_pos hnone

variable (hsome : m ≠ 0) (hfront : s.extentFront m false 4 (s.src64 base + sext64 disp) = .ok v x)
include hsome hfront

theorem exec_tailq_tail (hsound : x.bad = false) :
    exec (.tailq g d base disp) s = .next ((v.writeV d.toNat m (fun _ => x.tail)).retireLane) := by
  refine congrArg (fun t : State => (.next t : Result)) (laneAccess_new_ok hpark hgo hhead hroom ?_)
  rw [readArgs_tailq hm]
  simp only [LaneArgs.extentAddr, if_neg hsome, hfront, bind_ok, hsound, Bool.false_eq_true, if_false]

theorem exec_tailq_bad (hbad : x.bad = true) : exec (.tailq g d base disp) s =
    .next (v.laneTrap false (extentTrap Code.eccFatal m (s.src64 base + sext64 disp))) := by
  refine congrArg (fun t : State => (.next t : Result)) (laneAccess_new_trap hpark hgo hhead hroom ?_)
  rw [readArgs_tailq hm]
  simp only [LaneArgs.extentAddr, if_neg hsome, hfront, bind_ok, hbad, if_true]

end

/-- Settles O45: an APPEND is one span at the tail home for its active lanes, a TAILQ one read of the extent's entry. -/
theorem appendsReserveAndTailsAreRead : Obligations.AppendsReserveAndTailsAreRead := by
  intro g sz q d base disp c s t v m a y x n hm ha hread hpark hhead hroom hn
  subst hn
  rw [← add_signExtend] at ha
  subst ha
  refine ⟨fun hgo hfront hsome hopen hturn ⟨c', hctx⟩ hwf => ?_, fun hgo hfront hsome => ⟨fun hsound => ?_, fun hbad => ?_⟩,
    fun hnone hgo => exec_append_none hm hread hpark hhead hroom hgo hnone, fun hnone hgo => exec_tailq_none hm hpark hhead hroom hgo hnone⟩
  · have hlen : ∀ l, (y l).length = sz.regs := by
      refine length_readGroup ?_ hread
      have hwf : (g.wf && decide (d < 192#8) && c.wfGroup sz.regs && (sz == .w || sz == .d || sz == .q)) = true := hwf
      simp only [Bool.and_eq_true] at hwf
      obtain ⟨⟨-, hgroup⟩, -⟩ := hwf
      exact hgroup
    exact ⟨exec_append_full hm hread hpark hhead hroom hgo hsome hfront hopen hturn hctx hlen,
      fun u hspan => exec_append_spans hm hread hpark hhead hroom hgo hsome hfront hopen hturn hlen hspan⟩
  · exact exec_tailq_tail hm hpark hhead hroom hgo hsome hfront hsound
  · exact exec_tailq_bad hm hpark hhead hroom hgo hsome hfront hbad

end Sys2Proof.Machine
end

section
/-!
PROOFS. What the lane memory instructions share: their operands and addresses, their frames, and how they wait (10:R191, R192).
-/

namespace Sys2Proof.Machine

open Sys2Proof

/-! ### Operands and addresses -/

/-- The operands of an access without data, and with data. -/
theorem readArgs_address {s : State} {u : LaneUse} {m : Mask} {base : SReg} {off : Value} (hlog : u.log = some (base, some off, none))
    (hm : m = s.active u.g) :
    s.readArgs u = ⟨m, s.src64 base, (s.readSrc (m != 0) off).2, fun _ => [], (s.readSrc (m != 0) off).1⟩ := by
  subst hm
  simp only [State.readArgs, hlog]
theorem readArgs_data {s t : State} {u : LaneUse} {m : Mask} {base : SReg} {off c : Value} {n : Nat} {y : Nat → List W32}
    (hlog : u.log = some (base, some off, some (c, n))) (hm : m = s.active u.g)
    (hread : (s.readSrc (m != 0) off).1.readGroup (m != 0) c n = (t, y)) :
    s.readArgs u = ⟨m, s.src64 base, (s.readSrc (m != 0) off).2, y, t⟩ := by
  subst hm
  simp only [State.readArgs, hlog, hread]

theorem laneAddr_eq (s : State) (base : SReg) (x : LaneVec) (scale : Nat) (disp : W32) (l : Nat) :
    s.src64 base + zext64 (x l) * BitVec.ofNat 64 scale + sext64 disp = Claims.laneAddr s base x scale disp l := by
  have hoff : zext64 (x l) * BitVec.ofNat 64 scale = BitVec.ofInt 64 ((x l).toNat * scale : Int) := by
    refine BitVec.eq_of_toNat_eq ?_
    have hx := (x l).isLt
    rw [show ((x l).toNat * scale : Int) = (((x l).toNat * scale : Nat) : Int) by push_cast; rfl, BitVec.ofInt_natCast]
    simp [zext64, BitVec.toNat_mul]
  have hdisp : sext64 disp = BitVec.ofInt 64 disp.toInt := sext64_eq_ofInt disp
  rw [hoff, hdisp, Claims.laneAddr, BitVec.ofInt_add, BitVec.ofInt_add, BitVec.ofInt_toInt]

theorem addrs_eq {s : State} {m : Mask} {base : SReg} {x : LaneVec} {y : Nat → List W32} {t : State} {A : Nat → W64} (scale : Nat)
    (disp : W32) (hA : ∀ l, A l = Claims.laneAddr s base x scale disp l) :
    (⟨m, s.src64 base, x, y, t⟩ : LaneArgs).addrs scale disp = m.lanes.map (fun l => (l, A l)) :=
  List.map_congr_left fun l _ => by rw [hA, laneAddr_eq]

/-! ### The checks at issue -/

/-- Lanes that the checks let through: inside the scratchpad, or at an address with every permission asked for. -/
theorem addrTrap_none {s : State} {perms : List Perm} {align n : Nat} {lanes : List LaneAddr}
    (h : ∀ x ∈ lanes, x.2.toNat % align = 0 ∧ if inAperture x.2 then pastScratch s.scrsize n x.2 = false
      else ∃ ia, checkAll s.ctx x.2 perms = .ok ia) :
    addrTrap s perms true true align n lanes = none ∧ growing s.ctx perms lanes = [] := by
  have hmisaligned : lanes.filter (fun x => x.2.toNat % align != 0) = [] := by
    rw [List.filter_eq_nil_iff]
    intro x hx
    simp [h x hx]
  have hbound : lanes.filter (fun x => true && inAperture x.2 && pastScratch s.scrsize n x.2) = [] := by
    rw [List.filter_eq_nil_iff]
    intro x hx
    obtain ⟨-, h⟩ := h x hx
    cases hap : inAperture x.2
    · simp
    · rw [hap, if_pos rfl] at h
      simp [h]
  have hrange : lanes.filter (fun x => (rangeDetail s.ctx perms true x.2).isSome) = [] := by
    rw [List.filter_eq_nil_iff]
    intro x hx
    obtain ⟨-, h⟩ := h x hx
    cases hap : inAperture x.2
    · rw [hap, if_neg Bool.false_ne_true] at h
      obtain ⟨ia, h⟩ := h
      simp [rangeDetail, hap, h]
    · simp [rangeDetail, hap]
  have hgrow : growing s.ctx perms lanes = [] := by
    rw [growing, List.filter_eq_nil_iff]
    intro x hx
    obtain ⟨-, h⟩ := h x hx
    cases hap : inAperture x.2
    · rw [hap, if_neg Bool.false_ne_true] at h
      obtain ⟨ia, h⟩ := h
      simp [h]
    · simp
  refine ⟨?_, hgrow⟩
  simp only [addrTrap, hmisaligned, hbound, hrange, lanesTrap]

/-! ### Frames -/

theorem retired_retireLane {s u : State} (hqueue : u.warp.queue = s.warp.queue) (hlpc : u.warp.lpc = s.warp.lpc)
    (hretired : u.warp.retired = s.warp.retired) : Claims.Retired s u.retireLane := by
  rw [Claims.Retired, State.retireLane_warp]
  unfold Warp.retireWord
  rw [hqueue]
  cases s.warp.queue with
  | nil => exact ⟨hqueue, hlpc, hretired⟩
  | cons b rest => exact ⟨rfl, rfl, congrArg (· + 1) hretired⟩

/-- A retirement of the word leaves the registers, the mask and FPSTAT. -/
theorem retireWord_registers (w : Warp) : w.retireWord.v = w.v ∧ w.retireWord.s = w.s ∧ w.retireWord.preds = w.preds ∧
    w.retireWord.em = w.em ∧ w.retireWord.fpstat = w.fpstat ∧ w.retireWord.chans = w.chans ∧ w.retireWord.empty = w.empty := by
  unfold Warp.retireWord
  cases w.queue <;> exact ⟨rfl, rfl, rfl, rfl, rfl, rfl, rfl⟩

theorem noRegisters_of_warp {s u : State} (hv : u.warp.v = s.warp.v) (hs : u.warp.s = s.warp.s) (hpreds : u.warp.preds = s.warp.preds)
    (hem : u.warp.em = s.warp.em) (hfp : u.warp.fpstat = s.warp.fpstat) (hdev : u.dev = s.dev) : Claims.NoRegisters s u :=
  ⟨fun r l _ => by rw [State.vreg, hv, State.vreg], hs, hpreds, hem, hfp, hdev⟩

theorem NoRegisters.retireLane {s u : State} (h : Claims.NoRegisters s u) : Claims.NoRegisters s u.retireLane := by
  obtain ⟨hv, hs, hpreds, hem, hfp, hdev⟩ := h
  obtain ⟨-, hs', hpreds', hem', hfp', -, -⟩ := retireWord_registers u.warp
  exact ⟨fun r l hl => (vreg_retireLane u r l).trans (hv r l hl), hs'.trans hs, hpreds'.trans hpreds, hem'.trans hem, hfp'.trans hfp, hdev⟩


end Sys2Proof.Machine
end

section
/-!
PROOFS. DISC and PREF (10:R202, R203, R214).
-/

namespace Sys2Proof.Machine

open Sys2Proof

theorem nodup_eraseDups {α : Type} [BEq α] [LawfulBEq α] (xs : List α) : xs.eraseDups.Nodup := by
  induction hn : xs.length using Nat.strong_induction_on generalizing xs with
  | _ n ih =>
    cases xs with
    | nil => exact List.nodup_nil
    | cons x rest =>
      rw [List.eraseDups_cons, List.nodup_cons]
      refine ⟨by simp [List.mem_eraseDups], ih _ ?_ _ rfl⟩
      rw [← hn]
      exact Nat.lt_succ_of_le (List.length_filter_le _ _)

/-! ### What DISC drops (10:R202) -/

/-- Only the cores and the messages differ. -/
def CoresAndEvents (s t : State) : Prop := ∃ core cores events, t = { s with core := core, cores := cores, events := events }

theorem CoresAndEvents.refl (s : State) : CoresAndEvents s s := ⟨_, _, _, rfl⟩
theorem CoresAndEvents.trans {s t u : State} (h : CoresAndEvents s t) (h' : CoresAndEvents t u) : CoresAndEvents s u := by
  obtain ⟨_, _, _, rfl⟩ := h
  obtain ⟨_, _, _, rfl⟩ := h'
  exact ⟨_, _, _, rfl⟩
theorem CoresOnly.coresAndEvents {s t : State} (h : CoresOnly s t) : CoresAndEvents s t := by
  obtain ⟨_, _, rfl⟩ := h
  exact ⟨_, _, _, rfl⟩

theorem CoresAndEvents.discardable {s t : State} (h : CoresAndEvents s t) (l : L1Line) :
    Claims.discardable t l = Claims.discardable s l := by
  obtain ⟨_, _, _, rfl⟩ := h
  rfl

theorem find_drop_eq (c : Core) (line k : Nat) : (c.drop line).find k = if k = line then none else c.find k := by
  split
  · next h => rw [h, find_drop]
  · next h =>
    unfold Core.find Core.drop
    rw [List.find?_filter]
    refine congrArg (List.find? · c.l1) (funext fun l => ?_)
    by_cases hl : l.line = k <;> simp [hl, h]

/-- The machine without a dirty line: an owned one is given up with the data of its home. -/
def State.discarded (s : State) (line : Nat) (l : L1Line) : State :=
  let t := s.setCore ((s.coreOf s.team.core).drop line)
  if l.st = .pd then t
  else match (s.ctxOf (untag line).1).bind (fun c => s.fetchLine c (untag line).2) with
    | some (x, _) => t.post [.evx (s.sliceFor s.team.core line) line (.core s.team.core) x]
    | none => s

/-- DISC of a line that the core holds drops it if it is dirty as R202 says. -/
theorem discLine_held {s : State} {line : Nat} {l : L1Line} (hl : (s.coreOf s.team.core).find line = some l) :
    s.discLine s.team.core line = if Claims.discardable s l then s.discarded line l else s := by
  obtain rfl := line_of_find hl
  unfold State.discLine Claims.discardable State.discarded
  by_cases hpd : l.st = .pd
  · simp [hl, hpd]
  · cases hc : s.ctxOf (untag l.line).1 with
    | none => simp [hl, hc, hpd]
    | some c =>
      cases hp : walk s.dev c (untag l.line).2 with
      | absent => simp [hl, hc, hpd, hp]
      | malformed => simp [hl, hc, hpd, hp]
      | page p =>
        cases hx : s.fetchLine c (untag l.line).2 with
        | none => simp [hl, hc, hpd, hp, hx]
        | some x =>
          simp [hl, hc, hpd, hp, hx]
          grind
theorem discLine_unheld {s : State} {line : Nat} (hl : (s.coreOf s.team.core).find line = none) : s.discLine s.team.core line = s := by
  simp [State.discLine, hl]

theorem discarded_dirty {s : State} {line : Nat} {l : L1Line} (hl : (s.coreOf s.team.core).find line = some l)
    (hdirty : Claims.discardable s l = true) : ∃ events, s.discarded line l =
      { s with core := (s.setCore ((s.coreOf s.team.core).drop line)).core
               cores := (s.setCore ((s.coreOf s.team.core).drop line)).cores, events := events } := by
  obtain rfl := line_of_find hl
  obtain ⟨core, cores, hcores⟩ := coresOnly_setCore s ((s.coreOf s.team.core).drop l.line)
  unfold State.discarded
  rw [hcores]
  by_cases hpd : l.st = .pd
  · exact ⟨_, if_pos hpd⟩
  · cases hc : s.ctxOf (untag l.line).1 with
    | none => simp [Claims.discardable, hpd, hc] at hdirty
    | some c =>
      cases hx : s.fetchLine c (untag l.line).2 with
      | none => simp [Claims.discardable, hpd, hc, hx] at hdirty
      | some x => exact ⟨_, (if_neg hpd).trans (by simp only [Option.bind_some, hx]; rfl)⟩

/-- DISC of one line: the line goes if it is dirty as R202 says, and every other line stays. -/
theorem discLine_drops (s : State) (line : Nat) : CoresAndEvents s (s.discLine s.team.core line) ∧ ∀ k,
    ((s.discLine s.team.core line).coreOf s.team.core).find k =
      ((s.coreOf s.team.core).find k).filter (fun l => !(Claims.discardable s l && k == line)) := by
  have hsame (h : ∀ l, (s.coreOf s.team.core).find line = some l → Claims.discardable s l = false) (k : Nat) :
      (s.coreOf s.team.core).find k =
        ((s.coreOf s.team.core).find k).filter (fun l => !(Claims.discardable s l && k == line)) := by
    cases hk : (s.coreOf s.team.core).find k with
    | none => rfl
    | some l =>
      by_cases hkl : k = line
      · simp [Option.filter_some, h l (hkl ▸ hk)]
      · simp [Option.filter_some, hkl]
  cases hl : (s.coreOf s.team.core).find line with
  | none =>
    rw [discLine_unheld hl]
    exact ⟨.refl s, hsame (by simp [hl])⟩
  | some l =>
    rw [discLine_held hl]
    split
    · next hdirty =>
      obtain ⟨events, h⟩ := discarded_dirty hl hdirty
      have hcore : (s.discarded line l).coreOf s.team.core = (s.coreOf s.team.core).drop line := by
        rw [h]
        exact (coreOf_congr (s := s.setCore ((s.coreOf s.team.core).drop line)) rfl rfl _).trans (coreOf_setCore (coreOf_id s s.team.core))
      have hfind (k : Nat) : ((s.discarded line l).coreOf s.team.core).find k = if k = line then none else (s.coreOf s.team.core).find k := by
        rw [hcore, find_drop_eq]
      refine ⟨h ▸ ⟨_, _, _, rfl⟩, fun k => (hfind k).trans ?_⟩
      by_cases hk : k = line
      · subst hk
        simp [Option.filter_some, hl, hdirty]
      · cases (s.coreOf s.team.core).find k <;> simp [Option.filter_some, hk]
    · next hclean => exact ⟨.refl s, hsame (by simpa [hl] using hclean)⟩

/-- DISC of some lines. -/
theorem discLines_drop (lines : List Nat) (s : State) :
    CoresAndEvents s (lines.foldl (fun s l => s.discLine s.team.core l) s) ∧ ∀ k,
      ((lines.foldl (fun s l => s.discLine s.team.core l) s).coreOf s.team.core).find k =
        ((s.coreOf s.team.core).find k).filter (fun l => !(Claims.discardable s l && lines.contains k)) := by
  induction lines generalizing s with
  | nil =>
    refine ⟨.refl s, fun k => ?_⟩
    rw [List.foldl_nil]
    cases (s.coreOf s.team.core).find k <;> simp [Option.filter_some]
  | cons line rest ih =>
    obtain ⟨hfirst, hdrop⟩ := discLine_drops s line
    have hteam : (s.discLine s.team.core line).team = s.team := by
      obtain ⟨_, _, _, h⟩ := hfirst
      rw [h]
    obtain ⟨hframe, hfind⟩ := ih (s.discLine s.team.core line)
    refine ⟨hfirst.trans hframe, fun k => ?_⟩
    rw [hteam] at hfind
    rw [List.foldl_cons, hfind, hdrop, Option.filter_filter]
    refine congrArg (Option.filter · _) (funext fun l => ?_)
    rw [hfirst.discardable, List.contains_cons]
    cases Claims.discardable s l <;> simp

/-! ### The lines of DISC -/

/-- The lines of some lanes outside the scratchpad. -/
def linesOf (s : State) (lanes : List LaneAddr) : List Nat :=
  ((lanes.filter (fun y => !inAperture y.2)).map (fun y => tagged s.ctx.num (iaOf s.ctx .w y.2))).eraseDups

theorem contains_linesOf (s : State) (lanes : List LaneAddr) (k : Nat) :
    (linesOf s lanes).contains k = lanes.any (fun x => !inAperture x.2 && k == tagged s.ctx.num (iaOf s.ctx .w x.2)) := by
  rw [Bool.eq_iff_iff, List.contains_iff_mem, linesOf, List.mem_eraseDups, List.any_eq_true]
  simp only [List.mem_map, List.mem_filter, Bool.and_eq_true, beq_iff_eq]
  exact ⟨fun ⟨x, ⟨hx, hap⟩, h⟩ => ⟨x, hx, hap, h.symm⟩, fun ⟨x, hx, hap, h⟩ => ⟨x, ⟨hx, hap⟩, h.symm⟩⟩

section
variable {g : Guard} {sc : Scale} {home : Bool} {base : SReg} {off : Value} {disp : W32} {s : State} {m : Mask} {A : Nat → W64}
  (hm : m = s.active g) (hpark : s.warp.parkL = none) (hhead : s.warp.headEntry = none) (hroom : s.logUsed < 16)
  (hA : ∀ l, A l = Claims.laneAddr s base (s.readSrc (m != 0) off).2 sc.mul disp l)
include hm hpark hhead hroom hA

theorem exec_disc (hgo : (Instr.use (.disc g sc base off disp)).gate s = .go)
    (hlanes : ∀ x ∈ m.lanes.map (fun l => (l, A l)), if inAperture x.2 then pastScratch s.scrsize 1 x.2 = false
      else ∃ ia, check s.ctx x.2 .w = .ok ia)
    (hfree : s.warp.wbuf.any (fun e => (linesOf s (m.lanes.map (fun l => (l, A l)))).contains e.line) = false) :
    exec (.disc g sc base off disp) s = .next (((if s.team.det then s
      else (linesOf s (m.lanes.map (fun l => (l, A l)))).foldl (fun s l => s.discLine s.team.core l) s).takePops
        (s.readSrc (m != 0) off).1).retireLane) := by
  obtain ⟨htrap, hgrow⟩ := addrTrap_none (perms := [.w]) (align := 1) fun x hx => ⟨Nat.mod_one _, hlanes x hx⟩
  refine congrArg (fun t : State => (.next t : Result)) (laneAccess_new_ok hpark hgo hhead hroom ?_)
  rw [readArgs_address (u := Instr.use (.disc g sc base off disp)) rfl hm]
  simp only [addrs_eq sc.mul disp hA, htrap, hgrow]
  refine (if_neg (by simpa [linesOf] using hfree)).trans ?_
  cases s.team.det <;> rfl

theorem exec_pref (hgo : (Instr.use (.pref g sc home base off disp)).gate s = .go) :
    exec (.pref g sc home base off disp) s = .next (((s.takePops (s.readSrc (m != 0) off).1).post
      ((((((m.lanes.map (fun l => (l, A l))).filter (fun y => !inAperture y.2)).filterMap (fun y => coveredIa s.ctx y.2)).map
        (fun ia => ia / 128)).eraseDups).map (fun n =>
          Instr.loadRequest ⟨s.warp.key, n, if home then .prefHome else .prefL1, s.warp.begins⟩))).retireLane) := by
  refine congrArg (fun t : State => (.next t : Result)) (laneAccess_new_ok hpark hgo hhead hroom ?_)
  rw [readArgs_address (u := Instr.use (.pref g sc home base off disp)) rfl hm]
  simp only [addrs_eq sc.mul disp hA]

end

/-- What an access leaves that has changed the cores and the messages alone. -/
theorem CoresAndEvents.retired {s u : State} (h : CoresAndEvents s u) (t : State) :
    Claims.NoRegisters s (u.takePops t).retireLane ∧ Claims.Retired s (u.takePops t).retireLane := by
  obtain ⟨_, _, _, rfl⟩ := h
  exact ⟨NoRegisters.retireLane (noRegisters_of_warp rfl rfl rfl rfl rfl rfl), retired_retireLane rfl rfl rfl⟩

/-- Settles O43: DISC is one drop after another of the lines of its lanes, PREF one request for each line. -/
theorem discardsAndPrefetches : Obligations.DiscardsAndPrefetches := by
  intro g sc home base off disp s m A lanes hm hpark hhead hroom hA hlanes
  subst hlanes
  refine ⟨fun hgo hok hfree => ?_, fun hgo => ?_⟩
  · have hpast (a : W64) (h : a.toNat - 0x00FFFF0000000000 + 1 ≤ s.team.hdr.scratch) : pastScratch s.scrsize 1 a = false :=
      decide_eq_false (Nat.not_lt.mpr h)
    have hexec := exec_disc hm hpark hhead hroom hA hgo (fun x hx => by
      have h := hok x hx
      split at h
      · next hap => rw [if_pos hap]; exact hpast x.2 h
      · next hap => rwa [if_neg hap]) (by
      rw [List.any_eq_false]
      intro e he
      rw [contains_linesOf, List.any_eq_true]
      rintro ⟨x, hx, hline⟩
      simp only [Bool.and_eq_true, Bool.not_eq_true', beq_iff_eq] at hline
      obtain ⟨hap, hline⟩ := hline
      exact hfree x hx hap e he hline)
    obtain ⟨hframe, hfind⟩ := discLines_drop (linesOf s (m.lanes.map (fun l => (l, A l)))) s
    have hany : CoresAndEvents s (if s.team.det then s
        else (linesOf s (m.lanes.map (fun l => (l, A l)))).foldl (fun s l => s.discLine s.team.core l) s) := by
      split
      · exact .refl s
      · exact hframe
    obtain ⟨hregs, hretired⟩ := hany.retired (s.readSrc (m != 0) off).1
    refine ⟨_, hexec, hregs, hretired, fun hdet => ?_, fun hdet k => ?_⟩
    · rw [if_pos hdet]
      exact ⟨rfl, rfl⟩
    · rw [if_neg (by simp [hdet])]
      refine (congrArg (Core.find · k) (coreOf_congr rfl rfl _)).trans ((hfind k).trans ?_)
      simp only [contains_linesOf]
  · have hexec := exec_pref (home := home) hm hpark hhead hroom hA hgo
    obtain ⟨hregs, hretired⟩ := (CoresAndEvents.refl s).retired (s.readSrc (m != 0) off).1
    refine ⟨_, _, hexec, hregs, hretired, rfl, rfl, ?_, fun e => ?_⟩
    · refine List.Nodup.map (fun a b h => ?_) (nodup_eraseDups _)
      cases h
      rfl
    · generalize m.lanes.map (fun l => (l, A l)) = lanes
      simp only [List.mem_map, List.mem_eraseDups, List.mem_filterMap, List.mem_filter, Bool.not_eq_true']
      constructor
      · rintro ⟨_, ⟨ia, ⟨x, ⟨hx, hap⟩, hia⟩, rfl⟩, rfl⟩
        exact ⟨x, hx, hap, ia, hia, rfl⟩
      · rintro ⟨x, hx, hap, ia, hia, rfl⟩
        exact ⟨_, ⟨ia, ⟨x, ⟨hx, hap⟩, hia⟩, rfl⟩, rfl⟩

end Sys2Proof.Machine
end

section
/-!
PROOFS. Lane accesses inside the scratchpad, and what the checks at issue leave of a lane access (10:R192 to R194; 05:R113).
-/

namespace Sys2Proof.Machine

open Sys2Proof

/-! ### Waits and frames -/

theorem noRegisters_refl (s : State) : Claims.NoRegisters s s := noRegisters_of_warp rfl rfl rfl rfl rfl rfl
theorem noRegisters_trans {s t u : State} (h : Claims.NoRegisters s t) (h' : Claims.NoRegisters t u) : Claims.NoRegisters s u := by
  obtain ⟨hv, hs, hpreds, hem, hfp, hdev⟩ := h
  obtain ⟨hv', hs', hpreds', hem', hfp', hdev'⟩ := h'
  exact ⟨fun r l hl => (hv' r l hl).trans (hv r l hl), hs'.trans hs, hpreds'.trans hpreds, hem'.trans hem, hfp'.trans hfp, hdev'.trans hdev⟩

theorem RobOnly.trans {s t u : State} (h : RobOnly s t) (h' : RobOnly t u) : RobOnly s u := by
  obtain ⟨_, rfl⟩ := h
  obtain ⟨_, rfl⟩ := h'
  exact ⟨_, rfl⟩
theorem robOnly_logWord (s : State) (a : LaneArgs) : RobOnly s (s.logWord a) := ⟨_, rfl⟩

/-- A word that waits with nothing changed but the entries of the reorder buffer. -/
theorem waitsAt_of_rob {s v : State} {i : Instr} {n : Nat} {a : LaneArgs} (hv : RobOnly s v)
    (h : exec i s = .next ((v.logWord a).waitLane n)) : Claims.WaitsAt s i n := by
  obtain ⟨_, hlog⟩ := hv.trans (robOnly_logWord v a)
  rw [hlog] at h
  exact ⟨_, h, noRegisters_of_warp rfl rfl rfl rfl rfl rfl, rfl, rfl, rfl, rfl⟩

/-! ### The checks at issue -/

theorem issueLane_ok {s t : State} {perms : List Perm} {ap : Bool} {align n : Nat} {lanes : List LaneAddr}
    (h : s.issueLane perms ap align n lanes = .ok t ()) : t = s := by
  unfold State.issueLane at h
  split at h
  · cases h
  · split at h
    · cases h
    · split at h
      · cases h
      · cases h
        rfl

/-- An access that has passed its checks has its entry; nothing else differs. -/
theorem robOnly_issueAccess {s t : State} {perms : List Perm} {ap : Bool} {align n : Nat} {lanes : List LaneAddr}
    (h : s.issueAccess perms ap align n lanes = .ok t ()) : RobOnly s t := by
  unfold State.issueAccess at h
  split at h <;>
  · obtain ⟨u, _, hissue, hok⟩ := bind_eq_ok h
    obtain rfl := issueLane_ok hissue
    cases hok
    exact robOnly_onHead _ _

theorem issueAccess_new {s : State} {perms : List Perm} {ap : Bool} {align n : Nat} {lanes : List LaneAddr}
    (hhead : s.warp.headEntry = none) (h : s.issueLane perms ap align n lanes = .ok s ()) :
    s.issueAccess perms ap align n lanes = .ok (s.onHead (fun e => { e with ias := s.iasOf (perms.getLastD .r) lanes })) () := by
  simp only [State.issueAccess, hhead, h, bind_ok]

theorem watchTrap_none {s : State} {perms : List Perm} {n : Nat} {lanes : List LaneAddr}
    (h : ∀ x ∈ lanes, Claims.Unwatched s perms n x.2) (lane : Bool) : watchTrap s lane perms n lanes = none := by
  unfold watchTrap
  rw [List.findSome?_eq_none_iff]
  intro slot _
  split
  · rfl
  · next w hfind =>
    have hnone : lanes.filter (fun x => watched w perms n x.2) = [] := by
      rw [List.filter_eq_nil_iff]
      intro x hx
      simp [h x hx _ (List.mem_of_find?_eq_some hfind)]
    simp [hnone, lanesTrap]

/-- Without tasks in flight no access meets their ranges. -/
theorem scratchBusy_idle {s : State} (h : s.team.ring = []) (write : Bool) (n : Nat) (lanes : List LaneAddr) :
    s.scratchBusy write n lanes = false := by
  cases write <;> simp [State.scratchBusy, Team.flightRanges, h, overlaps]

theorem laneCheck_inside {s : State} {n : Nat} {lanes : List LaneAddr} (h : ∀ x ∈ lanes, inAperture x.2 = true) :
    s.laneCheck n lanes = .ok s () := by
  have hnone : s.outside .w lanes = [] := by
    rw [State.outside, List.map_eq_nil_iff, List.filter_eq_nil_iff]
    intro x hx
    simp [h x hx]
  simp [State.laneCheck, hnone]

theorem lanes_eq_nil {m : Mask} : m.lanes = [] ↔ m = 0 := by
  refine ⟨fun h => BitVec.eq_of_getLsbD_eq fun l hl => ?_, fun h => by subst h; simp [Mask.lanes]⟩
  have hnot : l ∉ m.lanes := by simp [h]
  rw [has_lanes] at hnot
  have hoff : m.has l = false := by simpa [hl] using hnot
  exact hoff.trans (by simp)

/-! ### Lanes inside the scratchpad -/

section
variable {s : State} {m : Mask} {perms : List Perm} {n : Nat} {A : Nat → W64} (h : Claims.LanesInScratch s m perms n A)
include h

theorem inScratch_lanes : ∀ x ∈ m.lanes.map (fun l => (l, A l)),
    Claims.InScratch s n x.2 ∧ Claims.Unwatched s perms n x.2 ∧ (.r ∈ perms → Claims.SoundScratch s n x.2) := by
  obtain ⟨-, -, -, -, hlanes⟩ := h
  intro x hx
  obtain ⟨l, hl, rfl⟩ := List.mem_map.mp hx
  obtain ⟨hl, hon⟩ := (has_lanes m l).mp hl
  exact hlanes l hl hon

theorem inAperture_lanes : ∀ x ∈ m.lanes.map (fun l => (l, A l)), inAperture x.2 = true := fun x hx => by
  obtain ⟨hin, -, -⟩ := inScratch_lanes h x hx
  exact inAperture_of_inScratch hin

/-- Such lanes pass the checks at issue. -/
theorem issueAccess_scratch : ∃ v, s.issueAccess perms true n n (m.lanes.map (fun l => (l, A l))) = .ok v () ∧ RobOnly s v := by
  obtain ⟨htrap, hgrow⟩ := addrTrap_none (s := s) (perms := perms) (align := n) (n := n) (lanes := m.lanes.map (fun l => (l, A l)))
    fun x hx => by
      obtain ⟨hin, -, -⟩ := inScratch_lanes h x hx
      rw [if_pos (inAperture_of_inScratch hin)]
      obtain ⟨halign, hlow, hend, -⟩ := hin
      refine ⟨halign, decide_eq_false (p := s.team.hdr.scratch < x.2.toNat - 0x00FFFF0000000000 + n) ?_⟩
      omega
  have hwatch := watchTrap_none (fun x hx => by
    obtain ⟨-, hunwatched, -⟩ := inScratch_lanes h x hx
    exact hunwatched) true
  have hissue : s.issueLane perms true n n (m.lanes.map (fun l => (l, A l))) = .ok s () := by
    simp only [State.issueLane, htrap, hgrow, hwatch]
  obtain ⟨-, -, hhead, -, -⟩ := h
  exact ⟨_, issueAccess_new hhead hissue, robOnly_onHead _ _⟩

/-- They wait behind fenced stores, if there is an active lane at all (05:R113). -/
theorem apertureFenced_scratch : s.apertureFenced (m.lanes.map (fun l => (l, A l))) = (s.fenceBusy && m != 0) := by
  refine congrArg (s.fenceBusy && ·) ?_
  rw [Bool.eq_iff_iff, List.any_eq_true, bne_iff_ne]
  constructor
  · rintro ⟨x, hx, -⟩ rfl
    simp [lanes_eq_nil.mpr] at hx
  · intro hm
    obtain ⟨l, hl⟩ := List.exists_mem_of_ne_nil _ (mt lanes_eq_nil.mp hm)
    exact ⟨_, List.mem_map_of_mem hl, inAperture_lanes h _ (List.mem_map_of_mem hl)⟩

end

end Sys2Proof.Machine
end

section
/-!
PROOFS. Lane stores and pushes (10:R191 to R195, R198, R199; 17:R288; 05:R113).
-/

namespace Sys2Proof.Machine

open Sys2Proof

/-! ### A store or a push, step by step -/

theorem storeData_lanes (n : Nat) (lanes : List LaneAddr) (y : Nat → List W32) :
    (storeData n lanes y).map (fun x => (x.1, x.2.1)) = lanes := by
  rw [storeData, List.map_map]
  exact List.map_id _

section
variable {s v w : State} {u : LaneUse} {sz : MemSize} {sc : Scale} {push : Option SReg} {disp : W32} {a : LaneArgs}
  (hruns : Claims.AccessRuns s u) (ha : s.laneArgs u = a)
  (hissue : s.issueAccess [.w] push.isNone sz.bytes sz.bytes (a.addrs sc.mul disp) = .ok v ())
include hruns ha hissue

theorem laneWrite_ok
    (hstore : v.laneStore sz.bytes (push.map v.src64) (storeData sz.bytes (a.addrs sc.mul disp) a.data) = .ok w ()) :
    s.laneWrite u sz sc push disp = (w.takePops a.after).retireLane := by
  obtain ⟨hpark, hgo, hfull⟩ := hruns
  refine laneAccess_ok s _ u _ hpark hgo hfull ?_
  simp only [ha, hissue, bind_ok, hstore]

theorem laneWrite_wait {k : Nat}
    (hstore : v.laneStore sz.bytes (push.map v.src64) (storeData sz.bytes (a.addrs sc.mul disp) a.data) = .wait w k) :
    s.laneWrite u sz sc push disp = (w.logWord a).waitLane k := by
  obtain ⟨hpark, hgo, hfull⟩ := hruns
  subst ha
  refine laneAccess_wait s _ u _ k hpark hgo hfull ?_
  simp only [hissue, bind_ok, hstore]
  rfl

end

section
variable {s v w : State} {n : Nat} {push : Option W64} {lanes : List LaneAddr} {y : Nat → List W32}
  (hbusy : s.scratchBusy true n lanes = false)
include hbusy

theorem laneStore_fenced (hfence : s.apertureFenced lanes = true) : s.laneStore n push (storeData n lanes y) = .wait s 15 := by
  simp only [State.laneStore, storeData_lanes, hbusy, hfence, Bool.false_eq_true, if_true, if_false]

theorem laneStore_checking {k : Nat} (hfence : s.apertureFenced lanes = false) (hcheck : s.laneCheck n lanes = .wait v k) :
    s.laneStore n push (storeData n lanes y) = .wait v k := by
  simp only [State.laneStore, storeData_lanes, hbusy, hfence, Bool.false_eq_true, if_false, hcheck]
  rfl

theorem laneStore_ok (hfence : s.apertureFenced lanes = false) (hcheck : s.laneCheck n lanes = .ok v ())
    (hsend : v.storeLanes push (storeData n lanes y) = (w, true)) : s.laneStore n push (storeData n lanes y) = .ok w () := by
  simp only [State.laneStore, storeData_lanes, hbusy, hfence, Bool.false_eq_true, if_false, hcheck, bind_ok, hsend]

end

/-! ### Inside the scratchpad: the bytes of the highest lane -/

theorem get_writeBytes_map (m : Store 8) (k n : Nat) (f : Nat → Byte) (x : Nat) :
    Store.get (writeBytes m k ((List.range n).map f)) x = if k ≤ x ∧ x < k + n then f (x - k) else Store.get m x := by
  have hlen : ((List.range n).map f).length = n := by simp
  split
  · next h =>
    obtain ⟨j, rfl⟩ := Nat.exists_eq_add_of_le h.1
    rw [get_writeBytes_in _ _ _ j (by omega)]
    simp
  · exact get_writeBytes_out _ _ _ _ (by omega)

/-- A write of the scratchpad: the bytes written, and every other one as before. -/
theorem scratchAt_writeScratch (s : State) (a : W64) (n : Nat) (f : Nat → Byte) (x : Nat) :
    Claims.scratchAt (s.writeScratch a ((List.range n).map f)) x =
      if a.toNat - 0x00FFFF0000000000 ≤ x ∧ x < a.toNat - 0x00FFFF0000000000 + n then f (x - (a.toNat - 0x00FFFF0000000000))
      else Claims.scratchAt s x := by
  have hbase : Config.apertureBase = 0x00FFFF0000000000 := rfl
  rw [← hbase]
  exact get_writeBytes_map s.team.scratch (a.toNat - Config.apertureBase) n f x

/-- The writes of some lanes, one after another. -/
def State.writeLanes (s : State) (n : Nat) (A : Nat → W64) (y : Nat → List W32) (ls : List Nat) : State :=
  ls.foldl (fun s l => s.writeScratch (A l) ((List.range n).map (Claims.dataByte (y l)))) s

theorem scratchAt_writeLanes (s : State) (n : Nat) (A : Nat → W64) (y : Nat → List W32) (ls : List Nat) (x : Nat) {k : Nat → Nat}
    (hk : ∀ l, (A l).toNat - 0x00FFFF0000000000 = k l) : Claims.scratchAt (s.writeLanes n A y ls) x =
      match ls.reverse.find? (fun l => decide (k l ≤ x) && decide (x < k l + n)) with
      | some l => Claims.dataByte (y l) (x - k l)
      | none => Claims.scratchAt s x := by
  induction ls using List.reverseRecOn with
  | nil => rfl
  | append_singleton ls l ih =>
    have hlast : s.writeLanes n A y (ls ++ [l]) =
        (s.writeLanes n A y ls).writeScratch (A l) ((List.range n).map (Claims.dataByte (y l))) := by
      rw [State.writeLanes, List.foldl_append]
      rfl
    rw [hlast, scratchAt_writeScratch, hk, ih, List.reverse_append, List.reverse_singleton, List.singleton_append, List.find?_cons]
    by_cases hl : k l ≤ x ∧ x < k l + n
    · simp [hl]
    · have hno : (decide (k l ≤ x) && decide (x < k l + n)) = false := by simpa using hl
      rw [if_neg hl, hno]

theorem lastLane_eq (m : Mask) (A : Nat → W64) (n x : Nat) : Claims.lastLane m A n x =
    m.lanes.reverse.find? (fun l => decide ((A l).toNat - 0x00FFFF0000000000 ≤ x) &&
      decide (x < (A l).toNat - 0x00FFFF0000000000 + n)) := by
  rw [Claims.lastLane, Mask.lanes, ← List.filter_reverse, List.find?_filter]
  simp only [Bool.decide_and, Bool.decide_eq_true, Bool.and_assoc]
  rfl

/-- Only the scratchpad of the team in front differs. -/
theorem writeLanes_frame (n : Nat) (A : Nat → W64) (y : Nat → List W32) (ls : List Nat) (s : State) :
    ∃ team, s.writeLanes n A y ls = { s with team := team } := by
  induction ls generalizing s with
  | nil => exact ⟨_, rfl⟩
  | cons l rest ih =>
    obtain ⟨team, h⟩ := ih (s.writeScratch (A l) ((List.range n).map (Claims.dataByte (y l))))
    exact ⟨team, h⟩

/-- The data of lanes in the scratchpad are written there. -/
theorem storeLanes_inside {s : State} {m : Mask} {n : Nat} {A : Nat → W64} {y : Nat → List W32} {push : Option W64}
    (hdone : s.warp.done = []) (hin : ∀ x ∈ m.lanes.map (fun l => (l, A l)), inAperture x.2 = true)
    (hlen : ∀ l, n ≤ 4 * (y l).length) :
    s.storeLanes push (storeData n (m.lanes.map (fun l => (l, A l))) y) = (s.writeLanes n A y m.lanes, true) := by
  have hdata : storeData n (m.lanes.map (fun l => (l, A l))) y =
      m.lanes.map (fun l => (l, A l, (List.range n).map (Claims.dataByte (y l)))) := by
    rw [storeData, List.map_map]
    exact List.map_congr_left fun l _ => by rw [Function.comp_apply, take_flatMap_words (hlen l)]
  have hap (x : Nat × W64 × List Byte) (hx : x ∈ storeData n (m.lanes.map (fun l => (l, A l))) y) : inAperture x.2.1 = true := by
    rw [hdata] at hx
    obtain ⟨l, hl, rfl⟩ := List.mem_map.mp hx
    exact hin (l, A l) (List.mem_map_of_mem hl)
  have hnear := List.filter_eq_self.mpr hap
  have hfar : (storeData n (m.lanes.map (fun l => (l, A l))) y).filter (fun x => !inAperture x.2.1) = [] := by
    rw [List.filter_eq_nil_iff]
    intro x hx
    simp [hap x hx]
  have htodo : (storeData n (m.lanes.map (fun l => (l, A l))) y).filter (fun x => !s.warp.done.any (fun d => d.1 == x.1)) =
      storeData n (m.lanes.map (fun l => (l, A l))) y := by
    rw [hdone, List.filter_eq_self]
    exact fun _ _ => rfl
  have hsend : s.sendFar push [] = (s, true) := by
    unfold State.sendFar
    split <;> rfl
  simp only [State.storeLanes, htodo, hfar, List.map_nil, hsend, hnear]
  rw [hdata, List.foldl_map]
  rfl

/-! ### What leaves for device memory changes no register and no byte -/

theorem noRegisters_enterLine (s : State) (push : Option W64) (elems : Bool) (g : LaneGroup) :
    Claims.NoRegisters s (s.enterLine push elems g) := by
  cases g with
  | nil => exact noRegisters_refl s
  | cons x rest => exact noRegisters_of_warp rfl rfl rfl rfl rfl rfl

theorem noRegisters_laneLeft (s : State) (ls : List Nat) : Claims.NoRegisters s (s.laneLeft ls) :=
  noRegisters_of_warp rfl rfl rfl rfl rfl rfl
theorem noRegisters_keep (s : State) (lane : Bool) (c : Comm) : Claims.NoRegisters s (s.onWarp (fun w => w.keep lane c)) :=
  noRegisters_of_warp rfl rfl rfl rfl rfl rfl
theorem noRegisters_writeScratch (s : State) (a : W64) (bs : List Byte) : Claims.NoRegisters s (s.writeScratch a bs) :=
  noRegisters_of_warp rfl rfl rfl rfl rfl rfl

theorem noRegisters_foldl {α : Type} {f : State → α → State} (hf : ∀ s x, Claims.NoRegisters s (f s x)) (xs : List α) (s : State) :
    Claims.NoRegisters s (xs.foldl f s) := by
  induction xs generalizing s with
  | nil => exact noRegisters_refl s
  | cons x rest ih => exact noRegisters_trans (hf s x) (ih _)

theorem noRegisters_bufferUnit {s t : State} {push : Option W64} {u : StoreUnit} (h : s.bufferUnit push u = some t) :
    Claims.NoRegisters s t := by
  unfold State.bufferUnit at h
  split at h
  · split at h <;> cases h
    exact noRegisters_foldl (fun s g => noRegisters_enterLine s push true g) _ s
  · dsimp only at h
    split at h
    · cases h
      exact noRegisters_of_warp rfl rfl rfl rfl rfl rfl
    · split at h <;> cases h
      exact noRegisters_enterLine s push false _

theorem noRegisters_sendUnits (push : Option W64) (us : List StoreUnit) (s : State) :
    Claims.NoRegisters s (s.sendUnits push us).1 := by
  induction us generalizing s with
  | nil => exact noRegisters_refl s
  | cons u rest ih =>
    unfold State.sendUnits
    split
    · exact noRegisters_refl s
    · next t h =>
      exact noRegisters_trans (noRegisters_bufferUnit h) (noRegisters_trans (noRegisters_laneLeft t _) (ih _))

theorem noRegisters_sendFar (s : State) (push : Option W64) (far : List LaneStore) :
    Claims.NoRegisters s (s.sendFar push far).1 := by
  unfold State.sendFar
  split
  · exact noRegisters_foldl (fun s u => noRegisters_trans (noRegisters_keep s _ _) (noRegisters_laneLeft _ _)) _ s
  · exact noRegisters_sendUnits push _ s

theorem noRegisters_storeLanes (s : State) (push : Option W64) (data : List (Nat × W64 × List Byte)) :
    Claims.NoRegisters s (s.storeLanes push data).1 := by
  unfold State.storeLanes
  extract_lets todo far
  have hsend := noRegisters_sendFar s push far
  split
  · next h => rwa [h] at hsend
  · next h =>
    rw [h] at hsend
    exact noRegisters_trans hsend (noRegisters_foldl (fun s x => noRegisters_writeScratch s _ _) _ _)

/-! ### The class check of a write -/

/-- An access whose check has passed goes on. -/
theorem laneCheck_passed {s : State} (n : Nat) (lanes : List LaneAddr) (h : s.warp.check = .passed) : s.laneCheck n lanes = .ok s () := by
  unfold State.laneCheck
  dsimp only
  rw [h]
  split <;> rfl

/-- The entry of a word that has just passed its checks gives each lane the address that they gave. -/
theorem laneIa_issued {s : State} {p : Perm} {lanes : List LaneAddr} {x : LaneAddr} (hhead : s.warp.headEntry = none)
    (hone : ∀ y ∈ lanes, y.1 = x.1 → y = x) (hx : x ∈ lanes) (hap : inAperture x.2 = false) :
    (s.onHead (fun e => { e with ias := s.iasOf p lanes })).laneIa p x = iaOf s.ctx p x.2 := by
  have hentry : (s.onHead (fun e => { e with ias := s.iasOf p lanes })).warp.headEntry.bind
      (fun e => e.ias.find? (fun y => y.1 == x.1)) = (s.iasOf p lanes).find? (fun y => y.1 == x.1) := by
    simp only [State.onHead, State.onWarp, hhead]
    rfl
  have hmem : (x.1, iaOf s.ctx p x.2) ∈ s.iasOf p lanes := List.mem_map_of_mem (List.mem_filter.mpr ⟨hx, by simp [hap]⟩)
  rw [State.laneIa, hentry]
  cases hfind : (s.iasOf p lanes).find? (fun y => y.1 == x.1) with
  | none => simpa using List.find?_eq_none.mp hfind _ hmem
  | some y =>
    obtain ⟨z, hz, rfl⟩ := List.mem_map.mp (List.mem_of_find?_eq_some hfind)
    obtain ⟨hz, -⟩ := List.mem_filter.mp hz
    obtain rfl := hone z hz (by simpa using List.find?_some hfind)
    rfl

/-- A write outside the scratchpad asks the memory side for its check, and waits for the answer. -/
theorem laneCheck_asks {s : State} {n : Nat} {lanes : List LaneAddr} (hidle : s.warp.check = .idle) (hdone : s.laneDone = 0)
    (hout : ∃ x ∈ lanes, inAperture x.2 = false) (hfree : ∀ x ∈ s.outside .w lanes, s.homeHolds (s.home x.2.2) true = false) :
    ∃ rob, s.laneCheck n lanes = .wait { s with
      warp := { s.warp with rob := rob, check := .asked, ask := some ⟨s.outside .w lanes, n, true, false⟩ }
      events := s.events ++ [.classCheckRequest s.warp.key] } 8 := by
  have htodo : (s.outside .w lanes).filter (fun x => !s.laneDone.has x.1) = s.outside .w lanes := by
    rw [hdone, List.filter_eq_self]
    exact fun x _ => by simp [Mask.has]
  have hsome : (s.outside .w lanes).isEmpty = false := by
    obtain ⟨x, hx, hap⟩ := hout
    rw [List.isEmpty_eq_false_iff]
    exact List.ne_nil_of_mem (List.mem_map_of_mem (List.mem_filter.mpr ⟨hx, by simp [hap]⟩))
  have hhold : (s.outside .w lanes).any (fun x => s.homeHolds (s.home x.2.2) true) = false := by
    rw [List.any_eq_false]
    exact fun x hx => by simp [hfree x hx]
  simp only [State.laneCheck, htodo, hsome, hidle, hhold, Bool.false_eq_true, if_false]
  exact ⟨_, rfl⟩

/-! ### The accesses as the obligation has them -/

section
variable {g : Guard} {sz : MemSize} {sc : Scale} {pol : Policy} {base : SReg} {off c : Value} {disp : W32} {s t : State} {m : Mask}
  {A : Nat → W64} {y : Nat → List W32} (hm : m = s.active g)
  (hA : ∀ l, A l = Claims.laneAddr s base (s.readSrc (m != 0) off).2 sc.mul disp l)
  (hread : (s.readSrc (m != 0) off).1.readGroup (m != 0) c sz.regs = (t, y))

/-- ST and PUSH are one write, with a destination set or without. -/
theorem exec_write {i : Instr} {ds : SReg} {push : Option W64}
    (hi : (i = .st g sz sc pol base off disp c ∧ push = none) ∨ (i = .push g sz sc ds base off disp c ∧ push = some (s.src64 ds))) :
    ∃ p : Option SReg, push = p.map s.src64 ∧ exec i s = .next (s.laneWrite (Instr.use i) sz sc p disp) ∧ (Instr.use i).g = g ∧
      (Instr.use i).log = some (base, some off, some (c, sz.regs)) := by
  obtain ⟨rfl, rfl⟩ | ⟨rfl, rfl⟩ := hi
  · exact ⟨none, rfl, rfl, rfl, rfl⟩
  · exact ⟨some ds, rfl, rfl, rfl, rfl⟩

theorem accessRuns_scratch {u : LaneUse} {perms : List Perm} {n : Nat} (h : Claims.LanesInScratch s m perms n A)
    (hgo : u.gate s = .go) : Claims.AccessRuns s u := by
  obtain ⟨hpark, -, -, hroom, -⟩ := h
  exact ⟨hpark, hgo, logFull_of_room u hroom⟩

include hm hA hread

theorem exec_st_fenced (hgo : (Instr.use (.st g sz sc pol base off disp c)).gate s = .go)
    (hin : Claims.LanesInScratch s m [.w] sz.bytes A) (hsome : m ≠ 0) (hfence : s.fenceBusy = true) :
    Claims.WaitsAt s (.st g sz sc pol base off disp c) 15 := by
  obtain ⟨v, hissue, hrob⟩ := issueAccess_scratch hin
  have hwaits : s.apertureFenced (m.lanes.map (fun l => (l, A l))) = true := by
    rw [apertureFenced_scratch hin, hfence, Bool.true_and]
    exact bne_iff_ne.mpr hsome
  have hruns := accessRuns_scratch hin hgo
  obtain ⟨-, hring, hhead, -, -⟩ := hin
  have hargs := (laneArgs_new (Instr.use (.st g sz sc pol base off disp c)) hhead).trans (readArgs_data rfl hm hread)
  refine waitsAt_of_rob hrob (congrArg (fun t : State => (.next t : Result)) (laneWrite_wait hruns hargs (push := none) (v := v) ?_ ?_))
  · rw [addrs_eq sc.mul disp hA]
    exact hissue
  · rw [addrs_eq sc.mul disp hA]
    obtain ⟨_, rfl⟩ := hrob
    exact laneStore_fenced (scratchBusy_idle hring _ _ _) hwaits

theorem exec_st_scratch (hgo : (Instr.use (.st g sz sc pol base off disp c)).gate s = .go)
    (hin : Claims.LanesInScratch s m [.w] sz.bytes A) (hdone : s.warp.done = []) (hfence : m = 0 ∨ s.fenceBusy = false)
    (hlen : ∀ l, (y l).length = sz.regs) : ∃ v, RobOnly s v ∧ exec (.st g sz sc pol base off disp c) s =
      .next (((v.writeLanes sz.bytes A y m.lanes).takePops t).retireLane) := by
  obtain ⟨v, hissue, hrob⟩ := issueAccess_scratch hin
  have hfree : s.apertureFenced (m.lanes.map (fun l => (l, A l))) = false := by
    rw [apertureFenced_scratch hin]
    rcases hfence with h | h <;> simp [h]
  have hruns := accessRuns_scratch hin hgo
  have hap := inAperture_lanes hin
  obtain ⟨-, hring, hhead, -, -⟩ := hin
  have hargs := (laneArgs_new (Instr.use (.st g sz sc pol base off disp c)) hhead).trans (readArgs_data rfl hm hread)
  refine ⟨v, hrob, congrArg (fun t : State => (.next t : Result)) (laneWrite_ok hruns hargs (push := none) (v := v) ?_ ?_)⟩
  · rw [addrs_eq sc.mul disp hA]
    exact hissue
  · rw [addrs_eq sc.mul disp hA]
    obtain ⟨_, rfl⟩ := hrob
    exact laneStore_ok (scratchBusy_idle hring _ _ _) hfree (laneCheck_inside hap)
      (storeLanes_inside hdone hap fun l => by rw [hlen]; exact bytes_le_words sz)

end

/-- A write of lanes on the operands that the registers hold asks for its check. -/
theorem laneWrite_asks {s : State} {u : LaneUse} {sz : MemSize} {sc : Scale} {push : Option SReg} {disp : W32} {a : LaneArgs}
    (hruns : Claims.AccessRuns s u) (ha : s.laneArgs u = a) (hhead : s.warp.headEntry = none)
    (hissue : s.issueLane [.w] push.isNone sz.bytes sz.bytes (a.addrs sc.mul disp) = .ok s ())
    (hone : ∀ x ∈ a.addrs sc.mul disp, ∀ y ∈ a.addrs sc.mul disp, y.1 = x.1 → y = x)
    (hbusy : s.scratchBusy true sz.bytes (a.addrs sc.mul disp) = false) (hfence : s.apertureFenced (a.addrs sc.mul disp) = false)
    (hidle : s.warp.check = .idle) (hout : ∃ x ∈ a.addrs sc.mul disp, inAperture x.2 = false)
    (hfree : ∀ x ∈ a.addrs sc.mul disp, inAperture x.2 = false → s.homeHolds (s.home (iaOf s.ctx .w x.2)) true = false) :
    ∃ t, s.laneWrite u sz sc push disp = t ∧ Claims.NoRegisters s t ∧ t.warp.queue = s.warp.queue ∧ t.warp.check = .asked ∧
      t.events = s.events ++ [.classCheckRequest s.warp.key] ∧
      ∃ k, t.warp.ask = some k ∧ k.write = true ∧ k.size = sz.bytes ∧ k.addrs.map (fun x => (x.1, x.2.1)) =
        (a.addrs sc.mul disp).filter (fun x => !inAperture x.2) := by
  have hissue := issueAccess_new hhead hissue
  have hia (x : LaneAddr) (hx : x ∈ a.addrs sc.mul disp) (hap : inAperture x.2 = false) :=
    laneIa_issued (p := .w) hhead (hone x hx) hx hap
  have hdone : (s.onHead (fun e => { e with ias := s.iasOf .w (a.addrs sc.mul disp) })).laneDone = 0 := by
    simp only [State.laneDone, State.onHead, State.onWarp, hhead]
    rfl
  have hrob := robOnly_onHead s (fun e => { e with ias := s.iasOf .w (a.addrs sc.mul disp) })
  change s.issueAccess _ _ _ _ _ = .ok (s.onHead (fun e => { e with ias := s.iasOf .w (a.addrs sc.mul disp) })) () at hissue
  generalize s.onHead (fun e => { e with ias := s.iasOf .w (a.addrs sc.mul disp) }) = v at *
  have haddrs : (v.outside .w (a.addrs sc.mul disp)).map (fun x => (x.1, x.2.1)) =
      (a.addrs sc.mul disp).filter (fun x => !inAperture x.2) := by
    rw [State.outside, List.map_map]
    exact List.map_id _
  obtain ⟨rob, rfl⟩ := hrob
  obtain ⟨rob', hcheck⟩ := laneCheck_asks (s := { s with warp := { s.warp with rob := rob } }) hidle hdone hout (n := sz.bytes) fun x hx => by
    obtain ⟨z, hz, rfl⟩ := List.mem_map.mp hx
    obtain ⟨hz, hap⟩ := List.mem_filter.mp hz
    have hap : inAperture z.2 = false := by simpa using hap
    dsimp only
    rw [hia z hz hap]
    exact hfree z hz hap
  have hwrite := laneWrite_wait hruns ha hissue (laneStore_checking (s := { s with warp := { s.warp with rob := rob } }) hbusy hfence hcheck)
  obtain ⟨_, hlog⟩ := robOnly_logWord _ a
  rw [hlog] at hwrite
  exact ⟨_, hwrite, noRegisters_of_warp rfl rfl rfl rfl rfl rfl, rfl, rfl, rfl, _, rfl, rfl, rfl, haddrs⟩

/-- A write of lanes whose check has passed: its data leave, and no register and no byte of memory changes. -/
theorem laneWrite_sends {s v w : State} {u : LaneUse} {sz : MemSize} {sc : Scale} {push : Option SReg} {disp : W32} {a : LaneArgs}
    (hruns : Claims.AccessRuns s u) (ha : s.laneArgs u = a)
    (hissue : s.issueAccess [.w] push.isNone sz.bytes sz.bytes (a.addrs sc.mul disp) = .ok v ())
    (hbusy : s.scratchBusy true sz.bytes (a.addrs sc.mul disp) = false) (hfence : s.apertureFenced (a.addrs sc.mul disp) = false)
    (hpassed : s.warp.check = .passed)
    (hsend : v.storeLanes (push.map s.src64) (storeData sz.bytes (a.addrs sc.mul disp) a.data) = (w, true)) :
    s.laneWrite u sz sc push disp = (w.takePops a.after).retireLane ∧ Claims.NoRegisters s (w.takePops a.after).retireLane := by
  have hkept := noRegisters_storeLanes v (push.map s.src64) (storeData sz.bytes (a.addrs sc.mul disp) a.data)
  rw [hsend] at hkept
  obtain ⟨rob, rfl⟩ := robOnly_issueAccess hissue
  refine ⟨laneWrite_ok hruns ha hissue (laneStore_ok hbusy hfence (laneCheck_passed _ _ hpassed) hsend), NoRegisters.retireLane ?_⟩
  have hissued : Claims.NoRegisters s { s with warp := { s.warp with rob := rob } } := noRegisters_of_warp rfl rfl rfl rfl rfl rfl
  exact noRegisters_trans hissued (noRegisters_trans hkept (noRegisters_of_warp rfl rfl rfl rfl rfl rfl))

/-- Settles O42: what leaves for the scratchpad is written lane after lane, what leaves for device memory changes no register and no byte. -/
theorem laneStoresReachScratchpadAndBuffer : Obligations.LaneStoresReachScratchpadAndBuffer := by
  intro g sz sc pol ds base off disp c s t m A y lanes hm hA hread hlanes
  subst hlanes
  refine ⟨fun hgo hin hsome hfence => exec_st_fenced hm hA hread hgo hin hsome hfence, fun hgo hin hdone hfence hwf => ?_,
    fun i push hruns hi => ⟨fun hhead hissue hbusy hfence hidle hout hfree => ?_,
      fun v u a lanes' ha hlanes' hissue hbusy hfence hpassed hsend => ?_⟩⟩
  · have hlen : ∀ l, (y l).length = sz.regs := by
      have hwf : (g.wf && off.wf && c.wfGroup sz.regs) = true := hwf
      simp only [Bool.and_eq_true] at hwf
      obtain ⟨-, hgroup⟩ := hwf
      exact length_readGroup hgroup hread
    obtain ⟨v, ⟨rob, rfl⟩, hexec⟩ := exec_st_scratch hm hA hread hgo hin hdone hfence hlen
    obtain ⟨team, hframe⟩ := writeLanes_frame sz.bytes A y m.lanes { s with warp := { s.warp with rob := rob } }
    refine ⟨_, hexec, ?_, ?_, ?_, fun x => ?_⟩
    · rw [hframe]
      exact NoRegisters.retireLane (noRegisters_of_warp rfl rfl rfl rfl rfl rfl)
    · rw [hframe]
      exact retired_retireLane rfl rfl rfl
    · rw [hframe]
      obtain ⟨-, -, -, -, -, hchans, -⟩ := retireWord_registers
        (State.takePops { s with warp := { s.warp with rob := rob }, team := team } t).warp
      exact hchans
    · rw [lastLane_eq]
      exact scratchAt_writeLanes _ _ _ _ _ _ fun l => rfl
  · obtain ⟨p, rfl, hexec, hg, hlog⟩ := exec_write hi
    have hargs := (laneArgs_new (Instr.use i) hhead).trans (readArgs_data hlog (hg ▸ hm) hread)
    have haddrs := addrs_eq (m := m) (y := y) (t := t) sc.mul disp hA
    rw [Option.isNone_map] at hissue
    rw [← haddrs] at hissue hbusy hfence hout hfree ⊢
    obtain ⟨u, hwrite, hrest⟩ := laneWrite_asks hruns hargs hhead hissue (fun x hx z hz h => by
      rw [haddrs] at hx hz
      obtain ⟨l, -, rfl⟩ := List.mem_map.mp hx
      obtain ⟨k, -, rfl⟩ := List.mem_map.mp hz
      obtain rfl : k = l := h
      rfl) hbusy hfence hidle hout hfree
    exact ⟨u, hexec.trans (congrArg _ hwrite), hrest⟩
  · subst hlanes'
    obtain ⟨p, rfl, hexec, -, -⟩ := exec_write hi
    rw [Option.isNone_map] at hissue
    obtain ⟨hwrite, hkept⟩ := laneWrite_sends hruns ha.symm hissue hbusy hfence hpassed hsend
    refine ⟨_, hexec.trans (congrArg _ hwrite), rfl, hkept, fun a => ?_⟩
    obtain ⟨-, -, -, -, -, hdev⟩ := hkept
    rw [Claims.byteAt, hdev, Claims.byteAt]

end Sys2Proof.Machine
end

section
/-!
PROOFS. Lane atomics (10:R195, R200, R201; 05:R113; 10:R214).
-/

namespace Sys2Proof.Machine

open Sys2Proof

/-! ### One lane after another in the scratchpad -/

/-- Only the bytes of the scratchpad differ, and what was sound there is so still. -/
def BytesOnly (s t : State) : Prop :=
  ∃ scratch bad, (∀ k ∈ bad, k ∈ s.team.badScratch) ∧ t = { s with team := { s.team with scratch := scratch, badScratch := bad } }

theorem BytesOnly.sound {s t : State} (h : BytesOnly s t) {n : Nat} {a : W64} (hs : Claims.SoundScratch s n a) :
    Claims.SoundScratch t n a := by
  obtain ⟨_, _, hbad, rfl⟩ := h
  exact fun k hk => hs k (hbad k hk)

theorem BytesOnly.trans {s t u : State} (h : BytesOnly s t) (h' : BytesOnly t u) : BytesOnly s u := by
  obtain ⟨_, _, hbad, rfl⟩ := h
  obtain ⟨_, _, hbad', rfl⟩ := h'
  exact ⟨_, _, fun k hk => hbad k (hbad' k hk), rfl⟩

theorem bytesOnly_writeScratch (s : State) (a : W64) (bs : List Byte) : BytesOnly s (s.writeScratch a bs) :=
  ⟨_, _, fun _ hk => List.mem_of_mem_filter hk, rfl⟩

theorem widthOf_eq (dbl : Bool) : widthOf dbl = if dbl then 8 else 4 := rfl

/-- The atomic of one lane on a sound place: the old bytes, and what R200 says in their stead. -/
theorem scratchAtomic_lane {s : State} {op : Option AtomOp} {dbl : Bool} {a : W64} (b e : W64) (hap : inAperture a = true)
    (hs : Claims.SoundScratch s (widthOf dbl) a) : ∃ t, s.scratchAtomic op dbl a b e = (t, Claims.scratchBytes s (widthOf dbl) a, false) ∧
      BytesOnly s t ∧ ∀ x, Claims.scratchAt t x = Store.get (writeBytes s.team.scratch (a.toNat - 0x00FFFF0000000000)
        (Claims.amoBytes op (!dbl) (Claims.scratchBytes s (widthOf dbl) a) b e)) x := by
  obtain ⟨w, rfl⟩ : ∃ w, dbl = !w := ⟨!dbl, (Bool.not_not dbl).symm⟩
  rw [Bool.not_not, widthOf_not] at *
  have hbad := (apertureBad_eq_false_iff hap).mpr hs
  have hstep := scratchAtomic_sound op b e hbad
  obtain ⟨-, -, hbytes⟩ := scratchAtomic_frame hbad hstep
  refine ⟨_, hstep, ?_, hbytes⟩
  split
  · exact bytesOnly_writeScratch s a _
  · exact ⟨_, _, fun _ hk => hk, rfl⟩

theorem foldl_set_eq_writeBytes (m : Store 8) (k : Nat) (bs : List Byte) :
    ((List.range bs.length).zip bs).foldl (fun m x => Store.set m (k + x.1) x.2) m = writeBytes m k bs := by
  have hall (zs : List (Nat × Byte)) (m : Store 8) :
      zs.foldl (fun m x => Store.set m (k + x.1) x.2) m = Store.setAll m (zs.map (fun x => (k + x.1, x.2))) := by
    induction zs generalizing m with
    | nil => rfl
    | cons z rest ih => exact ih _
  rw [hall, writeBytes, List.zip, List.map_zipWith]

theorem get_writeBytes_congr {m m' : Store 8} (h : ∀ x, Store.get m x = Store.get m' x) (k : Nat) (bs : List Byte) (x : Nat) :
    Store.get (writeBytes m k bs) x = Store.get (writeBytes m' k bs) x := by
  by_cases hx : k ≤ x ∧ x < k + bs.length
  · obtain ⟨j, rfl⟩ := Nat.exists_eq_add_of_le hx.1
    have hj : j < bs.length := by omega
    rw [get_writeBytes_in m k bs j hj, get_writeBytes_in m' k bs j hj]
  · rw [get_writeBytes_out m k bs x (by omega), get_writeBytes_out m' k bs x (by omega), h]

/-- A lane's part as the claims write it. -/
def LaneAtom.part (x : LaneAtom) : Nat × W64 × W64 × W64 := (x.lane, x.addr, x.operand, x.expected)

/-- A step of the claims' sequence, from a state whose scratchpad has its bytes. -/
theorem seqAtoms_cons {s : State} {m : Store 8} (hm : ∀ x, Claims.scratchAt s x = Store.get m x) (op : Option AtomOp) (dbl : Bool)
    (x : LaneAtom) (rest : List LaneAtom) : ∃ m',
      (∀ z, Store.get (writeBytes s.team.scratch (x.addr.toNat - 0x00FFFF0000000000)
        (Claims.amoBytes op (!dbl) (Claims.scratchBytes s (widthOf dbl) x.addr) x.operand x.expected)) z = Store.get m' z) ∧
      Claims.seqAtoms op dbl ((x :: rest).map LaneAtom.part) m = ((Claims.seqAtoms op dbl (rest.map LaneAtom.part) m').1,
        (x.lane, Claims.scratchBytes s (widthOf dbl) x.addr) :: (Claims.seqAtoms op dbl (rest.map LaneAtom.part) m').2) := by
  have hold : (List.range (if dbl then 8 else 4)).map (fun j => Store.get m (x.addr.toNat - 0x00FFFF0000000000 + j)) =
      Claims.scratchBytes s (widthOf dbl) x.addr := List.map_congr_left fun j _ => (hm _).symm
  refine ⟨writeBytes m (x.addr.toNat - 0x00FFFF0000000000)
    (Claims.amoBytes op (!dbl) (Claims.scratchBytes s (widthOf dbl) x.addr) x.operand x.expected),
    fun z => get_writeBytes_congr hm _ _ z, ?_⟩
  rw [List.map_cons, LaneAtom.part, Claims.seqAtoms, hold, foldl_set_eq_writeBytes]

/-- The lanes that have been performed are noted with their old values, and only bytes of the scratchpad differ beside. -/
def Performed (s t : State) (old : List (Nat × W64)) : Prop :=
  ∃ scratch bad, (∀ k ∈ bad, k ∈ s.team.badScratch) ∧ t = { s with
    warp := { s.warp with done := s.warp.done ++ old }, team := { s.team with scratch := scratch, badScratch := bad } }

theorem performed_nil (s : State) : Performed s s [] := ⟨_, _, fun _ hk => hk, by rw [List.append_nil]⟩

theorem Performed.cons {s u t : State} {l : Nat} {bs : List Byte} {old : List (Nat × W64)} (h : BytesOnly s u)
    (h' : Performed (u.lanePerformed l bs) t old) : Performed s t ((l, ofBytes 64 bs) :: old) := by
  obtain ⟨_, _, hbad, rfl⟩ := h
  obtain ⟨scratch, bad, hbad', rfl⟩ := h'
  refine ⟨scratch, bad, fun k hk => hbad k (hbad' k hk), ?_⟩
  rw [List.append_cons]
  rfl

/-- The old values that a sequence of atomics leaves. -/
def oldValues (old : List (Nat × List Byte)) : List (Nat × W64) := old.map (fun z => (z.1, ofBytes 64 z.2))

/-- The atomics of lanes in the scratchpad: the old bytes of each are kept, and the scratchpad has the bytes of the sequence. -/
theorem atomLanes_scratch (sc : Scope) (op : Option AtomOp) (dbl : Bool) (r : AtomRun) (xs : List LaneAtom) {s : State} {m : Store 8}
    (hm : ∀ x, Claims.scratchAt s x = Store.get m x)
    (hin : ∀ x ∈ xs, inAperture x.addr = true ∧ Claims.SoundScratch s (widthOf dbl) x.addr)
    (hnodup : (s.warp.done.map Prod.fst ++ xs.map LaneAtom.lane).Nodup) : ∃ t, State.atomLanes sc op dbl xs s r = (t, r) ∧
      Performed s t (oldValues (Claims.seqAtoms op dbl (xs.map LaneAtom.part) m).2) ∧
      ∀ x, Claims.scratchAt t x = Store.get (Claims.seqAtoms op dbl (xs.map LaneAtom.part) m).1 x := by
  induction xs generalizing s m with
  | nil => exact ⟨s, rfl, performed_nil s, hm⟩
  | cons x rest ih =>
    obtain ⟨hap, hs⟩ := hin x List.mem_cons_self
    obtain ⟨u, hatom, hbytes, hscratch⟩ := scratchAtomic_lane (op := op) x.operand x.expected hap hs
    obtain ⟨m', hm', hseq⟩ := seqAtoms_cons hm op dbl x rest
    have hnew : s.warp.done.any (fun d => d.1 == x.lane) = false := by
      obtain ⟨-, -, hdisjoint⟩ := List.nodup_append.mp hnodup
      rw [List.any_eq_false]
      exact fun d hd hlane => hdisjoint d.1 (List.mem_map_of_mem hd) x.lane List.mem_cons_self (by simpa using hlane)
    have hdone : u.warp.done = s.warp.done := by
      obtain ⟨_, _, -, rfl⟩ := hbytes
      rfl
    obtain ⟨t, hrest, hperf, htscratch⟩ := ih (s := u.lanePerformed x.lane (Claims.scratchBytes s (widthOf dbl) x.addr))
      (m := m') (fun z => (hscratch z).trans (hm' z))
      (fun y hy => by
        obtain ⟨hapy, hsy⟩ := hin y (List.mem_cons_of_mem _ hy)
        exact ⟨hapy, hbytes.sound hsy⟩)
      (by simpa [State.lanePerformed, State.onWarp, hdone] using hnodup)
    rw [hseq]
    refine ⟨t, ?_, hperf.cons hbytes, htscratch⟩
    rw [State.atomLanes, if_neg (by simp [hnew]), State.atomLane, if_pos hap, hatom]
    exact hrest

/-- The same lanes when nothing is given back: each atomic is performed at once. -/
theorem queueAtoms_scratch (op : AtomOp) (dbl : Bool) (xs : List LaneAtom) {s : State} {m : Store 8}
    (hm : ∀ x, Claims.scratchAt s x = Store.get m x)
    (hin : ∀ x ∈ xs, inAperture x.addr = true ∧ Claims.SoundScratch s (widthOf dbl) x.addr) :
    BytesOnly s (s.queueAtoms op dbl xs) ∧
      ∀ x, Claims.scratchAt (s.queueAtoms op dbl xs) x = Store.get (Claims.seqAtoms (some op) dbl (xs.map LaneAtom.part) m).1 x := by
  induction xs generalizing s m with
  | nil => exact ⟨⟨_, _, fun _ hk => hk, rfl⟩, hm⟩
  | cons x rest ih =>
    obtain ⟨hap, hs⟩ := hin x List.mem_cons_self
    obtain ⟨u, hatom, hbytes, hscratch⟩ := scratchAtomic_lane (op := some op) x.operand x.expected hap hs
    obtain ⟨m', hm', hseq⟩ := seqAtoms_cons hm (some op) dbl x rest
    obtain ⟨hrest, htscratch⟩ := ih (s := u) (m := m') (fun z => (hscratch z).trans (hm' z)) fun y hy => by
      obtain ⟨hapy, hsy⟩ := hin y (List.mem_cons_of_mem _ hy)
      exact ⟨hapy, hbytes.sound hsy⟩
    have hstep : s.queueAtoms op dbl (x :: rest) = u.queueAtoms op dbl rest := by
      rw [State.queueAtoms, List.foldl_cons, if_pos hap, hatom]
      rfl
    rw [hseq, hstep]
    exact ⟨hbytes.trans hrest, htscratch⟩

/-! ### The order of the requests -/

/-- Elements with keys of their own are groups of their own. -/
theorem groupOn_singletons {α : Type} {key : α → Nat} {xs : List α} (h : (xs.map key).Nodup) : groupOn key xs = xs.map (fun x => [x]) := by
  induction xs with
  | nil => rfl
  | cons x rest ih =>
    rw [List.map_cons, List.nodup_cons] at h
    obtain ⟨hx, hrest⟩ := h
    have hother : ∀ g ∈ rest.map (fun y => [y]), g.any (fun y => key y == key x) = false := by
      intro g hg
      obtain ⟨y, hy, rfl⟩ := List.mem_map.mp hg
      have hne : key y ≠ key x := fun h => hx (h ▸ List.mem_map_of_mem hy)
      simpa using hne
    have hmine : (rest.map (fun y => [y])).filter (fun g => g.any (fun y => key y == key x)) = [] := by
      rw [List.filter_eq_nil_iff]
      exact fun g hg => by simp [hother g hg]
    have hrest' : (rest.map (fun y => [y])).filter (fun g => !g.any (fun y => key y == key x)) = rest.map (fun y => [y]) := by
      rw [List.filter_eq_self]
      exact fun g hg => by simp [hother g hg]
    simp only [groupOn, ih hrest, hmine, hrest', List.flatten_nil, List.map_cons]

theorem requestOrder_scratch {s : State} {xs : List LaneAtom} (hin : ∀ x ∈ xs, inAperture x.addr = true)
    (hnodup : (xs.map LaneAtom.lane).Nodup) : s.requestOrder xs = xs := by
  have hkeys : xs.map (fun x => if inAperture x.addr then 2 ^ 61 + x.lane else tagged s.ctx.num (s.laneIa .w (x.lane, x.addr))) =
      (xs.map LaneAtom.lane).map (2 ^ 61 + ·) := by
    rw [List.map_map]
    exact List.map_congr_left fun x hx => if_pos (hin x hx)
  have hone := hnodup.map (f := (2 ^ 61 + ·)) fun a b h => Nat.add_left_cancel h
  rw [← hkeys] at hone
  rw [State.requestOrder, groupOn_singletons hone, List.flatten_eq_flatMap, List.flatMap_map]
  exact List.flatMap_singleton' xs

theorem performAtoms_scratch (returns : Bool) (sc : Scope) (op : Option AtomOp) (dbl : Bool) {xs : List LaneAtom} {s : State} {m : Store 8}
    (hm : ∀ x, Claims.scratchAt s x = Store.get m x) (hdone : s.warp.done = [])
    (hin : ∀ x ∈ xs, inAperture x.addr = true ∧ Claims.SoundScratch s (widthOf dbl) x.addr)
    (hnodup : (xs.map LaneAtom.lane).Nodup) : ∃ t, s.performAtoms returns sc op dbl xs = .ok t () ∧
      Performed s t (oldValues (Claims.seqAtoms op dbl (xs.map LaneAtom.part) m).2) ∧
      ∀ x, Claims.scratchAt t x = Store.get (Claims.seqAtoms op dbl (xs.map LaneAtom.part) m).1 x := by
  obtain ⟨t, hrun, hperf, hscratch⟩ := atomLanes_scratch sc op dbl {} xs hm hin (by rwa [hdone])
  have horder := requestOrder_scratch (s := s) (fun x hx => by obtain ⟨hap, -⟩ := hin x hx; exact hap) hnodup
  refine ⟨t, ?_, hperf, hscratch⟩
  simp only [State.performAtoms, horder, hrun, List.filter_nil, List.mergeSort_nil]

end Sys2Proof.Machine
end

section
/-!
PROOFS. The lane atomics: ATOM, ACAS and ATOMN (10:R200, R201).
-/

namespace Sys2Proof.Machine

open Sys2Proof

/-! ### A group of registers -/

theorem writeGroup_succ (s : State) (n count : Nat) (m : Mask) (x : Nat → List W32) :
    s.writeGroup n (count + 1) m x = (s.writeGroup n count m x).writeV (n + count) m (fun l => (x l).getD count 0) := by
  simp only [State.writeGroup, List.range_succ, List.foldl_append, List.foldl_cons, List.foldl_nil]

/-- A register read after the write of a group. -/
theorem vreg_writeGroup (s : State) (n count : Nat) (m : Mask) (x : Nat → List W32) (q l : Nat) (hl : l < 32) :
    (s.writeGroup n count m x).vreg q l =
      if m.has l = true ∧ n ≤ q ∧ q < n + count then (x l).getD (q - n) 0 else s.vreg q l := by
  induction count with
  | zero => exact (if_neg (by omega)).symm
  | succ count ih =>
    rw [writeGroup_succ, vreg_writeV _ _ _ _ _ _ hl, ih]
    by_cases hq : q = n + count
    · subst hq
      by_cases hm : m.has l = true <;> simp [hm]
    · have hlast : q < n + (count + 1) ↔ q < n + count := by omega
      simp [hq, hlast]

/-- A write of a group changes the register file and the marks of its registers alone. -/
theorem writeGroup_frame (s : State) (n count : Nat) (m : Mask) (x : Nat → List W32) : ∃ v empty poison fills,
    s.writeGroup n count m x = { s with warp := { s.warp with v := v, empty := empty, poison := poison, fills := fills } } := by
  induction count with
  | zero => exact ⟨_, _, _, _, rfl⟩
  | succ count ih =>
    obtain ⟨v, empty, poison, fills, h⟩ := ih
    rw [writeGroup_succ, writeV_frame, h]
    exact ⟨_, _, _, _, rfl⟩

/-! ### The parts of the lanes -/

theorem laneAtoms_part (m : Mask) (A : Nat → W64) (b e : Nat → List W32) :
    (laneAtoms (m.lanes.map (fun l => (l, A l))) b e).map LaneAtom.part =
      m.lanes.map (fun l => (l, A l, Claims.pairOf (b l), Claims.pairOf (e l))) := by
  rw [laneAtoms, List.map_map, List.map_map]
  refine List.map_congr_left fun l _ => ?_
  simp only [Function.comp_apply, LaneAtom.part, pair64_eq_pairOf]
  rfl

theorem laneAtoms_lane (m : Mask) (A : Nat → W64) (b e : Nat → List W32) :
    (laneAtoms (m.lanes.map (fun l => (l, A l))) b e).map LaneAtom.lane = m.lanes := by
  rw [laneAtoms, List.map_map, List.map_map]
  exact List.map_id _

/-! ### The old values -/

theorem length_seqAtoms (op : Option AtomOp) (dbl : Bool) (xs : List (Nat × W64 × W64 × W64)) (m : Store 8) :
    ∀ z ∈ (Claims.seqAtoms op dbl xs m).2, z.2.length ≤ 8 := by
  induction xs generalizing m with
  | nil => exact fun z hz => absurd hz List.not_mem_nil
  | cons x rest ih =>
    intro z hz
    obtain rfl | hz := List.mem_cons.mp hz
    · cases dbl <;> simp
    · exact ih _ z hz

/-- The old value of a lane as the entry keeps it. -/
theorem toNat_oldValues {old : List (Nat × List Byte)} (hlen : ∀ z ∈ old, z.2.length ≤ 8) (l : Nat) :
    ((((oldValues old).find? (fun z => z.1 == l)).map Prod.snd).getD 0).toNat = Claims.leNat (Claims.oldOf old l) := by
  have hmap : (oldValues old).find? (fun z => z.1 == l) = (old.find? (fun z => z.1 == l)).map (fun z => (z.1, ofBytes 64 z.2)) :=
    List.find?_map
  rw [hmap, Claims.oldOf]
  cases hfind : old.find? (fun z => z.1 == l) with
  | none => rfl
  | some z =>
    have hz := hlen z (List.mem_of_find?_eq_some hfind)
    exact toNat_ofBytes (by omega)

theorem oldWords_getD (x : W64) {dbl : Bool} {j : Nat} (hj : j < dblRegs dbl) :
    [lo32 x, hi32 x].getD j 0 = Claims.wordOf x.toNat j := by
  have hj : j < 2 := lt_of_lt_of_le hj (by cases dbl <;> decide)
  interval_cases j
  · rw [List.getD_cons_zero, lo32_eq_ofNat, Claims.wordOf, Nat.mul_zero, Nat.pow_zero, Nat.div_one]
    rfl
  · rw [List.getD_cons_succ, List.getD_cons_zero, hi32_eq_ofNat]
    rfl

/-! ### The front that all of them share -/

section
variable {s v : State} {m : Mask} {A : Nat → W64} {n : Nat} {dbl : Bool} (hin : Claims.LanesInScratch s m [.r, .w] n A)
  (hn : n = widthOf dbl)
include hin hn

theorem atomFront_scratch {o : Order} (hrel : Order.releases o = true → s.warp.wbuf = []) : ∃ v, RobOnly s v ∧
    s.atomFront o dbl (m.lanes.map (fun l => (l, A l))) = if s.fenceBusy && m != 0 then .wait v 15 else .ok v () := by
  subst hn
  obtain ⟨v, hissue, hrob⟩ := issueAccess_scratch hin
  have hfence := apertureFenced_scratch hin
  have hap := inAperture_lanes hin
  obtain ⟨-, hring, -, -, -⟩ := hin
  refine ⟨v, hrob, ?_⟩
  obtain ⟨_, rfl⟩ := hrob
  generalize hv : ({ s with warp := { s.warp with rob := _ } } : State) = v at *
  have hend : v.laneRelease o = .ok v () := by
    subst hv
    refine if_neg ?_
    cases ho : Order.releases o with
    | false => simp
    | true => simp [State.laneEndDone, hrel ho]
  have hbusy : v.scratchBusy true (widthOf dbl) (m.lanes.map (fun l => (l, A l))) = false := scratchBusy_idle (by rw [← hv]; exact hring) _ _ _
  have hfenced : v.apertureFenced (m.lanes.map (fun l => (l, A l))) = (s.fenceBusy && m != 0) := by rw [← hfence, ← hv]; rfl
  simp only [State.atomFront, hissue, bind_ok, hend, hbusy, hfenced, laneCheck_inside hap, Bool.false_eq_true, if_false]

theorem laneAtoms_sound (b e : Nat → List W32) : ∀ x ∈ laneAtoms (m.lanes.map (fun l => (l, A l))) b e,
    inAperture x.addr = true ∧ Claims.SoundScratch s (widthOf dbl) x.addr := by
  subst hn
  intro x hx
  obtain ⟨z, hz, rfl⟩ := List.mem_map.mp hx
  obtain ⟨-, -, hsound⟩ := inScratch_lanes hin z hz
  exact ⟨inAperture_lanes hin z hz, hsound (by simp)⟩

theorem performAtoms_lanes (returns : Bool) (sc : Scope) (op : Option AtomOp) (b e : Nat → List W32) (hv : RobOnly s v)
    (hdone : s.warp.done = []) : ∃ t, v.performAtoms returns sc op dbl (laneAtoms (m.lanes.map (fun l => (l, A l))) b e) = .ok t () ∧
      Performed v t (oldValues (Claims.seqAtoms op dbl
        (m.lanes.map (fun l => (l, A l, Claims.pairOf (b l), Claims.pairOf (e l)))) s.team.scratch).2) ∧
      ∀ x, Claims.scratchAt t x = Store.get (Claims.seqAtoms op dbl
        (m.lanes.map (fun l => (l, A l, Claims.pairOf (b l), Claims.pairOf (e l)))) s.team.scratch).1 x := by
  have hsound := laneAtoms_sound hin hn b e
  obtain ⟨_, rfl⟩ := hv
  rw [← laneAtoms_part]
  refine performAtoms_scratch returns sc op dbl (fun _ => rfl) hdone hsound ?_
  rw [laneAtoms_lane]
  exact List.Nodup.filter _ List.nodup_range

theorem queueAtoms_lanes (op : AtomOp) (b e : Nat → List W32) (hv : RobOnly s v) :
    BytesOnly v (v.queueAtoms op dbl (laneAtoms (m.lanes.map (fun l => (l, A l))) b e)) ∧
      ∀ x, Claims.scratchAt (v.queueAtoms op dbl (laneAtoms (m.lanes.map (fun l => (l, A l))) b e)) x =
        Store.get (Claims.seqAtoms (some op) dbl
          (m.lanes.map (fun l => (l, A l, Claims.pairOf (b l), Claims.pairOf (e l)))) s.team.scratch).1 x := by
  have hsound := laneAtoms_sound hin hn b e
  obtain ⟨_, rfl⟩ := hv
  rw [← laneAtoms_part]
  exact queueAtoms_scratch op dbl _ (fun _ => rfl) hsound

end

/-! ### The instructions -/

/-- A lane atomic is one that returns its old values, or ATOMN. -/
theorem laneAtom_cases {i : Instr} {g : Guard} {op : Option AtomOp} {scope : Scope} {o : Order} {dbl : Bool} {sc : AScale}
    {d : Option VReg} {base : SReg} {off : Value} {disp : W32} {c : Value}
    (h : Claims.laneAtomOf i = some (g, op, scope, o, dbl, sc, d, base, off, disp, c)) :
    ((∃ k, d = some k ∧ ∀ s, exec i s = .next (s.atomReturn (Instr.use i) op scope o dbl sc k disp)) ∨
      ∃ p, d = none ∧ op = some p ∧ i = .atomn g p scope o dbl sc base off disp c) ∧
    (Instr.use i).g = g ∧ (Instr.use i).log = some (base, some off, some (c, dblRegs dbl)) := by
  unfold Claims.laneAtomOf at h
  split at h <;> cases h
  · exact ⟨.inl ⟨_, rfl, fun _ => rfl⟩, rfl, rfl⟩
  · exact ⟨.inr ⟨_, rfl, rfl, rfl⟩, rfl, rfl⟩
  · exact ⟨.inl ⟨_, rfl, fun _ => rfl⟩, rfl, rfl⟩

/-- The words of the old values of the lanes that have been performed. -/
def oldWords (t : State) (l : Nat) : List W32 :=
  [lo32 (((t.warp.done.find? (fun z => z.1 == l)).map Prod.snd).getD 0),
   hi32 (((t.warp.done.find? (fun z => z.1 == l)).map Prod.snd).getD 0)]

/-- What an atomic that returns its old values leaves once its lanes have been performed. -/
def State.atomGives (t : State) (a : LaneArgs) (k : VReg) (dbl : Bool) : State :=
  (t.takePops a.after).writeGroup k.toNat (dblRegs dbl) a.m (oldWords t)

section
variable {s v t : State} {u : LaneUse} {op : Option AtomOp} {scope : Scope} {o : Order} {dbl : Bool} {sc : AScale} {k : VReg} {disp : W32}
  {a : LaneArgs} (hruns : Claims.AccessRuns s u) (ha : s.laneArgs u = a)
include hruns ha

theorem atomReturn_ok (hfront : s.atomFront o dbl (a.addrs sc.mul disp) = .ok v ())
    (hturn : a.m = 0 ∨ v.team.det = false ∨ v.warp.clearL = .granted)
    (hperf : v.performAtoms true scope op dbl (laneAtoms (a.addrs sc.mul disp) a.data
      (s.readGroup (a.m != 0) (.reg k false) (dblRegs dbl)).2) = .ok t ()) :
    s.atomReturn u op scope o dbl sc k disp =
      (if Order.acquires o && a.m != 0 then (t.atomGives a k dbl).begin scope else t.atomGives a k dbl).retireLane := by
  obtain ⟨hpark, hgo, hfull⟩ := hruns
  have hclear : (if a.m != 0 then v.atClearingL else .ok v ()) = .ok v () := by
    split
    · next hm =>
      have hm : ¬ a.m = 0 := by simpa using hm
      exact if_pos (by rcases hturn.resolve_left hm with h | h <;> simp [h])
    · rfl
  refine laneAccess_ok s _ u _ hpark hgo hfull ?_
  simp only [ha, hfront, bind_ok, hclear]
  rw [show v.performAtoms true scope op dbl (laneAtoms (a.addrs sc.mul disp) a.data _) = _ from hperf]
  rfl

theorem atomReturn_front_wait {n : Nat} (hfront : s.atomFront o dbl (a.addrs sc.mul disp) = .wait v n) :
    s.atomReturn u op scope o dbl sc k disp = (v.logWord a).waitLane n := by
  obtain ⟨hpark, hgo, hfull⟩ := hruns
  subst ha
  refine laneAccess_wait s v u _ n hpark hgo hfull ?_
  simp only [hfront]
  rfl

/-- Under DET it waits for its turn in the clearing. -/
theorem atomReturn_clearing_wait (hfront : s.atomFront o dbl (a.addrs sc.mul disp) = .ok v ()) (hm : a.m ≠ 0)
    (hdet : v.team.det = true) (hturn : v.warp.clearL ≠ .granted) : s.atomReturn u op scope o dbl sc k disp =
      ((v.onWarp (fun w => { w with clearL := .waiting })).logWord a).waitLane 14 := by
  obtain ⟨hpark, hgo, hfull⟩ := hruns
  subst ha
  have hclear : v.atClearingL = .wait (v.onWarp (fun w => { w with clearL := .waiting })) 14 := if_neg (by simp [hdet, hturn])
  refine laneAccess_wait s _ u _ 14 hpark hgo hfull ?_
  simp only [hfront, bind_ok, if_pos (bne_iff_ne.mpr hm), hclear]
  rfl

end

section
variable {s v t : State} {g : Guard} {op : AtomOp} {scope : Scope} {o : Order} {dbl : Bool} {sc : AScale} {base : SReg} {off c : Value}
  {disp : W32} {a : LaneArgs} (hruns : Claims.AccessRuns s (Instr.use (.atomn g op scope o dbl sc base off disp c)))
  (ha : s.laneArgs (Instr.use (.atomn g op scope o dbl sc base off disp c)) = a)
include hruns ha

theorem atomn_ok (hfront : s.atomFront o dbl (a.addrs sc.mul disp) = .ok v ())
    (hnow : v.team.det = false ∨ anyOutside (a.addrs sc.mul disp) = false ∧ Order.acquires o = true)
    (hperf : v.performAtoms false scope (some op) dbl (laneAtoms (a.addrs sc.mul disp) a.data (fun _ => [])) = .ok t ()) :
    exec (.atomn g op scope o dbl sc base off disp c) s = .next (t.takePops a.after).retireLane := by
  obtain ⟨hpark, hgo, hfull⟩ := hruns
  have hqueue : (v.team.det && !Order.acquires o) = false := by rcases hnow with h | ⟨-, h⟩ <;> simp [h]
  have hclear : (if anyOutside (a.addrs sc.mul disp) then v.atClearingL else .ok v ()) = .ok v () := by
    split
    · next hout =>
      have hdet : v.team.det = false := by simpa [hout] using hnow
      exact if_pos (by simp [hdet])
    · rfl
  refine congrArg (fun t : State => (.next t : Result)) (laneAccess_ok s _ _ _ hpark hgo hfull ?_)
  simp only [ha, hfront, bind_ok, hqueue, Bool.false_eq_true, if_false, hclear, hperf]

/-- Under DET it is queued, unless it acquires. -/
theorem atomn_queues (hfront : s.atomFront o dbl (a.addrs sc.mul disp) = .ok v ())
    (hqueue : (v.team.det && !Order.acquires o) = true) : exec (.atomn g op scope o dbl sc base off disp c) s =
      .next (((v.queueAtoms op dbl (laneAtoms (a.addrs sc.mul disp) a.data (fun _ => []))).takePops a.after).retireLane) := by
  obtain ⟨hpark, hgo, hfull⟩ := hruns
  refine congrArg (fun t : State => (.next t : Result)) (laneAccess_ok s _ _ _ hpark hgo hfull ?_)
  simp only [ha, hfront, bind_ok, hqueue, if_true]

theorem atomn_front_wait {n : Nat} (hfront : s.atomFront o dbl (a.addrs sc.mul disp) = .wait v n) :
    exec (.atomn g op scope o dbl sc base off disp c) s = .next ((v.logWord a).waitLane n) := by
  obtain ⟨hpark, hgo, hfull⟩ := hruns
  subst ha
  refine congrArg (fun t : State => (.next t : Result)) (laneAccess_wait s v _ _ n hpark hgo hfull ?_)
  simp only [hfront]
  rfl

end

/-! ### What they leave -/

/-- Nothing differs but lane registers with their marks, popped messages, the entry of the word and bytes of the scratchpad. -/
def AtomOnly (s t : State) : Prop := ∃ v empty poison fills chans done rob scratch bad, t = { s with
  warp := { s.warp with v := v, empty := empty, poison := poison, fills := fills, chans := chans, done := done, rob := rob }
  team := { s.team with scratch := scratch, badScratch := bad } }

theorem Performed.atomOnly {s v t : State} {old : List (Nat × W64)} (hv : RobOnly s v) (h : Performed v t old) (u : State) :
    AtomOnly s (t.takePops u) := by
  obtain ⟨_, rfl⟩ := hv
  obtain ⟨_, _, -, rfl⟩ := h
  exact ⟨_, _, _, _, _, _, _, _, _, rfl⟩

theorem BytesOnly.atomOnly {s v t : State} (hv : RobOnly s v) (h : BytesOnly v t) (u : State) : AtomOnly s (t.takePops u) := by
  obtain ⟨_, rfl⟩ := hv
  obtain ⟨_, _, -, rfl⟩ := h
  exact ⟨_, _, _, _, _, _, _, _, _, rfl⟩

theorem AtomOnly.writeGroup {s t : State} (h : AtomOnly s t) (n count : Nat) (m : Mask) (x : Nat → List W32) :
    AtomOnly s (t.writeGroup n count m x) := by
  obtain ⟨_, _, _, _, hgroup⟩ := writeGroup_frame t n count m x
  rw [hgroup]
  obtain ⟨_, _, _, _, _, _, _, _, _, rfl⟩ := h
  exact ⟨_, _, _, _, _, _, _, _, _, rfl⟩

/-- What the word leaves when it retires after its BEGIN, if it made one. -/
theorem AtomOnly.retired {s w u : State} (hw : AtomOnly s w) (hu : BeginOnly w u) : Claims.Retired s u.retireLane ∧
    u.retireLane.dev = s.dev ∧ u.retireLane.warp.s = s.warp.s ∧ u.retireLane.warp.preds = s.warp.preds ∧
    (∀ x, Claims.scratchAt u.retireLane x = Claims.scratchAt w x) ∧ ∀ q l, u.retireLane.vreg q l = w.vreg q l := by
  obtain ⟨_, _, _, _, rfl⟩ := hu
  obtain ⟨_, _, _, _, _, _, _, _, _, rfl⟩ := hw
  obtain ⟨-, hs, hpreds, -, -, -, -⟩ := retireWord_registers _
  exact ⟨retired_retireLane rfl rfl rfl, rfl, hs, hpreds, fun x => rfl, fun q l => vreg_retireLane _ q l⟩

theorem beginOnly_if (s : State) (sc : Scope) (c : Bool) : BeginOnly s (if c then s.begin sc else s) := by
  cases c
  · exact ⟨_, _, _, _, rfl⟩
  · exact beginOnly_begin s sc

theorem AtomOnly.begun {s w : State} (hw : AtomOnly s w) (sc : Scope) (c : Bool) :
    Claims.Begun s (if c then w.begin sc else w).retireLane (if c then sc else .team) := by
  have hbegun : Claims.Begun w (if c then w.begin sc else w) (if c then sc else .team) := by
    cases c
    · exact begun_team rfl rfl
    · exact begun_begin w sc
  obtain ⟨_, _, _, _, _, _, _, _, _, rfl⟩ := hw
  exact Begun.congr hbegun rfl rfl (.refl _) rfl rfl rfl rfl

theorem vreg_of_performed {s v t : State} {old : List (Nat × W64)} (hv : RobOnly s v) (h : Performed v t old) (u : State) (q l : Nat) :
    (t.takePops u).vreg q l = s.vreg q l := by
  obtain ⟨_, rfl⟩ := hv
  obtain ⟨_, _, -, rfl⟩ := h
  rfl

theorem vreg_of_bytesOnly {s v t : State} (hv : RobOnly s v) (h : BytesOnly v t) (u : State) (q l : Nat) :
    (t.takePops u).vreg q l = s.vreg q l := by
  obtain ⟨_, rfl⟩ := hv
  obtain ⟨_, _, -, rfl⟩ := h
  rfl

theorem done_of_performed {s v t : State} {old : List (Nat × W64)} (hv : RobOnly s v) (h : Performed v t old)
    (hdone : s.warp.done = []) : t.warp.done = old := by
  obtain ⟨_, rfl⟩ := hv
  obtain ⟨_, _, -, rfl⟩ := h
  exact congrArg (· ++ old) hdone

/-- The registers of the destination get the words of the old values. -/
theorem vreg_atomGives {s v t : State} {a : LaneArgs} {k : VReg} {dbl : Bool} {old : List (Nat × List Byte)} (hv : RobOnly s v)
    (h : Performed v t (oldValues old)) (hdone : s.warp.done = []) (hlen : ∀ z ∈ old, z.2.length ≤ 8) (q l : Nat) (hl : l < 32) :
    (t.atomGives a k dbl).vreg q l = if a.m.has l = true ∧ k.toNat ≤ q ∧ q < k.toNat + dblRegs dbl then
      Claims.wordOf (Claims.leNat (Claims.oldOf old l)) (q - k.toNat) else s.vreg q l := by
  rw [State.atomGives, vreg_writeGroup _ _ _ _ _ _ _ hl, vreg_of_performed hv h, oldWords, done_of_performed hv h hdone]
  split
  · next hq =>
    obtain ⟨-, hfirst, hlast⟩ := hq
    rw [oldWords_getD _ (dbl := dbl) (by omega), toNat_oldValues hlen]
  · rfl

/-- The waits of a lane atomic for its turn in the clearing. -/
theorem waitsAt_clearing {s v : State} {i : Instr} {a : LaneArgs} (hv : RobOnly s v)
    (h : exec i s = .next (((v.onWarp (fun w => { w with clearL := .waiting })).logWord a).waitLane 14)) : Claims.WaitsAt s i 14 := by
  have hstate : ∃ rob, (v.onWarp (fun w => { w with clearL := .waiting })).logWord a =
      { s with warp := { s.warp with rob := rob, clearL := .waiting } } := by
    obtain ⟨_, rfl⟩ := hv
    exact ⟨_, rfl⟩
  obtain ⟨_, hstate⟩ := hstate
  rw [hstate] at h
  exact ⟨_, h, noRegisters_of_warp rfl rfl rfl rfl rfl rfl, rfl, rfl, rfl, rfl⟩

theorem begins_iff {o : Order} {m : Mask} : (Order.acquires o && m != 0) = true ↔ (o = .acq ∨ o = .ar) ∧ m ≠ 0 := by
  rw [Bool.and_eq_true, acquires_iff, bne_iff_ne]

/-- What lane atomics leave: the scratchpad and the old values of a sequence r, and a BEGIN at a scope. -/
def AtomsLeave (s u : State) (r : Store 8 × List (Nat × List Byte)) (d : Option VReg) (m : Mask) (dbl : Bool) (scope : Scope) : Prop :=
  Claims.Retired s u ∧ u.dev = s.dev ∧ u.warp.s = s.warp.s ∧ u.warp.preds = s.warp.preds ∧
    (∀ x, Claims.scratchAt u x = Store.get r.1 x) ∧
    (∀ q l, l < 32 → u.vreg q l = match d with
      | some k => if m.has l = true ∧ k.toNat ≤ q ∧ q < k.toNat + dblRegs dbl then
          Claims.wordOf (Claims.leNat (Claims.oldOf r.2 l)) (q - k.toNat) else s.vreg q l
      | none => s.vreg q l) ∧
    Claims.Begun s u scope

/-- What an atomic that returns its old values leaves. -/
theorem atomGives_leaves {s v t : State} {a : LaneArgs} {k : VReg} {scope : Scope} {o : Order} {dbl : Bool}
    {r : Store 8 × List (Nat × List Byte)} (hv : RobOnly s v) (hdone : s.warp.done = []) (hperf : Performed v t (oldValues r.2))
    (hlen : ∀ z ∈ r.2, z.2.length ≤ 8) (hscratch : ∀ x, Claims.scratchAt t x = Store.get r.1 x) :
    AtomsLeave s (if Order.acquires o && a.m != 0 then (t.atomGives a k dbl).begin scope else t.atomGives a k dbl).retireLane
      r (some k) a.m dbl (if (o = .acq ∨ o = .ar) ∧ a.m ≠ 0 then scope else .team) := by
  have honly : AtomOnly s (t.atomGives a k dbl) := (hperf.atomOnly hv a.after).writeGroup _ _ _ _
  have hbytes (x : Nat) : Claims.scratchAt (t.atomGives a k dbl) x = Claims.scratchAt t x := by
    obtain ⟨_, _, _, _, hgroup⟩ := writeGroup_frame (t.takePops a.after) k.toNat (dblRegs dbl) a.m (oldWords t)
    rw [State.atomGives, hgroup]
    rfl
  obtain ⟨hretired, hdev, hs, hpreds, hkept, hregs⟩ :=
    honly.retired (beginOnly_if (t.atomGives a k dbl) scope (Order.acquires o && a.m != 0))
  refine ⟨hretired, hdev, hs, hpreds, fun x => (hkept x).trans ((hbytes x).trans (hscratch x)), fun q l hl => ?_, ?_⟩
  · rw [hregs, vreg_atomGives hv hperf hdone hlen q l hl]
  · have hbegun := honly.begun scope (Order.acquires o && a.m != 0)
    rwa [if_congr (begins_iff (o := o) (m := a.m)) (rfl : scope = scope) rfl] at hbegun

/-- What ATOMN leaves, performed at once or queued. -/
theorem atomn_leaves {s w : State} {r : Store 8 × List (Nat × List Byte)} (honly : AtomOnly s w)
    (hscratch : ∀ x, Claims.scratchAt w x = Store.get r.1 x) (hregs : ∀ q l, w.vreg q l = s.vreg q l) (m : Mask) (dbl : Bool) :
    AtomsLeave s w.retireLane r none m dbl .team := by
  obtain ⟨hretired, hdev, hs, hpreds, hkept, hvreg⟩ := honly.retired (beginOnly_if w .team false)
  exact ⟨hretired, hdev, hs, hpreds, fun x => (hkept x).trans (hscratch x), fun q l _ => (hvreg q l).trans (hregs q l),
    honly.begun .team false⟩

/-! ### Inside the scratchpad -/

section
variable {i : Instr} {g : Guard} {op : Option AtomOp} {scope : Scope} {o : Order} {dbl : Bool} {sc : AScale} {d : Option VReg}
  {base : SReg} {off c : Value} {disp : W32} {s t : State} {m : Mask} {A : Nat → W64} {y : Nat → List W32} {n : Nat}
  (hform : Claims.laneAtomOf i = some (g, op, scope, o, dbl, sc, d, base, off, disp, c)) (hgo : (Instr.use i).gate s = .go)
  (hm : m = s.active g) (hA : ∀ l, A l = Claims.laneAddr s base (s.readSrc (m != 0) off).2 sc.mul disp l)
  (hread : (s.readSrc (m != 0) off).1.readGroup (m != 0) c (dblRegs dbl) = (t, y)) (hn : n = widthOf dbl)
  (hrel : o = .rel ∨ o = .ar → s.warp.wbuf = []) (hin : Claims.LanesInScratch s m [.r, .w] n A)
include hform hgo hm hA hread hn hrel hin

/-- How the access runs up to its operations: on the operands that the registers hold, and through the front that all share. -/
theorem laneAtom_runs : ∃ v a, RobOnly s v ∧ Claims.AccessRuns s (Instr.use i) ∧ s.laneArgs (Instr.use i) = a ∧
    a.addrs sc.mul disp = m.lanes.map (fun l => (l, A l)) ∧ a.m = m ∧ a.data = y ∧
    s.atomFront o dbl (m.lanes.map (fun l => (l, A l))) = if s.fenceBusy && m != 0 then .wait v 15 else .ok v () := by
  obtain ⟨-, hg, hlog⟩ := laneAtom_cases hform
  obtain ⟨v, hrob, hfront⟩ := atomFront_scratch hin hn fun ho => hrel ((releases_iff o).mp ho)
  have hruns := accessRuns_scratch hin hgo
  obtain ⟨-, -, hhead, -, -⟩ := hin
  exact ⟨v, _, hrob, hruns, (laneArgs_new (Instr.use i) hhead).trans (readArgs_data hlog (hg ▸ hm) hread),
    addrs_eq sc.mul disp hA, rfl, rfl, hfront⟩

theorem laneAtom_fenced (hsome : m ≠ 0) (hfence : s.fenceBusy = true) : Claims.WaitsAt s i 15 := by
  obtain ⟨v, a, hrob, hruns, ha, haddrs, -, -, hfront⟩ := laneAtom_runs hform hgo hm hA hread hn hrel hin
  rw [hfence, Bool.true_and, if_pos (bne_iff_ne.mpr hsome), ← haddrs] at hfront
  obtain ⟨⟨k, -, hexec⟩ | ⟨p, -, -, rfl⟩, -⟩ := laneAtom_cases hform
  · exact waitsAt_of_rob hrob ((hexec s).trans (congrArg _ (atomReturn_front_wait hruns ha hfront)))
  · exact waitsAt_of_rob hrob (atomn_front_wait hruns ha hfront)

theorem laneAtom_front_ok (hfence : m = 0 ∨ s.fenceBusy = false) : ∃ v a, RobOnly s v ∧ Claims.AccessRuns s (Instr.use i) ∧
    s.laneArgs (Instr.use i) = a ∧ a.addrs sc.mul disp = m.lanes.map (fun l => (l, A l)) ∧ a.m = m ∧ a.data = y ∧
    s.atomFront o dbl (a.addrs sc.mul disp) = .ok v () := by
  obtain ⟨v, a, hrob, hruns, ha, haddrs, ham, hdata, hfront⟩ := laneAtom_runs hform hgo hm hA hread hn hrel hin
  have hfree : (s.fenceBusy && m != 0) = false := by rcases hfence with h | h <;> simp [h]
  rw [hfree, if_neg Bool.false_ne_true, ← haddrs] at hfront
  exact ⟨v, a, hrob, hruns, ha, haddrs, ham, hdata, hfront⟩

theorem laneAtom_clearing (hsome : m ≠ 0) (hfence : s.fenceBusy = false) (hd : d.isSome = true) (hdet : s.team.det = true)
    (hturn : s.warp.clearL ≠ .granted) : Claims.WaitsAt s i 14 := by
  obtain ⟨v, a, hrob, hruns, ha, -, rfl, -, hfront⟩ := laneAtom_front_ok hform hgo hm hA hread hn hrel hin (.inr hfence)
  have hstill : v.team.det = true ∧ v.warp.clearL ≠ .granted := by
    obtain ⟨_, rfl⟩ := hrob
    exact ⟨hdet, hturn⟩
  obtain ⟨hdet, hturn⟩ := hstill
  obtain ⟨⟨k, -, hexec⟩ | ⟨p, rfl, -, -⟩, -⟩ := laneAtom_cases hform
  · exact waitsAt_clearing hrob ((hexec s).trans (congrArg _ (atomReturn_clearing_wait hruns ha hfront hsome hdet hturn)))
  · cases hd

/-- ATOM and ACAS: the lanes in order, the words of the old values, and the BEGIN of an acquire. -/
theorem atomReturn_leaves {k : VReg} (hexec : ∀ s, exec i s = .next (s.atomReturn (Instr.use i) op scope o dbl sc k disp))
    (hdone : s.warp.done = []) (hfence : m = 0 ∨ s.fenceBusy = false)
    (hturn : m = 0 ∨ s.team.det = false ∨ s.warp.clearL = .granted) : ∃ u, exec i s = .next u ∧
    AtomsLeave s u (Claims.seqAtoms op dbl (m.lanes.map (fun l => (l, A l, Claims.pairOf (y l),
      Claims.pairOf ((List.range (dblRegs dbl)).map (fun j => s.vreg (k.toNat + j) l))))) s.team.scratch) (some k) m dbl
      (if (o = .acq ∨ o = .ar) ∧ m ≠ 0 then scope else .team) := by
  obtain ⟨v, a, hrob, hruns, ha, haddrs, rfl, rfl, hfront⟩ := laneAtom_front_ok hform hgo hm hA hread hn hrel hin hfence
  obtain ⟨u, hrun, hperf, hscratch⟩ := performAtoms_lanes hin hn true scope op a.data
    (s.readGroup (a.m != 0) (.reg k false) (dblRegs dbl)).2 hrob hdone
  rw [← haddrs] at hrun
  have hturn : a.m = 0 ∨ v.team.det = false ∨ v.warp.clearL = .granted := by
    obtain ⟨_, rfl⟩ := hrob
    exact hturn
  exact ⟨_, (hexec s).trans (congrArg _ (atomReturn_ok hruns ha hfront hturn hrun)),
    atomGives_leaves hrob hdone hperf (length_seqAtoms op dbl _ _) hscratch⟩

end

/-- ATOMN: the lanes in order, under DET too. -/
theorem atomn_sequential {g : Guard} {p : AtomOp} {scope : Scope} {o : Order} {dbl : Bool} {sc : AScale} {base : SReg} {off c : Value}
    {disp : W32} {s t : State} {m : Mask} {A : Nat → W64} {y : Nat → List W32} {n : Nat}
    (hgo : (Instr.use (.atomn g p scope o dbl sc base off disp c)).gate s = .go) (hm : m = s.active g)
    (hA : ∀ l, A l = Claims.laneAddr s base (s.readSrc (m != 0) off).2 sc.mul disp l)
    (hread : (s.readSrc (m != 0) off).1.readGroup (m != 0) c (dblRegs dbl) = (t, y)) (hn : n = widthOf dbl)
    (hrel : o = .rel ∨ o = .ar → s.warp.wbuf = []) (hin : Claims.LanesInScratch s m [.r, .w] n A) (hdone : s.warp.done = [])
    (hfence : m = 0 ∨ s.fenceBusy = false) : ∃ u, exec (.atomn g p scope o dbl sc base off disp c) s = .next u ∧
    AtomsLeave s u (Claims.seqAtoms (some p) dbl (m.lanes.map (fun l => (l, A l, Claims.pairOf (y l), Claims.pairOf [])))
      s.team.scratch) none m dbl .team := by
  have hinside : anyOutside (m.lanes.map (fun l => (l, A l))) = false := by
    rw [anyOutside, List.any_eq_false]
    exact fun x hx => by simp [inAperture_lanes hin x hx]
  obtain ⟨v, a, hrob, hruns, ha, haddrs, rfl, rfl, hfront⟩ := laneAtom_front_ok rfl hgo hm hA hread hn hrel hin hfence
  rw [← haddrs] at hinside
  by_cases hqueue : (v.team.det && !Order.acquires o) = true
  · obtain ⟨hbytes, hscratch⟩ := queueAtoms_lanes hin hn p a.data (fun _ => []) hrob
    rw [← haddrs] at hbytes hscratch
    exact ⟨_, atomn_queues hruns ha hfront hqueue,
      atomn_leaves (hbytes.atomOnly hrob a.after) hscratch (vreg_of_bytesOnly hrob hbytes a.after) a.m dbl⟩
  · obtain ⟨u, hrun, hperf, hscratch⟩ := performAtoms_lanes hin hn false scope (some p) a.data (fun _ => []) hrob hdone
    rw [← haddrs] at hrun
    have hnow : v.team.det = false ∨ Order.acquires o = true := by
      cases hdet : v.team.det
      · exact .inl rfl
      · exact .inr (by simpa [hdet] using hqueue)
    exact ⟨_, atomn_ok hruns ha hfront (hnow.imp_right fun h => ⟨hinside, h⟩) hrun,
      atomn_leaves (hperf.atomOnly hrob a.after) hscratch (vreg_of_performed hrob hperf a.after) a.m dbl⟩

/-- Settles O44: the lanes are performed one after another from the scratchpad as it is, and their old values are what is written. -/
theorem laneAtomicsAreSequential : Obligations.LaneAtomicsAreSequential := by
  intro i g op scope o dbl sc d base off disp c s t m A y n hform hgo hm hA hn hread hrel
  obtain ⟨hcases, -, -⟩ := laneAtom_cases hform
  refine ⟨fun hin => laneAtom_fenced hform hgo hm hA hread hn hrel hin,
    fun hin hsome hfence => laneAtom_clearing hform hgo hm hA hread hn hrel hin hsome hfence,
    fun r hin hdone hfence hturn hr => ?_,
    fun a lanes v hruns ha hlanes hfront => ⟨fun k u e hd hturn he hperf => ?_, fun u hd hdet hperf => ?_⟩⟩
  · subst hr
    obtain ⟨k, rfl, hexec⟩ | ⟨p, rfl, rfl, rfl⟩ := hcases
    · have hturn : m = 0 ∨ s.team.det = false ∨ s.warp.clearL = .granted := by simpa using hturn
      have hsome : (some k).isSome = true ∧ (o = .acq ∨ o = .ar) ∧ m ≠ 0 ↔ (o = .acq ∨ o = .ar) ∧ m ≠ 0 := and_iff_right rfl
      rw [if_congr hsome rfl rfl]
      exact atomReturn_leaves hform hgo hm hA hread hn hrel hin hexec hdone hfence hturn
    · exact atomn_sequential hgo hm hA hread hn hrel hin hdone hfence
  · subst hlanes he
    obtain ⟨k', hk, hexec⟩ | ⟨p, hnone, -, -⟩ := hcases
    · obtain rfl : k' = k := Option.some.inj (hk.symm.trans hd)
      refine ⟨_, rfl, (hexec s).trans (congrArg _ ((atomReturn_ok hruns ha.symm hfront (.inr hturn) hperf).trans ?_))⟩
      rw [if_congr begins_iff rfl rfl]
      rfl
    · cases hnone.symm.trans hd
  · subst hlanes
    obtain ⟨k, hsome, -⟩ | ⟨p, -, rfl, rfl⟩ := hcases
    · cases hsome.symm.trans hd
    · exact atomn_ok hruns ha.symm hfront (.inl hdet) hperf

end Sys2Proof.Machine
end

section
/-!
PROOFS. The range loads LDA, FIND and PICK (11:R228 to R232).
-/

namespace Sys2Proof.Machine

open Sys2Proof

/-! ### Operands and results -/

/-- A data operand of one register is read as a source is. -/
theorem readGroup_one (s : State) (any : Bool) (v : Value) :
    s.readGroup any v 1 = ((s.readSrc any v).1, fun l => [(s.readSrc any v).2 l]) := by cases v <;> rfl

theorem readArgs_mask {s : State} {u : LaneUse} {base : SReg} {off : Option Value} {data : Option (Value × Nat)}
    (hlog : u.log = some (base, off, data)) : (s.readArgs u).m = s.active u.g := by
  simp only [State.readArgs, hlog]
theorem readArgs_base {s : State} {u : LaneUse} {base : SReg} {off : Option Value} {data : Option (Value × Nat)}
    (hlog : u.log = some (base, off, data)) : (s.readArgs u).base = s.src64 base := by
  simp only [State.readArgs, hlog]

/-- The pair that an LDA may write is no operand: the guard and the logged operands are the instruction's own. -/
theorem rangeUse_operands (s : State) (u : LaneUse) (isLda : Bool) (h : SReg) (d : VReg) :
    (s.rangeUse u isLda h d).g = u.g ∧ (s.rangeUse u isLda h d).log = u.log := by
  unfold State.rangeUse
  split
  · split <;> exact ⟨rfl, rfl⟩
  · exact ⟨rfl, rfl⟩

theorem writeGroup_pair (s : State) (d : VReg) (m : Mask) (f : Nat → W64) :
    s.writeGroup d.toNat 2 m (fun l => [lo32 (f l), hi32 (f l)]) = Claims.writtenPair s d m f := by
  have hlo : (fun l => lo32 (f l)) = fun l => Claims.n32 (f l).toNat := funext fun l => lo32_eq_ofNat (f l)
  have hhi : (fun l => hi32 (f l)) = fun l => Claims.n32 ((f l).toNat / 2 ^ 32) := funext fun l => hi32_eq_ofNat (f l)
  rw [Claims.writtenPair, ← hlo, ← hhi]
  rfl

theorem has_maskOf_filter (m : Mask) (p : Nat → Bool) {l : Nat} (hl : l < 32) :
    (maskOf (m.lanes.filter p)).has l = (m.has l && p l) := by
  have hlane : l ∈ m.lanes ↔ m.has l = true := List.mem_filter.trans (and_iff_right (List.mem_range.mpr hl))
  rw [maskOf, has_of, decide_eq_true hl, Bool.true_and, Bool.eq_iff_iff, List.contains_iff_mem, List.mem_filter, hlane, Bool.and_eq_true]

theorem filter_lanes_eq_nil {m : Mask} {p : Nat → Bool} (h : ∀ l < 32, m.has l = true → p l = false) : m.lanes.filter p = [] := by
  rw [List.filter_eq_nil_iff]
  intro l hl
  obtain ⟨hrange, hhas⟩ := List.mem_filter.mp hl
  simp [h l (List.mem_range.mp hrange) hhas]

/-! ### The frame of a range load -/

section
variable {s : State} {a : LaneArgs} {r : Region} {body : Region → Res Unit} (hsome : a.m ≠ 0) (hcheck : ∀ t, s.warp.check ≠ .failed t)
include hsome hcheck

theorem rangeLoad_none (hnone : regionOf s.ctx a.base.toNat = none) : s.rangeLoad a body = .trap s (aggTrap a.m 2) := by
  unfold State.rangeLoad
  rw [if_neg hsome]
  split
  · next t ht => exact absurd ht (hcheck t)
  · rw [hnone]

theorem rangeLoad_region (hr : regionOf s.ctx a.base.toNat = some r) : s.rangeLoad a body = body r := by
  unfold State.rangeLoad
  rw [if_neg hsome]
  split
  · next t ht => exact absurd ht (hcheck t)
  · rw [hr]

end

/-- With nothing before it at the tree home and every element sound, a range load writes its answers. -/
theorem rangeAnswer_ok {s t : State} {m : Mask} {r : Region} {bad : Nat → Bool} (write : State → State)
    (hbusy : s.homeBusy r.ia = false) (hholds : s.homeHolds (s.home r.ia) true = false)
    (hsound : ∀ l < 32, m.has l = true → bad l = false) : s.rangeAnswer t m r bad write = .ok (write t) () := by
  simp only [State.rangeAnswer, hbusy, hholds, filter_lanes_eq_nil hsound, Bool.or_self, Bool.false_eq_true, if_false, List.isEmpty_nil,
    if_true]

/-! ### A range load that executes for the first time -/

section
variable {s t : State} {u : LaneUse} {m : Mask} {h : SReg} {body : LaneArgs → State → Region → Res Unit} {r : Region}
  (hpark : s.warp.parkL = none) (hhead : s.warp.headEntry = none) (hroom : s.logUsed < 16) (hcheck : ∀ t, s.warp.check ≠ .failed t)
  (hgo : u.gate s = .go) (hsome : m ≠ 0)
include hpark hhead hroom hcheck hgo hsome

theorem rangeAccess_none (hm : m = s.active u.g) {off : Option Value} {data : Option (Value × Nat)} (hlog : u.log = some (h, off, data))
    (hnone : regionOf s.ctx (s.src64 h).toNat = none) :
    s.laneAccess u (fun a s => s.rangeLoad a (body a s)) = s.laneTrap false (aggTrap m 2) := by
  subst hm
  rw [← readArgs_mask hlog] at hsome ⊢
  exact laneAccess_new_trap hpark hgo hhead hroom (rangeLoad_none hsome hcheck (by rwa [readArgs_base hlog]))

variable {x : LaneVec} {y : Nat → List W32} (hargs : s.readArgs u = ⟨m, s.src64 h, x, y, t⟩)
  (hr : regionOf s.ctx (s.src64 h).toNat = some r)
include hargs hr

theorem rangeAccess_ok {v : State} (hbody : body ⟨m, s.src64 h, x, y, t⟩ s r = .ok v ()) :
    s.laneAccess u (fun a s => s.rangeLoad a (body a s)) = v.retireLane := by
  refine laneAccess_new_ok hpark hgo hhead hroom ?_
  rw [hargs]
  exact (rangeLoad_region hsome hcheck hr).trans hbody

theorem rangeAccess_trap {e : MemTrap} (hbody : body ⟨m, s.src64 h, x, y, t⟩ s r = .trap s e) :
    s.laneAccess u (fun a s => s.rangeLoad a (body a s)) = s.laneTrap false e := by
  refine laneAccess_new_trap hpark hgo hhead hroom ?_
  rw [hargs]
  exact (rangeLoad_region hsome hcheck hr).trans hbody

end

/-! ### The instructions -/

section
variable {g : Guard} {q : Pred} {d : VReg} {h : SReg} {a b : Value} {s t : State} {m : Mask} {r : Region} (hm : m = s.active g)
  (hsome : m ≠ 0) (hpark : s.warp.parkL = none) (hhead : s.warp.headEntry = none) (hroom : s.logUsed < 16)
  (hcheck : ∀ t, s.warp.check ≠ .failed t)
include hm hsome

theorem readArgs_lda {x y : LaneVec} (hread : Claims.readAll s true [a, b] = (t, [x, y])) :
    s.readArgs (Claims.useOf s (.lda g q d h a b)) = ⟨m, s.src64 h, x, fun l => [y l], t⟩ := by
  obtain ⟨hguard, hlog⟩ := rangeUse_operands s (Instr.use (.lda g q d h a b)) true h d
  have hany : (m != 0) = true := bne_iff_ne.mpr hsome
  simp only [Claims.readAll, Prod.mk.injEq, List.cons.injEq, and_true] at hread
  obtain ⟨ht, hx, hy⟩ := hread
  rw [← hx]
  conv_rhs => rw [← hany]
  refine readArgs_data (off := a) (c := b) (n := 1) hlog (hm.trans (congrArg s.active hguard.symm)) ?_
  rw [hany, readGroup_one, ht, hy]

theorem readArgs_search {u : LaneUse} {x : LaneVec} (hlog : u.log = some (h, some a, none)) (hguard : u.g = g)
    (hread : s.readSrc true a = (t, x)) : s.readArgs u = ⟨m, s.src64 h, x, fun _ => [], t⟩ := by
  have hany : (m != 0) = true := bne_iff_ne.mpr hsome
  rw [readArgs_address hlog (hm.trans (congrArg s.active hguard.symm)), hany, hread]

include hpark hhead hroom hcheck

theorem exec_range_none {i : Instr} (hi : i = .lda g q d h a b ∨ i = .find g q d h a ∨ i = .pick g q d h a)
    (hgo : (Claims.useOf s i).gate s = .go) (hnone : regionOf s.ctx (s.src64 h).toNat = none) :
    exec i s = .next (s.laneTrap false (aggTrap m 2)) := by
  rcases hi with rfl | rfl | rfl
  · obtain ⟨hguard, hlog⟩ := rangeUse_operands s (Instr.use (.lda g q d h a b)) true h d
    exact congrArg _ (rangeAccess_none hpark hhead hroom hcheck hgo hsome (hm.trans (congrArg s.active hguard.symm)) hlog hnone)
  · exact congrArg _ (rangeAccess_none hpark hhead hroom hcheck hgo hsome hm rfl hnone)
  · exact congrArg _ (rangeAccess_none hpark hhead hroom hcheck hgo hsome hm rfl hnone)

variable (hr : regionOf s.ctx (s.src64 h).toNat = some r)
include hr

section
variable {x y : LaneVec} (hgo : (Claims.useOf s (.lda g q d h a b)).gate s = .go)
  (hread : Claims.readAll s true [a, b] = (t, [x, y]))
include hgo hread

theorem exec_lda_odd (hodd : r.kind = 0 ∧ d.toNat % 2 = 1) : exec (.lda g q d h a b) s = .next (s.laneTrap false (aggTrap m 5)) :=
  congrArg _ (rangeAccess_trap hpark hhead hroom hcheck hgo hsome (readArgs_lda hm hsome hread) hr (if_pos hodd))

variable (heven : ¬(r.kind = 0 ∧ d.toNat % 2 = 1))
include heven

theorem exec_lda_unordered (hbad : ∃ l < 32, m.has l = true ∧ ((y l).toNat < (x l).toNat ∨ r.n < (y l).toNat)) :
    exec (.lda g q d h a b) s = .next (s.laneTrap false (aggTrap
      (maskOf (m.lanes.filter (fun l => decide ((y l).toNat < (x l).toNat) || decide (r.n < (y l).toNat)))) 4)) := by
  refine congrArg _ (rangeAccess_trap hpark hhead hroom hcheck hgo hsome (readArgs_lda hm hsome hread) hr ?_)
  refine (if_neg heven).trans (if_pos ?_)
  obtain ⟨l, hl, hhas, hbad⟩ := hbad
  have hmem : l ∈ m.lanes.filter (fun l => decide ((y l).toNat < (x l).toNat) || decide (r.n < (y l).toNat)) :=
    List.mem_filter.mpr ⟨List.mem_filter.mpr ⟨List.mem_range.mpr hl, hhas⟩, by simpa using hbad⟩
  rw [Bool.not_eq_true', List.isEmpty_eq_false_iff]
  exact List.ne_nil_of_mem hmem

theorem exec_lda_answers (hbusy : s.homeBusy r.ia = false) (hholds : s.homeHolds (s.home r.ia) true = false)
    (hsound : ∀ l < 32, m.has l = true → (x l).toNat ≤ (y l).toNat ∧ (y l).toNat ≤ r.n ∧
      ldaBad s.dev s.ctx r (x l).toNat (y l).toNat = false) :
    exec (.lda g q d h a b) s = .next (((if r.kind = 0
        then Claims.writtenPair t d m (fun l => ldaAnswer s.dev s.ctx r (x l).toNat (y l).toNat)
        else t.writeV d.toNat m (fun l => Claims.n32 (ldaAnswer s.dev s.ctx r (x l).toNat (y l).toNat).toNat)).writeP q m
      (fun l => decide ((x l).toNat < (y l).toNat))).retireLane) := by
  have hordered : m.lanes.filter (fun l => decide ((y l).toNat < (x l).toNat) || decide (r.n < (y l).toNat)) = [] := by
    refine filter_lanes_eq_nil fun l hl hhas => ?_
    obtain ⟨hle, hin, -⟩ := hsound l hl hhas
    simp [hle, hin]
  have hlo : (fun l => Claims.n32 (ldaAnswer s.dev s.ctx r (x l).toNat (y l).toNat).toNat) =
      fun l => lo32 (ldaAnswer s.dev s.ctx r (x l).toNat (y l).toNat) := funext fun l => (lo32_eq_ofNat _).symm
  refine congrArg _ (rangeAccess_ok hpark hhead hroom hcheck hgo hsome (readArgs_lda hm hsome hread) hr ?_)
  refine (if_neg heven).trans ((if_neg ?_).trans ((rangeAnswer_ok _ hbusy hholds fun l hl hhas => ?_).trans ?_))
  · simp [hordered]
  · obtain ⟨-, -, hgood⟩ := hsound l hl hhas
    exact hgood
  · rw [← writeGroup_pair, hlo]
    rfl

end

section
variable {x : LaneVec} (hread : s.readSrc true a = (t, x))
include hread

theorem exec_find_answers (hgo : (Instr.use (.find g q d h a)).gate s = .go) (hbusy : s.homeBusy r.ia = false)
    (hholds : s.homeHolds (s.home r.ia) true = false)
    (hsound : ∀ l < 32, m.has l = true → searchBad s.dev s.ctx r (findAnswer s.dev s.ctx r (x l)) = false) :
    exec (.find g q d h a) s = .next (((t.writeV d.toNat m (fun l => Claims.n32 (findAnswer s.dev s.ctx r (x l)))).writeP q m
      (fun l => decide (findAnswer s.dev s.ctx r (x l) < r.n))).retireLane) :=
  congrArg _ (rangeAccess_ok hpark hhead hroom hcheck hgo hsome (readArgs_search hm hsome rfl rfl hread) hr
    (rangeAnswer_ok _ hbusy hholds hsound))

variable (hgo : (Instr.use (.pick g q d h a)).gate s = .go)
include hgo

theorem exec_pick_extreme (hkind : 2 ≤ r.kind) : exec (.pick g q d h a) s = .next (s.laneTrap false (aggTrap m 5)) :=
  congrArg _ (rangeAccess_trap hpark hhead hroom hcheck hgo hsome (readArgs_search hm hsome rfl rfl hread) hr (if_pos hkind))

theorem exec_pick_answers (hkind : r.kind < 2) (hbusy : s.homeBusy r.ia = false) (hholds : s.homeHolds (s.home r.ia) true = false)
    (hsound : ∀ l < 32, m.has l = true → searchBad s.dev s.ctx r (pickAnswer s.dev s.ctx r (x l)) = false) :
    exec (.pick g q d h a) s = .next (((t.writeV d.toNat m (fun l => Claims.n32 (pickAnswer s.dev s.ctx r (x l)))).writeP q m
      (fun l => decide (pickAnswer s.dev s.ctx r (x l) < r.n))).retireLane) :=
  congrArg _ (rangeAccess_ok hpark hhead hroom hcheck hgo hsome (readArgs_search hm hsome rfl rfl hread) hr
    ((if_neg (Nat.not_le.mpr hkind)).trans (rangeAnswer_ok _ hbusy hholds hsound)))

end

end

/-- Settles O46: a range load answers from its region's tree, or raises AGG_FAULT with the detail of the first thing against it. -/
theorem rangeLoadsAnswerFromTheTree : Obligations.RangeLoadsAnswerFromTheTree := by
  intro g q d h a b s m r hm hsome hpark hhead hroom hcheck
  refine ⟨fun i hi hgo hnone => exec_range_none hm hsome hpark hhead hroom hcheck hi hgo hnone,
    fun t x y hr hgo hread heven hbad => ?unordered, fun hr hbusy hholds => ⟨fun t x y hgo hread => ⟨fun hodd => ?_, fun heven hsound => ?_⟩,
      fun t x hgo hread hsound => ?_, fun t x hgo hread => ⟨fun hkind => ?_, fun hkind hsound => ?_⟩⟩⟩
  case unordered =>
    exact ⟨_, exec_lda_unordered hm hsome hpark hhead hroom hcheck hr hgo hread heven hbad, fun l hl => has_maskOf_filter m _ hl⟩
  · exact exec_lda_odd hm hsome hpark hhead hroom hcheck hr hgo hread hodd
  · exact ⟨_, _, fun _ => rfl, rfl, exec_lda_answers hm hsome hpark hhead hroom hcheck hr hgo hread heven hbusy hholds hsound⟩
  · exact exec_find_answers hm hsome hpark hhead hroom hcheck hr hread hgo hbusy hholds hsound
  · exact exec_pick_extreme hm hsome hpark hhead hroom hcheck hr hread hgo hkind
  · exact exec_pick_answers hm hsome hpark hhead hroom hcheck hr hread hgo hkind hbusy hholds hsound

end Sys2Proof.Machine
end

section
/-!
PROOFS. AGDECL and AGDROP (11:R216 to R220; 20:R323, R324).
-/

namespace Sys2Proof.Machine

open Sys2Proof

/-! ### The warp and the context in front across a declaration and a drop -/

/-- The warp and the context in front. -/
def State.warpAndCtx (s : State) : Warp × Context := (s.warp, s.ctx)

theorem warpAndCtx_recallHoming (s : State) (region : Nat) (all : Bool) : (s.recallHoming region all).warpAndCtx = s.warpAndCtx := by
  unfold State.recallHoming State.warpAndCtx
  obtain ⟨hctx, -⟩ := sameCtxs_recallLines s (fun line => decide ((untag line).2 / 65536 = region)) all
  rw [recallLines_warp, hctx]

theorem warpAndCtx_splitPage (s : State) (c : Context) (page : Nat) : (s.splitPage c page).warpAndCtx = s.warpAndCtx := by
  unfold State.splitPage
  split
  · split <;> rfl
  · rfl
  · rfl

theorem warpAndCtx_pinPage (s : State) (c : Context) (page : Nat) : (s.pinPage c page).warpAndCtx = s.warpAndCtx := by
  unfold State.pinPage
  split <;> rfl

theorem warpAndCtx_setPageClass (s : State) (c : Context) (page k : Nat) : (s.setPageClass c page k).warpAndCtx = s.warpAndCtx := by
  unfold State.setPageClass
  split <;> rfl

theorem warpAndCtx_coresOnly {s t : State} (h : CoresOnly s t) : t.warpAndCtx = s.warpAndCtx := by
  obtain ⟨_, _, rfl⟩ := h
  rfl

theorem warpAndCtx_endShare (s : State) (cn page : Nat) : (s.endShare cn page).warpAndCtx = s.warpAndCtx := by
  unfold State.endShare
  split
  · rfl
  · dsimp only
    split <;> rfl

theorem warpAndCtx_zeroArray (s : State) (c : Context) (core : Nat) (g : Region) : (s.zeroArray c core g).warpAndCtx = s.warpAndCtx := by
  unfold State.zeroArray
  extract_lets mine u coming lines v
  have hv : v.warpAndCtx = s.warpAndCtx := foldl_frame State.warpAndCtx (fun s line =>
    warpAndCtx_coresOnly ((coresOnly_updateCopy s _ _ _).trans (coresOnly_raiseFloor _ _ _ _))) lines u
  refine (foldl_frame State.warpAndCtx (fun s part => ?_) g.parts v).trans hv
  split
  · rfl
  · rfl
  · exact warpAndCtx_endShare _ _ _

/-! ### AGDECL (11:R216, R217) -/

/-- Building the nodes of a tree changes nothing else of the region. -/
theorem region_build_eq (d : Device) (c : Context) (k : Nat) (g : Region) : ∃ nodes, Region.build d c k g = { g with nodes := nodes } := by
  induction k generalizing g with
  | zero => exact ⟨_, rfl⟩
  | succ k ih => exact ih _

/-- A declaration leaves the warp as it is, and adds its region to the context's. -/
theorem declareRegion_frame (s : State) (desc : AggDesc) (core h : Nat) : (s.declareRegion desc core h).warp = s.warp ∧
    ∃ nodes, (s.declareRegion desc core h).ctx = { s.ctx with
      regions := s.ctx.regions ++ [{ s.describe desc h with nodes := nodes }], pool := s.ctx.pool - (desc.n - 1) } := by
  unfold State.declareRegion
  extract_lets g home u v w x g'
  have hu : u.warpAndCtx = s.warpAndCtx := foldl_frame State.warpAndCtx
    (fun s r => (warpAndCtx_splitPage _ _ _).trans (warpAndCtx_recallHoming s r false)) _ s
  have hw : w.warpAndCtx = v.warpAndCtx := foldl_frame State.warpAndCtx (fun s r => warpAndCtx_pinPage s _ r) _ v
  have hx : x.warpAndCtx = w.warpAndCtx := by
    unfold x
    split
    · exact warpAndCtx_zeroArray w _ _ _
    · rfl
  obtain ⟨hwarp, hctx⟩ := Prod.mk.inj ((hx.trans hw).trans hu)
  obtain ⟨nodes, hg⟩ := region_build_eq x.dev x.ctx (desc.n - 1) g
  refine ⟨hwarp, nodes, ?_⟩
  show { x.ctx with regions := x.ctx.regions ++ [g'], pool := x.ctx.pool - (desc.n - 1) } = _
  rw [show g' = { g with nodes := nodes } from hg, show x.ctx = s.ctx from hctx]

/-- Pages that move up are asked for by messages, and their frames leave the pool of the fault service. -/
theorem migrateUp_frame (moves : List Nat) (s : State) : (moves.foldl State.migrateUp s).warp = s.warp ∧
    (moves.foldl State.migrateUp s).ctx.regions = s.ctx.regions ∧ (moves.foldl State.migrateUp s).dev = s.dev := by
  have h := foldl_frame (fun s : State => (s.warp, s.ctx.regions, s.dev)) (f := State.migrateUp) (fun s page => by
    unfold State.migrateUp
    split
    · rfl
    · split <;> rfl) moves s
  obtain ⟨hwarp, h⟩ := Prod.mk.inj h
  obtain ⟨hregions, hdev⟩ := Prod.mk.inj h
  exact ⟨hwarp, hregions, hdev⟩

/-- AGDECL's end: the handle is written, the status stands in AGSTATUS, and the stream goes on. -/
theorem finish_aggDone {t v : State} (hwarp : v.warp = t.warp) (d : SReg) (handle status : Nat) :
    ∃ u, finish (v.aggDone d handle status) = .next u ∧ u.warp.spc = t.warp.spc + 4 ∧ Claims.Wrote t u d (BitVec.ofNat 64 handle) ∧
      u.warp.agstatus = BitVec.ofNat 64 status ∧ u.ctx = v.ctx ∧ u.dev = v.dev := by
  refine ⟨_, rfl, ?_, wrote_retire (by rw [State.onWarp_warp, hwarp]) d _, ?_, ?_, ?_⟩
  · rw [retire_writeS_spc, State.onWarp_warp, hwarp]
  · rw [State.retire, State.retireTo_warp, State.writeS_warp, State.onWarp_warp]
  · rw [State.retire, State.retireTo_ctx, State.writeS_ctx, State.onWarp_ctx]
  · rw [retire_dev, State.writeS_dev, State.onWarp_dev]

/-- AGDECL's wait for pages that move up. -/
theorem finish_onPages {t v : State} (hwarp : v.warp = t.warp) :
    ∃ u, finish (.wait (v.onWarp (fun w => { w with onPages := true })) 15) = .next u ∧ u.warp.spc = t.warp.spc ∧
      u.warp.scalStalled = true ∧ u.warp.onPages = true ∧ u.ctx = v.ctx ∧ u.dev = v.dev ∧ ∀ r : SReg, u.S r = t.S r := by
  refine ⟨_, rfl, ?_, ?_, ?_, ?_, ?_, S_of_warp ?_⟩
  · rw [State.waitScalar_warp, State.onWarp_warp, hwarp]
    rfl
  · rw [State.waitScalar_warp]
  · rw [State.waitScalar_warp, State.onWarp_warp]
    rfl
  · rw [State.waitScalar_ctx, State.onWarp_ctx]
  · rw [State.waitScalar_dev, State.onWarp_dev]
  · rw [State.waitScalar_warp, State.onWarp_warp, hwarp]
    rfl

section
variable {s t : State} {d : SReg} {a : W64} {desc : AggDesc} (hread : s.readDesc a = .ok t desc)
include hread

theorem agdeclBody_status (h : t.aggStatus desc t.team.core ≠ 0) :
    s.agdeclBody d a false = t.aggDone d 0 (t.aggStatus desc t.team.core) := by
  simp only [State.agdeclBody, hread, bind_ok, if_pos h]

variable {h : Nat} (hstatus : t.aggStatus desc t.team.core = 0) (hpresent : t.aggMissing desc = none) (hfree : freeHandle t.ctx = some h)
include hstatus hpresent hfree

theorem agdeclBody_declares (hmoves : t.aggMoves desc = []) :
    s.agdeclBody d a false = (t.declareRegion desc t.team.core h).aggDone d h 0 := by
  simp only [State.agdeclBody, hread, bind_ok, hstatus, hpresent, hfree, hmoves, ne_eq, not_true_eq_false, if_false, Bool.false_eq_true]

theorem agdeclBody_moves (hmoves : t.aggMoves desc ≠ []) : s.agdeclBody d a false =
    .wait (((t.aggMoves desc).foldl State.migrateUp t).onWarp (fun w => { w with onPages := true })) 15 := by
  obtain ⟨page, rest, hcons⟩ := List.exists_cons_of_ne_nil hmoves
  simp only [State.agdeclBody, hread, bind_ok, hstatus, hpresent, hfree, hcons, ne_eq, not_true_eq_false, if_false, Bool.false_eq_true]

end

section
variable {s : State} {a : SReg} (hready : Claims.Ready s 7)
include hready

/-- AGDECL whose checks have passed and whose END has come. -/
theorem exec_agdecl (d : SReg) (hend : Claims.Ended s) (hpass : Claims.PassesIssue s [.r] true 32 8 (s.S a)) :
    exec (.agdecl d a) s = finish ((Claims.issued s .r (s.S a)).agdeclBody d (s.S a) false) := by
  obtain ⟨hpark, hfeat, -, -, hturn⟩ := hready
  have hqueue : (Claims.issued s .r (s.S a)).warp.queue = [] := by
    obtain ⟨_, hqueue, _⟩ := hend
    obtain ⟨_, _, h⟩ := issued_eq s .r (s.S a)
    rwa [h]
  have hissue : s.issueScalar _ _ _ _ _ = .ok (Claims.issued s .r (s.S a)) () := issueScalar_passes hpass
  have hended := ended_ok ((endDone_issued s .r (s.S a)).trans (endDone_of_ended hend))
  have hclear := atClearingS_ok (s := Claims.issued s .r (s.S a)) (by rwa [issued_team, issued_clearS])
  show execAgdecl d a s = _
  simp only [execAgdecl, hpark, parkedScalar_none s hpark, ite_self, needs_ok hfeat, hissue, lanesRetired_empty _ 0 hqueue, hended, hclear,
    bind_ok]

end

/-! ### The descriptor in the scratchpad (11:R216) -/

/-- An access inside the scratchpad that is aligned for more bytes than it takes passes its checks. -/
theorem passesIssue_scratch_part {s : State} {perms : List Perm} {n k : Nat} {a : W64} (hk : k ≤ n) (hin : Claims.InScratch s n a)
    (hwatch : Claims.ScalarUnwatched s perms k a) : Claims.PassesIssue s perms true n k a := by
  have hap := inAperture_of_inScratch hin
  obtain ⟨halign, hlow, hend, -⟩ := hin
  have hfits : ¬ s.team.hdr.scratch < a.toNat - 0x00FFFF0000000000 + k := by omega
  obtain ⟨htrap, hgrow⟩ := addrTrap_none (s := s) (perms := perms) (align := n) (n := k) (lanes := [(0, a)]) fun x hx => by
    obtain rfl := List.mem_singleton.mp hx
    exact ⟨halign, by rw [if_pos hap]; exact decide_eq_false hfits⟩
  exact hwatch.imp_right fun hw => ⟨by rw [scalarTrap, htrap]; rfl, hgrow, watchTrap_unwatched false hw⟩

/-- A doubleword of a sound descriptor. -/
theorem scalarLoad_descriptor {s : State} {a b : W64} (hfence : s.fenceBusy = false) (hin : Claims.InScratch s 32 a)
    (hsound : Claims.SoundScratch s 32 a) {k : Nat} (hk : k < 4) (hb : b = a + BitVec.ofNat 64 (8 * k)) :
    s.scalarLoad 8 b = .ok s (Claims.scratchBytes s 8 (a + BitVec.ofNat 64 (8 * k))) := by
  obtain ⟨halign, hlow, -, hhigh⟩ := hin
  have haddr : (a + BitVec.ofNat 64 (8 * k)).toNat = a.toNat + 8 * k := by
    rw [BitVec.toNat_add, BitVec.toNat_ofNat]
    omega
  have hap : inAperture (a + BitVec.ofNat 64 (8 * k)) = true := (inAperture_iff _).mpr (by omega)
  have hgood : s.team.apertureBad (a + BitVec.ofNat 64 (8 * k)) 8 = false := by
    refine (apertureBad_eq_false_iff hap).mpr fun j hj => ?_
    have hfar := hsound j hj
    obtain ⟨o, ho⟩ := Nat.exists_eq_add_of_le hlow
    rw [ho, Nat.add_sub_cancel_left] at hfar
    rw [haddr, ho, Nat.add_assoc, Nat.add_sub_cancel_left]
    omega
  rw [hb, scalarLoad_scratch hap, hfence, hgood]
  rfl

theorem readDesc_scratch {s : State} {a : W64} (hfence : s.fenceBusy = false) (hin : Claims.InScratch s 32 a)
    (hsound : Claims.SoundScratch s 32 a) : s.readDesc a = .ok s ⟨Claims.scratchWord s a 0, Claims.scratchWord s a 1,
      Claims.scratchWord s a 2, Claims.scratchWord s a 3⟩ := by
  have hload {b : W64} (k : Nat) (hk : k < 4) (hb : b = a + BitVec.ofNat 64 (8 * k)) := scalarLoad_descriptor hfence hin hsound hk hb
  have h0 := hload 0 (by omega) (BitVec.add_zero a).symm
  have h1 := hload (b := a + 8) 1 (by omega) rfl
  have h2 := hload (b := a + 16) 2 (by omega) rfl
  have h3 := hload (b := a + 24) 3 (by omega) rfl
  simp only [State.readDesc, h0, h1, h2, h3, bind_ok, ofBytes_eq_ofNat]
  rfl

/-- The descriptor at an address can be read: sound in the scratchpad, or elsewhere by loads that go on to a state `t`. -/
def DescriptorRead (s : State) (a : W64) (t : State) (desc : AggDesc) : Prop :=
  (Claims.InScratch s 32 a ∧ Claims.SoundScratch s 32 a ∧ Claims.ScalarUnwatched s [.r] 8 a ∧ t = Claims.issued s .r a ∧
      desc = ⟨Claims.scratchWord s a 0, Claims.scratchWord s a 1, Claims.scratchWord s a 2, Claims.scratchWord s a 3⟩) ∨
    (Claims.PassesIssue s [.r] true 32 8 a ∧ (Claims.issued s .r a).readDesc a = .ok t desc)

theorem DescriptorRead.issues {s t : State} {a : W64} {desc : AggDesc} (h : DescriptorRead s a t desc) :
    Claims.PassesIssue s [.r] true 32 8 a := by
  obtain ⟨hin, -, hwatch, -, -⟩ | ⟨hpass, -⟩ := h
  · exact passesIssue_scratch_part (by omega) hin hwatch
  · exact hpass

theorem DescriptorRead.reads {s t : State} {a : W64} {desc : AggDesc} (h : DescriptorRead s a t desc) (hend : Claims.Ended s) :
    (Claims.issued s .r a).readDesc a = .ok t desc := by
  obtain ⟨hin, hsound, -, rfl, rfl⟩ | ⟨-, hread⟩ := h
  · obtain ⟨stalls, ia, hissued⟩ := issued_eq s .r a
    have hfence := (issued_fenceBusy s .r a).trans (fenceBusy_of_ended hend)
    rw [hissued] at hfence ⊢
    exact readDesc_scratch hfence hin hsound
  · exact hread

/-! ### AGDROP (11:R220) -/

theorem lateLoads_frame (s : State) (cn handle : Nat) : (s.lateLoads cn handle).ctx = s.ctx ∧
    (s.lateLoads cn handle).warp.spc = s.warp.spc ∧ (s.lateLoads cn handle).warp.s = s.warp.s := by
  refine ⟨rfl, ?_, ?_⟩ <;>
  · unfold State.lateLoads State.mapWarps
    dsimp only
    split <;> rfl

/-- The drop of a region of the context in front. -/
theorem dropRegion_front {s : State} {h : Nat} {g : Region} (hg : s.ctx.regions.find? (fun g => g.handle == h) = some g) :
    (s.dropRegion s.ctx.num h).warp.spc = s.warp.spc ∧ (s.dropRegion s.ctx.num h).warp.s = s.warp.s ∧
      (s.dropRegion s.ctx.num h).ctx =
        { s.ctx with regions := s.ctx.regions.filter (fun x => x.handle != h), pool := s.ctx.pool + (g.n - 1) } := by
  have hctx : s.ctxOf s.ctx.num = some s.ctx := if_pos rfl
  unfold State.dropRegion
  split
  case h_1 hnone => cases hctx.symm.trans hnone
  case h_2 c₀ hc₀ =>
    obtain rfl := Option.some.inj (hctx.symm.trans hc₀)
    split
    case h_1 hnone => cases hg.symm.trans hnone
    case h_2 g' hg' =>
      obtain rfl := Option.some.inj (hg.symm.trans hg')
      extract_lets c u free pages v d w
      have hc : (s.setCtx c).ctx = c := if_pos rfl
      obtain ⟨huctx, huspc, hus⟩ := lateLoads_frame (s.setCtx c) s.ctx.num h
      have hv : v.warpAndCtx = u.warpAndCtx := foldl_frame State.warpAndCtx (fun s r => warpAndCtx_recallHoming s r false) free u
      have hw : (pages.foldl (fun s r => s.setPageClass c r 0) w).warpAndCtx = w.warpAndCtx :=
        foldl_frame State.warpAndCtx (fun s r => warpAndCtx_setPageClass s c r 0) pages w
      obtain ⟨hwarp, hctx⟩ := Prod.mk.inj (hw.trans hv)
      rw [hwarp, hctx]
      exact ⟨huspc, hus, huctx.trans hc⟩

section
variable {s : State} {a : SReg} (hready : Claims.Ready s 7)
include hready

theorem exec_agdrop : exec (.agdrop a) s = if s.ctx.regions.any (fun g => g.handle == (s.S a).toNat)
    then .next (s.dropRegion s.ctx.num (s.S a).toNat).retire else .next (s.takeTrap false false ⟨0x09, 0, 0, 6, 0⟩) := by
  obtain ⟨hpark, hfeat, hqueue, -, hturn⟩ := hready
  show execAgdrop a s = _
  simp only [execAgdrop, scalarRun_free s _ hpark, needs_ok hfeat, lanesRetired_empty s 0 hqueue, atClearingS_ok hturn, bind_ok]
  split <;> rfl

end

/-- Settles O17: AGDECL by what stands against its descriptor, AGDROP by whether its handle stands. -/
theorem regionsAreDeclaredAndDropped : Obligations.RegionsAreDeclaredAndDropped := by
  refine ⟨fun d a s t desc hready hend hdesc => ?agdecl, fun a s hready => ?agdrop⟩
  case agdecl =>
    have hdesc : DescriptorRead s (s.S a) t desc := hdesc
    have hread := hdesc.reads hend
    have hexec := exec_agdecl hready d hend hdesc.issues
    refine ⟨fun hstatus => ?fails, fun h hstatus hpresent hfree hmoves => ?declares, fun h hstatus hpresent hfree hmoves => ?moves⟩
    case fails =>
      rw [hexec, agdeclBody_status hread hstatus]
      exact finish_aggDone rfl d 0 _
    case declares =>
      obtain ⟨hwarp, nodes, hctx⟩ := declareRegion_frame t desc t.team.core h
      obtain ⟨u, hu, hspc, hwrote, hag, huctx, -⟩ := finish_aggDone hwarp d h 0
      refine ⟨u, { t.describe desc h with nodes := nodes }, ?_, hspc, hwrote, hag, ?_, rfl, rfl, rfl, rfl, ?_⟩
      · rw [hexec, agdeclBody_declares hread hstatus hpresent hfree hmoves, hu]
      · rw [huctx, hctx]
      · rw [huctx, hctx]
        rfl
    case moves =>
      obtain ⟨hwarp, hregions, hdev⟩ := migrateUp_frame (t.aggMoves desc) t
      obtain ⟨u, hu, hspc, hstalled, hpages, huctx, hudev, hS⟩ := finish_onPages hwarp
      refine ⟨u, ?_, hspc, hstalled, hpages, ?_, hudev.trans hdev, hS⟩
      · rw [hexec, agdeclBody_moves hread hstatus hpresent hfree hmoves, hu]
      · rw [huctx, hregions]
  case agdrop =>
    have hexec := exec_agdrop (a := a) hready
    refine ⟨fun ⟨g, hg, hhandle⟩ => ?stands, fun hnone => ?unknown⟩
    case stands =>
      have hany : s.ctx.regions.any (fun g => g.handle == (s.S a).toNat) = true :=
        List.any_eq_true.mpr ⟨g, hg, beq_iff_eq.mpr hhandle⟩
      have hfound : (s.ctx.regions.find? (fun g => g.handle == (s.S a).toNat)).isSome = true :=
        List.find?_isSome.mpr ⟨g, hg, beq_iff_eq.mpr hhandle⟩
      obtain ⟨k, hk⟩ := Option.isSome_iff_exists.mp hfound
      obtain ⟨hspc, hs, hctx⟩ := dropRegion_front hk
      rw [if_pos hany] at hexec
      refine ⟨_, hexec, ?_, fun r => (S_retire _ 1 r).trans (S_of_warp hs r), ?_, fun g' hg' => ?_⟩
      · rw [retire_spc, hspc]
      · rw [State.retire, State.retireTo_ctx, hctx]
      · obtain rfl := Option.some.inj (hk.symm.trans hg')
        rw [State.retire, State.retireTo_ctx, hctx]
        rfl
    case unknown =>
      have hany : ¬ s.ctx.regions.any (fun g => g.handle == (s.S a).toNat) = true := by
        rw [Bool.not_eq_true, List.any_eq_false]
        exact fun g hg => by simpa using hnone g hg
      rw [hexec, if_neg hany]

end Sys2Proof.Machine
end

section
/-!
PROOFS. TASK and TWAIT, and the report of a failed task (13:R238, R241, R259, R260).
-/

namespace Sys2Proof.Machine

open Sys2Proof

/-! ### A record joins the ring (13:R238) -/

/-- Of the team, joining the ring writes the ring, the next number and the formats of its weight sets. -/
theorem enqueueTask_team (s : State) (r : TaskRec) : (s.enqueueTask r).team.ring = s.team.ring ++ [r] ∧
    (s.enqueueTask r).team.taskSeq = s.team.taskSeq + 1 ∧ (s.enqueueTask r).team.scratch = s.team.scratch := by
  unfold State.enqueueTask
  extract_lets fmts team u v
  have hv : v.team = u.team := by
    unfold v
    split <;> rfl
  split <;> simp [hv, u, team]

/-- Outside the team it writes the communications of the warp and the messages under way. -/
theorem enqueueTask_frame (s : State) (r : TaskRec) : (s.enqueueTask r).dev = s.dev ∧ (s.enqueueTask r).warp.s = s.warp.s ∧
    (s.enqueueTask r).warp.spc = s.warp.spc := by
  unfold State.enqueueTask
  extract_lets fmts team u v
  have hv : v.dev = s.dev ∧ v.warp.s = s.warp.s ∧ v.warp.spc = s.warp.spc := by
    unfold v
    split <;> exact ⟨rfl, rfl, rfl⟩
  split <;> exact hv

/-! ### The instructions -/

/-- A pending report is a trap with the number, the kind and the reason of its task as detail (13:R260). -/
theorem takeReport_some {s : State} {r : Report} (h : s.warp.report = some r) : s.takeReport =
    .trap { s with warp := { s.warp with report := none } }
      ⟨0x12, 0, r.addr, BitVec.ofNat 64 (r.seq.toNat * 65536 + r.kind.toNat * 256 + r.reason), r.ticket⟩ := by
  have hkind : r.kind.toNat % 256 = r.kind.toNat := Nat.mod_eq_of_lt r.kind.isLt
  simp only [State.takeReport, h, taskDetail, hkind]
  rfl

/-- Whatever stands behind a pending report does not happen (13:R259). -/
theorem finish_of_report {s : State} {r : Report} (hreport : s.warp.report = some r) (rest : State → Unit → Res Unit) :
    finish (s.takeReport.bind rest) = .next (({ s with warp := { s.warp with report := none } }).takeTrap false false
       ⟨0x12, 0, r.addr, BitVec.ofNat 64 (r.seq.toNat * 65536 + r.kind.toNat * 256 + r.reason), r.ticket⟩) := by
  rw [takeReport_some hreport, bind_trap, finish_trap]

section
variable {s : State} (hpark : s.warp.parkS = none)
include hpark

/-- With no report, and a record that nothing speaks against, it is one record more in the ring. -/
theorem exec_task_joins {a : SReg} (hgroup : ¬ (a = 0 ∨ 28 < a.toNat)) (hqueue : s.warp.queue = []) (hreport : s.warp.report = none)
    (hroom : s.team.ring.length < Config.ringMax)
    (hreason : (s.recordAt a).reasonAgainst s.ctx.feat s.scrsize (s.team.loadFmt (s.recordAt a).wsMma) = none)
    (hinside : (s.recordAt a).beyond s.scrsize (((s.team.loadFmt (s.recordAt a).wsMma).map BitVec.toNat).getD 0) = none) :
    exec (.task a) s = .next (s.enqueueTask (s.recordAt a)).retire := by
  show execTask a s = _
  rw [execTask, if_neg hgroup, scalarRun_free s _ hpark, lanesRetired_empty s 0 hqueue, bind_ok, takeReport_none s hreport, bind_ok]
  simp only [hreason, hinside, if_neg (Nat.not_le.mpr hroom), finish_ok]

theorem exec_twait (k : BitVec 16) : exec (.twait k) s = finish (s.takeReport.bind (fun s _ =>
    if s.team.ring.length ≤ k.toNat then .ok s () else .wait s 10)) := by
  rw [show exec (.twait k) s = execTwait k s from rfl, execTwait, scalarRun_free s _ hpark]

end

/-- The register groups that TASK takes (13:R238). -/
theorem taskGroup_ok {a : SReg} (hlo : 1 ≤ a.toNat) (hhi : a.toNat ≤ 28) : ¬ (a = 0 ∨ 28 < a.toNat) := by
  rintro (rfl | h)
  · exact absurd hlo (by decide)
  · omega

/-- Settles O16: TASK and TWAIT are a report and then their checks; every instruction that takes a report takes it first. -/
theorem tasksJoinTheRingAndReport : Obligations.TasksJoinTheRingAndReport := by
  refine ⟨fun a k s hpark hreport => ⟨fun hlo hhi hqueue hroom hreason hinside => ?task, fun hfew => ?twait, fun hmany => ?twaitWaits⟩,
    fun i r s hpark hreport hqueue hi => ?report⟩
  case task =>
    obtain ⟨hjoined, hseq, hscratch⟩ := enqueueTask_team s (s.recordAt a)
    obtain ⟨hdev, hregs, hspc⟩ := enqueueTask_frame s (s.recordAt a)
    exact ⟨_, s.recordAt a, exec_task_joins hpark (taskGroup_ok hlo hhi) hqueue hreport hroom hreason hinside,
      congrArg (· + 4) hspc, hjoined, rfl, rfl, rfl, rfl, rfl, rfl, rfl, hseq, hdev, hscratch,
      fun q => (S_retire _ 1 q).trans (S_of_warp hregs q)⟩
  case twait =>
    refine ⟨s.retire, ?_, scalarOnly_retireTo s _ 1, retire_spc s 1, fun q => S_retire s 1 q⟩
    rw [exec_twait hpark, takeReport_none s hreport, bind_ok, if_pos hfew, finish_ok]
  case twaitWaits =>
    rw [exec_twait hpark, takeReport_none s hreport, bind_ok, if_neg (Nat.not_le.mpr hmany), finish_wait]
  case report =>
    obtain ⟨a, rfl, hlo, hhi⟩ | ⟨k, rfl⟩ | ⟨sc, rfl⟩ | ⟨sc, rfl⟩ | ⟨w, sc, a, b, rfl⟩ | rfl := hi
    · show execTask a s = _
      rw [execTask, if_neg (taskGroup_ok hlo hhi), scalarRun_free s _ hpark, lanesRetired_empty s 0 hqueue, bind_ok,
        finish_of_report hreport]
    · rw [exec_twait hpark, finish_of_report hreport]
    · rw [exec_phaseEnd sc hpark, finish_of_report hreport]
    · rw [exec_phaseFull sc hpark, finish_of_report hreport]
    · show execStrel w sc a b s = _
      rw [execStrel, scalarRun_free s _ hpark, finish_of_report hreport]
    · show execExit s = _
      rw [execExit, scalarRun_free s _ hpark, lanesRetired_empty s 0 hqueue, bind_ok, finish_of_report hreport]

end Sys2Proof.Machine
end

section
/-!
PROOFS. The steps of a task (13:R239, R257, R261), and the tasks that write global memory (13:R252 to R255; 22:R361 to R364): one
that may go on plans its writes, and one that has planned them performs them.
-/

namespace Sys2Proof.Machine

open Sys2Proof

/-! ### A task that begins -/

/-- The step of a record that may go on is its body, on the state in which the record has issued. -/
theorem stepTask_ready {s : State} {t : Team} {c : Context} {r : TaskRec} {kind : Nat} (h : Claims.TaskReady s t c r kind)
    (body : Context → Team → TaskRec → State → TStep Plan) : s.stepTask t.key r.seq kind body =
      .next (State.afterPart (body c t r (Claims.issue s t r)) t r (fun u p => u.startPlan t r p)) := by
  obtain ⟨hteam, hring, hctx, hkind, hfatal, hout, hreads, hparks, -, hmay, hclear⟩ := h
  have hopen : (t.det && s.clearingOf t.key.launch) = false := by
    rcases hclear with h | h <;> simp [h]
  have hissues : (!r.issued && !s.taskMay t r) = false := by
    rcases hmay with h | h <;> simp [h]
  simp only [State.stepTask, hteam, hring, hctx, hkind, hfatal, hopen, hissues, hout, hreads, hparks, ne_eq, not_true, if_false,
    Bool.false_eq_true, Option.isNone_none, Bool.and_true, List.isEmpty_nil, Bool.not_true]
  rfl

/-- A body that has found what there is to write. -/
theorem stepTask_toWrite {s u : State} {t : Team} {c : Context} {r : TaskRec} {kind : Nat} {ws : List TaskWrite}
    {body : Context → Team → TaskRec → State → TStep Plan} (h : Claims.TaskReady s t c r kind)
    (hbody : body c t r (Claims.issue s t r) = .ok u ⟨[], ws⟩) :
    s.stepTask t.key r.seq kind body = .next (Claims.ToWrite u t r ws) := by
  rw [stepTask_ready h, hbody]
  rfl

/-! ### The plans of the tasks that write global memory (13:R252 to R255) -/

section
variable {s u : State} {t : Team} {c : Context} {r : TaskRec} {sh : Shape} (hshape : s.taskShape c t r = .ok u sh)
include hshape

theorem drainBody_plan {v : State} {f : FFmt} (hbox : boxOutside r sh = false) (hfmt : floatFmt sh.fmt = some f)
    (hescrow : u.escrowFor t r sh = .ok v ()) (hacc : t.accBad r.accRanges.1 = false) :
    drainBody c t r s = .ok v ⟨[], (boxRows r sh).flatMap (drainRow t r sh f)⟩ := by
  simp [drainBody, hshape, TStep.bind, hbox, hfmt, hescrow, hacc]

theorem copyoutBody_plan {v : State} (hlayout : layoutBad r sh = false) (hbox : boxOutside r sh = false)
    (hescrow : u.escrowFor t r sh = .ok v ()) (hsound : t.anyScratchBad (copyoutPlan t r sh).2 = false) :
    copyoutBody c t r s = .ok v ⟨[], (copyoutPlan t r sh).1⟩ := by
  simp [copyoutBody, hshape, TStep.bind, hlayout, hbox, hescrow, hsound]

theorem gatherBody_scatter (hlayout : layoutBad r sh = false)
    (hinside : sh.clip = true ∨ (sh.box 0 ≤ sh.dim 0 ∧ ∀ j < r.cnt, (readW t.scratch (r.ioff + 4 * j)).toNat < sh.dim 1))
    (hdir : r.dir = true) (hindex : t.scratchBad r.ioff (4 * r.cnt) = false)
    (hsound : t.anyScratchBad (((List.range r.cnt).map (gatherRow r sh t.scratch)).map
      (fun row => (r.rowAt row.row, r.rowAt row.row + sh.bytes row.count))) = false) :
    gatherBody c t r s = .ok u ⟨[], scatterWrites t r sh ((List.range r.cnt).map (gatherRow r sh t.scratch))⟩ := by
  have hbox : (!sh.clip && decide (sh.dim 0 < sh.box 0)) = false := by
    rcases hinside with h | ⟨h, -⟩ <;> simp [h]
  have hrows : (!sh.clip && (List.range r.cnt).any (fun j =>
      decide (sh.dim 1 ≤ (readW t.scratch (r.ioff + 4 * j)).toNat))) = false := by
    rcases hinside with h | ⟨-, h⟩
    · simp [h]
    · simpa using fun _ => h
  simp only [gatherBody, hshape, TStep.bind, hlayout, hbox, hindex, hrows, hdir, hsound, if_true, if_false, Bool.false_eq_true]

theorem fillBody_plan (hdir : r.dir = true) (hbox : boxOutside r sh = false) :
    fillBody c t r s = .ok u ⟨[], (boxRows r sh).flatMap (fun row =>
      runWrites false row.addr ((List.replicate row.count (fillElem r sh)).flatten))⟩ := by
  simp [fillBody, hshape, TStep.bind, hdir, hbox]

end

/-! ### A task that has found its writes -/

section
variable {s : State} {t : Team} {c : Context} {r : TaskRec} {out : List TaskWrite} {kind : Nat}
  {body : Context → Team → TaskRec → State → TStep Plan}
  (hteam : s.teamOf t.key = some t) (hring : t.ring.find? (fun x => x.seq == r.seq) = some r) (hctx : s.ctxOf t.ctx = some c)
  (hkind : r.kind = kind) (hfatal : r.fatal = none) (hissued : r.issued = true) (hout : r.out = some out)
include hteam hring hctx hkind hfatal hissued hout

/-- Under DET it waits for the clearing (13:R261). -/
theorem stepTask_det (hrun : t.status = .running) (hdet : t.det = true) :
    s.stepTask t.key r.seq kind body = .next { s with again := .held } := by
  simp [State.stepTask, hteam, hring, hctx, hkind, hfatal, hissued, hout, hrun, hdet, State.comeBack]

theorem stepTask_flush (hdet : t.det = false) : s.stepTask t.key r.seq kind body = .next (s.flushTask t r c out) := by
  simp [State.stepTask, hteam, hring, hctx, hkind, hfatal, hissued, hout, hdet]

end

/-- All its writes are performed. -/
theorem flushTask_done {s u : State} {t : Team} {c : Context} {r : TaskRec} {out : List TaskWrite}
    (h : s.taskWrites c t r t.place out = .ok u []) : s.flushTask t r c out = u.retireTask t.key r.seq := by
  rw [State.flushTask, h]
  rfl

/-- Some are left, those of pages that are missing (22:R364). -/
theorem flushTask_left {s u : State} {t : Team} {c : Context} {r : TaskRec} {out left : List TaskWrite}
    (h : s.taskWrites c t r t.place out = .ok u left) (hleft : left ≠ []) : s.flushTask t r c out =
      { u.onTask t.key r.seq (fun x => { x with out := some left }) with again := .held } := by
  have hne : left.isEmpty = false := by simpa using hleft
  rw [State.flushTask, h, State.afterPart]
  simp only [hne, Bool.false_eq_true, if_false]
  rfl

theorem retireTask_dev (s : State) (k : TeamKey) (seq : BitVec 16) : (s.retireTask k seq).dev = s.dev := by
  unfold State.retireTask
  split <;> rfl

/-! ### One write in one line (22:R362) -/

/-- Bytes with their places, from `o` on. -/
def placed (o : Nat) (bs : List Byte) : List (Nat × Byte) := (List.range bs.length).zipWith (fun k b => (o + k, b)) bs

theorem placed_cons (o : Nat) (b : Byte) (bs : List Byte) : placed o (b :: bs) = (o, b) :: placed (o + 1) bs := by
  have hplace : (fun k (x : Byte) => (o + (k + 1), x)) = fun k x => (o + 1 + k, x) := by
    funext k x
    rw [Nat.add_assoc, Nat.add_comm 1 k]
  simp [placed, List.range_succ_eq_map, List.zipWith_map_left, hplace]

/-- Bytes that stand one after another are one run. -/
theorem runsOf_placed (o : Nat) {bs : List Byte} (h : bs ≠ []) : runsOf (placed o bs) = [(o, bs)] := by
  induction bs generalizing o with
  | nil => exact absurd rfl h
  | cons b rest ih =>
    rw [placed_cons]
    cases rest with
    | nil => rfl
    | cons x xs => simp [runsOf, ih (o + 1) (List.cons_ne_nil x xs)]

theorem mem_placed {o : Nat} {bs : List Byte} {x : Nat × Byte} : x ∈ placed o bs ↔ o ≤ x.1 ∧ bs[x.1 - o]? = some x.2 := by
  induction bs generalizing o with
  | nil => simp [placed]
  | cons b rest ih =>
    obtain ⟨k, y⟩ := x
    rw [placed_cons, List.mem_cons, ih]
    rcases Nat.lt_trichotomy k o with hlt | rfl | hgt
    · have hne : k ≠ o := by omega
      have hnot : ¬ o + 1 ≤ k := by omega
      simp [hne, hnot, Nat.not_le.mpr hlt]
    · simp [eq_comm]
    · obtain ⟨j, rfl⟩ : ∃ j, k = o + 1 + j := ⟨k - (o + 1), by omega⟩
      have hne : o + 1 + j ≠ o := by omega
      have hsub : o + 1 + j - o = j + 1 := by omega
      have hle : o ≤ o + 1 + j := by omega
      simp [hne, hsub, hle]

/-- A place holds one byte, from whichever end it is looked for. -/
theorem find_placed (o : Nat) (bs : List Byte) (k : Nat) :
    (placed o bs).reverse.find? (fun x => x.1 == k) = if o ≤ k then bs[k - o]?.map (fun b => (k, b)) else none := by
  cases hfind : (placed o bs).reverse.find? (fun x => x.1 == k) with
  | some x =>
    obtain ⟨k', b⟩ := x
    obtain rfl : k' = k := by simpa using List.find?_some hfind
    obtain ⟨hle, hbyte⟩ := mem_placed.mp (List.mem_reverse.mp (List.mem_of_find?_eq_some hfind))
    simp [hle, hbyte]
  | none =>
    symm
    rw [ite_eq_right_iff]
    intro hle
    rw [Option.map_eq_none_iff, ← Option.not_isSome_iff_eq_none, Option.isSome_iff_exists]
    rintro ⟨b, hbyte⟩
    have hmem : (k, b) ∈ (placed o bs).reverse := List.mem_reverse.mpr (mem_placed.mpr ⟨hle, hbyte⟩)
    exact absurd (beq_self_eq_true k) (List.find?_eq_none.mp hfind _ hmem)

/-- The bytes that a list has, each under its place. -/
theorem filterMap_placed (o : Nat) (bs : List Byte) (m : Nat) :
    (List.range (bs.length + m)).filterMap (fun j => bs[j]?.map (fun b => (o + j, b))) = placed o bs := by
  induction bs generalizing o with
  | nil => simp [placed]
  | cons b rest ih =>
    have hlen : (b :: rest).length + m = rest.length + m + 1 := by
      rw [List.length_cons]
      omega
    have hplace : (fun j => (b :: rest)[j]?.map (fun x => (o + j, x))) ∘ Nat.succ =
        fun j => rest[j]?.map (fun x => (o + 1 + j, x)) := by
      funext j
      have hnext : o + (j + 1) = o + 1 + j := by omega
      simp [hnext]
    rw [hlen, List.range_succ_eq_map, placed_cons, List.filterMap_cons, List.filterMap_map, hplace, ih]
    rfl

/-- The line of one write holds its bytes, in order. -/
theorem lineOf_single {w : TaskWrite} (h : w.va % 128 + w.bytes.length ≤ 128) : lineOf [w] = placed (w.va % 128) w.bytes := by
  obtain ⟨m, hm⟩ : ∃ m, 128 = w.va % 128 + (w.bytes.length + m) := ⟨128 - (w.va % 128 + w.bytes.length), by omega⟩
  have hcells : [w].flatMap (fun w => (List.range w.bytes.length).zipWith (fun k b => (w.va % 128 + k, b)) w.bytes) =
      placed (w.va % 128) w.bytes := by
    rw [List.flatMap_singleton, placed]
  have hbefore : (List.range (w.va % 128)).filterMap (fun k => if w.va % 128 ≤ k then w.bytes[k - w.va % 128]?.map (fun b => (k, b))
      else none) = [] := by
    rw [List.filterMap_eq_nil_iff]
    exact fun k hk => if_neg (Nat.not_le.mpr (List.mem_range.mp hk))
  have hfrom : (fun k => if w.va % 128 ≤ k then w.bytes[k - w.va % 128]?.map (fun b => (k, b)) else none) ∘ (w.va % 128 + ·) =
      fun j => w.bytes[j]?.map (fun b => (w.va % 128 + j, b)) := by
    funext j
    simp
  have hrange : List.range 128 = List.range (w.va % 128) ++ (List.range (w.bytes.length + m)).map (w.va % 128 + ·) := by
    rw [← List.range_add, ← hm]
  simp only [lineOf, hcells, find_placed]
  rw [hrange, List.filterMap_append, hbefore, List.filterMap_map, hfrom, filterMap_placed, List.nil_append]

theorem phys_add_of_line {line k : Nat} (p : Page) (hline : line % 128 = 0) {o : Nat} (h : o + k < 128) :
    p.phys (line + (o + k)) = p.phys (line + o) + k := by
  unfold Page.phys
  omega

/-- The bytes of one write at its page. -/
theorem foldl_runs_wrote {w : TaskWrite} (v : State) (cn line : Nat) (p : Page) (h : w.va % 128 + w.bytes.length ≤ 128) :
    WroteOnPage v ((runsOf (lineOf [w])).foldl (fun s x => s.homeWrite cn none p (line + x.1) x.2) v) p
      (p.phys (line + w.va % 128)) w.bytes := by
  rw [lineOf_single h]
  by_cases hempty : w.bytes = []
  · rw [hempty]
    exact fun _ _ => rfl
  · rw [runsOf_placed _ hempty]
    exact homeWrite_wrote v cn none p _ w.bytes

section
variable {s v : State} {c : Context} {w : TaskWrite} {ia : Nat} {place : Nat × Nat} {p : Page}
  (hadd : w.add = false) (hescrow : w.escrow = false) (hap : inAperture (BitVec.ofNat 64 w.va) = false)
  (hcheck : check c (BitVec.ofNat 64 w.va) .w = .ok ia) (hpage : missingKind s.dev c ia = none)
  (hverdict : writeVerdict s.dev c (ia / 128 * 128) 0 = none) (hwhole : splitsElement c (ia / 128 * 128) (lineOf [w]) = none)
  (hadmit : s.admitNow c place.1 place.2 true (ia / 128 * 128) = .ok v p)
include hadd hescrow hap hcheck hpage hverdict hwhole hadmit

/-- A write that nothing refuses is performed at its home. -/
theorem writeRequest_single (owner : WarpKey) : s.writeRequest c place owner [w] =
    .ok ((runsOf (lineOf [w])).foldl (fun s x => s.homeWrite c.num none p (ia / 128 * 128 + x.1) x.2) v) := by
  have htarget : s.target c false w.va = .at ia := by
    simp [State.target, hap, hcheck, hpage, hverdict]
  simp [State.writeRequest, hadd, hescrow, State.writeLine, htarget, hwhole, hadmit]

theorem taskWrites_single {t : Team} {r : TaskRec} (hparked : s.pageParked c t r.seq .w w.va = false) :
    s.taskWrites c t r place [w] =
      .ok ((runsOf (lineOf [w])).foldl (fun s x => s.homeWrite c.num none p (ia / 128 * 128 + x.1) x.2) v) [] := by
  simp [State.taskWrites, groupOn, State.writeRequests, hparked,
    writeRequest_single hadd hescrow hap hcheck hpage hverdict hwhole hadmit]

end

/-- A record that is not parked has no parked page. -/
theorem pageParked_of_parks {s : State} {t : Team} {r : TaskRec} (hteam : s.teamOf t.key = some t)
    (hring : t.ring.find? (fun x => x.seq == r.seq) = some r) (hparks : r.parks = []) (c : Context) (p : Perm) (va : Nat) :
    s.pageParked c t r.seq p va = false := by
  simp [State.pageParked, State.recordOf, hteam, hring, hparks]

/-! ### The statement -/

/-- The tasks that write global memory. -/
theorem exec_storing {s : State} {i : Instr} {k : TeamKey} {seq : BitVec 16} {kind : Nat}
    (h : kind = 4 ∧ i = .drain k seq ∨ kind = 6 ∧ i = .copyout k seq ∨ kind = 7 ∧ i = .gather k seq ∨ kind = 8 ∧ i = .fill k seq) :
    ∃ body, exec i s = s.stepTask k seq kind body := by
  obtain ⟨rfl, rfl⟩ | ⟨rfl, rfl⟩ | ⟨rfl, rfl⟩ | ⟨rfl, rfl⟩ := h
  · exact ⟨drainBody, rfl⟩
  · exact ⟨copyoutBody, rfl⟩
  · exact ⟨gatherBody, rfl⟩
  · exact ⟨fillBody, rfl⟩

/-- Settles O52: each body finds its writes, and a task that has found them performs them or, under DET, waits. -/
theorem tasksMoveTensorsToMemory : Obligations.TasksMoveTensorsToMemory := by
  intro t c r s
  refine ⟨fun sh f u v hready hshape hbox hfmt hescrow hacc => ?drain, fun sh u v hready hshape hlayout hbox hescrow hsound => ?copyout,
    fun sh u hready hshape hlayout hinside hdir hindex hsound => ?gather, fun sh u hready hdir hshape hbox => ?fill,
    fun i out hi hteam hring hctx hfatal hissued hout hrun => ?performed⟩
  case drain => exact stepTask_toWrite hready (drainBody_plan hshape hbox hfmt hescrow hacc)
  case copyout =>
    refine (stepTask_toWrite hready (copyoutBody_plan hshape hlayout hbox hescrow hsound)).trans ?_
    rw [copyoutPlan]
    split <;> rfl
  case gather =>
    refine (stepTask_toWrite hready (gatherBody_scatter hshape hlayout hinside hdir hindex hsound)).trans ?_
    rw [scatterWrites, List.flatMap_map]
    rfl
  case fill => exact stepTask_toWrite hready (fillBody_plan hshape hdir hbox)
  case performed =>
    obtain ⟨body, hexec⟩ := exec_storing (s := s) hi
    have hflush (hdet : t.det = false) : exec i s = .next (s.flushTask t r c out) :=
      hexec.trans (stepTask_flush hteam hring hctx rfl hfatal hissued hout hdet)
    refine ⟨fun hdet => hexec.trans (stepTask_det hteam hring hctx rfl hfatal hissued hout hrun hdet), fun u hdet hwrites => ?done,
      fun u left hdet hwrites hleft => ?left,
      fun w ia line v p hdet hone hadd hescrow hparks hap hfits hcheck hpage hline hverdict hwhole hadmit => ?one⟩
    case done => rw [hflush hdet, flushTask_done hwrites]
    case left => rw [hflush hdet, flushTask_left hwrites hleft]
    case one =>
      subst hone hline
      have hwrites := taskWrites_single hadd hescrow hap hcheck hpage hverdict hwhole hadmit
        (pageParked_of_parks hteam hring hparks c .w w.va)
      refine ⟨_, (hflush hdet).trans (congrArg _ (flushTask_done hwrites)), ?_⟩
      obtain ⟨hbytes, hothers⟩ := ((foldl_runs_wrote v c.num (ia / 128 * 128) p hfits).congr
        (congrArg Device.mem (retireTask_dev _ t.key r.seq))).bytes
      have hplace (k : Nat) (hk : k < w.bytes.length) :
          p.phys (ia / 128 * 128 + (w.va % 128 + k)) = p.phys (ia / 128 * 128 + w.va % 128) + k :=
        phys_add_of_line p (by omega) (by omega)
      refine ⟨fun k hk hout => ?_, fun a ha hout => hothers a ?_ hout⟩
      · rw [hplace k hk] at hout ⊢
        exact hbytes k hk hout
      · by_contra hin
        have hk : a - p.phys (ia / 128 * 128 + w.va % 128) < w.bytes.length := by omega
        exact ha _ hk (by rw [hplace _ hk]; omega)

end Sys2Proof.Machine
end

section
/-!
PROOFS. The tasks of the arrays: the statement about them fails in a state that lists the key of a team twice (13:R247; 22:R357).
-/

namespace Sys2Proof.Machine

open Sys2Proof

/-- A WLOAD of one column of FP16 weights into handle 0, which takes one granule. -/
def oneColumnLoad : TaskRec where
  seq := 0
  warp := 0
  dseed := 0
  after := 0
  t0 := 0x3001
  t1 := 0
  t2 := 0
  t3 := 0
  issued := false
  shape := []
  out := none
  reads := none
  parks := []
  fatal := none
  wait := none

/-- A running team with this record in its ring. Its handles 1 to 8 hold sets of 48 columns, 192 granules in either array. -/
def loadedTeam : Team :=
  { Team.absent with
    key := ⟨1, 0⟩
    status := .running
    ring := [oneColumnLoad]
    wsets := (List.range 8).map (fun n => (n + 1, ⟨3, 0, false, 48, [], [], n % 2, false⟩)) }

/-- The team in front, and under its key a second entry that holds no set. -/
def doubledState : State :=
  { State.reset with team := loadedTeam, teams := [{ loadedTeam with ring := [], wsets := [] }] }

theorem taskReady_doubledState : Claims.TaskReady doubledState loadedTeam (Context.blank 0) oneColumnLoad 1 :=
  ⟨rfl, rfl, rfl, by decide, rfl, rfl, rfl, rfl, rfl, .inr (by decide), .inl rfl⟩

/-- The sets of the team leave room for the set of the record. -/
theorem room_doubledState : doubledState.granulesUsed loadedTeam.core 0 loadedTeam.key oneColumnLoad.wsLoad +
    Claims.setGranules oneColumnLoad.fmt oneColumnLoad.ncols oneColumnLoad.planes ≤ 384 := by decide

/-- When the record has issued, the team stands under both entries of its key: its sets count twice, and no array has room. -/
theorem arrayFor_issued : (Claims.issue doubledState loadedTeam oneColumnLoad).arrayFor loadedTeam oneColumnLoad = none := by decide

/-- So the WLOAD comes back, with its record still in the ring. -/
theorem exec_oneColumnLoad : exec (.wload loadedTeam.key oneColumnLoad.seq) doubledState =
    .next (Claims.issue doubledState loadedTeam oneColumnLoad).comeBack := by
  have hlater : wloadBody (Context.blank 0) loadedTeam oneColumnLoad (Claims.issue doubledState loadedTeam oneColumnLoad) =
      .later (Claims.issue doubledState loadedTeam oneColumnLoad) := by
    simp only [wloadBody, arrayFor_issued]
  refine (stepTask_ready taskReady_doubledState wloadBody).trans ?_
  rw [hlater]
  rfl

/-- Refutes O51: it speaks of every state, and one may list a team's key twice. Room for the set is asked for before the record
issues, but issuing puts the team under both entries, so that its sets count twice; the WLOAD then waits and does not retire. -/
theorem not_tasksFillWeightsAndAccumulators : ¬ Obligations.TasksFillWeightsAndAccumulators := by
  intro h
  obtain ⟨hload, -⟩ := h loadedTeam (Context.blank 0) oneColumnLoad doubledState
  obtain ⟨u, t', -, hexec, ⟨-, hteam, -, hretired, -⟩, -⟩ :=
    hload taskReady_doubledState (by decide) ⟨0, by decide, room_doubledState⟩
  obtain rfl := Host.Outcome.next.inj (exec_oneColumnLoad.symm.trans hexec)
  have hempty : t'.ring = [] := hretired rfl
  have hring : ((Claims.issue doubledState loadedTeam oneColumnLoad).comeBack.teamOf loadedTeam.key).map (fun t => t.ring.length) =
      some 1 := by decide
  rw [hteam, Option.map_some, hempty] at hring
  exact absurd hring (by decide)

end Sys2Proof.Machine
end
